-- ==== Sys2Proof/Word.lean ====
section
/-! DEFINITION. The word types of the module's registers and the plainest arithmetic on them (R4). -/
namespace Sys2Proof

/-- A register or memory word: 32 bits (R4). -/
abbrev Word := BitVec 32

/-- One byte of a memory, a message or a key. -/
abbrev Byte := BitVec 8

/-- A word from a natural number, wrapped to 32 bits. -/
abbrev w (n : Nat) : Word := BitVec.ofNat 32 n

/-- One bit as a word. -/
abbrev bitWord (b : Bool) : Word := if b then 1#32 else 0#32

/-- Bits `lo + len - 1` down to `lo` of a word, as a number. -/
abbrev field (x : Word) (lo len : Nat) : Nat := (x.toNat >>> lo) % 2 ^ len

/-- A number placed at bit `lo` of a word. -/
abbrev at_ (n lo : Nat) : Word := BitVec.ofNat 32 (n <<< lo)

end Sys2Proof
end

