-- ==== Sys2Proof/Machine/Parts/Sys.lean ====
section
/-! DEFINITION. State of the SYS and FRM blocks: the doubt latch (R22 to R30), the attention generation (R373), the
frame scheduler (R31 to R50), the lane clock and the network clock that the other parts read. -/
namespace Sys2Proof.Machine

/-- The levels of doubt (R21) as the recorder codes them (R327). -/
inductive Severity where
  | note | local_ | module
  deriving DecidableEq, Repr

/-- The flush that a MODULE doubt started and that has not written its marker (R26, R324). -/
inductive FlushKind where
  | none | doubt | powerFail
  deriving DecidableEq, Repr

/-- SYS block: the doubt latch. -/
structure Sys where
  /-- SYS_DOUBT.FIRST_CAUSE: the recorder code of the first cause. -/
  firstCause : BitVec 16
  /-- The cause number of FIRST_CAUSE, kept for the lowest-bit rule of R28. -/
  firstBit : Nat
  /-- SYS_DOUBT.LATCHED. -/
  latched : Bool
  /-- SYS_DOUBT.PLINTH. -/
  plinth : Bool
  /-- SYS_DOUBT.FLUSHED. -/
  flushed : Bool
  /-- Lane cycle at which the marker was written. -/
  flushedCyc : Nat
  /-- SYS_DOUBT_SRC.CAUSE. -/
  cause : BitVec 10
  /-- SYS_DOUBT_FRAME. -/
  doubtFrame : Word
  /-- SYS_DOUBT_PHASE. -/
  doubtPhase : Word
  /-- The lane cycle t_d in which the doubt latched. -/
  doubtCyc : Nat
  /-- The flush in progress. -/
  flush : FlushKind
  /-- Whether t_d fell before the first frame (R26, R324). -/
  doubtBeforeFirst : Bool
  /-- A reset commanded through SYS_RESET waits for the flush to end (R30). -/
  resetCommanded : Bool
  /-- The management core was restarted by R29. -/
  mgmtRestarted : Bool
  /-- Step 4 of R25 is still to be done. -/
  goosePending : Bool
  /-- Start-up ended in plinth mode because the module is RETIRED (R354). -/
  retired : Bool
  /-- Control data whose check fails (R18): register blocks whose CRC fails, by base; registers whose parity fails, by
  host address; staged groups of R47 whose block CRC fails. -/
  badBlocks : List Nat
  badRegs : List Nat
  badStaged : BitVec 5
  deriving DecidableEq, Repr

/-- STATUS rise tracking (R373). -/
structure Attn where
  /-- HL_ATTN_GEN. -/
  agen : Word
  /-- HL_ATTN_ROSE of each session. -/
  rose : Vector (BitVec 16) 4
  /-- STATUS as it stood when it was last compared. -/
  last : BitVec 16
  deriving DecidableEq, Repr

/-- Instructions of the test port (R413), those that IEEE 1149.1 and the BSDL file add by their code. -/
inductive TapInstr where
  | bypass | idcode | samplePreload
  | other (code : Nat)
  deriving DecidableEq, Repr

/-- The test port: the level of TRST_N, low from its pull-down while nothing drives it, and the instruction register. -/
structure Tap where
  trstN : Bool
  ir : TapInstr
  deriving DecidableEq, Repr

/-- Clocks, all counted from the last module reset unless said otherwise. -/
structure Clk where
  /-- Lane cycles since reset (one is 2.5 ns). -/
  cyc : Nat
  /-- Lane cycles of operating time since the last whole second (R321). -/
  opCyc : Nat
  /-- Whole seconds the module has been powered: live OP_SECONDS. -/
  opSec : Nat
  /-- Lane cycles since the last tick: what the TICKPH port counts. -/
  tickph : Nat
  /-- Network time as the time subsystem holds it, in units of 10^-19 s since the PTP epoch. -/
  nt : Nat
  /-- Powered: false after POWER_DOWN until the next MODULE_RESET. -/
  power : Bool
  deriving DecidableEq, Repr

/-- FRM_STATE.STATE. -/
inductive FrmState where
  | starting | running | halted
  deriving DecidableEq, Repr

/-- FRM block. -/
structure Frm where
  /-- FRM_STATE.STATE. -/
  state : FrmState
  /-- FRM_STATE.ACT_RATE, codes 0 to 5. -/
  rate : Nat
  /-- FRM_STATE.ACT_HM1: H - 1. -/
  hm1 : Nat
  /-- The frame number k. -/
  k : Nat
  /-- Ticks issued since start-up (0 before the first tick). -/
  ticks : Nat
  /-- Shadow read by FRM_FRAME_HI. -/
  kShadow : Word
  /-- K0. -/
  k0 : Nat
  /-- Shadow latched by FRM_K0_LO. -/
  k0Shadow : Word
  /-- FRM_USE_LAST. -/
  useLast : Nat
  /-- FRM_USE_MAX. -/
  useMax : Nat
  /-- FRM_EVT. -/
  evt : BitVec 3
  /-- FRM_COMMIT_STS.ARMED with the armed groups and frame. -/
  commitArmed : Bool
  commitGroups : BitVec 5
  commitF : Nat
  /-- FRM_COMMIT_STS.COMMITTED. -/
  committed : Bool
  /-- FRM_COMMIT_STS.LAST_LATE. -/
  lastLate : Bool
  /-- FRM_OVR.LANES. -/
  ovrLanes : BitVec 16
  /-- FRM_OVR.CLASS. -/
  ovrClass : Nat
  /-- FRM_BG. -/
  bgPreempt : Word
  /-- FRM_HOST_EVT, apart from the bits set in the 10 ns step `hostStepAt`, which are in `hostStep`. -/
  hostEvt : Word
  hostStep : Word
  hostStepAt : Nat
  /-- Event-source latches since the last freeze (R39), apart from those of the 10 ns step `evwStepAt`, which are in
  `evwStep`: an assertion in the step of a tick belongs to the next frame (R36). -/
  evwNext : BitVec 128
  evwStep : BitVec 128
  evwStepAt : Nat
  /-- The event word of the frame (R39). -/
  evw : BitVec 128
  /-- Number of heartbeat toggles since start-up. -/
  hbToggles : Nat
  /-- Lane cycle of the last heartbeat toggle. -/
  hbCyc : Nat
  /-- Input assembly of the frame has been signalled complete (R37). -/
  assembled : Bool
  /-- The compute window of the frame has opened. -/
  windowOpen : Bool
  /-- The guard of the frame has been judged. -/
  guardDone : Bool
  /-- Network time at T_k (TTICK), in units of 10^-19 s. -/
  ttick : Nat
  /-- At T_k: time locked, in holdover, holdover limit reached, realigning (R113, R214, R224). -/
  ttFlags : BitVec 4
  /-- smpSynch by the time state at T_k (R198). -/
  sync : Nat
  /-- Words of the MID and of the SLOW output buffer, by position, that the cycle under way has written (R42). -/
  midDone : List Nat
  slowDone : List Nat
  /-- Lane cycle in which the last tick was issued. -/
  tickCyc : Nat
  /-- The image words 0x0118 to 0x011B of the previous frame (bit 51 of the event word). -/
  keyWords : List Word
  deriving DecidableEq, Repr

end Sys2Proof.Machine
end

