-- ==== Sys2Proof/Machine/Parts/Can.lean ====
section
/-! DEFINITION. State of the four CAN FD controllers (R271 to R288). -/
namespace Sys2Proof.Machine

/-- A CAN frame as the images lay it out (R276, R283): word 1 holds ID, IDE, FDF and RTR, word 2 holds DLC, BRS and ESI. -/
structure CanFrame where
  idw : Word
  ctl : Word
  data : Vector Word 16
  deriving DecidableEq, Repr

/-- Codes of R274, 0 to 5. -/
inductive CanState where
  | off | integrating | active | passive | busOff | recovering
  deriving DecidableEq, Repr

/-- Buffer states as mirror word 8 + 2b codes them (R283). -/
inductive TxState where
  | idle | pending | active | done | cancelled | replaced | refused
  deriving DecidableEq, Repr

/-- A transmit buffer (R276 to R280). -/
structure TxBuf where
  state : TxState
  late : Bool
  /-- SEQ of the frame concerned and the last CSEQ judged. -/
  seq : BitVec 8
  cseq : BitVec 8
  /-- Baselines of the previous release. -/
  seqBase : BitVec 8
  cseqBase : BitVec 8
  frame : CanFrame
  /-- A request held behind an ACTIVE frame (R277). -/
  held : Option (BitVec 8 × CanFrame)
  /-- Whether REPLACED was shown at the last release and PENDING follows. -/
  wasReplaced : Bool
  /-- SOF stamp of the last DONE frame. -/
  doneStamp : Word
  deriving DecidableEq, Repr

/-- What a transmission attempt carries. -/
inductive TxWhat where
  | buf (b : Fin 3)
  /-- A reference message with its cycle count. -/
  | reference (count : Nat)
  deriving DecidableEq, Repr

/-- The attempt in progress (R278, R279). -/
structure Attempt where
  what : TxWhat
  /-- Past the commit point. -/
  committed : Bool
  /-- SOF in network time (10^-19 s). -/
  sof : Nat
  /-- Transceiver loop delay measured in this frame, in CAN clocks (R272). -/
  loop : Option Nat
  deriving DecidableEq, Repr

/-- An attempt that a cancel withdrew, with its buffer then: a commit point in the same CAN clock makes the cancel LATE
(R279). -/
structure Withdrawn where
  buf : Fin 3
  attempt : Attempt
  was : TxBuf
  /-- CAN clock of the cancel. -/
  clock : Nat
  deriving DecidableEq, Repr

/-- A received frame waiting in a queue. -/
structure RxFrame where
  frame : CanFrame
  filter : Nat
  stamp : Word
  /-- Lane cycle in which the end of frame was reached, for the cut-off of R36 and R288. -/
  eofCyc : Nat
  deriving DecidableEq, Repr

/-- One controller. -/
structure CanCtl where
  state : CanState
  btErr : Bool
  refLost : Bool
  tec : Nat
  recv : Nat
  evt : BitVec 4
  cnt : Vector Word 8
  bufs : Vector TxBuf 3
  rxq0 : List RxFrame
  rxq1 : List RxFrame
  /-- Frames dropped since the previous tick (OVF of word 2). -/
  ovf0 : Bool
  ovf1 : Bool
  /-- CFG, NBT and DBT as read at module reset (R273). -/
  cfg : Word
  nbt : Word
  dbt : Word
  attempt : Option Attempt
  withdrawn : Option Withdrawn
  /-- What was being sent when the error flag under way began: further errors of ISO 11898-1 count for a transmitter. -/
  errTx : Option TxWhat
  /-- Secondary sample point of the last frame with TDC, in CAN clocks: loop delay plus TDCO (R272). -/
  ssp : Option Nat
  /-- The reference message due, with its cycle count (R284). -/
  refDue : Option Nat
  /-- Cycle count of the next basic cycle; network-time index of the last cycle begun (none before the first). -/
  refCycle : Nat
  lastCycle : Option Nat
  /-- Words 3 to 6: last reference message sent or received, and whether it is new since the previous tick. -/
  refShown : Nat
  refNew : Bool
  refSof : Nat
  /-- Lane cycle in which the last reference message was heard, for R285. -/
  refHeard : Nat
  /-- After t_d: bus monitoring until the frame under way ends (R287). -/
  closing : Bool
  /-- The frame last sent on the bus. -/
  sentFrame : Option CanFrame
  deriving DecidableEq, Repr

/-- CAN block. -/
structure Can where
  ctl : Vector CanCtl 4
  deriving DecidableEq, Repr

end Sys2Proof.Machine
end

