-- ==== Sys2Proof/Machine/Parts/Evr.lean ====
section
/-! DEFINITION. State of the event recorder (R327 to R342). -/
namespace Sys2Proof.Machine

/-- An entry as a source raises it, before the intake stamps it. -/
structure Entry where
  code : BitVec 16
  source : BitVec 8
  sev : Severity
  /-- OFFPWR flag (R329). -/
  offpwr : Bool
  p0 : Word
  p1 : Word
  p2 : Word
  /-- Lane cycle of arrival. -/
  cyc : Nat
  deriving DecidableEq, Repr

/-- An entry that the intake has taken, with the stamps of R331: OP_SECONDS, POWER_CYCLES, FRAME, BOOT. -/
structure Taken where
  entry : Entry
  ops : Word
  pcyc : Word
  frame : Word
  boot : Bool
  deriving DecidableEq, Repr

/-- A record of R327, as eight words. -/
structure Rec where
  words : Vector Word 8
  deriving DecidableEq, Repr

/-- A pending record with the operating time of its intake, in lane cycles. -/
structure Pend where
  record : Rec
  since : Nat
  deriving DecidableEq, Repr

/-- Entries lost for one cause since the last INTAKE_LOST of that cause (R332, R336). -/
structure LostRun where
  count : Nat
  first : BitVec 16
  deriving DecidableEq, Repr

/-- Token bucket of one code class with what it held back in the second under way (R334). -/
structure Bucket where
  tokens : Nat
  held : Nat
  first : BitVec 16
  /-- Operating second in which entries were held back. -/
  sec : Nat
  deriving DecidableEq, Repr

/-- A rate-limited NOTE: its object and code, occurrences since the last one written, and the lane cycle of
that one (R208, R220, R282, R313, R267, R375). -/
structure RateRow where
  obj : Nat
  code : Nat
  since : Nat
  last : Option Nat
  deriving DecidableEq, Repr

/-- EVR block. -/
structure Evr where
  /-- Size code in force; `none` when no ring size has ever been in force (R3, R341). -/
  size : Option (Fin 4)
  /-- The entry the intake is assembling; it holds no place in the queue (R332). -/
  cur : Option Taken
  /-- The intake queue, oldest first, at most 16. -/
  queue : List Entry
  /-- Pending records, oldest first, at most 1,792; the first has number TOTAL. -/
  pending : List Pend
  /-- The queue emptied with losses to report: INTAKE_LOST follows the record being assembled. -/
  lostDue : Bool
  /-- EVR_LOST. -/
  lost : Word
  /-- Lost with the queue full (cause 0). -/
  lostQ : LostRun
  /-- Lost with the buffer full (cause 1). -/
  lostB : LostRun
  /-- EVR_EVT. -/
  evt : BitVec 5
  /-- BASE (R340), kept as a two-copy record. -/
  base : Word
  /-- Token buckets of the sixteen code classes (R334). -/
  buckets : Vector Bucket 16
  /-- The service is writing out all pending records (mode 1, R336). -/
  draining : Bool
  /-- Operating-time index of the last token added (R334). -/
  lastToken : Nat
  deriving DecidableEq, Repr

/-- A session's recorder window (R338, R371). -/
structure EvrWin where
  cursor : Word
  sts : BitVec 5
  words : Vector Word 8
  deriving DecidableEq, Repr

end Sys2Proof.Machine
end

