-- ==== Sys2Proof/Machine/Parts/Hl.lean ====
section
/-! DEFINITION. State of the host link (R360 to R377) and of the sessions. -/
namespace Sys2Proof.Machine

/-- Where a request comes from (R367): the host port or one UDP source. -/
inductive Endpoint where
  | hp
  | udp (ip : Word) (port : BitVec 16)
  deriving DecidableEq, Repr

/-- A reply of R363. -/
structure Reply where
  seq : BitVec 16
  result : BitVec 8
  sid : BitVec 8
  status : BitVec 16
  agen : Word
  len : Nat
  payload : List Byte
  deriving DecidableEq, Repr

/-- A reservation made by HELLO (R368). -/
structure Hello where
  ep : Endpoint
  role : Fin 4
  slot : Fin 64
  challenge : List Byte
  /-- Lane cycle of the HELLO. -/
  since : Nat
  deriving DecidableEq, Repr

/-- An open session (R367, R371). -/
structure Session where
  ep : Endpoint
  role : Fin 4
  /-- The authenticating slot; `none` stands for 0x3F under R369. -/
  slot : Option (Fin 64)
  /-- SEQ of the last executed request, and its stored reply (R364). -/
  lastSeq : Option (BitVec 16)
  lastReply : Option Reply
  /-- Lane cycle of the last executed request. -/
  lastExec : Nat
  /-- The session-held registers, keyed by host address (R371). -/
  regs : List (Nat × Word)
  /-- EVR_CURSOR with its window. -/
  win : EvrWin
  /-- NVS_LAST_WR: count and page. -/
  lastWrCount : Nat
  lastWrPage : Nat
  deriving DecidableEq, Repr

/-- Violation and throttle counts of one endpoint (R375). -/
structure EpStat where
  ep : Endpoint
  /-- The whole second of operating time being counted, and the violations in it. -/
  sec : Nat
  viol : Nat
  /-- Last second of the throttle, if throttled. -/
  throttledTo : Option Nat
  /-- Replies sent in the throttled second under way. -/
  replySec : Nat
  replies : Nat
  deriving DecidableEq, Repr

/-- An answer that a command under way still owes (R347): its endpoint, session and SEQ, the LEN it will carry, and
whether that session is still open. -/
structure Owed where
  ep : Endpoint
  sid : Fin 4
  seq : BitVec 16
  len : Nat
  live : Bool
  deriving DecidableEq, Repr

/-- Where a reply over UDP goes beside its endpoint: the MAC address of the request, and the VLAN tag (R361). -/
structure UdpTo where
  mac : BitVec 48
  tag : Option (BitVec 12 × BitVec 3)
  deriving DecidableEq, Repr

/-- HL block. -/
structure Hl where
  sessions : Vector (Option Session) 4
  hellos : Vector (Option Hello) 4
  /-- HL_EVT. -/
  evt : BitVec 3
  violCnt : Word
  owed : Option Owed
  eps : List EpStat
  /-- The reply last built, with the endpoint it goes to; what the module sends. -/
  lastOut : Option (Endpoint × Reply)
  /-- Where that reply goes, if it goes over UDP. -/
  lastTo : Option UdpTo
  /-- The reply held for fetching on HP (R360). -/
  hpReply : Option Reply
  /-- Bytes driven by the last reply fetch (R360). -/
  hpOut : List Byte
  /-- Transport settings read at module reset (R361). -/
  udpEn : Bool
  udpPair : Bool
  udpPort : BitVec 16
  ip : Word
  /-- The VLAN tag of replies: VID and priority. -/
  vlan : Option (BitVec 12 × BitVec 3)
  /-- The MAC address that each UDP endpoint's last request came from. -/
  macs : List (Endpoint × BitVec 48)
  /-- Answers to ARP and ICMP sent on the station bus since reset (R361). -/
  arpSent : Nat
  icmpSent : Nat
  deriving DecidableEq, Repr

end Sys2Proof.Machine
end

