-- ==== Sys2Proof/Machine/Parts/Tim.lean ====
section
/-! DEFINITION. State of network time, PTP, IRIG-B, PPS and of the backup domain (R210 to R233). -/
namespace Sys2Proof.Machine

/-- TIM_STS.STATE. -/
inductive TimState where
  | freerun | acquiring | locked | holdover
  deriving DecidableEq, Repr

/-- A time source (R211). -/
structure TimSource where
  /-- Consecutive good measurements, up to 3. -/
  good : Nat
  valid : Bool
  /-- Lane cycle of the last good measurement. -/
  lastGood : Nat
  /-- Consecutive outliers (R212). -/
  outliers : Nat
  deriving DecidableEq, Repr

/-- A clock as Announce describes it (R216). -/
structure PtpClock where
  pri1 : Nat
  cls : Nat
  accuracy : Nat
  variance : Nat
  pri2 : Nat
  id : BitVec 64
  steps : Nat
  /-- Lane cycle of the last Announce. -/
  heard : Nat
  deriving DecidableEq, Repr

/-- PTP state of one port (R217, R220). -/
structure PtpPort where
  /-- Best clock announced on the port. -/
  best : Option PtpClock
  /-- Clock identity of its sender. -/
  sender : BitVec 64
  master : Bool
  /-- Lane cycle of the last Announce, and the intervals of Announce and Sync in lane cycles as their messages state them
  (R216). -/
  annAt : Nat
  annInt : Nat
  syncInt : Nat
  /-- The LAN's Sync was missing when the pair switched from it (R217). -/
  syncLost : Bool
  /-- Offset last measured on the port in ns: a PRP pair measures on both LANs (R217). -/
  offset : Int
  /-- Measured peer delay in ns. -/
  pdelay : Int
  /-- Sync waiting for its Follow_Up: sequence number, source, offset so far in ns, lane cycle. -/
  sync : Option (Nat × BitVec 64 × Int × Nat)
  /-- Pdelay response waiting for its follow-up: sequence number, source, round trip in ns, lane cycle. -/
  pd : Option (Nat × BitVec 64 × Int × Nat)
  /-- Lane cycle of the last Sync from the selected master. -/
  lastSync : Nat
  /-- Sequence numbers of the next Sync, Announce and Pdelay_Req sent, with the lane cycle of each sending. -/
  seqTx : Vector Nat 3
  lastTx : Vector Nat 3
  /-- Two-step event messages that arrived here and were forwarded in the ring: whether a Pdelay_Resp, source, sequence
  number, and the time that the matching follow-up message takes (R218). -/
  fwd : List (Bool × BitVec 64 × Nat × Int)
  deriving DecidableEq, Repr

/-- TIM block. -/
structure Tim where
  state : TimState
  src : Nat
  holdLim : Bool
  realign : Bool
  everLocked : Bool
  /-- TAI-UTC offset from PTP, if valid (R210). -/
  ptpUtc : Option Nat
  /-- Lane cycle at which the holdover interval began (R214). -/
  holdStart : Option Nat
  /-- Rate correction in 0.001 ppm. -/
  freq : Int
  /-- The stored rate correction of FREERUN (R212). -/
  stored : Int
  /-- Rate corrections in LOCKED, newest first, with the lane cycles each was in force, and the lane cycle from which the
  present one is (R212: the average over the last 60 s in LOCKED). -/
  lockHist : List (Nat × Int)
  lockSeg : Nat
  offset : Int
  tickErr : Int
  /-- A step in ns to be applied at the next tick (R213). -/
  stepPend : Option Int
  /-- The source in use when it was last lost or changed in LOCKED (R216). -/
  lockSrc : Nat
  /-- The last steps of network time: lane cycle and ns, the newest first. -/
  steps : List (Nat × Int)
  /-- The servo has stepped in this ACQUIRING. -/
  stepped : Bool
  /-- ACQUIRING was entered from HOLDOVER. -/
  fromHold : Bool
  /-- Consecutive measurements within the lock bound (R212). -/
  lockRun : Nat
  /-- The sources PTP, IRIG, PPS. -/
  sources : Vector TimSource 3
  ports : Vector PtpPort 12
  /-- The port whose clock is selected. -/
  slave : Option (Fin 12)
  /-- TIM_CNT_n of each port. -/
  cnt : Vector (Vector Word 8) 12
  irigSts : BitVec 8
  /-- Time of the last IRIG frame in seconds. -/
  irigLast : Option Nat
  /-- Lane cycle of the last reference marker. -/
  irigCyc : Option Nat
  evt : BitVec 7
  /-- Shadow of the seconds (R210). -/
  nowShadow : Nat
  ppsHigh : Bool
  /-- Lane cycle at which the pulse that has begun ends, and the second it marks (R223). -/
  ppsEnd : Nat
  ppsSec : Option Nat
  /-- Network time of the next tick, times the tick rate (R224). -/
  target : Nat
  /-- Second of the last epoch check (R228). -/
  epochSec : Option Nat
  /-- Lane cycles from the end of self-test to the end of start-up (R225). -/
  sinceTest : Nat
  deriving DecidableEq, Repr

/-- A tamper latch (R233). -/
structure Tamper where
  count : Nat
  offpwr : Bool
  latched : Bool
  /-- The previous sample was at the active level. -/
  prev : Bool
  /-- The level last sampled is active. -/
  active : Bool
  /-- The latch has been acted on by the key engine (R355). -/
  acted : Bool
  deriving DecidableEq, Repr

/-- A write to a backup-domain register under way (R232). -/
structure DomWrite where
  reg : Nat
  value : Word
  /-- Crystal tick of the writing. -/
  since : Nat
  deriving DecidableEq, Repr

/-- RTC block: the backup domain. -/
structure Rtc where
  /-- The 48-bit counter. -/
  count : Nat
  /-- Parts of a crystal tick elapsed, in 1/400,000,000 of 32,768ths. -/
  frac : Nat
  /-- Crystal ticks since the domain reset, which shifts do not move: times domain writes and tamper samples. -/
  xtal : Nat
  gen : Nat
  /-- Frozen count and its generation. -/
  shadow : Option (Nat × Nat)
  view : Bool
  test : Bool
  /-- RTC_SHIFT fields and the pending shift. -/
  shiftAmt : Nat
  shiftSub : Bool
  shift : Option Int
  /-- Crystal tick in which the shift, and the alarm, was armed: each acts at a later tick (R230, R231). -/
  shiftAt : Nat
  alarmAt : Nat
  alarmReg : Nat
  alarm : Option Nat
  fire : Nat
  evt : BitVec 5
  tampCfg : BitVec 7
  tamp : Vector Tamper 3
  /-- Crystal tick of the last tamper sample. -/
  tampAt : Nat
  bkp : Vector Word 16
  writes : List DomWrite
  cellLow : Bool
  /-- The alarm fired while main power was absent, still to be reported. -/
  alarmOff : Bool
  /-- The domain has been reset since the last start-up, still to be reported. -/
  lostOff : Bool
  deriving DecidableEq, Repr

end Sys2Proof.Machine
end

