-- ==== Sys2Proof/Machine/Sparse.lean ====
section
/-! DEFINITION. Sparse storage: a list of (key, value) pairs with rising keys that lists no pair equal to the
default. Every memory, register file and window content of the model is held in this one form. -/
namespace Sys2Proof.Machine

/-- The value at key `k`; `d k` where the list names none. -/
def sget {β : Type} (d : Nat → β) : List (Nat × β) → Nat → β
  | [], k => d k
  | (k', v) :: t, k => if k = k' then v else sget d t k

/-- Write `v` at key `k`, keeping the keys rising and listing no default value. -/
def sput {β : Type} [DecidableEq β] (d : Nat → β) (k : Nat) (v : β) : List (Nat × β) → List (Nat × β)
  | [] => if v = d k then [] else [(k, v)]
  | (k', v') :: t =>
    if k < k' then (if v = d k then (k', v') :: t else (k, v) :: (k', v') :: t)
    else if k = k' then (if v = d k then t else (k, v) :: t)
    else (k', v') :: sput d k v t

/-- All keys of the list lie above `lo`, rise strictly, and no value is its key's default. -/
def swfFrom {β : Type} [DecidableEq β] (d : Nat → β) : Nat → List (Nat × β) → Bool
  | _, [] => true
  | lo, (k, v) :: t => decide (lo ≤ k) && decide (v ≠ d k) && swfFrom d (k + 1) t

/-- The canonical form: strictly rising keys, no default value listed. -/
def swf {β : Type} [DecidableEq β] (d : Nat → β) (m : List (Nat × β)) : Bool := swfFrom d 0 m

/-- Remove every pair whose key lies in `lo ≤ k < hi` (those keys read their default again). -/
def sclear {β : Type} (lo hi : Nat) : List (Nat × β) → List (Nat × β)
  | [] => []
  | (k, v) :: t => if lo ≤ k ∧ k < hi then sclear lo hi t else (k, v) :: sclear lo hi t

/-- Write the values `vs` at keys `k, k+1, …`. -/
def sputs {β : Type} [DecidableEq β] (d : Nat → β) (k : Nat) : List β → List (Nat × β) → List (Nat × β)
  | [], m => m
  | v :: vs, m => sputs d (k + 1) vs (sput d k v m)

/-- Read `n` values at keys `k, k+1, …`. -/
def sgets {β : Type} (d : Nat → β) (m : List (Nat × β)) : Nat → Nat → List β
  | _, 0 => []
  | k, n + 1 => sget d m k :: sgets d m (k + 1) n

end Sys2Proof.Machine
end

