-- ==== Sys2Proof/Machine/Parts/Ne.lean ====
section
/-! DEFINITION. State of the network engine (R184 to R209). -/
namespace Sys2Proof.Machine

/-- A pair of ports (R184, R185). -/
structure Pair where
  linkA : Bool
  linkB : Bool
  spdA : Nat
  spdB : Nat
  /-- Mode in force: 0 INDEP, 1 PRP, 2 HSR. -/
  mode : Nat
  /-- Lane cycle at which the own supervision frame last returned on each port (RING_OK). -/
  supA : Option Nat
  supB : Option Nat
  /-- Lane cycle of the last supervision frame sent, and how many were sent. -/
  supSent : Nat
  supCount : Nat
  /-- Duplicate-discard entries, oldest first: source MAC, sequence number, lane cycle (R189). -/
  dups : List (Nat × Nat × Nat)
  /-- Frames forwarded from port A to B and from B to A, kept as `dups` is (R188). -/
  fwdAB : List (Nat × Nat × Nat)
  fwdBA : List (Nat × Nat × Nat)
  /-- The ports' interfaces in force, as read at module reset (IFA, IFB): 0 1000BASE-X, 1 100BASE-FX, 2 SGMII, 3 off;
  and clause 37 auto-negotiation of 1000BASE-X (ANEG). -/
  ifA : Nat
  ifB : Nat
  aneg : Bool
  /-- Sequence number of the next frame sent, for its redundancy tag (R187). -/
  seq : Nat
  deriving DecidableEq, Repr

/-- States of an SV subscription (R196). -/
inductive SvState where
  | off | lost | run
  deriving DecidableEq, Repr

/-- An SV subscription (R193 to R196). -/
structure SvSub where
  state : SvState
  mrun : Nat
  /-- Recorder code of the last drop (status word), and of the last since the stream last entered LOST (R208). -/
  lastDrop : BitVec 16
  lostDrop : BitVec 16
  /-- Status words 1 to 9: accepted, MISSING, LATE, DUPLICATE, JUMP, MALFORMED, OUT_OF_WINDOW, AUTH, REJECT. -/
  cnt : Vector Word 9
  lastSmp : Nat
  /-- Consecutive entries closed with a sample while LOST. -/
  good : Nat
  /-- Absolute count of the last sample written. -/
  lastJ : Option Nat
  /-- First count closed since the stream was enabled. -/
  closedFrom : Option Nat
  /-- Counts written and not yet closed, with the lane cycle at which their sample arrived. -/
  held : List (Nat × Nat)
  deriving DecidableEq, Repr

/-- States of a GOOSE subscription (R203). -/
inductive GsState where
  | off | wait | valid | held | expired
  deriving DecidableEq, Repr

/-- A GOOSE subscription (R200 to R203). -/
structure GsSub where
  state : GsState
  newFlag : Bool
  gap : Bool
  restart : Bool
  test : Bool
  sim : Bool
  ndscom : Bool
  reject : Bool
  mismatch : Bool
  auth : Bool
  st : Word
  sq : Word
  t0 : Word
  t1 : Word
  tal : Nat
  /-- Network time of the last acceptance. -/
  tAcc : Nat
  members : List Word
  /-- Status words 3 to 9: accepted, new states, ANOMALY, EXPIRED, MISMATCH, AUTH, REJECT and DUPLICATE. -/
  cnt : Vector Word 7
  /-- Generation of the block, modulo 256 (R296). -/
  gen : Nat
  /-- The 10 ns step in which the last new state was accepted (R36). -/
  newAt : Nat
  /-- The block as its last generation left it, by offset. -/
  shown : List (Nat × Word)
  deriving DecidableEq, Repr

/-- States of a publication (NE_STS_WIN word 0). -/
inductive PubState where
  | off | run | halted | key
  deriving DecidableEq, Repr

/-- One ASDU of an SV message (R198), and the frame whose release it carries. -/
structure Asdu where
  frame : Nat
  svId : List Byte
  confRev : Word
  smpCnt : Nat
  smpSynch : Nat
  vals : List Word
  qual : List Word
  deriving DecidableEq, Repr

/-- An SV publication (R198). -/
structure SvPub where
  state : PubState
  sent : Word
  lastSmp : Nat
  /-- ASDUs built and not yet sent, oldest first. -/
  asdus : List Asdu
  deriving DecidableEq, Repr

/-- A GOOSE publication (R204, R205). -/
structure GoPub where
  state : PubState
  st : Word
  sq : Word
  sent : Word
  /-- Members last published; `none` before the first message. -/
  last : Option (List Word)
  test : Bool
  /-- Network time of the releasing tick of the present state. -/
  tRel : Nat
  /-- Number of the next retransmission and its due time in ms after `tRel`. -/
  nextN : Nat
  dueMs : Nat
  /-- Current interval in ms. -/
  interval : Nat
  /-- A commit changed its identity: it starts again at the next release (R209). -/
  restart : Bool
  deriving DecidableEq, Repr

/-- One element of a GOOSE allData list, as tagged on the wire (R200). -/
inductive GoVal where
  | boolean (b : Bool)
  | bits (len : Nat) (v : Word)
  | int (v : Int)
  | unsigned (v : Nat)
  | float (v : Word)
  | utc (sec frac : Word)
  | structOpen
  | structClose
  deriving DecidableEq, Repr

/-- A message that the network engine sends. -/
inductive TxMsg where
  | sv (pub : Nat) (appid : Nat) (asdus : List Asdu)
  | goose (pub : Nat) (appid : Nat) (gocbRef datSet goID : List Byte) (confRev : Word) (st sq : Word) (tal : Nat)
      (tNs : Nat) (test : Bool) (members : List GoVal)
  | supervision
  /-- The presence beacon: base MAC address, role and the low 32 bits of k (R305). -/
  | beacon (base : Nat) (role : Nat) (k : Word)
  /-- Kinds: 0 Sync, 1 Announce, 2 Pdelay_Req, 3 Follow_Up, 4 Pdelay_Resp, 5 Pdelay_Resp_Follow_Up. An Announce carries
  the own clock with its clockClass (R216), a message that states a time of sending that time in ns. -/
  | ptp (kind : Nat) (seq : Nat) (domain : Nat) (clock : Option PtpClock) (time : Option Int)
  /-- An HSR ring frame forwarded; for a PTP event message or Follow_Up, its correctionField in ns (R218). -/
  | forward (correction : Option Int)
  deriving DecidableEq, Repr

/-- Redundancy control of one copy of a sent frame (R187, R188): a PRP trailer with its LAN and LSDU size, or an HSR
tag. -/
inductive SentTag where
  | none
  | prp (seq : Nat) (lanB : Bool) (size : Nat)
  | hsr (seq : Nat) (size : Nat)
  deriving DecidableEq, Repr

/-- The authentication extension of a sent message (R207): algorithm, key identifier (the slot), IV and tag. -/
structure SentAuth where
  alg : Nat
  slot : Nat
  iv : List Byte
  tag : List Byte
  deriving DecidableEq, Repr

/-- A frame sent: its addresses where the manual gives them, 802.1Q VLAN identifier and priority, EtherType where the
manual gives it, and each port that carries a copy. -/
structure TxFrame where
  src : Nat
  dst : Option Nat
  vlan : Option (Nat × Nat)
  ether : Option Nat
  copies : List (Nat × SentTag)
  auth : Option SentAuth
  msg : TxMsg
  deriving DecidableEq, Repr

/-- NE block. -/
structure Ne where
  /-- Configuration words of the objects, keyed kind × 2^16 + index × 2^8 + word: staged and active copies (R209). -/
  stg : List (Nat × Word)
  act : List (Nat × Word)
  /-- The settings that publications follow: those of the frame whose image is released (R35, R209). -/
  pub : List (Nat × Word)
  pairs : Vector Pair 6
  portCnt : Vector (Vector Word 8) 12
  evt : BitVec 5
  sv : Vector SvSub 24
  gs : Vector GsSub 256
  sp : Vector SvPub 8
  gp : Vector GoPub 64
  /-- The input words latched at the freeze, until assembly writes them to the image (R35). -/
  frozen : List (Nat × Word)
  /-- The subscriptions that a message changed in the 10 ns step `gsStepAt`, as they were before it (R36). -/
  gsStepAt : Nat
  gsStep : List (Nat × GsSub)
  /-- The count whose entries are closed last. -/
  lastCut : Option Nat
  /-- Frames queued since the last tick, in order (R206). -/
  sent : List TxFrame
  /-- A descriptor of the engine fails its CRC-16 (R18). -/
  badDesc : Option Nat
  deriving DecidableEq, Repr

end Sys2Proof.Machine

namespace Sys2Proof.Config

/-- The octets of a message as its standard encodes it (IEC 61850-9-2, 8-1, IEC 62351-6), which its tag covers (R207), and
the LSDU size that its redundancy tag states (R187): the manual names the standards and gives no encoding. -/
opaque msgBytes : Machine.TxMsg → List (BitVec 8)
opaque lsduSize : Machine.TxMsg → Nat

end Sys2Proof.Config
end

