-- ==== Sys2Proof/Machine/Parts/Hsb.lean ====
section
/-! DEFINITION. State of the hot-standby unit (R289 to R310). -/
namespace Sys2Proof.Machine

/-- HSB_STS.ROLE (R291). -/
inductive Role where
  | alone | syncing | active | standby | diverged
  deriving DecidableEq, Repr

/-- What a peer's BEAT says (R295). -/
structure Beat where
  role : Role
  runHash : List Word
  maqHash : List Word
  plrState : Nat
  chiselId : Word
  /-- Staged block CRCs of NE, EQ, FIO, CAN and CHISEL. -/
  stagedCrc : List Word
  /-- Commit verdict of R306: whether the armed commit or swap will apply. -/
  verdict : Option Bool
  /-- What R292 compares: PREF and base MAC address of the sender. -/
  pref : Bool
  mac : BitVec 48
  deriving DecidableEq, Repr

/-- The header of a message with the link it came over (R294): frame number, link sequence number, and whether the closing
CRC-32C holds. Both links carry a message under the same frame and sequence number. -/
structure HsHead where
  link : Fin 2
  k : Word
  seq : Nat
  crcOk : Bool
  deriving DecidableEq, Repr

/-- A frame record of R296, as its words, with what R290, R301, R306 and R309 ask of the driving peer: its running
armature hash and CHISEL_ID, whether its protocol is this module's, the groups of an armed commit with the CRCs of its
staged blocks, its commit verdict, its base MAC address and the frame in which it entered its role. -/
structure Record where
  k : Nat
  role : Role
  runHash : List Word
  chiselId : Word
  protoOk : Bool
  armed : Option (BitVec 5)
  stagedCrc : List Word
  verdict : Option Bool
  mac : BitVec 48
  since : Nat
  words : List Word
  deriving DecidableEq, Repr

/-- A CONTROL command (R306, R307). -/
inductive Control where
  | swapArm (f : Nat)
  | swapCancel
  | commitArm (f : Nat) (groups : BitVec 5)
  | commitCancel
  | handoverArm (f : Nat)
  | handoverCancel
  deriving DecidableEq, Repr

/-- Output words and publication state of a frame (R299). -/
structure OutSet where
  k : Nat
  words : List (Nat × Word)
  pubs : List (Word × Word)
  deriving DecidableEq, Repr

/-- Content of a message on the sync links (R295). -/
inductive HsbMsg where
  | record (r : Record)
  | beat (b : Beat)
  | doubt (code : BitVec 16) (k : Word)
  | output (o : OutSet)
  | mirrorSv (stream j : Nat) (vals : List Word)
  | mirrorGs (sub gen : Nat) (words : List (Nat × Word))
  | mirrorCan (ctl queue : Nat) (slot : List Word)
  | meter (words : List (Nat × Word))
  | xfer (m addr : Nat) (words : List Word) (last : Bool)
  | scan (k : Nat) (crcs : List Word)
  | control (c : Control)
  deriving DecidableEq, Repr

/-- A message the unit sent on both links since the last tick, with its header. -/
structure HsbTx where
  k : Word
  seq : Nat
  msg : HsbMsg
  deriving DecidableEq, Repr

/-- HSB block. -/
structure Hsb where
  /-- HSB_CFG and HSB_BCN_DMAC as read at module reset. -/
  cfg : Word
  bcnDmac : Nat
  role : Role
  /-- Frame in which the role was entered. -/
  roleK : Nat
  /-- Peer's role from its last message. -/
  peerRole : Option Role
  peerMac : BitVec 48
  peerBeat : Option Beat
  /-- HS_n carries good messages; heard in the frame under way; how often it went down. -/
  link : Vector Bool 2
  heard : Vector Bool 2
  linkDowns : Vector Nat 2
  /-- Peer beacon seen since the last tick, at the last tick. -/
  beaconNow : Bool
  beaconSeen : Bool
  /-- SYNCING: lane cycle at which the peer was last heard or its beacon seen; SEEK_MS have passed since (R292). -/
  seekFrom : Nat
  seekDone : Bool
  /-- A peer of this driving module has begun state transfer (R291). -/
  peerStart : Bool
  /-- SYNCING: R290 holds; the peer's K0; frame in which this module began to run on the mirrored image; the last block
  of the transfer has come (R301). -/
  agreed : Bool
  peerK0 : Option Nat
  xferFrom : Option Nat
  xferDone : Bool
  /-- A block of the transfer came too late to be installed. -/
  xferMissed : Bool
  /-- ACTIVE: the next block of the transfer to send. -/
  xferNext : Nat
  /-- This module's scan CRCs of the last frame, the peer's that wait for them, and how many blocks in a row were equal since
  the history was filled (R300, R301). -/
  scanOwn : Option (Nat × List Word)
  scanPeer : Option (Nat × List Word)
  scanRun : Nat
  /-- Everything of R301 is done. -/
  ready : Bool
  refuse : Nat
  handover : Option Nat
  hoCommitted : Bool
  evt : BitVec 3
  divFrame : Word
  divWord : Word
  divOwn : Word
  divPeer : Word
  cnt : Vector Word 8
  /-- Operating seconds of the last divergences (R299). -/
  divTimes : List Nat
  /-- The peer's record of the frame under way, and the mirrored pieces received. -/
  record : Option Record
  mirSv : List (Nat × Nat × List Word)
  /-- GOOSE blocks by subscription and generation, and the changes since: subscription, generation, words by offset. -/
  mirBase : List (Nat × Nat × List Word)
  mirGs : List (Nat × Nat × List (Nat × Word))
  mirCan : List (Nat × Nat × List Word)
  /-- Metering words of the sync set, with the frame they are for. -/
  meter : Option (Word × List (Nat × Word))
  /-- The peer's OUTPUT message last received, and this module's own output set of the last frame. -/
  output : Option OutSet
  ownOut : Option OutSet
  /-- The frame under way runs as OWN; the previous frame did. -/
  own : Bool
  ownPrev : Bool
  /-- The image of the frame under way has been judged; the frame last compared. -/
  imageJudged : Bool
  compared : Option Nat
  /-- Consecutive missing records and BEATs. -/
  missRec : Nat
  missBeat : Nat
  /-- Lane cycle at which the peer's DOUBT arrived. -/
  doubtAt : Option Nat
  /-- DIVERGED is due at the tick of this frame. -/
  divDue : Option Nat
  /-- Another driver's RECORD was heard, and this module is the one that gives way (R309). -/
  dual : Option Bool
  /-- stNum last published by the peer, per GP (R303). -/
  peerSt : List Word
  switchovers : Word
  switchK : Word
  /-- This module's verdict at the last commit point, and whether the peer's differed (R306). -/
  ownVerdict : Option Bool
  verdictDiff : Bool
  /-- The peer was STANDBY at t_d (R304). -/
  failover : Bool
  /-- Frame and sequence numbers of the messages taken in this frame and in the one before (R294). -/
  taken : List (Word × Nat)
  takenPrev : List (Word × Nat)
  /-- The next link sequence number. -/
  txSeq : Nat
  sent : List HsbTx
  deriving DecidableEq, Repr

end Sys2Proof.Machine
end

