-- ==== Sys2Proof/Syntax.lean ====
section
/-! DEFINITION. The commands of the block: one constructor per row of the opcode table, with the messages and
levels that a command brings from outside. A message is given parsed, as the fields that the spec names. -/
namespace Sys2Proof

open Sys2Proof.Machine

/-- Lanes, and the smaller index types of the block. -/
abbrev LaneId := Fin 16
/-- One of the four host sessions (R367). -/
abbrev Sid := Fin 4

/-- The authentication extension of a message (R207): algorithm 1 HMAC or 2 GMAC, whether its key identifier names the
next key, the IV, the octets that the tag covers, and the tag. -/
structure AuthTag where
  alg : Nat
  next : Bool
  iv : List Byte
  covered : List Byte
  tag : List Byte
  deriving DecidableEq, Repr

/-- One ASDU of a sampled-value message (R193). -/
structure SvAsdu where
  svId : List Byte
  smpCnt : Nat
  confRev : Word
  smpRate : Option Nat
  smpSynch : Nat
  vals : Vector Word 8
  quals : Vector Word 8
  deriving DecidableEq, Repr

/-- A sampled-value message at a port (R193, R197). -/
structure SvMsg where
  dmac : Nat
  appid : Nat
  vlan : Option Nat
  sim : Bool
  /-- ASN.1 lengths are well formed and every dataset has 8 channels. -/
  wellFormed : Bool
  auth : Option AuthTag
  asdus : List SvAsdu
  deriving DecidableEq, Repr

/-- A GOOSE message at a port (R200, R202). -/
structure GooseMsg where
  dmac : Nat
  appid : Nat
  vlan : Option Nat
  gocbRef : List Byte
  sim : Bool
  test : Bool
  ndsCom : Bool
  confRev : Word
  st : Word
  sq : Word
  tal : Nat
  t0 : Word
  t1 : Word
  auth : Option AuthTag
  /-- `none` when the message is malformed. -/
  data : Option (List GoVal)
  deriving DecidableEq, Repr

/-- PTP message types (R216). -/
inductive PtpKind where
  | announce | sync | followUp | pdelayReq | pdelayResp | pdelayRespFollowUp | delayReq | delayResp | management
  deriving DecidableEq, Repr

/-- A PTP message at a port (R216 to R220). Times are in ns. -/
structure PtpMsg where
  kind : PtpKind
  lengthOk : Bool
  version : Nat
  sdo : Nat
  domain : Nat
  seq : Nat
  correction : Int
  /-- Originating clock. -/
  source : BitVec 64
  /-- Origin timestamp of a Sync or Follow_Up; turnaround of a Pdelay response. -/
  time : Int
  twoStep : Bool
  /-- logMessageInterval: the message's interval is 2 to this power, in seconds. -/
  logInt : Int
  /-- What an Announce says of its grandmaster. -/
  clock : PtpClock
  /-- currentUtcOffset, when currentUtcOffsetValid is set. -/
  utcOffset : Option Nat
  deriving DecidableEq, Repr

/-- Redundancy tag of a frame: a PRP trailer or an HSR tag (R187, R188). -/
inductive RedTag where
  | none
  | prp (seq : Nat) (lanOk sizeOk : Bool)
  | hsr (seq : Nat) (wellFormed : Bool)
  deriving DecidableEq, Repr

/-- What a frame carries. -/
inductive Payload where
  | sv (m : SvMsg)
  | goose (m : GooseMsg)
  | ptp (m : PtpMsg)
  | supervision
  | other
  deriving DecidableEq, Repr

/-- An Ethernet frame at a port (R186, R208). -/
structure EthFrame where
  len : Nat
  fcsOk : Bool
  srcMac : Nat
  dstMac : Nat
  tag : RedTag
  payload : Payload
  deriving DecidableEq, Repr

/-- A decoded IRIG-B frame (R221). -/
structure IrigMsg where
  /-- The IEEE 1344 extension is present. -/
  ext : Bool
  /-- Year of the century, when the extension carries it. -/
  year : Nat
  day : Nat
  sec : Nat
  /-- Local offset in half hours. -/
  localOfs : Int
  parityOk : Bool
  lsp : Bool
  tq : Nat
  /-- Time in ns since the leading edge of the reference marker. -/
  ageNs : Nat
  deriving DecidableEq, Repr

/-- Causes of a CLOCK doubt (R215): TCXO (error in ppm), PLL number, tick interval in ns. -/
inductive ClockFault where
  | tcxo (ppm : Nat)
  | pll (n : Nat)
  | interval (ns : Nat)
  deriving DecidableEq, Repr

/-- What happens to a CAN bus error (R274, R280): its side and weight by ISO 11898-1. An error while the error flag is
under way adds 8. -/
structure CanErr where
  /-- The controller was transmitting. -/
  transmitter : Bool
  /-- Counting of ISO 11898-1 adds 8 to the counter of that side, or 1. -/
  weight8 : Bool
  /-- An exception of ISO 11898-1 leaves TEC unchanged. -/
  exempt : Bool
  deriving DecidableEq, Repr

/-- A CAN frame whose end of frame is reached without error (R281), with the ns since its start-of-frame stamp. -/
structure CanRx where
  frame : CanFrame
  ageNs : Nat
  deriving DecidableEq, Repr

/-- What a start-up finds (R381 to R384): the failing self-test step with its argument, the output groups without
supply, the times from power-good to the end of self-test and to the end of start-up in ms, the levels of the tamper
inputs (a bit is 1 for closed) during start-up, for each bank the failure that its flash shows (a part ID,
or 0x10 for the signature), the key slots with an uncorrectable group, and the offsets of the groups of the store that
have come to hold a single-bit error or to be uncorrectable (R313). -/
structure ResetIn where
  stestFail : Option (Nat × Word)
  stestSkip : BitVec 2
  stestMs : Nat
  bootMs : Nat
  tampClosed : BitVec 3
  bankFail : Vector (Option Nat) 2
  keyUe : List (Fin 64)
  nvCe : List Nat
  nvUnc : List Nat
  deriving DecidableEq, Repr

/-- What a sample of the tamper inputs finds (R233): a bit is 1 for closed; the backup cell is below 2.0 V (R226). -/
structure TampLevels where
  closed : BitVec 3
  cellLow : Bool
  deriving DecidableEq, Repr

/-- A block of the state transfer (R301): its place and its words. -/
structure XferBlock where
  addr : Nat
  words : List Word
  deriving DecidableEq, Repr

/-- Who sends a request: its endpoint, and the MAC address that a datagram comes from (R361). -/
structure Caller where
  ep : Endpoint
  mac : BitVec 48
  deriving DecidableEq, Repr

/-- The commit point of a controller's frame (R279), with the transceiver loop delay in CAN clocks that the BRS bit after it
shows (R272). -/
structure CommitBit where
  ctl : Fin 4
  loop : Nat
  deriving DecidableEq, Repr

/-- The commands of the block. -/
inductive Instr where
  -- lanes: one issue step, the appearance of results, macro calls
  | move (l : LaneId)
  | opResult (l : LaneId)
  | macroCall (l : LaneId)
  -- ALU
  | add (l : LaneId) (alu : Fin 2) (t : Word)
  | addc (l : LaneId) (alu : Fin 2) (t : Word)
  | sub (l : LaneId) (alu : Fin 2) (t : Word)
  | subc (l : LaneId) (alu : Fin 2) (t : Word)
  | rsub (l : LaneId) (alu : Fin 2) (t : Word)
  | andOp (l : LaneId) (alu : Fin 2) (t : Word)
  | orOp (l : LaneId) (alu : Fin 2) (t : Word)
  | xorOp (l : LaneId) (alu : Fin 2) (t : Word)
  | andn (l : LaneId) (alu : Fin 2) (t : Word)
  | notOp (l : LaneId) (alu : Fin 2) (t : Word)
  | neg (l : LaneId) (alu : Fin 2) (t : Word)
  | abs (l : LaneId) (alu : Fin 2) (t : Word)
  | shl (l : LaneId) (alu : Fin 2) (t : Word)
  | shr (l : LaneId) (alu : Fin 2) (t : Word)
  | sar (l : LaneId) (alu : Fin 2) (t : Word)
  | rol (l : LaneId) (alu : Fin 2) (t : Word)
  | ror (l : LaneId) (alu : Fin 2) (t : Word)
  | minOp (l : LaneId) (alu : Fin 2) (t : Word)
  | maxOp (l : LaneId) (alu : Fin 2) (t : Word)
  | minu (l : LaneId) (alu : Fin 2) (t : Word)
  | maxu (l : LaneId) (alu : Fin 2) (t : Word)
  | sext8 (l : LaneId) (alu : Fin 2) (t : Word)
  | sext16 (l : LaneId) (alu : Fin 2) (t : Word)
  | zext8 (l : LaneId) (alu : Fin 2) (t : Word)
  | zext16 (l : LaneId) (alu : Fin 2) (t : Word)
  | clz (l : LaneId) (alu : Fin 2) (t : Word)
  | popc (l : LaneId) (alu : Fin 2) (t : Word)
  | bswap (l : LaneId) (alu : Fin 2) (t : Word)
  | pass (l : LaneId) (alu : Fin 2) (t : Word)
  -- MUL, DIV
  | mul (l : LaneId) (t : Word)
  | mulu (l : LaneId) (t : Word)
  | mulq31 (l : LaneId) (t : Word)
  | mac (l : LaneId) (t : Word)
  | accset (l : LaneId) (t : Word)
  | div (l : LaneId) (t : Word)
  | divu (l : LaneId) (t : Word)
  | divl (l : LaneId) (t : Word)
  | divlu (l : LaneId) (t : Word)
  -- BCD
  | badd (l : LaneId) (t : Word)
  | baddc (l : LaneId) (t : Word)
  | bsub (l : LaneId) (t : Word)
  | bsubc (l : LaneId) (t : Word)
  | bdadj (l : LaneId) (t : Word)
  | b2bin (l : LaneId) (t : Word)
  | bin2b (l : LaneId) (t : Word)
  | date2day (l : LaneId) (t : Word)
  | day2date (l : LaneId) (t : Word)
  | time2sec (l : LaneId) (t : Word)
  | sec2time (l : LaneId) (t : Word)
  -- BIT
  | bset (l : LaneId) (t : Word)
  | brst (l : LaneId) (t : Word)
  | btgl (l : LaneId) (t : Word)
  | btst (l : LaneId) (t : Word)
  | edge (l : LaneId) (t : Word)
  | edgew (l : LaneId) (t : Word)
  | prime (l : LaneId) (t : Word)
  | primew (l : LaneId) (t : Word)
  -- CMP
  | cmpEq (l : LaneId) (t : Word)
  | cmpNe (l : LaneId) (t : Word)
  | cmpLt (l : LaneId) (t : Word)
  | cmpLe (l : LaneId) (t : Word)
  | cmpGt (l : LaneId) (t : Word)
  | cmpGe (l : LaneId) (t : Word)
  | cmpLtu (l : LaneId) (t : Word)
  | cmpLeu (l : LaneId) (t : Word)
  | cmpGtu (l : LaneId) (t : Word)
  | cmpGeu (l : LaneId) (t : Word)
  | tstz (l : LaneId) (t : Word)
  | tstnz (l : LaneId) (t : Word)
  | feq (l : LaneId) (t : Word)
  | fne (l : LaneId) (t : Word)
  | flt (l : LaneId) (t : Word)
  | fle (l : LaneId) (t : Word)
  | fgt (l : LaneId) (t : Word)
  | fge (l : LaneId) (t : Word)
  | fun_ (l : LaneId) (t : Word)
  | inr (l : LaneId) (t : Word)
  | inru (l : LaneId) (t : Word)
  -- FPU
  | fadd (l : LaneId) (t : Word)
  | fsub (l : LaneId) (t : Word)
  | fmul (l : LaneId) (t : Word)
  | fma (l : LaneId) (t : Word)
  | fms (l : LaneId) (t : Word)
  | fdiv (l : LaneId) (t : Word)
  | fsqrt (l : LaneId) (t : Word)
  | fneg (l : LaneId) (t : Word)
  | fabs (l : LaneId) (t : Word)
  | fmin (l : LaneId) (t : Word)
  | fmax (l : LaneId) (t : Word)
  | i2f (l : LaneId) (t : Word)
  | u2f (l : LaneId) (t : Word)
  | f2i (l : LaneId) (t : Word)
  | f2it (l : LaneId) (t : Word)
  | f2u (l : LaneId) (t : Word)
  | frnd (l : LaneId) (t : Word)
  -- CRD
  | atan2 (l : LaneId) (t : Word)
  | mag (l : LaneId) (t : Word)
  | polar (l : LaneId) (t : Word)
  | sincos (l : LaneId) (t : Word)
  -- LSU, IMG, DSK, SYS
  | sld (l : LaneId) (t : Word)
  | sldh (l : LaneId) (t : Word)
  | sldb (l : LaneId) (t : Word)
  | sst (l : LaneId) (t : Word)
  | ssth (l : LaneId) (t : Word)
  | sstb (l : LaneId) (t : Word)
  | ld (l : LaneId) (t : Word)
  | st (l : LaneId) (t : Word)
  | imgIn (l : LaneId) (t : Word)
  | imgOut (l : LaneId) (t : Word)
  | hs (l : LaneId) (t : Word)
  | hq (l : LaneId) (t : Word)
  | push (l : LaneId) (t : Word)
  | pop (l : LaneId) (t : Word)
  | peek (l : LaneId) (t : Word)
  | drop (l : LaneId) (t : Word)
  | depth (l : LaneId) (t : Word)
  | evw (l : LaneId) (t : Word)
  | ttick (l : LaneId) (t : Word)
  | now (l : LaneId) (t : Word)
  | log (l : LaneId) (t : Word)
  -- CTL
  | jmp (l : LaneId) (t : Word)
  | jmpr (l : LaneId) (t : Word)
  | call (l : LaneId) (t : Word)
  | ret (l : LaneId) (t : Word)
  | endSeg (l : LaneId) (t : Word)
  | wait (l : LaneId) (t : Word)
  | post (l : LaneId) (t : Word)
  | tryw (l : LaneId) (t : Word)
  | rdepth (l : LaneId) (t : Word)
  -- batons and segment starts, as they happen
  | batonCount (l : LaneId)
  | batonTake (l : LaneId)
  | batonTimeout (l : LaneId)
  | segmentStart (l : LaneId)
  -- REP
  | run (l : LaneId) (t : Word)
  | copy (l : LaneId) (t : Word)
  | matchRep (l : LaneId) (t : Word)
  | seek (l : LaneId) (t : Word)
  | fill (l : LaneId) (t : Word)
  | breakRep (l : LaneId) (t : Word)
  -- banks
  | bankGrant (b : Fin 32) (ne eq te mgmt : Bool)
  | loadReturn (l : LaneId) (slot : Fin 20)
  -- the frame and doubt
  | tick
  | assemblyComplete
  | computeWindowOpen
  | guard
  | doubtGoose
  | flushComplete
  | watchdog
  | blockCrcScrub
  | mgmtSramUe (addr : Word) (secure : Bool)
  | hostReset (sid : Sid)
  | commitArm (sid : Sid) (groups : BitVec 5)
  | commitCancel (sid : Sid)
  | frmClrMax (sid : Sid)
  | hostEvent (sid : Sid) (mask : Word)
  | frameLoRead (sid : Sid)
  | k0LoRead (sid : Sid)
  | lnClrMax (sid : Sid)
  -- chisel table
  | seal (sid : Sid)
  | chiselClear (sid : Sid)
  | chiselCopy (sid : Sid)
  | chiselWrite (sid : Sid) (reg : Nat) (value : Word)
  -- placer
  | load (sid : Sid)
  | loaded
  | place (sid : Sid)
  | placed
  | swap (sid : Sid)
  | swapCancel (sid : Sid)
  | discard (sid : Sid)
  | uncache (sid : Sid)
  | maquetteWrite (sid : Sid) (addr : Nat) (value : Word)
  -- transfer engine
  | submit (sid : Sid)
  | abort (sid : Sid) (slot : Fin 256)
  | descriptorTake (fw : Bool)
  | teCopy (fw : Bool)
  | teFill (fw : Bool)
  | teCrc (fw : Bool)
  | memClrMax (sid : Sid)
  -- network engine
  | portFrame (port : Fin 12) (f : EthFrame)
  | hsrForward (pair : Fin 6) (fromB : Bool) (f : EthFrame)
  | supervisionFrame (pair : Fin 6)
  | duplicateEntryExpiry (pair : Fin 6)
  | linkChange (port : Fin 12) (up : Bool) (speed : Nat)
  | svMessage (port : Fin 12) (m : SvMsg)
  | cutoff
  | gooseMessage (port : Fin 12) (m : GooseMsg)
  | gooseExpiry (sub : Fin 256)
  | gooseRetransmit (pub : Fin 64)
  | neClrCnt (sid : Sid)
  -- time
  | ptpMessage (port : Fin 12) (m : PtpMsg)
  | ptpTransmit (port : Fin 12) (kind : Fin 3)
  | ptpLanSwitch (pair : Fin 6)
  | irigFrame (f : IrigMsg)
  | ppsIn (widthNs : Nat)
  | sourceTimeout (src : Fin 3)
  | holdLimit
  | clockLoss (c : ClockFault)
  | ppsOut
  | ppsPulseEnd
  | firstTick
  | epochCheck
  | timNowRead (sid : Sid)
  | rtcTickLoRead (host : Bool)
  | rtcTickHiRead (host : Bool)
  | shiftGo (sid : Sid) (amount : BitVec 15) (sub : Bool)
  | shiftCancel (sid : Sid)
  | shiftApply
  | alarmArm (sid : Sid) (hi : BitVec 16)
  | alarmFire
  | domainWriteDone (reg : Nat)
  | domainReset
  | tamperSample (x : TampLevels)
  | tamper
  -- energy
  | eqSample
  | freerunCycleEnd (p : Fin 96)
  | latch (p : Fin 96)
  | pulseStart (g : Fin 16)
  | pulseEnd (g : Fin 16)
  | energySave
  | holdExpiry
  | snapHold (sid : Sid) (hold : Bool)
  | pointClear (sid : Sid) (p : BitVec 7)
  | wrapClr (sid : Sid) (p : BitVec 7)
  | preset (sid : Sid) (p : BitVec 7) (reg : BitVec 3)
  | pqPop (sid : Sid)
  -- field I/O
  | acceptedTransition (n : Fin 32) (level : Bool) (heldUs : Nat)
  | wireBreak (n : Fin 32) (microAmp : Nat)
  | supplyLoss (grp : Fin 6)
  | supplyRestore (grp : Fin 6)
  | overcurrent (n : Fin 16)
  | groupOverload (g : Fin 2)
  | thermalShutdown (n : Fin 16)
  | outputRetry (n : Fin 16)
  | outputDiag (n : Fin 16) (rb : Bool)
  | diagClear (n : Fin 16) (rb : Bool)
  | monostableRunout (g : Fin 2)
  -- CAN
  | canFrameReceived (n : Fin 4) (r : CanRx)
  | txAttempt (n : Fin 4)
  | txDone (n : Fin 4)
  | canError (n : Fin 4) (e : CanErr)
  | integrationEnd (n : Fin 4)
  | recover (sid : Sid) (n : Fin 4)
  | recoveryEnd (n : Fin 4)
  | referenceDue (n : Fin 4)
  | refLost (n : Fin 4)
  | canClrCnt (sid : Sid) (n : Fin 4)
  -- hot standby
  | recordMsg (h : HsHead) (r : Record)
  | mirrorSv (h : HsHead) (stream : Fin 24) (j : Nat) (vals : Vector Word 8)
  | mirrorGs (h : HsHead) (sub : Fin 256) (gen : Nat) (words : List (Nat × Word))
  | mirrorCan (h : HsHead) (ctl : Fin 4) (queue : Fin 2) (words : List Word)
  | meter (h : HsHead) (words : List (Nat × Word))
  | outputMsg (h : HsHead) (k : Nat) (words : List (Nat × Word)) (pubs : List (Word × Word))
  | doubtMsg (h : HsHead) (role : Role) (code : BitVec 16) (k : Word)
  | beatMsg (h : HsHead) (b : Beat)
  | xferMsg (h : HsHead) (m : Nat) (block : XferBlock) (last : Bool)
  /-- With the low and the high word of the number of the frame that the CRCs are of. -/
  | scanMsg (h : HsHead) (lo hi : Word) (crcs : List Word)
  | controlMsg (h : HsHead) (c : Control)
  | beacon (pair : Fin 4) (mac : BitVec 48) (role : Role) (k : Word)
  | imageDeadline
  | compare
  | seekTimeout
  | transferComplete
  | handover (sid : Sid)
  | handoverCancel (sid : Sid)
  | hsbClrCnt (sid : Sid)
  -- parameter store
  | journalCommit
  | retainSave
  | opSecondsStore
  | lockPage (sid : Sid)
  | nvsCntLoRead (sid : Sid)
  -- event recorder
  | intake
  | ringWrite
  | tokenAdd
  | suppressed
  | next (sid : Sid)
  | prev (sid : Sid)
  | cursorWrite (sid : Sid) (n : Word)
  | cleared (sid : Sid)
  | writeNow (sid : Sid)
  -- key engine
  | keyWrite (sid : Sid)
  | keyErase (sid : Sid)
  | keyWritten
  | keyBad (slot : Fin 64)
  | lcChange (sid : Sid) (target : BitVec 2)
  | tamperClear (sid : Sid) (mask : BitVec 3)
  | sha256 (sid : Sid)
  | hmac (sid : Sid)
  | gmac (sid : Sid)
  | ecdsa (sid : Sid)
  | opDone
  | keyRngRead (sid : Sid)
  | reseed
  | rngFail (test : Word)
  -- host link
  | request (c : Caller) (bytes : List Byte)
  | replyFetch
  | nop (ep : Endpoint) (sid : Option Sid)
  | read (sid : Sid) (space : Fin 2) (addr : Word) (len : Nat)
  | write (sid : Sid) (space : Fin 2) (addr : Word) (payload : List Byte)
  | hello (ep : Endpoint) (role : Fin 4) (slot : Fin 64)
  | auth (ep : Endpoint) (sid : Sid) (tag : List Byte)
  | close (sid : Sid)
  | hlCmdClose (sid : Sid) (target : Sid)
  | idleTimeout (sid : Sid)
  | throttleEnd (ep : Endpoint)
  | attnRoseRead (sid : Sid)
  | arpRequest
  | icmpEcho
  -- start-up and update
  | moduleReset (r : ResetIn)
  | updOpen (sid : Sid)
  | chunk (sid : Sid)
  | verify (sid : Sid)
  | verified
  | activate (sid : Sid)
  | updAbort (sid : Sid)
  | deactivate (sid : Sid)
  | confirm (sid : Sid)
  | updLapse
  | trialExpired
  -- supply
  | pfw (src : Fin 2)
  | supplyRail (rail : Word)
  | supplyReturnReset (r : ResetIn)
  | powerDown
  -- late rows of the table
  | linkDown (link : Fin 2)
  | announceReceiptTimeout (port : Fin 12)
  | switchCooled (n : Fin 16)
  | lostArbitration (n : Fin 4)
  | frameCommitPoint (c : CommitBit)
  deriving DecidableEq, Repr

end Sys2Proof
end

