-- ==== Sys2Proof/Machine/RegMap.lean ====
section
/-! DEFINITION. The address map (R15, R16) and the registers that hold a written value: their places, the bits a write
sets, their reset values, whether the parameter store keeps them, whether they are staged, whether each session has its
own copy (R47, R371). -/
namespace Sys2Proof.Machine

/-- How a register keeps what is written. -/
inductive RegKind where
  /-- Lost at module reset. -/
  | plain
  /-- Kept in the parameter store. -/
  | stored
  /-- Kept, and staged in a group of R47. -/
  | staged (group : Nat)
  /-- One copy per session (R371). -/
  | session
  deriving DecidableEq, Repr

/-- A run of `count` registers, `stride` apart, from host address `base`. -/
structure RegRow where
  base : Nat
  count : Nat
  stride : Nat
  mask : Nat
  reset : Nat
  kind : RegKind
  deriving DecidableEq, Repr

/-- Block bases (R15). -/
def blkFRM : Nat := 0x10000
def blkLN : Nat := 0x20000
def blkPLR : Nat := 0x30000
def blkMEM : Nat := 0x40000
def blkNE : Nat := 0x50000
def blkTIM : Nat := 0x60000
def blkRTC : Nat := 0x70000
def blkEQ : Nat := 0x80000
def blkFIO : Nat := 0x90000
def blkCAN : Nat := 0xA0000
def blkHSB : Nat := 0xB0000
def blkNVS : Nat := 0xC0000
def blkEVR : Nat := 0xD0000
def blkKEY : Nat := 0xE0000
def blkUPD : Nat := 0xF0000
def blkHL : Nat := 0x100000

/-- Registers of FRM, LN, PLR, MEM and NE that hold a written value. -/
def regRowsA : List RegRow :=
  [⟨0x10000, 1, 4, 0x1F07, 0x0101, .stored⟩,      -- FRM_CFG
   ⟨0x10028, 1, 4, 0x7F, 95, .plain⟩,             -- FRM_WARN
   ⟨0x10030, 2, 4, 0xFFFFFFFF, 0, .plain⟩,        -- FRM_COMMIT_LO, HI
   ⟨0x10038, 1, 4, 0x1F, 0, .plain⟩,              -- FRM_COMMIT_CTL.GROUPS
   ⟨0x21008, 1, 4, 0x1FF, 0xF0, .session⟩,        -- LN_CHISEL_SEL
   ⟨0x30000, 1, 4, 0x1F, 10, .stored⟩,            -- PLR_CFG
   ⟨0x30008, 1, 4, 0x1FFFFE0, 0, .plain⟩,         -- PLR_IMG_ADDR
   ⟨0x3000C, 1, 4, 0x7FFFFF, 0, .plain⟩,          -- PLR_IMG_LEN
   ⟨0x30014, 2, 4, 0xFFFFFFFF, 0, .plain⟩,        -- PLR_SWAP_LO, HI
   ⟨0x30080, 1, 4, 0x7, 0, .session⟩,             -- PLR_RPT_SEL
   ⟨0x40010, 1, 4, 0x3FFFF, 0, .session⟩,         -- MEM_MAP_SEL
   ⟨0x40020, 1, 4, 0x1F, 0, .session⟩,            -- MEM_BANK_SEL
   ⟨0x40100, 1, 4, 0xFFFF0003, 0, .session⟩,      -- MEM_TE_CTRL
   ⟨0x40104, 2, 4, 0xFFFFFFFF, 0, .session⟩,      -- MEM_TE_SRC, DST
   ⟨0x4010C, 1, 4, 0x1FFFFF, 0, .session⟩,        -- MEM_TE_LEN
   ⟨0x40110, 1, 4, 0xFFFFFFFF, 0, .session⟩,      -- MEM_TE_VAL
   ⟨0x40130, 1, 4, 0xFF, 0, .session⟩,            -- MEM_TE_SLOT_SEL
   ⟨0x50010, 6, 4, 0x7F, 0x40, .stored⟩,          -- NE_PAIR_n_CFG
   ⟨0x50050, 1, 4, 0xF, 0, .session⟩,             -- NE_PORT_SEL
   ⟨0x50100, 1, 4, 0x1FF03, 0, .session⟩]         -- NE_OBJ_SEL

/-- Registers of TIM, EQ and FIO that hold a written value. -/
def regRowsB : List RegRow :=
  [⟨0x60004, 1, 4, 0xFFFF7F, 0x41, .stored⟩,      -- TIM_CFG
   ⟨0x60008, 1, 4, 0xFFFFF, 1000, .stored⟩,       -- TIM_STEP
   ⟨0x6000C, 1, 4, 0x3FFFF, 0x1003C, .stored⟩,    -- TIM_HOLD
   ⟨0x60010, 1, 4, 0xFFFF, 37, .stored⟩,          -- TIM_UTC.OFS_CFG
   ⟨0x60030, 1, 4, 0x3FFFFFF, 0x1808000, .stored⟩, -- TIM_PTP_CFG
   ⟨0x60034, 1, 4, 0xFFF, 0xFFF, .stored⟩,        -- TIM_PTP_PORTS
   ⟨0x60050, 1, 4, 0xF, 0, .session⟩,             -- TIM_CNT_SEL
   ⟨0x60074, 1, 4, 0xFFF, 0x192, .stored⟩,        -- TIM_PPSO
   ⟨0x60080, 12, 4, 0xFFFFFFFF, 0, .stored⟩,      -- TIM_PTP_LAT_n
   ⟨0x80008, 1, 4, 0xFFF, 1, .stored⟩,            -- EQ_CFG
   ⟨0x80014, 2, 4, 0xFFFFFFFF, 0, .plain⟩,        -- EQ_PRESET_LO, HI
   ⟨0x80020, 1, 4, 0x7F00, 0, .session⟩,          -- EQ_SNAP_CTL.POINT
   ⟨0x80280, 1, 4, 0x1FF03, 0, .session⟩,         -- EQ_OBJ_SEL
   ⟨0x9000C, 1, 4, 0x1, 0, .session⟩,             -- FIO_VIEW
   ⟨0x90020, 1, 4, 0xFF, 0xAA, .staged 2⟩,        -- FIO_IN_GRP_CFG
   ⟨0x90024, 1, 4, 0xFFFFFFFF, 0, .staged 2⟩,     -- FIO_IN_WB_EN
   ⟨0x90040, 32, 4, 0x3FF, 300, .staged 2⟩,       -- FIO_IN_FILT_n
   ⟨0x90140, 16, 4, 0x3F, 0, .staged 2⟩]          -- FIO_OUT_n_CFG

/-- Registers of CAN_n, at offset `o` = 0x4000 n from the block, that hold a written value. -/
def regRowsCan (o : Nat) : List RegRow :=
  [⟨0xA0000 + o, 1, 4, 0x7F000F, 0x8, .stored⟩,            -- CAN_n_CFG
   ⟨0xA0004 + o, 1, 4, 0x7F7FFFFF, 0x1F1F7E00, .stored⟩,   -- CAN_n_NBT
   ⟨0xA0008 + o, 1, 4, 0x1F0F1F1F, 0x17071E00, .stored⟩,   -- CAN_n_DBT
   ⟨0xA0040 + o, 1, 4, 0x1, 0, .session⟩,                  -- CAN_n_VIEW
   ⟨0xA0044 + o, 1, 4, 0x7, 0, .staged 3⟩,                 -- CAN_n_TM_CFG
   ⟨0xA0048 + o, 1, 4, 0x1FFFFFFF, 0, .staged 3⟩,          -- CAN_n_TM_ID
   ⟨0xA004C + o, 1, 4, 0xFFFFF, 10000, .staged 3⟩,         -- CAN_n_TM_CYC
   ⟨0xA0050 + o, 1, 4, 0xFFFFF, 0, .staged 3⟩,             -- CAN_n_TM_PHASE
   ⟨0xA0100 + o, 32, 8, 0xFFFFFFFF, 0, .staged 3⟩,         -- CAN_n_FLT_f_MATCH
   ⟨0xA0104 + o, 32, 8, 0xDFFFFFFF, 0, .staged 3⟩]         -- CAN_n_FLT_f_MASK

/-- Registers of HSB, NVS, EVR, KEY, UPD and HL that hold a written value. -/
def regRowsC : List RegRow :=
  [⟨0xB0000, 1, 4, 0xFFFFFF3F, 0x01F4033C, .stored⟩,  -- HSB_CFG
   ⟨0xB0010, 2, 4, 0xFFFFFFFF, 0, .plain⟩,            -- HSB_F_LO, HI
   ⟨0xB0030, 1, 4, 0xFFFFFFFF, 0x1, .stored⟩,         -- HSB_BCN_DMAC_LO
   ⟨0xB0034, 1, 4, 0xFFFF, 0x300, .stored⟩,           -- HSB_BCN_DMAC_HI
   ⟨0xC000C, 1, 4, 0xFFF, 10, .stored⟩,               -- NVS_CFG
   ⟨0xC0030, 1, 4, 0x7, 0, .session⟩,                 -- NVS_CNT_SEL
   ⟨0xC0040, 1, 4, 0xFF, 0, .plain⟩,                  -- NVS_LOCK_PAGE
   ⟨0xD0000, 1, 4, 0x3F37, 0xA12, .stored⟩,           -- EVR_CFG
   ⟨0xD0004, 1, 4, 0xFFFFFFFF, 0x200100, .stored⟩,    -- EVR_RATE
   ⟨0xE0010, 1, 4, 0x3F, 0, .session⟩,                -- KEY_SEL
   ⟨0xE0200, 1, 4, 0x3F03, 0, .plain⟩,                -- KEY_OP_CTL
   ⟨0xE0204, 2, 4, 0x1FFFFFF, 0, .plain⟩,             -- KEY_OP_ADDR, LEN
   ⟨0xF0020, 3, 4, 0x1FFFFFF, 0, .session⟩,           -- UPD_SRC, LEN, OFF
   ⟨0x100004, 1, 4, 0xFFFFFF03, 0x4F5A1E00, .stored⟩, -- HL_CFG
   ⟨0x100008, 1, 4, 0xFFFFFFFF, 0, .stored⟩,          -- HL_IP
   ⟨0x10000C, 1, 4, 0xFFFF, 0, .stored⟩,              -- HL_VLAN
   ⟨0x100080, 4, 4, 0xFFFFFFFF, 0xFFFFFFFF, .stored⟩] -- HL_ROLE_MAP_n

/-- Whether a row holds an address. -/
def RegRow.holds (r : RegRow) (a : Nat) : Bool :=
  decide (r.base ≤ a) && decide (a < r.base + r.count * r.stride) && decide ((a - r.base) % r.stride = 0)

/-- The first row of a list that holds an address. -/
def findRow (a : Nat) : List RegRow → Option RegRow
  | [] => none
  | r :: t => if r.holds a then some r else findRow a t

/-- The row of an address. -/
def regRow (a : Nat) : Option RegRow :=
  if a < 0x60000 then findRow a regRowsA
  else if a < 0xA0000 then findRow a regRowsB
  else if a < 0xB0000 then findRow a (regRowsCan ((a - 0xA0000) / 0x4000 * 0x4000))
  else findRow a regRowsC

/-- Reset value of a register that holds a written value, 0 elsewhere. -/
def regReset (a : Nat) : Word :=
  match regRow a with
  | some r => w r.reset
  | none => 0

end Sys2Proof.Machine
end

