-- ==== Sys2Proof/Config.lean ====
section
/-! DEFINITION. What the manual leaves to the die, the module or the firmware: opaque values that nothing in Lean can
evaluate. Each is a free value of the model; the assumption log names it. -/
namespace Sys2Proof.Config

/-- Die revision, SYS_ID.DIEREV (per die). -/
opaque dieRev : BitVec 8
/-- SYS_ID.VARIANT (per module). -/
opaque variant : Bool
/-- Base MAC address (per module, NE_MAC). -/
opaque baseMac : BitVec 48

/-- The n-th free value that a step takes from the counter `State.fresh`. -/
opaque freeWord : Nat → BitVec 32

/-- A parameter of a recorder entry that its chapter does not give: code, position, lane cycle (R327). -/
opaque entryParam : Nat → Nat → Nat → BitVec 32

/-- Code of the NOTE that R45 writes, which the manual does not give. -/
opaque warnCode : BitVec 16

/-- Random words of the generator, by draw number (R350). -/
opaque rng : Nat → BitVec 32

/-- Contents of the shipped firmware bank 0 (R3): vendor data. -/
opaque shippedFw : Nat → BitVec 8
/-- VERSION and manifest hash of the shipped firmware, and its part versions. -/
opaque shippedVersion : BitVec 32
opaque shippedHash : List (BitVec 8)
opaque partVersion : Nat → BitVec 32

/-- SHA-256 of the LANE part of the shipped firmware. -/
opaque shippedLane : List (BitVec 8)

/-- Vendor chisel entries (R136) of a LANE part, named by its SHA-256: LEN below 9, NPAR below 5 are taken modulo, and the
template words. -/
opaque vendorLen : List (BitVec 8) → Nat → Nat
opaque vendorNpar : List (BitVec 8) → Nat → Nat
opaque vendorWord : List (BitVec 8) → Nat → Nat → BitVec 32

/-- CRD results for operands whose result the manual bounds but does not state (R104). -/
opaque crdAtan2 : BitVec 32 → BitVec 32 → BitVec 32
opaque crdMag : BitVec 32 → BitVec 32 → BitVec 32
opaque crdSin : BitVec 32 → BitVec 32
opaque crdCos : BitVec 32 → BitVec 32

/-- Serialisation of the armature is private to the firmware (R159): its hash of the listed numbers. -/
opaque armatureHash : List Nat → List (BitVec 32)
/-- Whether the verifier takes a transfer whose target comes from a port to be one that can leave the half (R117, R158),
by the image's bytes, the lane and the bundle. -/
opaque verifierTarget : List (BitVec 8) → Nat → Nat → Bool
/-- Bytes of an armature-cache entry in NOR, whose serialisation is private to the firmware (R159), by hash and offset. -/
opaque cacheByte : List (BitVec 32) → Nat → BitVec 8
/-- Placement time in ms (report word 26). -/
opaque placeMs : Nat → BitVec 32
/-- Progress shown while the firmware works (PLR_PROGRESS, UPD_PROGRESS), 0 to 100 by `min`. -/
opaque progress : Nat → Nat

/-- The servo's rate correction for a measurement (R213): offset in ns and rate in force, in 0.001 ppm. -/
opaque servoRate : Int → Int → Int
/-- Residence time in ns of the n-th PTP message forwarded in a ring (R218: measured). -/
opaque residenceNs : Nat → Nat
/-- The rate correction stored for FREERUN, as the firmware last stored it, by start-up (R212). -/
opaque storedFreq : Nat → Int

/-- Whether a value between two steps of the metering engine's fixed point is taken as the larger (R241). -/
opaque eqUp : Rat → Bool
/-- Payload of an energy save, whose layout belongs to the firmware: its length, and its bytes by SEQ and offset. -/
opaque energyLen : Nat
opaque energyByte : Nat → Nat → BitVec 8
/-- What the engine makes of a setting (SCEIL, NOMINAL) that is no finite number, and of a ratio to a nominal value of 0. -/
opaque eqOfF32 : BitVec 32 → Rat
opaque eqOfZero : Rat → Nat

/-- Record identities of the firmware's records, from which each kind has its own (R312, R419). -/
opaque firmwareRid : Nat
/-- Where the copies of the records lie in RECORDS from; a record's payload length in words and its payload bytes by SEQ,
all of which the firmware sets (R312), by kind of record. -/
opaque recordPlace : Nat
opaque recordWords : Nat → Nat
opaque recordByte : Nat → BitVec 32 → Nat → BitVec 8

/-- How far a flush had come when power failed (R315, R326), by failure: the parts completed, and of the next part the groups
written and those being written, by offset. -/
opaque cutParts : Nat → Nat
opaque cutWritten : Nat → List Nat
opaque cutTorn : Nat → List Nat

/-- Raw bytes of a group that was being written when power failed (R313, R315), by failure and offset. -/
opaque tornByte : Nat → Nat → BitVec 8

/-- Whether a due reference message goes before a buffer of the same rank (R278 leaves it open). -/
opaque refTieFirst : Bool

/-- Transfer-engine, network-engine and other firmware-timed choices, by use and counter. -/
opaque choice : Nat → Nat → Nat

end Sys2Proof.Config
end

