-- ==== Sys2Proof/Machine/Parts/Eq.lean ====
section
/-! DEFINITION. State of the energy and power-quality engine (R234 to R258). -/
namespace Sys2Proof.Machine

/-- Sums of one phase over a line cycle (R240): of u·i, of ũ·i, of u² and of i². -/
structure PhaseSum where
  p : Rat
  q : Rat
  uu : Rat
  ii : Rat
  deriving DecidableEq, Repr

/-- Sums of a point over a line cycle, with its samples and its good samples, and whether a sample was bridged, zeroed, or
a test (R242). -/
structure CycSum where
  phases : Vector PhaseSum 3
  samples : Nat
  good : Nat
  degraded : Bool
  zeroed : Bool
  test : Bool
  deriving DecidableEq, Repr

/-- Values of a phase (R245): U, I, P, Q, S. -/
structure PhaseAvg where
  u : Rat
  i : Rat
  p : Rat
  q : Rat
  s : Rat
  deriving DecidableEq, Repr

/-- One register of a point (R241, R247). -/
structure EnergyReg where
  value : BitVec 64
  /-- Residue in 2^-32 quanta. -/
  residue : Nat
  wraps : BitVec 8
  wrapFlag : Bool
  deriving DecidableEq, Repr

/-- What the energy save keeps of a point (R254). -/
structure PointKept where
  regs : Vector EnergyReg 7
  seq : Word
  /-- Flags of the latch interval: DEGRADED, OVER, ZEROED, TEST; and GAP with its bound. -/
  degraded : Bool
  overCeil : Bool
  zeroed : Bool
  test : Bool
  gap : Bool
  gapBound : BitVec 64
  deriving DecidableEq, Repr

/-- A metering point (R235 to R247). -/
structure Point where
  kept : PointKept
  freerun : Bool
  /-- Corrected reference voltage of the previous sample; the signal was below −1 % since the last counted crossing. -/
  prevU : Rat
  armed : Bool
  /-- Time of the last cycle end, in s. -/
  cycleEnd : Rat
  freq : Rat
  /-- The running cycle, and its samples at or after the last cycle end plus a nominal period, which a cycle end in
  FREERUN leaves to the next cycle. -/
  cur : CycSum
  late : CycSum
  /-- Products u·i and ũ·i of each phase at the last good sample, and the run of bad ones since (R242). -/
  lastGood : Vector (Rat × Rat) 3
  badRun : Nat
  /-- Line cycles and samples since the last latch, and sums of the cycles' values weighted by their samples. -/
  cycles : Nat
  weight : Nat
  interval : Vector PhaseAvg 3
  /-- Values of the last completed cycle. -/
  lastCycle : Vector PhaseAvg 3
  /-- The snapshot of a cycle end at which the point latches, until it is in its buffer (R244). -/
  latched : Option (List Word)
  /-- NEW is shown in the next image. -/
  newFlag : Bool
  /-- Snapshot buffers, whether the second is the visible one, and whether the other is newer (R246). -/
  snapA : List Word
  snapB : List Word
  showB : Bool
  newer : Bool
  deriving DecidableEq, Repr

/-- A PQ state (R249). -/
inductive PqState where
  | normal | sag | swell | interruption
  deriving DecidableEq, Repr

/-- A channel (R237, R248). -/
structure EqChan where
  gain : Int
  phase : Int
  x : Nat
  /-- Previous corrected sample; the signal was below −1 %, above +1 % since the last counted crossing. -/
  prev : Rat
  armedLo : Bool
  armedHi : Bool
  /-- No crossing came within 0.75 nominal periods. -/
  halfFree : Bool
  halfStart : Rat
  /-- Squares and good samples of the running half cycle, and of its part past half a nominal period. -/
  halfSq : Rat
  halfN : Nat
  lateSq : Rat
  lateN : Nat
  pq : PqState
  events : Nat
  rms : Rat
  rms01 : Nat
  extreme : Nat
  halves : Nat
  start : Rat
  deriving DecidableEq, Repr

/-- An entry of the power-quality queue (R250). -/
structure PqEvent where
  words : Vector Word 8
  deriving DecidableEq, Repr

/-- A pulse generator (R251 to R253). -/
structure PulseGen where
  count : Nat
  /-- Due times in ticks from K0 of pulses due but not yet in the backlog, oldest first. -/
  dues : List Nat
  /-- The backlog: due ticks of waiting pulses, oldest first. -/
  backlog : List Nat
  on : Bool
  ovf : Bool
  emitted : Word
  /-- Frame in which the output turned on, and off. -/
  onAt : Nat
  width : Nat
  offAt : Option Nat
  /-- Due tick of the previous pulse (for Delta). -/
  prevDue : Option Nat
  deriving DecidableEq, Repr

/-- One copy of the energy save (R254): points, and each generator's count and backlog. -/
structure EqSave where
  seq : Word
  points : Vector PointKept 96
  gens : Vector (Nat × List Nat) 16
  deriving DecidableEq, Repr

/-- EQ block. -/
structure EqEng where
  /-- Configuration words keyed kind × 2^16 + index × 2^8 + word: staged, active, and active in the frame before. -/
  stg : List (Nat × Word)
  act : List (Nat × Word)
  was : List (Nat × Word)
  points : Vector Point 96
  chans : Vector EqChan 192
  gens : Vector PulseGen 16
  evt : BitVec 5
  run : Bool
  gapSts : Bool
  gapMs : Word
  hold : Bool
  holdCyc : Nat
  snapOvr : Word
  queue : List PqEvent
  pqSeq : Word
  saveSeq : Word
  /-- Operating time in ms at which the save interval began, and at which a save fell due. -/
  saveFrom : Nat
  saveDue : Option Nat
  /-- The copy of the saved state that the due save writes, and the frame in which it was taken (R254). -/
  saveCopy : Option EqSave
  saveFrame : Nat
  /-- The state at t_d, which a flush writes (R254). -/
  atDoubt : Option EqSave
  /-- PRESETs waiting for the next tick, oldest first: point, register, value. -/
  presets : List (Nat × Nat × BitVec 64)
  /-- Frame whose samples are processed. -/
  doneFrame : Option Nat
  /-- Metering words that the next input assembly takes. -/
  words : List (Nat × Word)
  deriving DecidableEq, Repr

end Sys2Proof.Machine
end

