-- ==== Sys2Proof/Machine/Parts/Fio.lean ====
section
/-! DEFINITION. State of the field inputs and outputs (R259 to R270). -/
namespace Sys2Proof.Machine

/-- One field input. -/
structure FieldIn where
  /-- Filtered state (R262), before supply and wire-break gating. -/
  filtered : Bool
  /-- Accepted transitions since the previous tick: none, one, more (CHG, MULTI). -/
  chg : Bool
  multi : Bool
  /-- Wire break (R264). -/
  wb : Bool
  /-- Stamp of the last accepted transition (R263). -/
  stamp : Word
  deriving DecidableEq, Repr

/-- Why a switch is in an off period of 100 ms (R265). -/
inductive OffCause where
  | overcurrent | groupOvl
  deriving DecidableEq, Repr

/-- One field output. -/
structure FieldOut where
  /-- The command that an off period withholds: of the last release, off while another row of R266 keeps the output off. -/
  cmd : Bool
  /-- The command in force: what R266 gave at the last release. -/
  drive : Bool
  /-- The off period of 100 ms in progress and the lane cycle in which it began. -/
  off : Option (OffCause × Nat)
  /-- A thermal shutdown in progress, which an off period of 100 ms leaves as it is. -/
  hot : Bool
  /-- Code of R267. -/
  code : Nat
  /-- Retries counter of FIO_OUT_n_DIAG, saturating. -/
  retries : Nat
  /-- The level at which something other than the switch holds the terminal; none: the terminal follows the switch. -/
  ext : Option Bool
  /-- PAR as of the last release (R270). -/
  par : Bool
  /-- Lane cycle of the last change of command or retry. -/
  lastChange : Nat
  deriving DecidableEq, Repr

/-- One output group. -/
structure OutGroup where
  supply : Bool
  enabled : Bool
  hbOut : Bool
  /-- GROUP_OVL off period in progress. -/
  ovl : Bool
  deriving DecidableEq, Repr

/-- FIO block. -/
structure Fio where
  ins : Vector FieldIn 32
  outs : Vector FieldOut 16
  igSup : Vector Bool 4
  og : Vector OutGroup 2
  /-- FIO_EVT. -/
  evt : BitVec 4
  /-- Word 0x0205: outputs switched on in force until T_k. -/
  onAtTick : BitVec 16
  /-- Word 0x0204: readback at T_k. -/
  rbAtTick : BitVec 16
  /-- The 1 µs step of the last input event, the inputs it changed as they were before the step, and runs of it that have not
  lasted for their filter time: input, level, µs held (R262, R270). -/
  usAt : Nat
  usIns : List (Nat × FieldIn)
  usRuns : List (Nat × Bool × Nat)
  deriving DecidableEq, Repr

end Sys2Proof.Machine
end

