-- ==== Sys2Proof/Machine/Parts/Key.lean ====
section
/-! DEFINITION. State of the key engine (R343 to R358). -/
namespace Sys2Proof.Machine

/-- The states of a slot (R344), in the order KEY_SLOT_STS codes them. -/
inductive SlotState where
  | empty | valid | locked | bad
  deriving DecidableEq, Repr

/-- One key slot (R343): material, attribute and integrity words, and the state its last check gave. -/
structure KeySlot where
  material : Vector Byte 32
  attr : Word
  integ : Word
  /-- A group reads as uncorrectable. -/
  ue : Bool
  state : SlotState
  deriving DecidableEq, Repr

/-- A slot write or erase in progress (R347). -/
structure KeyWriteOp where
  slot : Nat
  oldAttr : Word
  oldState : SlotState
  newAttr : Word
  material : Vector Byte 32
  since : Nat
  deriving DecidableEq, Repr

/-- KEY_OP_STS.STATE. -/
inductive OpState where
  | idle | running | done | aborted | refused
  deriving DecidableEq, Repr

/-- A host operation in progress (R351). -/
structure KeyOp where
  op : Nat
  slot : Nat
  addr : Nat
  len : Nat
  since : Nat
  deriving DecidableEq, Repr

/-- KEY block. -/
structure Key where
  slots : Vector KeySlot 64
  /-- Staging registers KEY_WR_ATTR and KEY_WR_DATA_n. -/
  wrAttr : Word
  wrData : Vector Word 8
  wr : Option KeyWriteOp
  /-- KEY_EVT. -/
  evt : BitVec 4
  rngOk : Bool
  /-- Requests since the last reseed (R350). -/
  rngCount : Nat
  opState : OpState
  op : Option KeyOp
  opRes : Vector Word 8
  deriving DecidableEq, Repr

end Sys2Proof.Machine
end

