-- ==== Sys2Proof/Machine/Parts/Lane.lean ====
section
/-! DEFINITION. State of one logic lane and of the chisel tables (R52 to R79, R116 to R144). -/
namespace Sys2Proof.Machine

/-- The units with ports, in the order of R62. -/
inductive UnitId where
  | alu0 | alu1 | mul | div | bcd | bit | cmp | fpu | crd | lsu | img | dsk | ctl | rep | sys
  deriving DecidableEq, Repr

/-- Position of a unit in the port vector. -/
def UnitId.idx : UnitId → Fin 15
  | .alu0 => 0 | .alu1 => 1 | .mul => 2 | .div => 3 | .bcd => 4 | .bit => 5 | .cmp => 6 | .fpu => 7
  | .crd => 8 | .lsu => 9 | .img => 10 | .dsk => 11 | .ctl => 12 | .rep => 13 | .sys => 14

/-- Operand, result and flag ports of one unit (R62). A unit without a port leaves it 0. -/
structure UnitPorts where
  o1 : Word
  o2 : Word
  o3 : Word
  q : Word
  q2 : Word
  q3 : Word
  f : Word
  deriving DecidableEq, Repr

/-- What an operation in flight presents when its latency has passed (R69). -/
structure InFlight where
  unit : UnitId
  /-- The issue step in which the result appears. -/
  due : Nat
  q : Word
  q2 : Word
  q3 : Word
  f : Word
  /-- Predicate written with the result (R100), 0 for none. -/
  pred : Nat
  /-- LN_FAULT_ARG of a DIV_ZERO trap. -/
  arg : Word
  deriving DecidableEq, Repr

/-- A shared access in a lane's request queue (R172); `quality` marks a load of HQ, whose LATE_RX reads 0 (R194). -/
inductive SharedOp where
  | load (slot : Nat) (size : Nat) (quality : Bool)
  | store (slot : Nat) (size : Nat) (val : Word)
  deriving DecidableEq, Repr

/-- One entry of the request queue. -/
structure SharedReq where
  addr : Nat
  op : SharedOp
  /-- Lane cycle from which it can compete (its issue, then its place as head). -/
  since : Nat
  deriving DecidableEq, Repr

/-- A return slot or REP return channel (R71, R134). -/
structure RetSlot where
  data : Word
  outstanding : Bool
  /-- Granted: the lane cycle in which the access completes, with the data read at the grant. -/
  granted : Option (Nat × Word)
  /-- The access is a store (its slot frees in the cycle after its grant). -/
  store : Bool
  deriving DecidableEq, Repr

/-- A return-stack entry with its parity verdict (R126). -/
structure RetEntry where
  index : Nat
  parityOk : Bool
  deriving DecidableEq, Repr

/-- LN_n_STATE.STATE. -/
inductive LaneMode where
  | idle | wait | sched | bg | done | stopped
  deriving DecidableEq, Repr

/-- What a waiting lane waits for. -/
inductive WaitFor where
  | none | window | baton (n : Nat) (deadline : Option Nat) | start (phase : Nat)
  deriving DecidableEq, Repr

/-- Progress of a macro expansion (R140): the call's index and parameters and the template bundle to issue next. -/
structure MacroRun where
  opcode : Nat
  call : Nat
  params : Vector Nat 4
  next : Nat
  deriving DecidableEq, Repr

/-- Progress of a REP repetition or block operation (R130 to R134). -/
inductive RepRun where
  | none
  /-- Setup step of a body that follows bundle `p`. -/
  | setup (p : Nat)
  /-- Inside a body: first bundle, length, position, and whether BREAK was triggered in this pass. -/
  | body (first len pos : Nat) (brk : Bool)
  /-- A resumed body, whose repeat buffer is reloaded in one step (R135). -/
  | reload (first len pos : Nat) (brk : Bool)
  /-- A block operation of REP.elem.OP triggered from bundle `p`: the source element once read, and the channel of a
  shared read that is out (`true` when it reads the destination element). -/
  | block (p : Nat) (src : Option Word) (out : Option (Nat × Bool))
  deriving DecidableEq, Repr

/-- The context that preemption saves and resumption restores (R43, R75, R85, R135). -/
structure BgSave where
  v : Vector Word 64
  p : BitVec 8
  units : Vector UnitPorts 15
  acc : BitVec 64
  trap : Word
  repCount : Word
  repSrc : Word
  repDst : Word
  repStride : Word
  repElem : Word
  repVal : Word
  repMask : Word
  repProc : Nat
  repRun : RepRun
  slots : Vector RetSlot 20
  rstack : List RetEntry
  pc : Nat
  lastPc : Nat
  segId : Nat
  bgPos : Nat
  wait : WaitFor
  mac : Option MacroRun
  lastMacro : Bool
  deriving DecidableEq, Repr

/-- A lane (R52). -/
structure Lane where
  v : Vector Word 64
  /-- p0 to p7; p0 is bit 0 and always 1. -/
  p : BitVec 8
  units : Vector UnitPorts 15
  /-- The MUL accumulator. -/
  acc : BitVec 64
  /-- SYS.TRAP. -/
  trap : Word
  /-- REP.count, src, dst, stride, elem (R128) and the operand ports REP.val, REP.mask. -/
  repCount : Word
  repSrc : Word
  repDst : Word
  repStride : Word
  repElem : Word
  repVal : Word
  repMask : Word
  /-- Processed count of the block operation. -/
  repProc : Nat
  repRun : RepRun
  /-- rs0 to rs15, then REP's four channels. -/
  slots : Vector RetSlot 20
  reqs : List SharedReq
  inflight : List InFlight
  /-- Issue steps since the frame's window opened. -/
  step : Nat
  /-- Lane cycle of the last issue. -/
  lastIssue : Option Nat
  /-- Units that cannot accept an operation before this step (R69): DIV, FPU, CRD. -/
  divBusy : Nat
  fpuBusy : Nat
  crdBusy : Nat
  /-- Scratch, 64 KiB; unlisted bytes read 0. -/
  scratch : List (Nat × Byte)
  /-- The BIT unit's 4,096 edge cells (R98). -/
  edges : BitVec 4096
  /-- Data-stack depth of scheduled work and of BACKGROUND, in words. -/
  dsp : Nat
  bgDsp : Nat
  /-- Return stack, newest first. -/
  rstack : List RetEntry
  pc : Nat
  /-- Bundle index of the last bundle issued (LN_n_PC). -/
  lastPc : Nat
  mac : Option MacroRun
  mode : LaneMode
  /-- What the lane did in the cycle in which a doubt stopped it. -/
  wasMode : LaneMode
  wait : WaitFor
  /-- The last bundle issued came from a macro expansion. -/
  lastMacro : Bool
  /-- Class and identity of the running segment. -/
  cls : Nat
  segId : Nat
  /-- Position in the lane's schedule of this frame, and in the BACKGROUND list. -/
  schedPos : Nat
  bgPos : Nat
  /-- The frame-end signal of this frame, with its TICKPH. -/
  frameEnd : Option Nat
  endLast : Nat
  slotsCur : Nat
  slotsLast : Nat
  stallCur : Nat
  stallLast : Nat
  stallMax : Nat
  /-- First lane cycle of the stall in progress (R72). -/
  stallFrom : Option Nat
  /-- LOG entries placed in this frame (R114). -/
  logs : Nat
  logDrops : Nat
  bgSaved : Option BgSave
  /-- BACKGROUND was preempted at the guard, and its accesses still return before the save (R85). -/
  saving : Bool
  deriving DecidableEq, Repr

/-- The fault latched for the LN_FAULT registers (R77, R79). -/
structure LnFault where
  code : BitVec 16
  lane : Nat
  multi : Bool
  valid : Bool
  pc : Nat
  half : Bool
  slot : Option Nat
  mac : Bool
  phase : Nat
  mask : BitVec 16
  arg : Word
  deriving DecidableEq, Repr

/-- A chisel entry (R137). -/
structure ChiselEntry where
  len : Nat
  npar : Nat
  sealed_ : Bool
  words : Vector Word 64
  /-- Integrity word as stored. -/
  integ : Word
  deriving DecidableEq, Repr

/-- A held-back post (R122). -/
structure HeldPost where
  lane : Nat
  baton : Nat
  /-- Lane cycle of the POST. -/
  at_ : Nat
  /-- Stores of the lane that were issued before the POST and are not yet granted. -/
  stores : Nat
  /-- The later of the POST and the grant of its last earlier store. -/
  base : Nat
  deriving DecidableEq, Repr

/-- A baton taken in lane cycle `cyc`: by TRYW, or by WAIT or a waiting lane with its deadline (R121, R123). -/
structure BatonTake where
  lane : Nat
  baton : Nat
  cyc : Nat
  tryw : Bool
  deadline : Option Nat
  deriving DecidableEq, Repr

/-- The LN block beside the lanes themselves. -/
structure Ln where
  /-- LN_HALF: bit n = 1 when half B of LN_n is active. -/
  half : BitVec 16
  /-- Lane program memory, 4 MiB as the window of R16 lays it out; unlisted bytes read 0. -/
  prog : List (Nat × Byte)
  /-- Bundles (window offset / 32) whose 16-bit check does not verify. -/
  badBundles : List Nat
  fault : LnFault
  batons : Vector Nat 256
  posts : List HeldPost
  /-- Batons taken in the present lane cycle, which a lower lane may still claim (R123). -/
  takes : List BatonTake
  /-- Bundles (window offset / 32) that the host wrote and no placement overwrote (R60). -/
  hostBundles : List Nat
  /-- SHA-256 of the running LANE part, to which the vendor entries belong (R136). -/
  lanePart : List Byte
  /-- Customer entries 0xF0 to 0xFF: active and staged tables (R136); vendor entries are firmware (Config). -/
  active : Vector ChiselEntry 16
  staged : Vector ChiselEntry 16
  /-- Lanes whose copy of an entry (lane, opcode) no longer holds its integrity (R136, R18). -/
  badCopies : List (Nat × Nat)
  /-- LN_CHISEL_STS.ERR. -/
  sealErr : Nat
  deriving DecidableEq, Repr

end Sys2Proof.Machine
end

