-- ==== Sys2Proof/Machine/Parts/Mem.lean ====
section
/-! DEFINITION. State of shared memory, its arbiters and the transfer engine (R170 to R183). -/
namespace Sys2Proof.Machine

/-- The requester of the last turn of a bank: clusters 0 to 3, NE 4, EQ 5, TE 6 (R174). -/
abbrev Requester := Fin 7

/-- One bank's arbiter. -/
structure Bank where
  ptr : Requester
  left : Nat
  /-- Lane last granted in each cluster (R173). -/
  lastLane : Vector Nat 4
  /-- Bank cycle of the last decision, so that a bank grants at most once per cycle. -/
  lastCyc : Option Nat
  grantsCur : Nat
  grantsLast : Nat
  waitMax : Nat
  /-- Lane cycle from which a request of NE, EQ, TE and MGMT waits for its grant (R175). -/
  since : Vector (Option Nat) 4
  deriving DecidableEq, Repr

/-- MEM_TE_SLOT_STS.STATE. -/
inductive TeState where
  | free | queued | running | done | aborted | notRun | refused
  deriving DecidableEq, Repr

/-- A transfer descriptor and its slot (R179). -/
structure TeSlot where
  state : TeState
  op : Nat
  firmware : Bool
  tag : BitVec 16
  src : Nat
  dst : Nat
  len : Nat
  val : Word
  result : Word
  /-- CRC-16 that the module added to the descriptor. -/
  crc : BitVec 16
  deriving DecidableEq, Repr

/-- MEM block. -/
structure Mem where
  /-- The 24 MiB of shared banks by shared offset; unlisted bytes read 0 (R383 step 1). -/
  shared : List (Nat × Byte)
  banks : Vector Bank 32
  te : Vector TeSlot 256
  /-- Queued slots in submission order, per channel. -/
  hostQ : List Nat
  fwQ : List Nat
  /-- The slot each channel runs. -/
  hostRun : Option Nat
  fwRun : Option Nat
  /-- Last slot assigned. -/
  lastSlot : Option Nat
  /-- MEM_TE_LAST per session. -/
  teLast : Vector Nat 4
  halted : Bool
  /-- The 2 MiB of network-engine buffers (R13), whose use the manual leaves to the engine. -/
  neBuf : List (Nat × Byte)
  /-- SRAM of the management core: 256 KiB of the SECURE world, 768 KiB of the NORMAL world (R11, R13). -/
  mgmtSecure : List (Nat × Byte)
  mgmtNormal : List (Nat × Byte)
  /-- Words of that SRAM that hold a single-bit error: address, and whether it is of the SECURE world (R18). -/
  mgmtCe : List (Word × Bool)
  deriving DecidableEq, Repr

end Sys2Proof.Machine
end

