-- ==== Sys2Proof/Machine/Parts/Nvs.lean ====
section
/-! DEFINITION. State of the parameter store (R311 to R326, R419). -/
namespace Sys2Proof.Machine

/-- Journal operation in progress: its JSEQ and kind (R318, R419). -/
structure JOp where
  jseq : Word
  kind : BitVec 8
  /-- The customer chisel entries are among its records. -/
  chisel : Bool
  deriving DecidableEq, Repr

/-- Current slot of a counter ring (R320). -/
structure Ring where
  value : BitVec 64
  seq : Word
  slot : Nat
  /-- Some slot has been written. -/
  written : Bool
  deriving DecidableEq, Repr

/-- NVS block. -/
structure Nvs where
  /-- The 2 MiB array, keyed by store offset; unlisted bytes read 0 (R3, R316). -/
  mem : List (Nat × Byte)
  /-- Offsets of groups that read as uncorrectable (R313, R315). -/
  unc : List Nat
  /-- Offsets of groups holding a single-bit error that a read corrects (R313). -/
  ceGroups : List Nat
  /-- Lock cell of each LOCK page (R322). -/
  locked : BitVec 256
  /-- NVS_STS.JRNL. -/
  jrnl : Nat
  /-- NVS_STS.FLUSH_OK. -/
  flushOk : Bool
  /-- NVS_FLUSH.PARTS and CAUSE, NVS_FLUSH_FRAME. -/
  flushParts : BitVec 4
  flushCause : BitVec 16
  flushFrame : Word
  /-- NVS_EVT. -/
  evt : BitVec 4
  /-- NVS_CE_CNT. -/
  ceCnt : Word
  /-- NVS_UE_ADDR. -/
  ueAddr : Nat
  /-- JSEQ of the journal entry. -/
  jseq : Word
  /-- The journal operation in progress. -/
  jop : Option JOp
  /-- The counter rings (R321). -/
  rings : Vector Ring 8
  /-- Shadow of NVS_CNT_HI, latched by a read of NVS_CNT_LO. -/
  cntShadow : Word
  /-- Operating second of the last periodic retained save, and of the last OP_SECONDS store. -/
  retSec : Nat
  opStoreSec : Nat
  deriving DecidableEq, Repr

end Sys2Proof.Machine
end

