-- ==== Sys2Proof/Machine/Parts/Plr.lean ====
section
/-! DEFINITION. The armature and the state of the placer (R145 to R169). -/
namespace Sys2Proof.Machine

/-- A placed segment: one entry of the timetable (R159). It runs on `lane` in every frame phase of its share. -/
structure Placed where
  segId : Nat
  cls : Nat
  /-- Share frame of a MID or SLOW segment, 0 otherwise. -/
  share : Nat
  lane : Nat
  first : Nat
  nbundle : Nat
  trap : Nat
  /-- Start time as a TICKPH, 0 for none (R155). -/
  start : Nat
  /-- Worst-case finish counted from TICKPH 2,400. -/
  fin : Nat
  /-- WAIT bundles with their deadlines (R125, R155). -/
  deadlines : List (Nat × Nat)
  deriving DecidableEq, Repr

/-- A byte range of shared memory that a lane may access (R159). -/
structure Grant where
  lane : Nat
  base : Nat
  len : Nat
  read : Bool
  write : Bool
  deriving DecidableEq, Repr

/-- What a segment declares of the images and the history (R109, R149): access kinds 0 to 3. -/
structure ImgGrant where
  segId : Nat
  kind : Nat
  first : Nat
  count : Nat
  deriving DecidableEq, Repr

/-- An area of the bank map, numbered as MEM_MAP_SEL.AREA (R156). -/
structure Area where
  id : Nat
  base : Nat
  len : Nat
  vid : Word
  deriving DecidableEq, Repr

/-- A variable of the program (R151) with its place. -/
structure VarInfo where
  vid : Nat
  size : Nat
  typ : Nat
  flags : Nat
  ttag : Nat
  initOff : Nat
  base : Nat
  deriving DecidableEq, Repr

/-- An edge cell: identity, initial value, lane and cell number (R154). -/
structure EdgeInfo where
  id : Nat
  init : Bool
  lane : Nat
  cell : Nat
  deriving DecidableEq, Repr

/-- An armature (R159). -/
structure Armature where
  imageId : Word
  digest : List Byte
  mgmtVer : Word
  laneVer : Word
  rate : Nat
  hm1 : Nat
  margin : Nat
  /-- CHISEL_ID in force when the image was placed (R152, R159), and the one that the image names. -/
  keyChisel : Word
  chiselId : Word
  predHash : List Word
  hasBg : Bool
  m : Nat
  s : Nat
  placed : List Placed
  grants : List Grant
  imgGrants : List ImgGrant
  areas : List Area
  vars : List VarInfo
  edges : List EdgeInfo
  /-- Input words of the MID and SLOW class images, in order, and output words of their buffers. -/
  midIn : List Nat
  slowIn : List Nat
  midOut : List Nat
  slowOut : List Nat
  fastOut : List Nat
  /-- Declared batons with their class. -/
  batons : List (Nat × Nat)
  hash : List Word
  deriving DecidableEq, Repr

/-- PLR_STATE.STATE. -/
inductive PlrState where
  | empty | loading | loaded | placing | placed | refused | armed
  deriving DecidableEq, Repr

/-- PLR block. -/
structure Plr where
  state : PlrState
  /-- NOR program slot of the running image. -/
  runSlot : Bool
  /-- Whether each NOR program slot holds an image, and its IMAGE_ID. -/
  slotId : Vector (Option Word) 2
  /-- The running armature; `none` for the empty program. -/
  run : Option Armature
  /-- The maquette's armature in PLACED and ARMED. -/
  maq : Option Armature
  /-- The armature cache, one entry per slot (R168). -/
  cache : Vector (Option Armature) 2
  cacheHit : Bool
  runRefused : Bool
  result : BitVec 16
  /-- Offset and length of the image being loaded, and the lane cycle of the command. -/
  loadAddr : Nat
  loadLen : Nat
  since : Nat
  report : List (Nat × Word)
  /-- What a placement under way will report, and the code it writes: lane, bundle index, bundle. -/
  nextReport : List (Nat × Word)
  nextCode : List (Nat × Nat × Nat)
  /-- The armed swap frame, and whether its commit point has passed (R164). -/
  swapF : Option Nat
  swapDone : Bool
  /-- Hash of the maquette armature verifies; hash of the armature that start-up loads verifies; timetable entries, by
  lane and number, whose parity fails (R18). -/
  maqHashOk : Bool
  loadHashOk : Bool
  parityBad : List (Nat × Nat)
  deriving DecidableEq, Repr

end Sys2Proof.Machine
end

