-- ==== Sys2Proof/Machine/Parts/Upd.lean ====
section
/-! DEFINITION. State of firmware storage, update sessions, the self-test result and the supply (R378 to R402). -/
namespace Sys2Proof.Machine

/-- State of a firmware bank in the control record (R380). -/
inductive BankState where
  | empty | partial_ | complete | verified
  deriving DecidableEq, Repr

/-- A firmware bank's entry in the control record. -/
structure FwBank where
  state : BankState
  hash : List Byte
  version : Word
  /-- Download offset reached (PARTIAL). -/
  reached : Nat
  deriving DecidableEq, Repr

/-- UPD_STS.SESS. -/
inductive UpdSess where
  | idle | downloading | downloaded | verifying | verified
  deriving DecidableEq, Repr

/-- UPD block. -/
structure Upd where
  /-- The 64 MiB NOR flash by window offset; unlisted bytes read 0xFF. -/
  nor : List (Nat × Byte)
  /-- Control record (R380). -/
  activeBank : Bool
  prevBank : Bool
  banks : Vector FwBank 2
  pending : Bool
  trial : Bool
  expired : Bool
  tbase : Nat
  tstart : Nat
  /-- The bank running. -/
  running : Bool
  fallback : Bool
  rolledBack : Bool
  recovery : Bool
  sess : UpdSess
  holder : Option (Fin 4)
  /-- Lane cycle of the holder's last request to the UPD block. -/
  lastReq : Nat
  /-- Lane cycle at which verification started. -/
  verifyFrom : Nat
  evt : BitVec 4
  bootMs : Nat
  trialN : Nat
  stestPass : BitVec 6
  stestFail : Nat
  stestSkip : BitVec 2
  stestArg : Word
  result : BitVec 8
  nextOff : Nat
  total : Nat
  partVer : Vector Word 6
  deriving DecidableEq, Repr

/-- Supply state (R397 to R402). -/
structure Pwr where
  /-- PFW is asserted, and why: 0 VIN, 1 the 12 V bus. -/
  pfw : Option Nat
  /-- Lane cycle at which it asserted. -/
  since : Nat
  deriving DecidableEq, Repr

end Sys2Proof.Machine
end

