-- ==== Sys2Proof/Machine/State.lean ====
section
/-! DEFINITION. The state of the module, the reasons a step can stop, and the state right after reset. -/
namespace Sys2Proof.Machine

/-- Faults of a step. The manual gives every command an effect, so no meaning raises one; the constructor stands for a
step that has none and nothing in the model answers it (safe). -/
inductive Fault where
  | noEffect
  deriving DecidableEq, Repr

/-- Refusals of a step. -/
inductive Refusal where
  /-- Raised by a command that has no meaning yet (safe). -/
  | notModelled (mnemonic : String)
  deriving DecidableEq, Repr

/-- The control record (R380). -/
structure ControlRec where
  activeBank : Bool
  prevBank : Bool
  banks : Vector FwBank 2
  pending : Bool
  trial : Bool
  expired : Bool
  tbase : Nat
  tstart : Nat
  deriving DecidableEq, Repr

/-- What a copy of a record in RECORDS says (R312): the program slot roles, the customer chisel entries, the control
record, the stored settings with the staged settings of network and metering, what the recorder keeps (R340, R341). -/
inductive RecVal where
  | roles (runSlot : Bool)
  | chisel (entries : Vector ChiselEntry 16)
  | control (r : ControlRec)
  | settings (regs : List (Nat × Word)) (ne : List (Nat × Word)) (eq : List (Nat × Word))
  | recorder (size : Option (Fin 4)) (base : Word)
  deriving DecidableEq, Repr

/-- What the parameter store keeps as records whose payload layout belongs to the firmware (R312, R316). -/
structure Persist where
  /-- What the copies say, two for each kind of record, which `recKinds` numbers. -/
  copies : Vector (Option RecVal) 10
  /-- What the energy saves hold, whose payload layout belongs to the firmware too: ring slots 0 to 3, then EFLUSH. -/
  saves : Vector (Option EqSave) 5
  /-- The count of the backup counter when metering last stopped (R256), until the first frame after it. -/
  eqStopAt : Option Nat
  deriving DecidableEq, Repr

/-- The state of the module. -/
structure State where
  /-- Commands waiting, first in first out. -/
  pending : List Instr
  clk : Clk
  sys : Sys
  att : Attn
  frm : Frm
  lanes : Vector Lane 16
  ln : Ln
  plr : Plr
  mem : Mem
  ne : Ne
  tim : Tim
  rtc : Rtc
  eq : EqEng
  fio : Fio
  can : Can
  hsb : Hsb
  nvs : Nvs
  evr : Evr
  key : Key
  hl : Hl
  upd : Upd
  pwr : Pwr
  tap : Tap
  persist : Persist
  /-- Module-wide RW registers by host address; an unlisted register holds its reset value. -/
  regs : List (Nat × Word)
  /-- Active copies of the staged FIO and CAN registers by host address (R47). -/
  act : List (Nat × Word)
  /-- Rate-limited NOTEs. -/
  rl : List RateRow
  /-- The model's own: number of free values taken so far. -/
  fresh : Nat
  deriving DecidableEq, Repr

namespace State

/-- Ports at 0. -/
def ports0 : UnitPorts := ⟨0, 0, 0, 0, 0, 0, 0⟩

/-- A return slot that nothing has used. -/
def slot0 : RetSlot := ⟨0, false, none, false⟩

/-- A lane after module reset (R74, R76). -/
def lane0 : Lane where
  v := Vector.replicate 64 0
  p := 1
  units := Vector.replicate 15 ports0
  acc := 0
  trap := 0
  repCount := 0
  repSrc := 0
  repDst := 0
  repStride := 0
  repElem := 0
  repVal := 0
  repMask := 0
  repProc := 0
  repRun := .none
  slots := Vector.replicate 20 slot0
  reqs := []
  inflight := []
  step := 0
  lastIssue := none
  divBusy := 0
  fpuBusy := 0
  crdBusy := 0
  scratch := []
  edges := 0
  dsp := 0
  bgDsp := 0
  rstack := []
  pc := 0
  lastPc := 0
  mac := none
  mode := .idle
  wasMode := .idle
  wait := .none
  lastMacro := false
  cls := 0
  segId := 0
  schedPos := 0
  bgPos := 0
  frameEnd := none
  endLast := 0
  slotsCur := 0
  slotsLast := 0
  stallCur := 0
  stallLast := 0
  stallMax := 0
  stallFrom := none
  logs := 0
  logDrops := 0
  bgSaved := none
  saving := false

/-- The bytes over which the integrity word of a chisel entry is taken (R137). -/
def chiselBytes (len npar opcode : Nat) (words : Vector Word 64) : List Byte :=
  leBytes 4 (len % 16 + (npar % 8) * 16) ++ leBytes 1 opcode ++ wordsBytes words.toList

/-- An empty, sealed entry of an opcode (R137). -/
def chiselEmpty (opcode : Nat) : ChiselEntry :=
  ⟨0, 0, true, Vector.replicate 64 0, crc32c (chiselBytes 0 0 opcode (Vector.replicate 64 0))⟩

/-- The sixteen empty customer entries (R3). -/
def customer0 : Vector ChiselEntry 16 := Vector.ofFn fun i => chiselEmpty (0xF0 + i.val)

/-- No lane fault latched. -/
def fault0 : LnFault := ⟨0, 0, false, false, 0, false, none, false, 0, 0, 0⟩

/-- The LN block after module reset. -/
def ln0 : Ln := ⟨0, [], [], fault0, Vector.replicate 256 0, [], [], [], Config.shippedLane, customer0, customer0, [], 0⟩

/-- The integrity word of a key slot (R344). -/
def keyIntegrity (slot : Nat) (material : Vector Byte 32) (attr : Word) : Word :=
  crc32c (material.toList ++ wordBytes attr ++ leBytes 1 slot)

/-- An EMPTY key slot. -/
def key0 (slot : Nat) : KeySlot :=
  ⟨Vector.replicate 32 0, 0, keyIntegrity slot (Vector.replicate 32 0) 0, false, .empty⟩

/-- A time source without a measurement. -/
def source0 : TimSource := ⟨0, false, 0, 0⟩

/-- A PTP port after module reset. -/
def ptp0 : PtpPort :=
  ⟨none, 0, false, 0, 400000000, 400000000, false, 0, 0, none, none, 0, Vector.replicate 3 0, Vector.replicate 3 0, []⟩

/-- Network time 946,684,800 s (R228), in units of 10^-19 s. -/
def ntStart : Nat := 946684800 * 10 ^ 19

/-- The TIM block after module reset (R212). -/
def tim0 : Tim where
  state := .freerun
  src := 0
  holdLim := false
  realign := false
  everLocked := false
  ptpUtc := none
  holdStart := none
  freq := 0
  stored := 0
  lockHist := []
  lockSeg := 0
  offset := 0
  tickErr := 0
  stepPend := none
  steps := []
  lockSrc := 0
  stepped := false
  fromHold := false
  lockRun := 0
  sources := Vector.replicate 3 source0
  ports := Vector.replicate 12 ptp0
  slave := none
  cnt := Vector.replicate 12 (Vector.replicate 8 0)
  irigSts := 0
  irigLast := none
  irigCyc := none
  evt := 0
  nowShadow := 0
  ppsHigh := false
  ppsEnd := 0
  ppsSec := none
  target := 0
  epochSec := none
  sinceTest := 0

/-- A tamper input that is not latched. -/
def tamper0 : Tamper := ⟨0, false, false, false, false, false⟩

/-- The backup domain after a domain reset (R226). -/
def rtc0 : Rtc where
  count := 0
  frac := 0
  xtal := 0
  gen := 0
  shadow := none
  view := true
  test := false
  shiftAmt := 0
  shiftSub := false
  shift := none
  shiftAt := 0
  alarmAt := 0
  alarmReg := 0
  alarm := none
  fire := 0
  evt := 0b00100#5
  tampCfg := 0b0000111#7
  tamp := Vector.replicate 3 tamper0
  tampAt := 0
  bkp := Vector.replicate 16 0
  writes := []
  cellLow := false
  alarmOff := false
  lostOff := false

/-- A bank arbiter after module reset: the turn before the first is that of TE. -/
def bank0 : Bank := ⟨6, 0, Vector.replicate 4 3, none, 0, 0, 0, Vector.replicate 4 none⟩

/-- A FREE transfer slot. -/
def te0 : TeSlot := ⟨.free, 0, false, 0, 0, 0, 0, 0, 0, 0⟩

/-- The MEM block after module reset. -/
def mem0 : Mem :=
  ⟨[], Vector.replicate 32 bank0, Vector.replicate 256 te0, [], [], none, none, none, Vector.replicate 4 0, false, [], [], [], []⟩

/-- A pair of ports without link. -/
def pair0 : Pair := ⟨false, false, 0, 0, 0, none, none, 0, 0, [], [], [], 0, 0, true, 0⟩

/-- An SV subscription in OFF. -/
def sv0 : SvSub := ⟨.off, 0, 0, 0, Vector.replicate 9 0, 0, 0, none, none, []⟩

/-- A GOOSE subscription in OFF. -/
def gs0 : GsSub :=
  ⟨.off, false, false, false, false, false, false, false, false, false, 0, 0, 0, 0, 0, 0, List.replicate 32 0,
   Vector.replicate 7 0, 0, 0, []⟩

/-- An SV publication in OFF. -/
def sp0 : SvPub := ⟨.off, 0, 0, []⟩

/-- A GOOSE publication in OFF. -/
def gp0 : GoPub := ⟨.off, 0, 0, 0, none, false, 0, 0, 0, 0, false⟩

/-- The NE block after module reset. -/
def ne0 : Ne where
  stg := []
  act := []
  pub := []
  pairs := Vector.replicate 6 pair0
  portCnt := Vector.replicate 12 (Vector.replicate 8 0)
  evt := 0
  sv := Vector.replicate 24 sv0
  gs := Vector.replicate 256 gs0
  sp := Vector.replicate 8 sp0
  gp := Vector.replicate 64 gp0
  frozen := []
  gsStepAt := 0
  gsStep := []
  lastCut := none
  sent := []
  badDesc := none

/-- No energy. -/
def ereg0 : EnergyReg := ⟨0, 0, 0, false⟩

/-- Sums at 0. -/
def psum0 : PhaseSum := ⟨0, 0, 0, 0⟩
def csum0 : CycSum := ⟨Vector.replicate 3 psum0, 0, 0, false, false, false⟩

/-- Values at 0. -/
def pavg0 : PhaseAvg := ⟨0, 0, 0, 0, 0⟩

/-- Registers, counts and flags at 0. -/
def kept0 : PointKept := ⟨Vector.replicate 7 ereg0, 0, false, false, false, false, false, 0⟩

/-- A metering point that has never been used. -/
def point0 : Point where
  kept := kept0
  freerun := true
  prevU := 0
  armed := false
  cycleEnd := 0
  freq := 0
  cur := csum0
  late := csum0
  lastGood := Vector.replicate 3 (0, 0)
  badRun := 0
  cycles := 0
  weight := 0
  interval := Vector.replicate 3 pavg0
  lastCycle := Vector.replicate 3 pavg0
  latched := none
  newFlag := false
  snapA := []
  snapB := []
  showB := false
  newer := false

/-- A channel with unit gain. -/
def chan0 : EqChan where
  gain := 0x40000000
  phase := 0
  x := 0
  prev := 0
  armedLo := false
  armedHi := false
  halfFree := false
  halfStart := 0
  halfSq := 0
  halfN := 0
  lateSq := 0
  lateN := 0
  pq := .normal
  events := 0
  rms := 0
  rms01 := 0
  extreme := 0
  halves := 0
  start := 0

/-- A pulse generator at rest. -/
def gen0 : PulseGen := ⟨0, [], [], false, false, 0, 0, 0, none, none⟩

/-- The EQ block after module reset of a module that has never metered (R255). -/
def eq0 : EqEng where
  stg := []
  act := []
  was := []
  points := Vector.replicate 96 point0
  chans := Vector.replicate 192 chan0
  gens := Vector.replicate 16 gen0
  evt := 0
  run := false
  gapSts := false
  gapMs := 0
  hold := false
  holdCyc := 0
  snapOvr := 0
  queue := []
  pqSeq := 0
  saveSeq := 0
  saveFrom := 0
  saveDue := none
  saveCopy := none
  saveFrame := 0
  atDoubt := none
  presets := []
  doneFrame := none
  words := []

/-- A field input at 0. -/
def in0 : FieldIn := ⟨false, false, false, false, 0⟩

/-- A field output of a DISABLED group: code 8 (R268). -/
def out0 : FieldOut := ⟨false, false, none, false, 8, 0, none, false, 0⟩

/-- An output group after module reset. -/
def og0 : OutGroup := ⟨false, false, false, false⟩

/-- The FIO block after module reset. -/
def fio0 : Fio :=
  ⟨Vector.replicate 32 in0, Vector.replicate 16 out0, Vector.replicate 4 false, Vector.replicate 2 og0, 0, 0, 0, 0, [], []⟩

/-- An empty CAN frame. -/
def frame0 : CanFrame := ⟨0, 0, Vector.replicate 16 0⟩

/-- An IDLE transmit buffer. -/
def txbuf0 : TxBuf := ⟨.idle, false, 0, 0, 0, 0, frame0, none, false, 0⟩

/-- A CAN controller with EN = 0 after module reset (R274), with the timing registers at their reset values. -/
def can0 : CanCtl where
  state := .off
  btErr := false
  refLost := false
  tec := 0
  recv := 0
  evt := 0
  cnt := Vector.replicate 8 0
  bufs := Vector.replicate 3 txbuf0
  rxq0 := []
  rxq1 := []
  ovf0 := false
  ovf1 := false
  cfg := 0x00000008#32
  nbt := 0x1F1F7E00#32
  dbt := 0x17071E00#32
  attempt := none
  withdrawn := none
  errTx := none
  ssp := none
  refDue := none
  refCycle := 0
  lastCycle := none
  refShown := 0
  refNew := false
  refSof := 0
  refHeard := 0
  closing := false
  sentFrame := none

/-- The HSB block after module reset (HSB_STS.ROLE resets to 0). -/
def hsb0 : Hsb where
  cfg := 0x01F4033C#32
  bcnDmac := 0x030000000001
  role := .alone
  roleK := 0
  peerRole := none
  peerMac := 0
  peerBeat := none
  link := Vector.replicate 2 false
  heard := Vector.replicate 2 false
  linkDowns := Vector.replicate 2 0
  beaconNow := false
  beaconSeen := false
  seekFrom := 0
  seekDone := false
  peerStart := false
  agreed := false
  peerK0 := none
  xferFrom := none
  xferDone := false
  xferMissed := false
  xferNext := 0
  scanOwn := none
  scanPeer := none
  scanRun := 0
  ready := false
  refuse := 0
  handover := none
  hoCommitted := false
  evt := 0
  divFrame := 0
  divWord := 0
  divOwn := 0
  divPeer := 0
  cnt := Vector.replicate 8 0
  divTimes := []
  record := none
  mirSv := []
  mirBase := []
  mirGs := []
  mirCan := []
  meter := none
  output := none
  ownOut := none
  own := false
  ownPrev := false
  imageJudged := false
  compared := none
  missRec := 0
  missBeat := 0
  doubtAt := none
  divDue := none
  dual := none
  peerSt := []
  switchovers := 0
  switchK := 0
  ownVerdict := none
  verdictDiff := false
  failover := false
  taken := []
  takenPrev := []
  txSeq := 0
  sent := []

/-- A counter ring that has never been written (R320). -/
def ring0 : Ring := ⟨0, 0, 0, false⟩

/-- The 16 bytes of a counter slot (R320). -/
def ringSlotBytes (value : Nat) (seq : Nat) : List Byte :=
  leBytes 8 value ++ leBytes 4 seq ++ wordBytes (crc32c (leBytes 8 value ++ leBytes 4 seq))

/-- Lock cells that the factory has set (R322, R352): the IDENTITY pages and page 129. -/
def locked0 : BitVec 256 := BitVec.ofNat 256 (2 ^ 64 - 1 + 2 ^ 129)

/-- The parameter store at the first start-up from the factory: only POWER_CYCLES has been written, with 1 (R321). -/
def nvs0 : Nvs where
  mem := sputs (fun _ => (0 : Byte)) 0x8000 (ringSlotBytes 1 1) []
  unc := []
  ceGroups := []
  locked := locked0
  jrnl := 0
  flushOk := false
  flushParts := 0
  flushCause := 0
  flushFrame := 0
  evt := 0
  ceCnt := 0
  ueAddr := 0
  jseq := 0
  jop := none
  rings := (Vector.replicate 8 ring0).set 0 ⟨1, 1, 0, true⟩
  cntShadow := 0
  retSec := 0
  opStoreSec := 0

/-- A full token bucket of the reset BURST (R334). -/
def bucket0 : Bucket := ⟨256, 0, 0, 0⟩

/-- The recorder at the first start-up from the factory (R3, R341): empty, size code 2 in force. -/
def evr0 : Evr where
  size := some 2
  cur := none
  queue := []
  pending := []
  lostDue := false
  lost := 0
  lostQ := ⟨0, 0⟩
  lostB := ⟨0, 0⟩
  evt := 0
  base := 0
  buckets := Vector.replicate 16 bucket0
  draining := false
  lastToken := 0

/-- The key engine with every slot EMPTY (R3). -/
def keys0 : Key where
  slots := Vector.ofFn fun i => key0 i.val
  wrAttr := 0
  wrData := Vector.replicate 8 0
  wr := none
  evt := 0
  rngOk := true
  rngCount := 0
  opState := .idle
  op := none
  opRes := Vector.replicate 8 0

/-- The host link without a session. -/
def hl0 : Hl where
  sessions := Vector.replicate 4 none
  hellos := Vector.replicate 4 none
  evt := 0
  violCnt := 0
  owed := none
  eps := []
  lastOut := none
  lastTo := none
  hpReply := none
  hpOut := []
  udpEn := false
  udpPair := false
  udpPort := 0x4F5A#16
  ip := 0
  vlan := none
  macs := []
  arpSent := 0
  icmpSent := 0

/-- The shipped firmware in bank 0, bank 1 empty (R3). -/
def upd0 : Upd where
  nor := []
  activeBank := false
  prevBank := true
  banks := #v[⟨.verified, Config.shippedHash, Config.shippedVersion, 0⟩, ⟨.empty, [], 0, 0⟩]
  pending := false
  trial := false
  expired := false
  tbase := 0
  tstart := 0
  running := false
  fallback := false
  rolledBack := false
  recovery := false
  sess := .idle
  holder := none
  lastReq := 0
  verifyFrom := 0
  evt := 0
  bootMs := 0
  trialN := 0
  stestPass := 0b111111#6
  stestFail := 0
  stestSkip := 0
  stestArg := 0
  result := 0
  nextOff := 0
  total := 0
  partVer := Vector.ofFn fun i => Config.partVersion i.val

/-- The placer of a module without a program: EMPTY, the empty program runs (R168). -/
def plr0 : Plr where
  state := .empty
  runSlot := false
  slotId := Vector.replicate 2 none
  run := none
  maq := none
  cache := Vector.replicate 2 none
  cacheHit := false
  runRefused := false
  result := 0
  loadAddr := 0
  loadLen := 0
  since := 0
  report := []
  nextReport := []
  nextCode := []
  swapF := none
  swapDone := false
  maqHashOk := true
  loadHashOk := true
  parityBad := []

/-- FRM after module reset with RATE = 1 and HM1 = 1 (a module that has never been written). -/
def frm0 : Frm where
  state := .starting
  rate := 1
  hm1 := 1
  k := 0
  ticks := 0
  kShadow := 0
  k0 := 0
  k0Shadow := 0
  useLast := 0
  useMax := 0
  evt := 0
  commitArmed := false
  commitGroups := 0
  commitF := 0
  committed := false
  lastLate := false
  ovrLanes := 0
  ovrClass := 0
  bgPreempt := 0
  hostEvt := 0
  hostStep := 0
  hostStepAt := 0
  evwNext := 0
  evwStep := 0
  evwStepAt := 0
  evw := 0
  hbToggles := 0
  hbCyc := 0
  assembled := false
  windowOpen := false
  guardDone := false
  ttick := 0
  ttFlags := 0
  sync := 0
  midDone := []
  slowDone := []
  tickCyc := 0
  keyWords := [0, 0, 0, 0]

/-- No doubt. -/
def sys0 : Sys where
  firstCause := 0
  firstBit := 0
  latched := false
  plinth := false
  flushed := false
  flushedCyc := 0
  cause := 0
  doubtFrame := 0
  doubtPhase := 0
  doubtCyc := 0
  flush := .none
  doubtBeforeFirst := false
  resetCommanded := false
  mgmtRestarted := false
  goosePending := false
  retired := false
  badBlocks := []
  badRegs := []
  badStaged := 0

/-- A factory module right after its first module reset, with start-up up to step 5 passed, before the first tick. -/
def reset : State where
  pending := []
  clk := ⟨0, 0, 0, 0, ntStart, true⟩
  sys := sys0
  att := ⟨0, Vector.replicate 4 0, 0x0008#16⟩
  frm := frm0
  lanes := Vector.replicate 16 lane0
  ln := ln0
  plr := plr0
  mem := mem0
  ne := ne0
  tim := tim0
  rtc := rtc0
  eq := eq0
  fio := fio0
  can := ⟨Vector.replicate 4 can0⟩
  hsb := hsb0
  nvs := nvs0
  evr := evr0
  key := keys0
  hl := hl0
  upd := upd0
  pwr := ⟨none, 0⟩
  tap := ⟨false, .idcode⟩
  persist := ⟨Vector.replicate 10 none, Vector.replicate 5 none, none⟩
  regs := []
  act := []
  rl := []
  fresh := 0

end State

end Sys2Proof.Machine
end

