-- ==== Sys2Proof/Machine/Ops.lean ====
section
/-! DEFINITION. The named operations that the meanings share: indexed access, memories, registers, times, recorder
entries, the doubt latch, STATUS and the shape of every command. -/
namespace Sys2Proof.Machine

/-! ### Indexed access -/

/-- The element of a vector at a number; `d` past its end. -/
def vget {α : Type} {n : Nat} (d : α) (v : Vector α n) (i : Nat) : α := if h : i < n then v[i] else d

/-- The vector with `x` at a number; unchanged past its end. -/
def vset {α : Type} {n : Nat} (v : Vector α n) (i : Nat) (x : α) : Vector α n := if h : i < n then v.set i x else v

/-- The vector with the element at a number changed; unchanged past its end. -/
def vmod {α : Type} {n : Nat} (v : Vector α n) (i : Nat) (f : α → α) : Vector α n :=
  if h : i < n then v.set i (f v[i]) else v

/-- Every element changed, with its number. -/
def vmap {α β : Type} {n : Nat} (v : Vector α n) (f : Nat → α → β) : Vector β n := Vector.ofFn fun i => f i.val v[i.val]

/-- Bit `i` of a bit vector set. -/
def setBit {n : Nat} (v : BitVec n) (i : Nat) : BitVec n := v ||| (1#n <<< i)

/-- Bit `i` of a bit vector cleared. -/
def clrBit {n : Nat} (v : BitVec n) (i : Nat) : BitVec n := v &&& ~~~(1#n <<< i)

/-- Bit `i` of a bit vector set to a value. -/
def putBit {n : Nat} (v : BitVec n) (i : Nat) (b : Bool) : BitVec n := if b then setBit v i else clrBit v i

/-- A saturating counter word. -/
def satInc (x : Word) : Word := if x = 0xFFFFFFFF#32 then x else x + 1

/-- The numbers 0 to n − 1 at which a test holds. -/
def where_ (n : Nat) (p : Nat → Bool) : List Nat := (List.range n).filter p

/-- A change made for each number of a list, in order. -/
def forAll {σ : Type} (is : List Nat) (f : Nat → σ → σ) (s : σ) : σ := is.foldl (fun s i => f i s) s

/-! ### Memories -/

/-- Every memory of bytes that starts at 0. -/
def zeroByte : Nat → Byte := fun _ => 0

/-- Shared memory (R13), by shared offset. -/
def shByte (s : State) (a : Nat) : Byte := sget zeroByte s.mem.shared a

/-- A word of shared memory, little-endian (R4). -/
def shWord (s : State) (a : Nat) : Word := BitVec.ofNat 32 (leNat (sgets zeroByte s.mem.shared a 4))

/-- Shared memory with bytes written. -/
def shPut (a : Nat) (bs : List Byte) (s : State) : State :=
  { s with mem := { s.mem with shared := sputs zeroByte a bs s.mem.shared } }

/-- Shared memory with a word written. -/
def shPutW (a : Nat) (x : Word) (s : State) : State := shPut a (wordBytes x) s

/-- The 24 MiB of the shared banks and the 768 KiB of one (R13). -/
def sharedSize : Nat := 0x1800000
def bankSize : Nat := 0xC0000

/-- A byte of the parameter store. -/
def nvByte (s : State) (a : Nat) : Byte := sget zeroByte s.nvs.mem a

/-- A number of `n` bytes in the parameter store. -/
def nvNat (s : State) (a n : Nat) : Nat := leNat (sgets zeroByte s.nvs.mem a n)

/-- Bytes written to the parameter store: each group written is whole again (R313, R314). -/
def nvPut (a : Nat) (bs : List Byte) (s : State) : State :=
  let hit (g : Nat) : Bool := decide (a < g + 8 ∧ g < a + bs.length)
  { s with nvs := { s.nvs with
      mem := sputs zeroByte a bs s.nvs.mem
      unc := s.nvs.unc.filter fun g => !hit g
      ceGroups := s.nvs.ceGroups.filter fun g => !hit g } }

/-- A byte of the NOR window: unprogrammed flash reads 0xFF; firmware bank 0 ships with vendor data (R3, R378). -/
def norDefault (a : Nat) : Byte := if a < 0x1800000 then Config.shippedFw a else 0xFF

/-- The memories of the module are in canonical form: addresses strictly rising, and no byte listed that equals what
the memory reads without it. -/
def Memory.wf (s : State) : Bool :=
  swf zeroByte s.mem.shared && swf zeroByte s.ln.prog && s.lanes.all (fun ln => swf zeroByte ln.scratch)
  && swf zeroByte s.nvs.mem && swf norDefault s.upd.nor
  && swf zeroByte s.mem.neBuf && swf zeroByte s.mem.mgmtSecure && swf zeroByte s.mem.mgmtNormal

/-! ### Registers -/

/-- The value a register holds that is written by the host (module-wide copy). -/
def reg (a : Nat) (s : State) : Word := sget regReset s.regs a

/-- Write such a register. -/
def setReg (a : Nat) (x : Word) (s : State) : State := { s with regs := sput regReset a x s.regs }

/-- The active copy of a staged FIO or CAN register (R47). -/
def regAct (a : Nat) (s : State) : Word := sget regReset s.act a

/-- A session's copy of a register of R371. -/
def regSes (a : Nat) (ss : Session) : Word := sget regReset ss.regs a

/-! ### Time -/

/-- Lane cycles per second, ms and µs (R2: 400 MHz). -/
def cycSec : Nat := 400000000
def cycMs : Nat := 400000
def cycUs : Nat := 400

/-- Tick rate in Hz of a rate code (R31); codes 6 and 7 act as 1 (FRM_CFG.RATE). -/
def rateHz : Nat → Nat
  | 0 => 4000 | 1 => 4800 | 2 => 5760 | 3 => 9600 | 4 => 12800 | 5 => 14400 | _ => 4800

/-- GUARD_CYC of a rate code (R31). -/
def guardCycOf : Nat → Nat
  | 0 => 98400 | 1 => 81732 | 2 => 67844 | 3 => 40064 | 4 => 29648 | 5 => 26176 | _ => 81732

/-- The first lane cycle of the compute window (R31). -/
def windowStart : Nat := 2400

/-- Tick rate and guard in force. -/
def rate (s : State) : Nat := rateHz s.frm.rate
def guardCyc (s : State) : Nat := guardCycOf s.frm.rate
def horizon (s : State) : Nat := s.frm.hm1 + 1

/-- Units of 10^-19 s in a second and in a nanosecond. -/
def ntSec : Nat := 10 ^ 19
def ntNs : Nat := 10 ^ 10

/-- Network time in whole seconds, and the nanoseconds beyond them. -/
def nowSec (s : State) : Nat := s.clk.nt / ntSec
def nowNs (s : State) : Nat := s.clk.nt % ntSec / ntNs

/-- Time locked, in holdover, holdover limit reached, realigning (R212, R214, R224). -/
def timeFlags (s : State) : BitVec 4 :=
  let b (c : Bool) (i : Nat) : BitVec 4 := if c then 1#4 <<< i else 0
  b (s.tim.state == .locked) 0 ||| b (s.tim.state == .holdover) 1 ||| b s.tim.holdLim 2 ||| b s.tim.realign 3

/-- Operating time in lane cycles (R321), and in ms. -/
def opTime (s : State) : Nat := s.clk.opSec * cycSec + s.clk.opCyc
def opMs (s : State) : Nat := opTime s / cycMs

/-- Before the first frame after start-up (R327). -/
def booting (s : State) : Bool := s.frm.ticks == 0

/-- Low 32 bits of k, 0 before the first frame. -/
def kLow (s : State) : Word := if booting s then 0 else w s.frm.k

/-- HSB_CFG.EN, as read at module reset. -/
def hsbEn (s : State) : Bool := s.hsb.cfg.getLsbD 0

/-- A message goes out on both sync links under the next sequence number (R294). -/
def hsbPush (m : HsbMsg) (s : State) : State :=
  { s with hsb := { s.hsb with sent := s.hsb.sent ++ [⟨kLow s, s.hsb.txSeq, m⟩], txSeq := s.hsb.txSeq + 1 } }

/-- PLR_STS.STATE. -/
def PlrState.code : PlrState → Nat
  | .empty => 0 | .loading => 1 | .loaded => 2 | .placing => 3 | .placed => 4 | .refused => 5 | .armed => 6

/-! ### Free values -/

/-- Draw a free value. -/
def drawFree (s : State) : Word × State := (Config.freeWord s.fresh, { s with fresh := s.fresh + 1 })

/-! ### Life cycle and counters -/

/-- KEY_STS.LC: 0 MANUFACTURE, 1 PROVISION, 2 FIELD, 3 RETIRED (R352). -/
def lifecycle (s : State) : Nat :=
  if s.nvs.locked.getLsbD 131 then 3 else if s.nvs.locked.getLsbD 130 then 2
  else if s.nvs.locked.getLsbD 129 then 1 else 0

/-- Low 32 bits of POWER_CYCLES and of the live OP_SECONDS (R321). -/
def powerCycles (s : State) : Word := BitVec.setWidth 32 (s.nvs.rings[0]).value
def opSeconds (s : State) : Word := w s.clk.opSec

/-- TOTAL, counter ring 4 (R335). -/
def evrTotal (s : State) : Word := BitVec.setWidth 32 (s.nvs.rings[4]).value

/-! ### Recorder entries -/

/-- SOURCE codes (R329); LN_n is n, CAN_n is 0x19 + n. -/
def srcSYS : BitVec 8 := 0x10
def srcFRM : BitVec 8 := 0x11
def srcPLR : BitVec 8 := 0x12
def srcMEM : BitVec 8 := 0x13
def srcNE : BitVec 8 := 0x14
def srcTIM : BitVec 8 := 0x15
def srcRTC : BitVec 8 := 0x16
def srcEQ : BitVec 8 := 0x17
def srcFIO : BitVec 8 := 0x18
def srcHSB : BitVec 8 := 0x1D
def srcNVS : BitVec 8 := 0x1E
def srcEVR : BitVec 8 := 0x1F
def srcKEY : BitVec 8 := 0x20
def srcUPD : BitVec 8 := 0x21
def srcHL : BitVec 8 := 0x22
def srcBOOT : BitVec 8 := 0x23

/-- An entry stamped by the intake (R331). -/
def stamp (e : Entry) (s : State) : Taken := ⟨e, opSeconds s, powerCycles s, kLow s, booting s⟩

/-- Queue order: arrival, and ascending SOURCE within one cycle (R332). -/
def queueInsert (e : Entry) : List Entry → List Entry
  | [] => [e]
  | q :: t => if e.cyc = q.cyc ∧ e.source < q.source then e :: q :: t else q :: queueInsert e t

/-- Remove the newest queued entry of a severity below MODULE (R332). -/
def dropNewest (q : List Entry) : Option (Entry × List Entry) :=
  match q.reverse.findIdx? (fun x => x.sev ≠ .module) with
  | some i => (q.reverse[i]?).map fun x => (x, (q.reverse.eraseIdx i).reverse)
  | none => none

/-- Count one lost entry for cause 0 (queue full). -/
def loseQ (code : BitVec 16) (v : Evr) : Evr :=
  { v with lost := v.lost + 1, evt := setBit v.evt 1,
           lostQ := if v.lostQ.count = 0 then ⟨1, code⟩ else { v.lostQ with count := v.lostQ.count + 1 } }

/-- Count one lost entry for cause 1 (buffer full). -/
def loseB (code : BitVec 16) (v : Evr) : Evr :=
  { v with lost := v.lost + 1, evt := setBit v.evt 1,
           lostB := if v.lostB.count = 0 then ⟨1, code⟩ else { v.lostB with count := v.lostB.count + 1 } }

/-- A source raises an entry (R332): the idle intake takes it at once; else it waits in the queue of 16. -/
def raiseEntry (e : Entry) (s : State) : State :=
  if s.evr.cur.isNone ∧ s.evr.queue = [] then { s with evr := { s.evr with cur := some (stamp e s) } }
  else if s.evr.queue.length < 16 then { s with evr := { s.evr with queue := queueInsert e s.evr.queue } }
  else if e.sev = .module then
    match dropNewest s.evr.queue with
    | some (l, q) => { s with evr := loseQ l.code { s.evr with queue := queueInsert e q } }
    | none => { s with evr := loseQ e.code s.evr }
  else { s with evr := loseQ e.code s.evr }

/-- Raise a NOTE. -/
def note (code : BitVec 16) (src : BitVec 8) (p0 p1 p2 : Word) (s : State) : State :=
  raiseEntry ⟨code, src, .note, false, p0, p1, p2, s.clk.cyc⟩ s

/-- Raise an entry of severity LOCAL. -/
def localDoubt (code : BitVec 16) (src : BitVec 8) (p0 p1 p2 : Word) (s : State) : State :=
  raiseEntry ⟨code, src, .local_, false, p0, p1, p2, s.clk.cyc⟩ s

/-- A parameter that the owning chapter does not give: a free value. -/
def un (code : BitVec 16) (pos : Nat) (s : State) : Word := Config.entryParam code.toNat pos s.clk.cyc

/-- Entries whose chapter gives no parameters at all. -/
def noteU (code : BitVec 16) (src : BitVec 8) (s : State) : State := note code src (un code 0 s) (un code 1 s) (un code 2 s) s
def localU (code : BitVec 16) (src : BitVec 8) (s : State) : State :=
  localDoubt code src (un code 0 s) (un code 1 s) (un code 2 s) s

/-- Entries with one parameter given, and with two. -/
def note1 (code : BitVec 16) (src : BitVec 8) (p : Word) (s : State) : State := note code src p (un code 1 s) (un code 2 s) s
def note2 (code : BitVec 16) (src : BitVec 8) (p q : Word) (s : State) : State := note code src p q (un code 2 s) s

/-- Find a rate row. -/
def rlFind (obj code : Nat) : List RateRow → RateRow
  | [] => ⟨obj, code, 0, none⟩
  | r :: t => if r.obj = obj ∧ r.code = code then r else rlFind obj code t

/-- Store a rate row, keeping one row per object and code. -/
def rlPut (r : RateRow) : List RateRow → List RateRow
  | [] => [r]
  | q :: t => if q.obj = r.obj ∧ q.code = r.code then r :: t else q :: rlPut r t

/-- A NOTE written at most once per second and object: `mk` builds it from the occurrences since the last one. -/
def rlNote (obj code : Nat) (mk : Word → State → State) (s : State) : State :=
  let r := rlFind obj code s.rl
  let n := r.since + 1
  let due := match r.last with
    | none => true
    | some c => decide (c + cycSec ≤ s.clk.cyc)
  if due then mk (w n) { s with rl := rlPut { r with since := 0, last := some s.clk.cyc } s.rl }
  else { s with rl := rlPut { r with since := n } s.rl }

/-! ### The event word -/

/-- The 10 ns step of the frame scheduler (R31). -/
def tickStep (s : State) : Nat := s.clk.cyc / 4

/-- A capture of network time, quantised to 2 ns (R210). -/
def ntCap (s : State) : Nat := s.clk.nt / (2 * ntNs) * (2 * ntNs)

/-- Event source `n` asserts (R39): the assertions of one 10 ns step are kept apart until the step is over (R36). -/
def assertEvw (n : Nat) (s : State) : State :=
  if s.frm.evwStepAt = tickStep s then { s with frm := { s.frm with evwStep := setBit s.frm.evwStep n } }
  else { s with frm := { s.frm with
    evwNext := s.frm.evwNext ||| s.frm.evwStep, evwStep := setBit 0 n, evwStepAt := tickStep s } }

/-! ### STATUS (R372) and the attention generation (R373) -/

/-- STATUS as its sources stand. -/
def status (s : State) : BitVec 16 :=
  let b (c : Bool) (i : Nat) : BitVec 16 := if c then 1#16 <<< i else 0
  b (s.evr.evt.getLsbD 0) 0 ||| b s.sys.latched 1 ||| b (s.sys.plinth || s.sys.retired) 2
  ||| b (s.hsb.role == .alone || s.hsb.role == .active) 3
  ||| b (s.hsb.role == .standby || (s.hsb.role == .active && s.hsb.peerRole == some .standby)) 4
  ||| b (s.tim.state == .locked) 5 ||| b (s.frm.evt.getLsbD 0) 6 ||| b s.upd.pending 7 ||| b s.upd.trial 8
  ||| b (s.rtc.tamp.toList.any fun t => t.latched) 9
  ||| b (s.key.slots.toList.any fun k => k.state == .bad) 10
  ||| b (s.plr.state == .placed || s.plr.state == .armed) 11
  ||| b (s.eq.evt.getLsbD 0) 12 ||| b (s.fio.evt != 0) 13 ||| b (s.ne.evt != 0) 14 ||| b (s.hl.evt.getLsbD 0) 15

/-- Bits set in a 16-bit value. -/
def popcount16 (x : BitVec 16) : Nat := (where_ 16 fun i => x.getLsbD i).length

/-- Account the STATUS bits that rose since STATUS was last compared (R373). -/
def settle (s : State) : State :=
  let now := status s
  let rose := now &&& ~~~s.att.last
  { s with att := ⟨s.att.agen + w (popcount16 rose), s.att.rose.map (· ||| rose), now⟩ }

/-- The shape of a command: nothing happens in an unpowered module; otherwise its effect, then STATUS follows. -/
def act (eff : State → State) (s : State) : Host.Outcome State Fault Refusal :=
  .next (if s.clk.power then settle (eff s) else s)

/-- The shape of an event of the backup domain, which its cell keeps running (R226). -/
def domainAct (eff : State → State) (s : State) : Host.Outcome State Fault Refusal :=
  .next (if s.clk.power then settle (eff s) else eff s)

/-- An event acts only while its condition holds. -/
def whenever (c : Bool) (eff : State → State) (s : State) : State := if c then eff s else s

/-! ### Frame state -/

/-- The module runs frames: ticks are issued and no MODULE doubt stopped them (R25 step 2). -/
def running (s : State) : Bool := s.frm.state == .running

/-- A lane changed. -/
def modLane (l : Fin 16) (f : Lane → Lane) (s : State) : State := { s with lanes := s.lanes.set l.val (f (s.lanes[l.val])) }

/-- Every lane changed, with its number. -/
def modLanes (f : Nat → Lane → Lane) (s : State) : State := { s with lanes := vmap s.lanes f }

end Sys2Proof.Machine
end

