-- ==== Sys2Proof/Machine/Clock.lean ====
section
/-! DEFINITION. The passing of time: one lane cycle of 2.5 ns (R2), with which operating time, network time and the
backup counter run on. -/
namespace Sys2Proof.Machine

/-- The backup domain over one lane cycle: its crystal gives 32,768 ticks per second (R226, R227). -/
def rtcElapse (r : Rtc) : Rtc :=
  let f := r.frac + 32768
  if f < cycSec then { r with frac := f }
  else { r with frac := f - cycSec, count := (r.count + 1) % 2 ^ 48, xtal := r.xtal + 1 }

/-- Network time over one lane cycle, at the rate correction in force (R213): 2.5 ns and 25 units per 0.001 ppm. -/
def ntElapse (nt : Nat) (freq : Int) : Nat := (Int.ofNat nt + 25000000000 + 25 * freq).toNat

/-- The clocks over one lane cycle. -/
def clkElapse (c : Clk) (freq : Int) : Clk :=
  { c with
    cyc := c.cyc + 1
    tickph := c.tickph + 1
    opCyc := if c.opCyc + 1 = cycSec then 0 else c.opCyc + 1
    opSec := if c.opCyc + 1 = cycSec then c.opSec + 1 else c.opSec
    nt := ntElapse c.nt freq }

/-- The management core reads its SRAM as it runs; a single-bit error found so is corrected and noted (R18, R23). -/
def mgmtRead (s : State) : State :=
  match s.mem.mgmtCe with
  | [] => s
  | (a, secure) :: t => note2 0x0013 srcSYS a (bitWord secure) { s with mem := { s.mem with mgmtCe := t } }

/-- What one lane cycle without a command changes. -/
def elapse (s : State) : State :=
  if s.clk.power then settle (mgmtRead { s with clk := clkElapse s.clk s.tim.freq, rtc := rtcElapse s.rtc })
  else { s with rtc := rtcElapse s.rtc }

end Sys2Proof.Machine
end

