-- ==== Sys2Proof/Machine/Areas.lean ====
section
/-! DEFINITION. The bank map in force (R14, R156, R177): where images, sample history and variables lie. -/
namespace Sys2Proof.Machine

/-- A byte range of shared memory in use. -/
structure Range where
  base : Nat
  len : Nat
  deriving DecidableEq, Repr

/-- Two ranges share a byte. -/
def overlaps (a : Range) (base len : Nat) : Bool := decide (a.base < base + len ∧ base < a.base + a.len)

/-- The lowest offset of a bank at which `len` bytes fit beside the ranges in use: offset 0, or the end of a range. -/
def fitInBank (used : List Range) (bank len : Nat) : Option Nat :=
  let lo := bank * bankSize
  let ends := used.filterMap fun r =>
    if lo ≤ r.base ∧ r.base < lo + bankSize then some (r.base + r.len) else none
  let fits (a : Nat) : Bool := decide (a + len ≤ lo + bankSize) && !used.any fun r => overlaps r a len
  ((lo :: ends).filter fits).foldl (fun m a => match m with
    | none => some a
    | some b => some (min a b)) none

/-- The highest-numbered bank with room, of the `n` lowest banks (R156). -/
def fitTop (used : List Range) (len : Nat) : Nat → Option Nat
  | 0 => none
  | n + 1 => match fitInBank used n len with
    | some a => some a
    | none => fitTop used len n

/-- Sizes of the fixed areas (R14): input image, output image, one stream's history, recorder intake, energy state. -/
def lenIn : Nat := 0x40000
def lenOut : Nat := 0x10000
def lenHist : Nat := 0x48000
def lenIntake : Nat := 0x10000
def lenEnergy : Nat := 0x40000

/-- The areas of the empty program, in the order of R156, with their numbers (MEM_MAP_SEL.AREA). -/
def emptyOrder : List (Nat × Nat) :=
  [(0, lenIn), (1, lenOut)] ++ (List.range 24).map (fun i => (2 + i, lenHist)) ++ [(28, lenIntake), (29, lenEnergy)]

/-- Place areas from bank 31 downward. -/
def placeDown : List (Nat × Nat) → List Range → List Area
  | [], _ => []
  | (id, len) :: t, used =>
    match fitTop used len 32 with
    | some a => ⟨id, a, len, 0⟩ :: placeDown t (⟨a, len⟩ :: used)
    | none => placeDown t used

/-- The bank map of the empty program (R168, R177). -/
def emptyAreas : List Area := placeDown emptyOrder []

/-- Areas of the map in force. -/
def mapAreas (s : State) : List Area :=
  match s.plr.run with
  | some a => a.areas
  | none => emptyAreas

/-- An area of a map. -/
def findArea (id : Nat) : List Area → Option Area
  | [] => none
  | a :: t => if a.id = id then some a else findArea id t

/-- Shared offset of an area of the map in force (0 if the map has none; images and history exist in every map). -/
def areaBase (s : State) (id : Nat) : Nat :=
  match findArea id (mapAreas s) with
  | some a => a.base
  | none => 0

/-- Areas of the maquette's map (PLACED and ARMED). -/
def maqAreas (s : State) : List Area :=
  match s.plr.maq with
  | some a => a.areas
  | none => []

/-- A byte range lies wholly in the transfer and working area: in shared memory, in no area of the map in force and in
none of the maquette's map (R177). -/
def inTransfer (s : State) (a len : Nat) : Bool :=
  decide (a + len ≤ sharedSize) &&
    !(mapAreas s ++ maqAreas s).any fun r => decide (0 < r.len ∧ 0 < len) && overlaps ⟨r.base, r.len⟩ a len

/-- Input-image and output-image words of the frame. -/
def imgInWord (s : State) (i : Nat) : Word := shWord s (areaBase s 0 + 4 * i)
def imgOutWord (s : State) (i : Nat) : Word := shWord s (areaBase s 1 + 4 * i)

/-- Offset of a sample: channel c (0 to 7) of a stream at sample count j, and of its quality word. -/
def histAddr (s : State) (stream c j : Nat) : Nat := areaBase s (2 + stream) + c * 32768 + 4 * (j % 8192)
def qualAddr (s : State) (stream j : Nat) : Nat := areaBase s (2 + stream) + 0x40000 + 4 * (j % 8192)

/-! ### Class images and output buffers (R42) -/

/-- Words of the class image and of the class output buffer of a class. -/
def classIn (s : State) (cls : Nat) : List Nat :=
  match s.plr.run with
  | none => []
  | some a => if cls = 1 then a.midIn else a.slowIn
def classOut (s : State) (cls : Nat) : List Nat :=
  match s.plr.run with
  | none => []
  | some a => if cls = 1 then a.midOut else a.slowOut

/-- Area of the class image and buffer of MID or SLOW. -/
def classArea (cls : Nat) : Nat := if cls = 1 then 26 else 27

/-- A number added to a list of numbers in ascending order, without repetition. -/
def addSorted (n : Nat) : List Nat → List Nat
  | [] => [n]
  | m :: t => if n < m then n :: m :: t else if n = m then m :: t else m :: addSorted n t

/-- Position of the word at a shared offset in the output buffer of a class. -/
def bufferPos (s : State) (cls a : Nat) : Option Nat :=
  let lo := areaBase s (classArea cls) + 4 * (classIn s cls).length
  if lo ≤ a ∧ a < lo + 4 * (classOut s cls).length then some ((a - lo) / 4) else none

/-- A lane's store at a shared offset counts as a class's output-image write. -/
def markClass (a : Nat) (s : State) : State :=
  let s := match bufferPos s 1 a with
    | some n => { s with frm := { s.frm with midDone := addSorted n s.frm.midDone } }
    | none => s
  match bufferPos s 2 a with
  | some n => { s with frm := { s.frm with slowDone := addSorted n s.frm.slowDone } }
  | none => s

end Sys2Proof.Machine
end

