-- ==== Sys2Proof/Machine/HostOps.lean ====
section
/-! DEFINITION. How a host request is answered (R363, R367, R370, R374, R375): results, violations, throttling, the
reply, and the shape of every command that a host session writes. -/
namespace Sys2Proof.Machine

/-- Results of a request (R374); `later` is a register's word that the answer follows when its command ends (R347). -/
inductive Res where
  | ok | badMagic | badLen | badSpace | badOp | denied | busy | staleSeq | late | later
  deriving DecidableEq, Repr

/-- Result codes (R374). -/
def Res.code : Res → BitVec 8
  | .ok => 0 | .badMagic => 1 | .badLen => 2 | .badSpace => 3 | .badOp => 4 | .denied => 5 | .busy => 6
  | .staleSeq => 7 | .late => 8 | .later => 0

/-- Results that are violations (R375). -/
def Res.violates : Res → Bool
  | .ok => false | .busy => false | .late => false | .later => false | _ => true

/-- A result where the manual states none, by place of use. -/
def resFree (use : Nat) (s : State) : Res :=
  ([.ok, .badMagic, .badLen, .badSpace, .badOp, .denied, .busy, .staleSeq, .late] : List Res).getD
    (Config.choice use s.clk.cyc % 9) .ok

/-- A register's own answer to a write. -/
abbrev RegOp := State → Res × State

/-- Role numbers of HL_SESS_n.ROLE (R370). -/
def roleOBSERVER : Nat := 0
def roleOPERATOR : Nat := 1
def roleENGINEER : Nat := 2
def rolePROVISIONER : Nat := 3

/-- An endpoint as a NOTE parameter (R377). -/
def epParam : Endpoint → Word
  | .hp => 0
  | .udp ip _ => ip

/-- An endpoint as an object of a rate-limited NOTE. -/
def epObj : Endpoint → Nat
  | .hp => 0x200000
  | .udp ip port => 0x1000000000000 + ip.toNat * 65536 + port.toNat

/-- Violation counts of an endpoint. -/
def epFind (ep : Endpoint) : List EpStat → EpStat
  | [] => ⟨ep, 0, 0, none, 0, 0⟩
  | e :: t => if e.ep = ep then e else epFind ep t

/-- Store the counts of an endpoint. -/
def epPut (e : EpStat) : List EpStat → List EpStat
  | [] => [e]
  | q :: t => if q.ep = e.ep then e :: t else q :: epPut e t

/-- The endpoint is throttled: until the end of the second whole second after its violations (R375). -/
def throttled (ep : Endpoint) (s : State) : Bool :=
  match (epFind ep s.hl.eps).throttledTo with
  | some t => decide (s.clk.opSec ≤ t)
  | none => false

/-- Count a violation for its endpoint; the 65th within one second throttles it (R375). -/
def countViolation (ep : Endpoint) (s : State) : State :=
  let e := epFind ep s.hl.eps
  let n := if e.sec = s.clk.opSec then e.viol + 1 else 1
  let e' := { e with sec := s.clk.opSec, viol := n }
  if n = 65 then
    note 0xC010 srcHL (epParam ep) (w n) 0
      { s with hl := { s.hl with evt := setBit s.hl.evt 2
                                 eps := epPut { e' with throttledTo := some (s.clk.opSec + 2) } s.hl.eps } }
  else { s with hl := { s.hl with eps := epPut e' s.hl.eps } }

/-- A violation (R375). -/
def violation (ep : Endpoint) (r : Res) (s : State) : State :=
  let s := { s with hl := { s.hl with violCnt := s.hl.violCnt + 1, evt := setBit s.hl.evt 0 } }
  countViolation ep
    (rlNote (epObj ep) 0xC011 (fun n => note 0xC011 srcHL (epParam ep) (BitVec.setWidth 32 r.code) n) s)

/-- The reply as it is built now (R363): STATUS and AGEN as they stand. -/
def mkReply (seq : BitVec 16) (sid : BitVec 8) (r : Res) (len : Nat) (payload : List Byte) (s : State) : Reply :=
  ⟨seq, r.code, sid, s.att.last, s.att.agen, len, payload⟩

/-- Where a reply to an endpoint goes: to the MAC address of its last request, tagged as HL_VLAN says (R361). -/
def replyTo (ep : Endpoint) (s : State) : Option UdpTo :=
  match ep with
  | .hp => none
  | .udp _ _ => some ⟨((s.hl.macs.find? fun x => x.1 == ep).map (·.2)).getD 0, s.hl.vlan⟩

/-- A reply leaves towards its endpoint; on HP it stays ready for fetching (R360). -/
def sendReply (ep : Endpoint) (r : Reply) (s : State) : State :=
  { s with hl := { s.hl with
      lastOut := some (ep, r)
      lastTo := replyTo ep s
      hpReply := match ep with
        | .hp => some r
        | .udp _ _ => s.hl.hpReply } }

/-- What a reply's result brings with it: a reply that is a violation counts as one once it is built (R363, R375). -/
def replyViolates (ep : Endpoint) (r : Res) (s : State) : State := if r.violates then violation ep r s else s

/-- Answer a request without a session. -/
def answerFree (ep : Endpoint) (seq : BitVec 16) (sid : BitVec 8) (r : Res) (payload : List Byte) (s : State) : State :=
  let s := settle s
  let rep := mkReply seq sid r payload.length payload s
  sendReply ep rep (replyViolates ep r s)

/-- A throttled endpoint gets BUSY, at most 100 times in a second (R375). -/
def answerThrottled (ep : Endpoint) (seq : BitVec 16) (sid : BitVec 8) (s : State) : State :=
  let e := epFind ep s.hl.eps
  let n := if e.replySec = s.clk.opSec then e.replies + 1 else 1
  if 100 < n then s
  else
    let s := { s with hl := { s.hl with eps := epPut { e with replySec := s.clk.opSec, replies := n } s.hl.eps } }
    sendReply ep (mkReply seq sid .busy 0 [] s) s

/-- A session's record, and a session changed. -/
def session (sid : Nat) (s : State) : Option Session := vget none s.hl.sessions sid
def modSession (sid : Nat) (f : Session → Session) (s : State) : State :=
  { s with hl := { s.hl with sessions := vmod s.hl.sessions sid (Option.map f) } }

/-- A session's copy of a register (R371), and writing it. -/
def sesReg (sid a : Nat) (s : State) : Word :=
  match session sid s with
  | some ss => regSes a ss
  | none => regReset a
def setSesReg (sid a : Nat) (x : Word) (s : State) : State :=
  modSession sid (fun ss => { ss with regs := sput regReset a x ss.regs }) s

/-- Answer an executed request of a session: the reply is stored with its SEQ (R364), and the idle time starts (R367). -/
def answerSession (sid : Nat) (ep : Endpoint) (seq : BitVec 16) (r : Res) (len : Nat) (payload : List Byte) (s : State) :
    State :=
  let s := settle s
  let rep := mkReply seq (BitVec.ofNat 8 sid) r len payload s
  sendReply ep rep (modSession sid (fun ss => { ss with lastSeq := some seq, lastReply := some rep, lastExec := s.clk.cyc })
    (replyViolates ep r s))

/-- The SEQ of a session's next request, for a command row that carries none. -/
def nextSeq (ss : Session) : BitVec 16 :=
  match ss.lastSeq with
  | some q => q + 1
  | none => 0

/-- The session's previous request is still executing (R365). -/
def sessionBusy (sid : Nat) (s : State) : Bool :=
  match s.hl.owed with
  | some o => o.live && o.sid.val == sid
  | none => false

/-- A request that arrives then: BUSY, not executed (R365). -/
def answerBusy (sid : Nat) (ep : Endpoint) (seq : BitVec 16) (s : State) : State :=
  let s := settle s
  sendReply ep (mkReply seq (BitVec.ofNat 8 sid) .busy 0 [] s) s

/-- The end of a session's request: its answer, now or when its command ends. -/
def finishRequest (sid : Nat) (ep : Endpoint) (seq : BitVec 16) (r : Res) (len : Nat) (payload : List Byte) (s : State) :
    State :=
  if r = .later then { s with hl := { s.hl with owed := some ⟨ep, Fin.ofNat 4 sid, seq, len, true⟩ } }
  else answerSession sid ep seq r len payload s

/-- The command under way has ended: its answer is built and sent (R347, R367). -/
def answerOwed (r : Res) (s : State) : State :=
  match s.hl.owed with
  | none => s
  | some o =>
    let s := { s with hl := { s.hl with owed := none } }
    let len := if r = .ok then o.len else 0
    if o.live then answerSession o.sid.val o.ep o.seq r len [] s
    else
      let s := settle s
      sendReply o.ep (mkReply o.seq (BitVec.ofNat 8 o.sid.val) r len [] s) s

/-- Whether ROM recovery lets a write pass (R385): UPD registers only. -/
def recoveryOk (upd : Bool) (s : State) : Bool := !s.upd.recovery || upd

/-- A write of a host session: endpoint, role (R370), then the register's own rule. -/
def hostWriteDo (sid : Nat) (role : Nat) (upd : Bool) (op : RegOp) (s : State) : State :=
  match session sid s with
  | none => s
  | some ss =>
    if throttled ss.ep s then answerThrottled ss.ep (nextSeq ss) (BitVec.ofNat 8 sid) s
    else if sessionBusy sid s then answerBusy sid ss.ep (nextSeq ss) s
    else
      let (r, s') := if ss.role.val < role ∨ !recoveryOk upd s then (Res.denied, s) else op s
      finishRequest sid ss.ep (nextSeq ss) r (if r = .ok ∨ r = .later then 4 else 0) [] s'

/-- A command that a host session writes. -/
def hostDo (sid : Nat) (role : Nat) (op : RegOp) (s : State) : State := hostWriteDo sid role false op s

/-- A command that a host session writes to the UPD block. -/
def hostDoUpd (sid : Nat) (role : Nat) (op : RegOp) (s : State) : State := hostWriteDo sid role true op s

/-- A read of one register by a host session: its value, with what the read does. -/
def hostReadDo (sid : Nat) (op : State → Word × State) (s : State) : State :=
  match session sid s with
  | none => s
  | some ss =>
    if throttled ss.ep s then answerThrottled ss.ep (nextSeq ss) (BitVec.ofNat 8 sid) s
    else if sessionBusy sid s then answerBusy sid ss.ep (nextSeq ss) s
    else
      let (v, s') := op s
      answerSession sid ss.ep (nextSeq ss) .ok 4 (wordBytes v) s'

/-- A write that is always taken. -/
def always (f : State → State) : RegOp := fun s => (.ok, f s)

end Sys2Proof.Machine
end

