-- ==== Sys2Proof/Machine/Operands.lean ====
section
/-! DEFINITION. Bundles, moves, guards and ports of the lanes (R53 to R67, R86, R139). -/
namespace Sys2Proof.Machine

/-! ### Bundles -/

/-- Where a move takes its value from (R54). -/
inductive Src where
  | port (p : Nat)
  | imm (x : Word)
  deriving DecidableEq, Repr

/-- A decoded move that is not empty: its slot, guard, destination port and source. -/
structure Mv where
  slot : Nat
  g : Nat
  dst : Nat
  src : Src
  deriving DecidableEq, Repr

/-- Bits of slot `n` of a bundle taken as one number (R53). -/
def slotBits (b n : Nat) : Nat := (b >>> (31 * n)) % 2 ^ 31

/-- The header byte (R53, R59). -/
def headerOf (b : Nat) : Nat := (b >>> 248) % 256

/-- FMT, LIMM and the reserved bits of a header byte. -/
def fmtOf (b : Nat) : Nat := headerOf b % 4
def limmOf (b : Nat) : Nat := headerOf b / 4 % 16
def reservedOf (b : Nat) : Nat := headerOf b / 64

/-- Guard, destination and source fields of a slot (R54). -/
def slotG (x : Nat) : Nat := x >>> 27
def slotDst (x : Nat) : Nat := (x >>> 17) % 1024
def slotSrc (x : Nat) : Nat := x % 2 ^ 17

/-- Slot `n` carries the upper part of a long immediate (R57). -/
def isLongPart (b n : Nat) : Bool := n % 2 == 1 && (limmOf b).testBit (n / 2)

/-- Slot `n` is the move of a long immediate. -/
def isLongMove (b n : Nat) : Bool := n % 2 == 0 && (limmOf b).testBit (n / 2)

/-- A slot is empty when its guard is 0b1000 (R55). -/
def slotEmpty (b n : Nat) : Bool := slotG (slotBits b n) == 8

/-- A slot that carries a move. -/
def slotMoves (b n : Nat) : Bool := !isLongPart b n && !slotEmpty b n

/-- The SRC form of R56 and R57 fails. -/
def badForm (b n : Nat) : Bool :=
  let src := slotSrc (slotBits b n)
  slotMoves b n &&
    (if isLongMove b n then decide (src / 2 ≠ 0x8000) else decide (src < 0x10000 ∧ src / 1024 ≠ 0))

/-- The move of slot `n`. -/
def slotMv (b n : Nat) : Mv :=
  let x := slotBits b n
  let src := slotSrc x
  let s : Src :=
    if isLongMove b n then .imm (w (src % 2 * 2 ^ 31 + slotBits b (n + 1)))
    else if src < 0x10000 then .port (src % 1024)
    else .imm ((BitVec.ofNat 16 src).signExtend 32)
  ⟨n, slotG x, slotDst x, s⟩

/-- The moves of a bundle, in slot order. -/
def movesOf (b : Nat) : List Mv := (where_ 8 (slotMoves b)).map (slotMv b)

/-- Some slot breaks the SRC form. -/
def formBad (b : Nat) : Bool := (List.range 8).any (badForm b)

/-- Occupied slots, as LN_n_SLOTS_LAST counts them. -/
def occupied (b : Nat) : Nat := (where_ 8 fun n => isLongPart b n || !slotEmpty b n).length

/-- Fields of a macro call bundle (R139). -/
def callOpc (b : Nat) : Nat := b % 256
def callPar (b i : Nat) : Nat := (b >>> (8 + 10 * i)) % 1024
def callG (b : Nat) : Nat := (b >>> 48) % 16

/-- Parameter substitution of R140. -/
def substPort (params : Vector Nat 4) (p : Nat) : Nat :=
  if 0x060 ≤ p ∧ p < 0x064 then vget 0 params (p - 0x060) else p
def substMv (params : Vector Nat 4) (m : Mv) : Mv :=
  { m with dst := substPort params m.dst
           src := match m.src with
             | .port p => .port (substPort params p)
             | .imm x => .imm x }

/-! ### Guards (R55) -/

/-- Whether a guard passes on the predicates. -/
def guardOk (p : BitVec 8) (g : Nat) : Bool := p.getLsbD (g % 8) != decide (8 ≤ g)

/-! ### Ports (R61 to R65, R86) -/

/-- The unit and offset of a port of the unit blocks (R62). -/
def unitOf (p : Nat) : Option (UnitId × Nat) :=
  if p < 0x080 ∨ 0x400 ≤ p then none
  else if 0x3E0 ≤ p then some (.sys, p - 0x3E0)
  else
    let o := (p - 0x080) % 64
    match (p - 0x080) / 64 with
    | 0 => some (.alu0, o) | 1 => some (.alu1, o) | 2 => some (.mul, o) | 3 => some (.div, o)
    | 4 => some (.bcd, o) | 5 => some (.bit, o) | 6 => some (.cmp, o) | 7 => some (.fpu, o)
    | 8 => some (.crd, o) | 9 => some (.lsu, o) | 10 => some (.img, o) | 11 => some (.dsk, o)
    | 12 => some (.ctl, o)
    | _ => some (.rep, o)

/-- Base id of a unit. -/
def unitBase : UnitId → Nat
  | .alu0 => 0x080 | .alu1 => 0x0C0 | .mul => 0x100 | .div => 0x140 | .bcd => 0x180 | .bit => 0x1C0
  | .cmp => 0x200 | .fpu => 0x240 | .crd => 0x280 | .lsu => 0x2C0 | .img => 0x300 | .dsk => 0x340
  | .ctl => 0x380 | .rep => 0x3C0 | .sys => 0x3E0

/-- Trigger offsets that a unit assigns. -/
def isTrig (u : UnitId) (o : Nat) : Bool :=
  let upTo (hi : Nat) : Bool := decide (0x10 ≤ o ∧ o ≤ hi)
  match u with
  | .alu0 => upTo 0x2C | .alu1 => upTo 0x2C | .mul => upTo 0x14 | .div => upTo 0x13 | .bcd => upTo 0x1A
  | .bit => upTo 0x17 | .cmp => upTo 0x24 | .fpu => upTo 0x20 | .crd => upTo 0x13
  | .lsu => upTo 0x15 || o == 0x18 || o == 0x19
  | .img => upTo 0x13 | .dsk => upTo 0x14 | .ctl => upTo 0x18 | .rep => upTo 0x15 | .sys => upTo 0x13

/-- Operand and state offsets that a unit assigns. -/
def isOpnd (u : UnitId) (o : Nat) : Bool :=
  match u with
  | .alu0 => o == 0 | .alu1 => o == 0 | .mul => o == 0 | .div => decide (o ≤ 1) | .bcd => o == 0
  | .bit => o == 0 | .cmp => decide (o ≤ 2) | .fpu => decide (o ≤ 1) | .crd => o == 0
  | .lsu => decide (o ≤ 1) | .img => decide (o ≤ 2) | .dsk => false | .ctl => false
  | .rep => decide (o ≤ 6) | .sys => decide (o ≤ 3)

/-- Offsets that can be read: results, flags, return slots and state ports. -/
def isRead (u : UnitId) (o : Nat) : Bool :=
  match u with
  | .alu0 => o == 8 || o == 15 | .alu1 => o == 8 || o == 15
  | .mul => o == 8 || o == 9 || o == 15 | .div => o == 8 || o == 9 || o == 15
  | .bcd => o == 8 || o == 9 || o == 15 | .bit => o == 8 || o == 9 || o == 15
  | .cmp => o == 8 || o == 15 | .fpu => o == 8 || o == 15 | .crd => o == 8 || o == 9 || o == 15
  | .lsu => o == 8 || decide (0x30 ≤ o) | .img => o == 15 | .dsk => o == 8 | .ctl => o == 8
  | .rep => decide (o ≤ 4) || o == 8 || o == 15
  | .sys => o == 3 || o == 8 || o == 9 || o == 10

/-- A port that a move may read. -/
def srcOk (p : Nat) : Bool :=
  if p < 0x057 then true
  else match unitOf p with
    | some (u, o) => isRead u o
    | none => false

/-- A port that a move may write. -/
def dstOk (p : Nat) : Bool :=
  if p < 0x040 then true
  else if p < 0x048 then p != 0x040
  else match unitOf p with
    | some (u, o) => isOpnd u o || isTrig u o
    | none => false

/-- The unit and operation of a trigger port. -/
def trigOf (p : Nat) : Option (UnitId × Nat) :=
  match unitOf p with
  | some (u, o) => if isTrig u o then some (u, o) else none
  | none => none

/-- The offending port of a move under R65, with bit 16 for a source; the destination goes first. -/
def portFault (m : Mv) : Option Nat :=
  if !dstOk m.dst then some m.dst
  else match m.src with
    | .port p => if srcOk p then none else some (p + 0x10000)
    | .imm _ => none

/-- Every port is legal. -/
def portsOk (m : Mv) : Bool := (portFault m).isNone

/-! ### The running program -/

/-- M and S of the running program, 0 where it has no such class (R64). -/
def progM (s : State) : Nat := match s.plr.run with | some a => a.m | none => 0
def progS (s : State) : Nat := match s.plr.run with | some a => a.s | none => 0

/-- MIDPH and SLOWPH. -/
def midPh (s : State) : Nat := if progM s = 0 then 0 else (s.frm.k - s.frm.k0) % progM s
def slowPh (s : State) : Nat := if progS s = 0 then 0 else (s.frm.k - s.frm.k0) % progS s

/-- Value of a port of a unit. -/
def readUnit (ln : Lane) (u : UnitId) (o : Nat) : Word :=
  let ports := ln.units[u.idx.val]
  match u, o with
  | .lsu, _ => if 0x30 ≤ o then (vget State.slot0 ln.slots (o - 0x30)).data else ports.q
  | .rep, 0 => ln.repCount
  | .rep, 1 => ln.repSrc
  | .rep, 2 => ln.repDst
  | .rep, 3 => ln.repStride
  | .rep, 4 => ln.repElem
  | .sys, 3 => ln.trap
  | _, 9 => ports.q2
  | _, 10 => ports.q3
  | _, 15 => ports.f
  | _, _ => ports.q

end Sys2Proof.Machine
end

