-- ==== Sys2Proof/Machine/Chisel.lean ====
section
/-! DEFINITION. The chisel tables (R136 to R144): entries, integrity, identities and sealing. -/
namespace Sys2Proof.Machine

/-- A vendor entry 0x00 to 0xEF: it belongs to the LANE firmware part that runs, so its contents are free (R3, R136). -/
def vendorEntry (lane : List Byte) (opc : Nat) : ChiselEntry :=
  let len := Config.vendorLen lane opc % 9
  let npar := if len = 0 then 0 else Config.vendorNpar lane opc % 5
  let words := Vector.ofFn fun i => if i.val < len * 8 then Config.vendorWord lane opc i.val else 0
  ⟨len, npar, true, words, crc32c (State.chiselBytes len npar opc words)⟩

/-- Entry of the active table. -/
def activeEntry (s : State) (opc : Nat) : ChiselEntry :=
  if opc < 0xF0 then vendorEntry s.ln.lanePart opc else vget (State.chiselEmpty opc) s.ln.active (opc - 0xF0)

/-- Entry of the staged table. -/
def stagedEntry (s : State) (opc : Nat) : ChiselEntry :=
  if opc < 0xF0 then vendorEntry s.ln.lanePart opc else vget (State.chiselEmpty opc) s.ln.staged (opc - 0xF0)

/-- The integrity word of an entry holds (R137). -/
def entryIntact (opc : Nat) (e : ChiselEntry) : Bool :=
  e.integ == crc32c (State.chiselBytes e.len e.npar opc e.words)

/-- What an entry counts for when it is installed: an unsealed one is empty (R138). -/
def installed (opc : Nat) (e : ChiselEntry) : ChiselEntry := if e.sealed_ then e else State.chiselEmpty opc

/-- CHISEL_ID of a table given by the LANE part and its customer entries (R141). -/
def chiselId (lane : List Byte) (customer : Vector ChiselEntry 16) : Word :=
  let vendor := (List.range 0xF0).map fun o => (vendorEntry lane o).integ
  let cust := (List.range 16).map fun i => (installed (0xF0 + i) (vget (State.chiselEmpty (0xF0 + i)) customer i)).integ
  crc32c (wordsBytes (vendor ++ cust))

/-- CHISEL_ID of the active and of the staged table. -/
def activeId (s : State) : Word := chiselId s.ln.lanePart s.ln.active
def stagedId (s : State) : Word := chiselId s.ln.lanePart s.ln.staged

/-- A bundle from eight words in memory order (R59). -/
def bundleOfWords (ws : List Word) : Nat := leNat (wordsBytes ws)

/-- Template bundle `j` of an entry. -/
def templateBundle (e : ChiselEntry) (j : Nat) : Nat :=
  bundleOfWords ((List.range 8).map fun i => vget 0 e.words (8 * j + i))

/-- Two guards can both pass, as the verifier judges it: unless one is the inverse of the other (R70). -/
def bothCanPass (g h : Nat) : Bool := !(g % 8 == h % 8 && (decide (8 ≤ g) != decide (8 ≤ h)))

/-- Two moves collide under R70: one destination, or triggers of one unit. -/
def collide (a b : Mv) : Bool :=
  a.dst == b.dst ||
    match trigOf a.dst, trigOf b.dst with
    | some (u, _), some (v, _) => u == v
    | _, _ => false

/-- Some pair of a list satisfies a relation; the answer is the first member of the first such pair. -/
def firstPair (r : Mv → Mv → Bool) : List Mv → Option Mv
  | [] => none
  | a :: t => if t.any (r a) then some a else firstPair r t

/-- Rule codes of R138 for a staged entry, in order; 0 when every rule passes. -/
def sealCode (e : ChiselEntry) : Nat :=
  let bs := (List.range e.len).map (templateBundle e)
  let mvs := bs.flatMap movesOf
  let placeholder (p : Nat) : Bool := decide (0x060 ≤ p ∧ p < 0x064)
  let okPort (ok : Nat → Bool) (p : Nat) : Bool :=
    if placeholder p then decide (p - 0x060 < e.npar) else ok p
  let okSrc (m : Mv) : Bool := match m.src with
    | .port p => okPort srcOk p
    | .imm _ => true
  if 8 < e.len ∨ 4 < e.npar then 1
  else if bs.any fun b => fmtOf b != 0 || reservedOf b != 0 then 2
  else if bs.any formBad then 3
  else if mvs.any fun m => !(okPort dstOk m.dst && okSrc m) then 4
  else if mvs.any fun m => decide (0x380 ≤ m.dst ∧ m.dst < 0x3E0) then 5
  else if bs.any fun b => (firstPair (fun a c => collide a c && bothCanPass a.g c.g) (movesOf b)).isSome then 6
  else 0

/-- The entry as sealing leaves it (R138). -/
def sealEntry (opc : Nat) (e : ChiselEntry) : ChiselEntry :=
  let words := vmap e.words fun i x => if i < e.len * 8 then x else 0
  let npar := if e.len = 0 then 0 else e.npar
  ⟨e.len, npar, true, words, crc32c (State.chiselBytes e.len npar opc words)⟩

end Sys2Proof.Machine
end

