-- ==== Sys2Proof/Machine/Flags.lean ====
section
/-! DEFINITION. Flag words of the units (R67) and the flag rules that operations share (R82, R89). -/
namespace Sys2Proof.Machine

/-- A flag word: C, V, Z, N, DZ, DC, INV in bits 0 to 6 (R67). -/
def flagWord (c v z n dz dc inv : Bool) : Word :=
  bitWord c ||| (bitWord v <<< 1) ||| (bitWord z <<< 2) ||| (bitWord n <<< 3)
  ||| (bitWord dz <<< 4) ||| (bitWord dc <<< 5) ||| (bitWord inv <<< 6)

/-- C, V and the Z and N of R82. -/
def flagsCV (c v : Bool) (q : Word) : Word := flagWord c v (q == 0) q.msb false false false

/-- Z and N of R82 alone. -/
def flagsZN (q : Word) : Word := flagsCV false false q

/-- The carry bit of a flag word, its decimal carry, DZ and INV. -/
def flagC (f : Word) : Bool := f.getLsbD 0
def flagDZ (f : Word) : Bool := f.getLsbD 4
def flagDC (f : Word) : Bool := f.getLsbD 5
def flagINV (f : Word) : Bool := f.getLsbD 6

/-- Signed overflow of a sum, by the exact value. -/
def ovf32 (x : Int) : Bool := decide (x < -(2 ^ 31) ∨ 2 ^ 31 ≤ x)

/-- What an operation presents: results, flag word, and LN_FAULT_ARG of a DIV_ZERO trap. -/
structure OpRes where
  q : Word
  q2 : Word
  q3 : Word
  f : Word
  arg : Word
  deriving DecidableEq, Repr

/-- A result with one value and its flags. -/
def res1 (q f : Word) : OpRes := ⟨q, 0, 0, f, 0⟩

/-- A result with two values. -/
def res2 (q q2 f : Word) : OpRes := ⟨q, q2, 0, f, 0⟩

end Sys2Proof.Machine
end

