-- ==== Sys2Proof/Machine/IntUnits.lean ====
section
/-! DEFINITION. Results and flags of ALU, MUL, DIV, BCD, BIT and CMP (R87 to R100), as functions of the operation's
trigger offset, its operands and the unit state that its entry names (R80). -/
namespace Sys2Proof.Machine

/-! ### ALU (R87 to R89) -/

/-- o1 + t + carry: C is the carry out, V the signed overflow. -/
def aluSum (o1 t : Word) (c : Bool) : OpRes :=
  let q := o1 + t + bitWord c
  res1 q (flagsCV (decide (2 ^ 32 ≤ o1.toNat + t.toNat + c.toNat)) (ovf32 (o1.toInt + t.toInt + c.toNat)) q)

/-- a − b − borrow: C is the borrow, V the signed overflow. -/
def aluDiff (a b : Word) (c : Bool) : OpRes :=
  let q := a - b - bitWord c
  res1 q (flagsCV (decide (a.toNat < b.toNat + c.toNat)) (ovf32 (a.toInt - b.toInt - c.toNat)) q)

/-- Shifts of R89: kind 0 SHL, 1 SHR, 2 SAR. -/
def aluShift (kind : Nat) (o1 t : Word) : OpRes :=
  let n := t.toNat % 256
  let q := match kind with
    | 0 => o1 <<< n
    | 1 => o1 >>> n
    | _ => BitVec.sshiftRight o1 n
  let c := if n = 0 ∨ 32 < n then false
    else if kind = 0 then o1.getLsbD (32 - n) else o1.getLsbD (n - 1)
  res1 q (flagsCV c false q)

/-- Rotates of R89. -/
def aluRotate (left : Bool) (o1 t : Word) : OpRes :=
  let n := t.toNat % 256 % 32
  let q := if left then o1.rotateLeft n else o1.rotateRight n
  let c := if n = 0 then false else if left then q.getLsbD 0 else q.msb
  res1 q (flagsCV c false q)

/-- Leading zero bits among the lowest `n` bits. -/
def leadingZeros (x : Word) : Nat → Nat
  | 0 => 0
  | n + 1 => if x.getLsbD n then 0 else leadingZeros x n + 1

/-- Number of 1 bits among the lowest `n`. -/
def onesBelow (x : Word) : Nat → Nat
  | 0 => 0
  | n + 1 => onesBelow x n + (x.getLsbD n).toNat

/-- The four bytes reversed. -/
def bswap32 (t : Word) : Word :=
  BitVec.setWidth 32 (t.extractLsb' 0 8 ++ t.extractLsb' 8 8 ++ t.extractLsb' 16 8 ++ t.extractLsb' 24 8)

/-- A plain result with Z and N. -/
def aluPlain (q : Word) : OpRes := res1 q (flagsZN q)

/-- ALU operation by trigger offset (R87), with the carry that its own flag word presents (R82). -/
def aluOp (op : Nat) (o1 t : Word) (cin : Bool) : OpRes :=
  match op with
  | 0x10 => aluSum o1 t false
  | 0x11 => aluSum o1 t cin
  | 0x12 => aluDiff o1 t false
  | 0x13 => aluDiff o1 t cin
  | 0x14 => aluDiff t o1 false
  | 0x15 => aluPlain (o1 &&& t)
  | 0x16 => aluPlain (o1 ||| t)
  | 0x17 => aluPlain (o1 ^^^ t)
  | 0x18 => aluPlain (o1 &&& ~~~t)
  | 0x19 => aluPlain (~~~t)
  | 0x1A => res1 (0 - t) (flagsCV (t != 0) (t == 0x80000000#32) (0 - t))
  | 0x1B => let q := if t.msb then 0 - t else t
            res1 q (flagsCV false (t == 0x80000000#32) q)
  | 0x1C => aluShift 0 o1 t
  | 0x1D => aluShift 1 o1 t
  | 0x1E => aluShift 2 o1 t
  | 0x1F => aluRotate true o1 t
  | 0x20 => aluRotate false o1 t
  | 0x21 => aluPlain (if BitVec.sle o1 t then o1 else t)
  | 0x22 => aluPlain (if BitVec.sle o1 t then t else o1)
  | 0x23 => aluPlain (if BitVec.ule o1 t then o1 else t)
  | 0x24 => aluPlain (if BitVec.ule o1 t then t else o1)
  | 0x25 => aluPlain ((t.setWidth 8).signExtend 32)
  | 0x26 => aluPlain ((t.setWidth 16).signExtend 32)
  | 0x27 => aluPlain (t &&& 0xFF)
  | 0x28 => aluPlain (t &&& 0xFFFF)
  | 0x29 => aluPlain (w (leadingZeros t 32))
  | 0x2A => aluPlain (w (onesBelow t 32))
  | 0x2B => aluPlain (bswap32 t)
  | _ => aluPlain t

/-! ### MUL (R90) -/

/-- A 64-bit result split into q and q2, with Z and N of the whole. -/
def res64 (x : BitVec 64) (v : Bool) : OpRes :=
  res2 (x.setWidth 32) (x.extractLsb' 32 32) (flagWord false v (x == 0) x.msb false false false)

/-- MUL operation by trigger offset: what it presents and the accumulator it leaves. -/
def mulOp (op : Nat) (o1 t : Word) (acc : BitVec 64) : OpRes × BitVec 64 :=
  let sp : Int := o1.toInt * t.toInt
  match op with
  | 0x10 => (res64 (BitVec.ofInt 64 sp) false, acc)
  | 0x11 => (res64 (BitVec.ofNat 64 (o1.toNat * t.toNat)) false, acc)
  | 0x12 =>
    if o1 = 0x80000000#32 ∧ t = 0x80000000#32 then (res1 0x7FFFFFFF#32 (flagsCV false true 0x7FFFFFFF#32), acc)
    else let q := BitVec.ofInt 32 ((sp + 2 ^ 30) / 2 ^ 31)
         (res1 q (flagsZN q), acc)
  | 0x13 =>
    let x : Int := acc.toInt + sp
    let a := BitVec.ofInt 64 x
    (res64 a (decide (x < -(2 ^ 63) ∨ 2 ^ 63 ≤ x)), a)
  | _ => let a := BitVec.ofNat 64 (o1.toNat * 2 ^ 32 + t.toNat)
         (res64 a false, a)

/-! ### DIV (R91, R92) -/

/-- Truncating division with the remainder of R91; `fits` says whether the quotient is in range. -/
def divRes (n d : Int) (fits : Int → Bool) : OpRes :=
  let qx := Int.tdiv n d
  let q := BitVec.ofInt 32 qx
  ⟨q, BitVec.ofInt 32 (Int.tmod n d), 0, flagsCV false (!fits qx) q, 0⟩

/-- DIV operation by trigger offset; `arg` is what a DIV_ZERO trap reports. -/
def divOp (op : Nat) (o1 o2 t : Word) : OpRes :=
  if t = 0 then ⟨0, o1, 0, flagWord false false true false true false false, o1⟩
  else
    let u64 : Nat := o2.toNat * 2 ^ 32 + o1.toNat
    let sfit : Int → Bool := fun x => !ovf32 x
    let ufit : Int → Bool := fun x => decide (x < 2 ^ 32)
    match op with
    | 0x10 => divRes o1.toInt t.toInt sfit
    | 0x11 => divRes o1.toNat t.toNat ufit
    | 0x12 => divRes (BitVec.ofNat 64 u64).toInt t.toInt sfit
    | _ => divRes u64 t.toNat ufit

/-! ### BCD (R93 to R96) -/

/-- Nibble `i` of a word. -/
def nib (x : Word) (i : Nat) : Nat := (x.toNat >>> (4 * i)) % 16

/-- Some nibble is not decimal. -/
def badBcd (x : Word) : Bool := (List.range 8).any fun i => decide (9 < nib x i)

/-- Value of a BCD word, a non-decimal nibble read as 9 (R94). -/
def bcdVal (x : Word) : Nat := (List.range 8).foldl (fun a i => a + min 9 (nib x i) * 10 ^ i) 0

/-- Σ d_i × 10^i over nibbles of any value (BDADJ). -/
def nibVal (x : Word) : Nat := (List.range 8).foldl (fun a i => a + nib x i * 10 ^ i) 0

/-- BCD word of a number modulo 10^8. -/
def toBcd (n : Nat) : Word := w ((List.range 8).foldl (fun a i => a + (n / 10 ^ i % 10) * 16 ^ i) 0)

/-- Flags of the BCD unit: Z, DC and INV (R93). -/
def bcdFlags (q : Word) (dc inv : Bool) : Word := flagWord false false (q == 0) false false dc inv

/-- Days of a month of the calendar of R96. -/
def leapYear (y : Nat) : Bool := y % 4 == 0 && y != 2100
def monthDays (y m : Nat) : Nat :=
  match m with
  | 2 => if leapYear y then 29 else 28
  | 4 => 30 | 6 => 30 | 9 => 30 | 11 => 30
  | _ => 31

/-- Days before year 2000 + n. -/
def daysBeforeYear (n : Nat) : Nat := (List.range n).foldl (fun a i => a + if leapYear (2000 + i) then 366 else 365) 0

/-- Days before month m of a year. -/
def daysBeforeMonth (y m : Nat) : Nat := (List.range (m - 1)).foldl (fun a i => a + monthDays y (i + 1)) 0

/-- An impossible calendar input (R96). -/
def bcdImpossible : OpRes := ⟨0, 0, 0, bcdFlags 0 false true, 0⟩

/-- Day number of a date, if possible. -/
def dateToDay (t : Word) : Option Nat :=
  let y := bcdVal (t >>> 16)
  let m := nib t 3 * 10 + nib t 2
  let d := nib t 1 * 10 + nib t 0
  if badBcd t || decide (y < 2000 ∨ 2199 < y ∨ m < 1 ∨ 12 < m) then none
  else if d < 1 ∨ monthDays y m < d then none
  else some (daysBeforeYear (y - 2000) + daysBeforeMonth y m + (d - 1))

/-- Walk to the year of a day number. -/
def yearOf : Nat → Nat → Nat → Nat × Nat
  | 0, y, d => (y, d)
  | f + 1, y, d => let n := if leapYear y then 366 else 365
                   if d < n then (y, d) else yearOf f (y + 1) (d - n)

/-- Walk to the month of a day of the year. -/
def monthOf : Nat → Nat → Nat → Nat → Nat × Nat
  | 0, _, m, d => (m, d)
  | f + 1, y, m, d => if d < monthDays y m then (m, d) else monthOf f y (m + 1) (d - monthDays y m)

/-- Date of a day number. -/
def dayToDate (n : Nat) : Word :=
  let (y, d) := yearOf 200 2000 n
  let (m, d) := monthOf 12 y 1 d
  toBcd (y * 10000 + m * 100 + (d + 1))

/-- BCD operation by trigger offset, with the decimal carry that its own flag word presents (R82). -/
def bcdOp (op : Nat) (o1 t : Word) (dcin : Bool) : OpRes :=
  let e8 : Nat := 10 ^ 8
  let a := bcdVal o1
  let b := bcdVal t
  let inv2 := badBcd o1 || badBcd t
  let add (c : Nat) : OpRes := let x := a + b + c
    let q := toBcd (x % e8)
    res1 q (bcdFlags q (decide (e8 ≤ x)) inv2)
  let sub (c : Nat) : OpRes := let q := toBcd ((a + e8 - b - c) % e8)
    res1 q (bcdFlags q (decide (a < b + c)) inv2)
  match op with
  | 0x10 => add 0
  | 0x11 => add dcin.toNat
  | 0x12 => sub 0
  | 0x13 => sub dcin.toNat
  | 0x14 => let x := nibVal t
            let q := toBcd (x % e8)
            res1 q (bcdFlags q (decide (e8 ≤ x)) false)
  | 0x15 => res1 (w b) (bcdFlags (w b) false (badBcd t))
  | 0x16 => let q := toBcd (t.toNat % e8)
            res2 q (w (t.toNat / e8)) (bcdFlags q (decide (t.toNat / e8 ≠ 0)) false)
  | 0x17 => match dateToDay t with
            | some n => res1 (w n) (bcdFlags (w n) false false)
            | none => bcdImpossible
  | 0x18 => if t.toNat ≤ 73048 then
              let q := dayToDate t.toNat
              res2 q (w ((t.toNat + 5) % 7 + 1)) (bcdFlags q false false)
            else bcdImpossible
  | 0x19 => let h := nib t 5 * 10 + nib t 4
            let m := nib t 3 * 10 + nib t 2
            let s := nib t 1 * 10 + nib t 0
            if badBcd t || decide (0x1000000 ≤ t.toNat ∨ 23 < h ∨ 59 < m ∨ 59 < s) then bcdImpossible
            else let q := w (h * 3600 + m * 60 + s)
                 res1 q (bcdFlags q false false)
  | _ => if t.toNat ≤ 86399 then
           let n := t.toNat
           let q := toBcd (n / 3600 * 10000 + n / 60 % 60 * 100 + n % 60)
           res1 q (bcdFlags q false false)
         else bcdImpossible

/-! ### BIT (R97) -/

/-- Group g of the edge memory. -/
def edgeGroup (e : BitVec 4096) (g : Nat) : Word := e.extractLsb' (32 * g) 32

/-- The edge memory with group g replaced. -/
def setEdgeGroup (e : BitVec 4096) (g : Nat) (x : Word) : BitVec 4096 :=
  (e &&& ~~~((0xFFFFFFFF#32).setWidth 4096 <<< (32 * g))) ||| ((x.setWidth 4096) <<< (32 * g))

/-- The edge memory with one cell replaced. -/
def setEdgeCell (e : BitVec 4096) (c : Nat) (b : Bool) : BitVec 4096 :=
  if b then e ||| (1#4096 <<< c) else e &&& ~~~(1#4096 <<< c)

/-- BIT operation by trigger offset: what it presents and the edge memory it leaves. -/
def bitOp (op : Nat) (o1 t : Word) (e : BitVec 4096) : OpRes × BitVec 4096 :=
  let i := t.toNat % 32
  let b := o1.getLsbD i
  let c := (t.toNat >>> 16) % 4096
  let g := t.toNat % 128
  let zn (q : Word) (z : Bool) : Word := flagWord false false z q.msb false false false
  match op with
  | 0x10 => (aluPlain (o1 ||| (1#32 <<< i)), e)
  | 0x11 => (aluPlain (o1 &&& ~~~(1#32 <<< i)), e)
  | 0x12 => (aluPlain (o1 ^^^ (1#32 <<< i)), e)
  | 0x13 => (res1 (bitWord b) (zn (bitWord b) (!b)), e)
  | 0x14 => let old := e.getLsbD c
            let r := bitWord (b && !old)
            let f := bitWord (!b && old)
            (res2 r f (zn r (b == old)), setEdgeCell e c b)
  | 0x15 => let old := edgeGroup e g
            let r := o1 &&& ~~~old
            (res2 r (old &&& ~~~o1) (zn r (o1 == old)), setEdgeGroup e g o1)
  | 0x16 => (res1 (bitWord b) (zn (bitWord b) (!b)), setEdgeCell e c b)
  | _ => (aluPlain o1, setEdgeGroup e g o1)

/-! ### CMP (R99), integer part -/

/-- Result bit of an integer comparison by trigger offset. -/
def cmpInt (op : Nat) (o1 o2 t : Word) : Bool :=
  match op with
  | 0x10 => o1 == t
  | 0x11 => o1 != t
  | 0x12 => BitVec.slt o1 t
  | 0x13 => BitVec.sle o1 t
  | 0x14 => BitVec.slt t o1
  | 0x15 => BitVec.sle t o1
  | 0x16 => BitVec.ult o1 t
  | 0x17 => BitVec.ule o1 t
  | 0x18 => BitVec.ult t o1
  | 0x19 => BitVec.ule t o1
  | 0x1A => (o1 &&& t) == 0
  | 0x1B => (o1 &&& t) != 0
  | 0x23 => BitVec.sle o2 o1 && BitVec.sle o1 t
  | _ => BitVec.ule o2 o1 && BitVec.ule o1 t

/-- What CMP presents for a result bit (R99): q and Z. -/
def cmpRes (r inv : Bool) : OpRes := res1 (bitWord r) (flagWord false false (!r) false false false inv)

end Sys2Proof.Machine
end

