-- ==== Sys2Proof/Machine/Float.lean ====
section
/-! DEFINITION. binary32 arithmetic of FPU and of the CMP comparisons (R99, R101 to R103), and CRD (R104). -/
namespace Sys2Proof.Machine

/-! ### Classes and values -/

def fSign (x : Word) : Bool := x.msb
def fExp (x : Word) : Nat := (x.toNat >>> 23) % 256
def fMan (x : Word) : Nat := x.toNat % 2 ^ 23
def fIsNaN (x : Word) : Bool := fExp x == 255 && fMan x != 0
def fIsSNaN (x : Word) : Bool := fIsNaN x && !x.getLsbD 22
def fIsInf (x : Word) : Bool := fExp x == 255 && fMan x == 0
def fIsZero (x : Word) : Bool := fExp x == 0 && fMan x == 0
/-- Finite value: significand and exponent, ±sig × 2^ex. -/
def fSig (x : Word) : Nat := if fExp x = 0 then fMan x else fMan x + 2 ^ 23
def fEx (x : Word) : Int := Int.ofNat (max (fExp x) 1) - 150

/-- The quiet NaN of R102. -/
def qNaN : Word := 0x7FC00000#32

/-- ±∞ and ±0. -/
def fInf (s : Bool) : Word := if s then 0xFF800000#32 else 0x7F800000#32
def fZero (s : Bool) : Word := if s then 0x80000000#32 else 0

/-- A rounded result: the word, overflow, inexact. -/
structure FRound where
  x : Word
  v : Bool
  c : Bool

/-- Round ±(m + δ)·2^ex once, to nearest with ties to even; `sticky` says 0 < δ < 1 (R101). A sticky operand has at
least 26 significant bits. -/
def fRound (s : Bool) (m : Nat) (ex : Int) (sticky : Bool) : FRound :=
  if m = 0 then ⟨fZero s, false, sticky⟩
  else
    let e := ex + Int.ofNat (Nat.log2 m)
    let el := max (e - 23) (-149)
    let sh := el - ex
    let (q, inexact) :=
      if sh ≤ 0 then (m * 2 ^ (-sh).toNat, sticky)
      else
        let k := sh.toNat
        let r := m % 2 ^ k
        let half := 2 ^ (k - 1)
        let up := decide (half < r) || (r == half && (sticky || (m >>> k) % 2 == 1))
        ((m >>> k) + up.toNat, decide (r ≠ 0) || sticky)
    let (q, el) := if q = 2 ^ 24 then (2 ^ 23, el + 1) else (q, el)
    let be := (el + 150).toNat
    if q < 2 ^ 23 then ⟨fZero s ||| w q, false, inexact⟩
    else if 255 ≤ be then ⟨fInf s, true, true⟩
    else ⟨fZero s ||| w (be * 2 ^ 23 + (q - 2 ^ 23)), false, inexact⟩

/-- FPU flag word: C inexact, V overflow, Z zero result, N sign, DZ, INV (R101); N = 0 for a NaN result (R102). -/
def fFlags (q : Word) (v c dz inv : Bool) : Word := flagWord c v (fIsZero q) (fSign q) dz false inv

/-- A rounded result as presented. -/
def fRes (r : FRound) : OpRes := res1 r.x (fFlags r.x r.v r.c false false)

/-- An exact result. -/
def fExact (q : Word) : OpRes := res1 q (fFlags q false false false false)

/-- The NaN result, with or without INV. -/
def fNaN (inv : Bool) : OpRes := res1 qNaN (fFlags qNaN false false false inv)

/-- Signed significand at a common exponent. -/
def fScaled (s : Bool) (m : Nat) (ex lo : Int) : Int :=
  let x : Int := m * 2 ^ (ex - lo).toNat
  if s then -x else x

/-- Exact sum of two finite signed values, rounded once; an exact zero keeps a common sign and is +0 otherwise. -/
def fSum (s1 : Bool) (m1 : Nat) (e1 : Int) (s2 : Bool) (m2 : Nat) (e2 : Int) : OpRes :=
  let lo := min e1 e2
  let x := fScaled s1 m1 e1 lo + fScaled s2 m2 e2 lo
  if x = 0 then fExact (fZero (if m1 = 0 ∧ m2 = 0 then s1 && s2 else false))
  else fRes (fRound (decide (x < 0)) x.natAbs lo false)

/-- FADD, and FSUB with the second sign inverted. -/
def fAdd (a b : Word) : OpRes :=
  if fIsNaN a || fIsNaN b then fNaN (fIsSNaN a || fIsSNaN b)
  else if fIsInf a && fIsInf b then (if fSign a == fSign b then fExact a else fNaN true)
  else if fIsInf a then fExact a
  else if fIsInf b then fExact b
  else fSum (fSign a) (fSig a) (fEx a) (fSign b) (fSig b) (fEx b)

/-- The word with its sign inverted, NaN kept for classification. -/
def fFlip (b : Word) : Word := b ^^^ 0x80000000#32

/-- FMUL. -/
def fMul (a b : Word) : OpRes :=
  let s := fSign a != fSign b
  if fIsNaN a || fIsNaN b then fNaN (fIsSNaN a || fIsSNaN b)
  else if (fIsInf a && fIsZero b) || (fIsZero a && fIsInf b) then fNaN true
  else if fIsInf a || fIsInf b then fExact (fInf s)
  else fRes (fRound s (fSig a * fSig b) (fEx a + fEx b) false)

/-- FMA: a × b + c with one rounding. -/
def fFma (a b c : Word) : OpRes :=
  let s := fSign a != fSign b
  let inval := (fIsInf a && fIsZero b) || (fIsZero a && fIsInf b)
  if fIsNaN a || fIsNaN b || fIsNaN c then fNaN (fIsSNaN a || fIsSNaN b || fIsSNaN c || inval)
  else if inval then fNaN true
  else if fIsInf a || fIsInf b then
    (if fIsInf c && (fSign c != s) then fNaN true else fExact (fInf s))
  else if fIsInf c then fExact c
  else fSum s (fSig a * fSig b) (fEx a + fEx b) (fSign c) (fSig c) (fEx c)

/-- FDIV. -/
def fDiv (a b : Word) : OpRes :=
  let s := fSign a != fSign b
  if fIsNaN a || fIsNaN b then fNaN (fIsSNaN a || fIsSNaN b)
  else if (fIsInf a && fIsInf b) || (fIsZero a && fIsZero b) then fNaN true
  else if fIsInf a then fExact (fInf s)
  else if fIsInf b then fExact (fZero s)
  else if fIsZero b then { res1 (fInf s) (fFlags (fInf s) false false true false) with arg := a }
  else
    let n := fSig a * 2 ^ 60
    let d := fSig b
    fRes (fRound s (n / d) (fEx a - fEx b - 60) (decide (n % d ≠ 0)))

/-- Integer square root by bits: the largest r with r² ≤ n, found from bit `k` down. -/
def isqrtFrom (n : Nat) : Nat → Nat → Nat
  | 0, r => r
  | k + 1, r => isqrtFrom n k (if (r + 2 ^ k) * (r + 2 ^ k) ≤ n then r + 2 ^ k else r)

/-- FSQRT. -/
def fSqrt (a : Word) : OpRes :=
  if fIsNaN a then fNaN (fIsSNaN a)
  else if fIsZero a then fExact a
  else if fSign a then fNaN true
  else if fIsInf a then fExact a
  else
    -- an even exponent and 54 more bits leave at least 27 significant bits in the root
    let odd := fEx a % 2
    let n := fSig a * 2 ^ (odd.toNat + 54)
    let r := isqrtFrom n 40 0
    fRes (fRound false r ((fEx a - odd - 54) / 2) (decide (r * r ≠ n)))

/-- Order of two numbers that are no NaN, −0 equal to +0. -/
def fLt (a b : Word) : Bool :=
  let v (x : Word) : Int := if fSign x then -Int.ofNat (x.toNat % 2 ^ 31) else Int.ofNat (x.toNat % 2 ^ 31)
  decide (v a < v b)
def fEq (a b : Word) : Bool := a == b || (fIsZero a && fIsZero b)

/-- FMIN and FMAX (R102): minimumNumber and maximumNumber, −0 below +0. -/
def fMinMax (mx : Bool) (a b : Word) : OpRes :=
  let inv := fIsSNaN a || fIsSNaN b
  let out (q : Word) : OpRes := res1 q (fFlags q false false false inv)
  if fIsNaN a && fIsNaN b then fNaN inv
  else if fIsNaN a then out b
  else if fIsNaN b then out a
  else
    let less := fLt a b || (fEq a b && fSign a && !fSign b)
    out (if less != mx then a else b)

/-- I2F and U2F. -/
def fOfInt (x : Int) : OpRes := fRes (fRound (decide (x < 0)) x.natAbs 0 false)

/-- The integer nearest to a finite value, ties to even, or truncated; with whether it differs in value. -/
def fToInt (trunc : Bool) (a : Word) : Int × Bool :=
  let m := fSig a
  let e := fEx a
  let (q, inexact) :=
    if 0 ≤ e then (m * 2 ^ e.toNat, false)
    else
      let k := (-e).toNat
      let r := m % 2 ^ k
      let half := 2 ^ (k - 1)
      let up := !trunc && (decide (half < r) || (r == half && (m >>> k) % 2 == 1))
      ((m >>> k) + up.toNat, decide (r ≠ 0))
  ((if fSign a then -Int.ofNat q else Int.ofNat q), inexact)

/-- F2I, F2IT and F2U with their limits (R102). -/
def fConv (trunc : Bool) (lo hi : Int) (a : Word) : OpRes :=
  let inval (q : Word) : OpRes := res1 q (flagWord false false (q == 0) q.msb false false true)
  if fIsNaN a then inval 0
  else if fIsInf a then inval (BitVec.ofInt 32 (if fSign a then lo else hi))
  else
    let (x, inexact) := fToInt trunc a
    if x < lo then inval (BitVec.ofInt 32 lo)
    else if hi < x then inval (BitVec.ofInt 32 hi)
    else let q := BitVec.ofInt 32 x
         res1 q (flagWord inexact false (q == 0) q.msb false false false)

/-- FRND: roundToIntegralExact. -/
def fRnd (a : Word) : OpRes :=
  if fIsNaN a then fNaN (fIsSNaN a)
  else if fIsInf a || fIsZero a then fExact a
  else
    let (x, inexact) := fToInt false a
    let q := if x = 0 then fZero (fSign a) else (fRound (decide (x < 0)) x.natAbs 0 false).x
    res1 q (fFlags q false inexact false false)

/-- FPU operation by trigger offset (R101). -/
def fpuOp (op : Nat) (o1 o2 t : Word) : OpRes :=
  match op with
  | 0x10 => fAdd o1 t
  | 0x11 => if fIsNaN t then fAdd o1 t else fAdd o1 (fFlip t)
  | 0x12 => fMul o1 t
  | 0x13 => fFma o1 o2 t
  | 0x14 => if fIsNaN t then fFma o1 o2 t else fFma o1 o2 (fFlip t)
  | 0x15 => fDiv o1 t
  | 0x16 => fSqrt t
  | 0x17 => fExact (fFlip t)
  | 0x18 => fExact (t &&& 0x7FFFFFFF#32)
  | 0x19 => fMinMax false o1 t
  | 0x1A => fMinMax true o1 t
  | 0x1B => fOfInt t.toInt
  | 0x1C => fOfInt t.toNat
  | 0x1D => fConv false (-(2 ^ 31)) (2 ^ 31 - 1) t
  | 0x1E => fConv true (-(2 ^ 31)) (2 ^ 31 - 1) t
  | 0x1F => fConv false 0 (2 ^ 32 - 1) t
  | _ => fRnd t

/-- CMP binary32 comparisons by trigger offset: result bit and INV (R99). -/
def cmpFloat (op : Nat) (a t : Word) : Bool × Bool :=
  let nan := fIsNaN a || fIsNaN t
  let snan := fIsSNaN a || fIsSNaN t
  match op with
  | 0x1C => (!nan && fEq a t, snan)
  | 0x1D => (nan || !fEq a t, snan)
  | 0x1E => (!nan && fLt a t, nan)
  | 0x1F => (!nan && (fLt a t || fEq a t), nan)
  | 0x20 => (!nan && fLt t a, nan)
  | 0x21 => (!nan && (fLt t a || fEq a t), nan)
  | _ => (nan, snan)

/-- CMP operation by trigger offset: result bit and what is presented. -/
def cmpOp (op : Nat) (o1 o2 t : Word) : Bool × OpRes :=
  if 0x1C ≤ op ∧ op ≤ 0x22 then let (r, inv) := cmpFloat op o1 t
                                (r, cmpRes r inv)
  else let r := cmpInt op o1 o2 t
       (r, cmpRes r false)

/-- A rational rounded once to binary32. -/
def f32OfRat (x : Rat) : Word :=
  let k := 32 + Nat.log2 x.den
  let n := x.num.natAbs * 2 ^ k
  (fRound (decide (x.num < 0)) (n / x.den) (-Int.ofNat k) (decide (n % x.den ≠ 0))).x

/-- The value of a finite binary32 word. -/
def ratOfF32 (x : Word) : Rat :=
  let m : Rat := if 0 ≤ fEx x then mkRat (fSig x * 2 ^ (fEx x).toNat) 1 else mkRat (fSig x) (2 ^ (-fEx x).toNat)
  if fSign x then -m else m

/-! ### CRD (R104)

The manual bounds CRD results and does not state their bits. The free value of Config is taken where it lies within the
bound of an exact reference, and the rounded reference otherwise, so every result obeys the bound. References are
integers scaled by 2^64. -/

/-- The reference scale. -/
def crdOne : Int := 2 ^ 64

/-- π and 2π in the reference scale. -/
def crdPi : Int := 314159265358979323846264338327950288419716939937510 * 2 ^ 64 / 10 ^ 50

/-- A finite value in the reference scale (floor). -/
def crdFix (x : Word) : Int :=
  let e := fEx x + 64
  let m : Int := if 0 ≤ e then fSig x * 2 ^ e.toNat else fSig x / 2 ^ (-e).toNat
  if fSign x then -m else m

/-- A reference rounded to binary32. -/
def crdWord (x : Int) : Word := (fRound (decide (x < 0)) x.natAbs (-64) false).x

/-- Taylor sum of sine or cosine: `t` is the running term, `k` the index of the next factor. -/
def crdSeries (x2 : Int) : Nat → Int → Int → Int → Int
  | 0, _, _, acc => acc
  | f + 1, t, k, acc =>
    let t' := -(t * x2 / crdOne) / ((k + 1) * (k + 2))
    crdSeries x2 f t' (k + 2) (acc + t')

/-- The angle reduced to within half a turn. -/
def crdReduce (x : Int) : Int := x - 2 * crdPi * ((x + crdPi) / (2 * crdPi))

/-- Sine and cosine references. -/
def crdSinRef (x : Int) : Int := let r := crdReduce x
                                 crdSeries (r * r / crdOne) 20 r 1 r
def crdCosRef (x : Int) : Int := let r := crdReduce x
                                 crdSeries (r * r / crdOne) 20 crdOne 0 crdOne

/-- Arc tangent of 2^-i, by its series. -/
def crdAtanPow (i : Nat) : Int :=
  if i = 0 then crdPi / 4
  else (List.range 34).foldl (fun a k =>
    let t : Int := crdOne / 2 ^ (i * (2 * k + 1)) / (2 * k + 1)
    if k % 2 = 0 then a + t else a - t) 0

/-- Vectoring rotations from step i on: the angle turned. -/
def crdVector : Nat → Nat → Int → Int → Int → Int
  | 0, _, _, _, z => z
  | f + 1, i, x, y, z =>
    if 0 < y then crdVector f (i + 1) (x + y / 2 ^ i) (y - x / 2 ^ i) (z + crdAtanPow i)
    else if y < 0 then crdVector f (i + 1) (x - y / 2 ^ i) (y + x / 2 ^ i) (z - crdAtanPow i)
    else z

/-- Two finite values at one scale in which the larger has about 100 bits. -/
def crdPair (x y : Word) : Int × Int :=
  let top (a : Word) : Int := if fSig a = 0 then -1000 else fEx a + Nat.log2 (fSig a)
  let lo := max (top x) (top y) - 100
  let sc (a : Word) : Int :=
    let e := fEx a - lo
    let m : Int := if 0 ≤ e then fSig a * 2 ^ e.toNat else fSig a / 2 ^ (-e).toNat
    if fSign a then -m else m
  (sc x, sc y)

/-- Reference angle of finite (x, y), not both 0. -/
def crdAtanRef (x y : Word) : Int :=
  let (a, b) := crdPair x y
  if a < 0 then
    let z := crdVector 48 0 (-a) (-b) 0
    if fSign y then z - crdPi else z + crdPi
  else crdVector 48 0 a b 0

/-- Whether a word is a finite value within 2^-21 of a reference. -/
def crdNear (q : Word) (ref : Int) : Bool :=
  fExp q != 255 && decide ((crdFix q - ref).natAbs ≤ 2 ^ 43)

/-- The free value where it obeys the bound, the rounded reference otherwise. -/
def crdPick (free : Word) (ref : Int) : Word := if crdNear free ref then free else crdWord ref

/-- Reference angle of one infinite operand. -/
def crdInfRef (x y : Word) : Int :=
  let r : Int := if fIsInf y then crdPi / 2 else if fSign x then crdPi else 0
  if fSign y then -r else r

/-- The angle in q (ATAN2 and the second result of POLAR): x = o1, y = T; and whether it is not exact. The angle is 0 for
y = 0 and x > 0, and for a finite y and x = +∞; no other angle has an exact word. -/
def crdAngle (x y : Word) : Word × Bool :=
  if fIsZero x && fIsZero y then
    (if fSign x then ((if fSign y then 0xC0490FDB#32 else 0x40490FDB#32), true) else (y, false))
  else if fIsInf x && fIsInf y then (Config.crdAtan2 x y, true)
  else
    let ref := if fIsInf x || fIsInf y then crdInfRef x y else crdAtanRef x y
    let q := crdPick (Config.crdAtan2 x y) ref
    let zero := !fSign x && (fIsZero y || (fIsInf x && !fIsInf y))
    (if q.toNat % 2 ^ 31 ≤ 0x40490FDB then q else fZero (fSign q) ||| 0x40490FDB#32, !(zero && fIsZero q))

/-- Whether a word lies within a relative error of 2^-21 of √(x² + y²), for finite x, y. -/
def crdMagNear (q x y : Word) : Bool :=
  -- all squares at the scale 2^-1024, so that they compare exactly
  let sq (v : Word) : Nat := fSig v * fSig v * 2 ^ (2 * (fEx v + 256)).toNat
  let s := sq x + sq y
  let k : Nat := 2 ^ 21
  !fSign q && fExp q != 255
    && decide ((k - 1) * (k - 1) * s ≤ sq q * (k * k)) && decide (sq q * (k * k) ≤ (k + 1) * (k + 1) * s)

/-- The magnitude: word, overflow, inexact; 0 where both operands are 0, as the bound asks, which is exact. -/
def crdMagnitude (x y : Word) : FRound :=
  if fIsInf x || fIsInf y then ⟨fInf false, false, false⟩
  else if fIsZero x && fIsZero y then ⟨0, false, false⟩
  else
    let sq (v : Word) : Nat := fSig v * fSig v * 2 ^ (2 * (fEx v + 256)).toNat
    let n := sq x + sq y
    let r := isqrtFrom n 420 0
    let ref := fRound false r (-256) (decide (r * r ≠ n))
    if ref.v then ⟨fInf false, true, true⟩
    else
      let q := if crdMagNear (Config.crdMag x y) x y then Config.crdMag x y else ref.x
      ⟨q, false, decide (sq q ≠ n)⟩

/-- CRD operation by trigger offset: x = o1, T. -/
def crdOp (op : Nat) (o1 t : Word) : OpRes :=
  let fl (q : Word) (v c inv : Bool) : Word := flagWord c v (fIsZero q) (fSign q) false false inv
  match op with
  | 0x10 => if fIsNaN o1 || fIsNaN t then fNaN true
            else let (q, c) := crdAngle o1 t
                 res1 q (fl q false c false)
  | 0x11 => if fIsNaN o1 || fIsNaN t then fNaN true
            else let r := crdMagnitude o1 t
                 res1 r.x (fl r.x r.v r.c false)
  | 0x12 => if fIsNaN o1 || fIsNaN t then res2 qNaN qNaN (fl qNaN false false true)
            else let r := crdMagnitude o1 t
                 let (a, c) := crdAngle o1 t
                 res2 r.x a (fl r.x r.v (r.c || c) false)
  | _ => if fIsNaN t || fIsInf t || decide (0x47800000 < t.toNat % 2 ^ 31) then
           res2 qNaN qNaN (fl qNaN false false true)
         else
           let x := crdFix t
           let s := crdPick (Config.crdSin t) (crdSinRef x)
           let c := crdPick (Config.crdCos t) (crdCosRef x)
           -- sine and cosine of 0 are 0 and 1; no other angle of the format has an exact word
           res2 s c (fl s false (!(fIsZero t && fIsZero s && decide (c = 0x3F800000#32))) false)

end Sys2Proof.Machine
end

