-- ==== Sys2Proof/Machine/Doubt.lean ====
section
/-! DEFINITION. The MODULE doubt and its path to the safe state (R22 to R28), with what each subsystem does at t_d. -/
namespace Sys2Proof.Machine

/-! ### What stops at t_d -/

/-- The type number of a power-quality state (R250). -/
def pqType : PqState → Nat
  | .normal => 0 | .sag => 1 | .swell => 2 | .interruption => 3

/-- Seconds and nanoseconds words of a time in seconds. -/
def timeWords (t : Rat) : Word × Word × Word :=
  let ns := (t * 1000000000).floor.toNat
  (w (ns % 1000000000), w (ns / 1000000000), w (ns / 1000000000 / 2 ^ 32 % 2 ^ 16))

/-- A power-quality event of a channel ends: it enters the queue of 64 and writes NOTE 0x6020, or is dropped (R250). -/
def pqEnd (c : Nat) (ch : EqChan) (endTime : Rat) (trunc : Bool) (s : State) : State :=
  let ty := pqType ch.pq
  let (a, b, d) := timeWords ch.start
  if s.eq.queue.length < 64 then
    let e : PqEvent := ⟨#v[w (c + ty * 2 ^ 8) ||| (bitWord trunc <<< 16), a, b, d, w ch.extreme, w ch.halves,
      f32OfRat ((endTime - ch.start) * 1000), s.eq.pqSeq]⟩
    note 0x6020 srcEQ (w (c + ty * 2 ^ 8)) (w ch.extreme) (w ch.halves)
      { s with eq := { s.eq with queue := s.eq.queue ++ [e], pqSeq := s.eq.pqSeq + 1, evt := setBit s.eq.evt 1 } }
  else
    note 0x6021 srcEQ (w c) (w ty) (w s.eq.queue.length) { s with eq := { s.eq with evt := setBit s.eq.evt 2 } }

/-- What a save holds (R254); a latch that has closed counts in SEQ. -/
def saveOf (s : State) (seq : Word) : EqSave :=
  ⟨seq, s.eq.points.map fun pt => if pt.latched.isSome then { pt.kept with seq := pt.kept.seq + 1 } else pt.kept,
   s.eq.gens.map fun g => (g.count, g.backlog)⟩

/-- EQ stops accumulating (R25 step 1): running power-quality events are queued with TRUNC (R257). -/
def eqStop (s : State) : State :=
  let s := forAll (where_ 192 fun c => (vget State.chan0 s.eq.chans c).pq ≠ .normal) (fun c s =>
    let ch := vget State.chan0 s.eq.chans c
    assertEvw 40 (pqEnd c ch ch.halfStart true
      { s with eq := { s.eq with chans := vset s.eq.chans c { ch with pq := .normal } } })) s
  if s.eq.run then
    { s with eq := { s.eq with run := false, atDoubt := some (saveOf s 0) }, persist := { s.persist with eqStopAt := some s.rtc.count } }
  else s

/-- The transfer engine takes no new descriptor; queued ones become NOT_RUN, running ones complete (R183). -/
def teStop (s : State) : State :=
  { s with mem := { s.mem with
      te := vmap s.mem.te fun _ d => if d.state = .queued then { d with state := .notRun } else d
      hostQ := [], fwQ := [], halted := true } }

/-- A controller removes every PENDING frame, withdraws from arbitration and goes to bus monitoring; it enters OFF at the
end of a frame past its commit point, or at once if there is none (R287). -/
def canStopCtl (c : CanCtl) : CanCtl :=
  let bufs := c.bufs.map fun b =>
    if b.state = .pending then { b with state := .cancelled, held := none } else { b with held := none }
  if c.attempt.any (·.committed) then { c with bufs := bufs, closing := true, refDue := none, withdrawn := none }
  else { c with
    bufs := bufs, closing := false, refDue := none, attempt := none, withdrawn := none, errTx := none, state := .off }

/-- Every controller stops; one that changes state asserts its event source (R39). -/
def canStop (s : State) : State :=
  let s' := { s with can := ⟨s.can.ctl.map canStopCtl⟩ }
  forAll (where_ 4 fun n =>
    (vget State.can0 s'.can.ctl n).state ≠ (vget State.can0 s.can.ctl n).state) (fun n s => assertEvw (30 + n) s) s'

/-- The hardware sends DOUBT on the sync links (R295); whether the peer was STANDBY at t_d is kept (R304). -/
def hsbDoubt (code : BitVec 16) (s : State) : State :=
  let s := { s with hsb := { s.hsb with failover := s.hsb.peerRole == some .standby } }
  if hsbEn s then hsbPush (.doubt code (kLow s)) s else s

/-- Every lane stops at the end of the bundle it is executing (R25 step 1). -/
def lanesStop (s : State) : State := modLanes (fun _ ln => { ln with wasMode := ln.mode, mode := .stopped }) s

/-! ### The doubt -/

/-- The cause numbers of R22. -/
def causeLane : Nat := 0
def causeOverrun : Nat := 1
def causeControl : Nat := 2
def causeSelfTest : Nat := 3
def causeSupply : Nat := 4
def causeClock : Nat := 5
def causeHoldover : Nat := 6
def causeWatchdog : Nat := 7
def causeStandby : Nat := 8
def causeHostReset : Nat := 9

/-- Which flush the first cause calls for (R26). -/
def flushFor (bit : Nat) : FlushKind := if bit = causeSupply then .powerFail else .doubt

/-- The first MODULE cause: the latch of R25 step 1 and everything that stops at t_d. -/
def latchDoubt (bit : Nat) (code : BitVec 16) (s : State) : State :=
  let first := booting s
  hsbDoubt code (canStop (eqStop (teStop (lanesStop { s with
    sys := { s.sys with
      firstCause := code, firstBit := bit, latched := true, cause := setBit s.sys.cause bit
      doubtFrame := kLow s
      doubtPhase := if first then 0 else w s.clk.tickph
      doubtCyc := s.clk.cyc, flush := flushFor bit, doubtBeforeFirst := first, goosePending := !first }
    frm := { s.frm with state := if first then .starting else .halted } }))))

/-- A later cause sets its bit; within the cycle of t_d the lowest cause number is FIRST_CAUSE (R28). -/
def laterDoubt (bit : Nat) (code : BitVec 16) (s : State) : State :=
  let s := { s with sys := { s.sys with cause := setBit s.sys.cause bit } }
  if s.clk.cyc = s.sys.doubtCyc ∧ bit < s.sys.firstBit ∧ ¬ s.sys.flushed then
    { s with sys := { s.sys with firstCause := code, firstBit := bit, flush := flushFor bit } }
  else s

/-- Plinth mode (R27, R354, R385). -/
def inPlinth (s : State) : Bool := s.sys.plinth || s.sys.retired

/-- A cause in plinth mode sets its bit and nothing else (R28). -/
def plinthDoubt (bit : Nat) (s : State) : State := { s with sys := { s.sys with cause := setBit s.sys.cause bit } }

/-- A MODULE cause arises (R22, R23): its recorder entry, and the latch. -/
def moduleDoubt (bit : Nat) (code : BitVec 16) (src : BitVec 8) (p0 p1 p2 : Word) (s : State) : State :=
  let s := if inPlinth s then plinthDoubt bit s else if s.sys.latched then laterDoubt bit code s
    else latchDoubt bit code s
  raiseEntry ⟨code, src, .module, false, p0, p1, p2, s.clk.cyc⟩ s

end Sys2Proof.Machine
end

