-- ==== Sys2Proof/Machine/Lanes.lean ====
section
/-! DEFINITION. One issue step of a lane (R68 to R73, R77 to R79, R116 to R135, R140): results appear, the bundle is
checked, it stalls or takes effect. -/
namespace Sys2Proof.Machine

/-! ### Faults -/

/-- A fault that a step meets: its place in the order of R79, code, LN_FAULT_ARG and slot. -/
structure LFault where
  code : BitVec 16
  arg : Word
  slot : Option Nat
  deriving DecidableEq, Repr

/-- The latch of the LN_FAULT registers (R79): the lowest-numbered lane of the cycle of t_d is shown. `half` is the half
that holds the bundle. -/
def latchFault (half : Bool) (l : Nat) (f : LFault) (pc : Nat) (mac : Bool) (s : State) : LnFault :=
  let o := s.ln.fault
  let mine (mask : BitVec 16) (multi : Bool) : LnFault :=
    ⟨f.code, l, multi, true, pc, half, f.slot, mac, s.clk.tickph, setBit mask l, f.arg⟩
  if o.valid then
    (if l < o.lane then mine o.mask true else { o with multi := true, mask := setBit o.mask l })
  else mine 0 false

/-- Lane `l` faults in this cycle (R77): MODULE doubt, with bit 2 for CONTROL_CHECK and bit 0 otherwise. -/
def laneFaultIn (half : Bool) (l : Fin 16) (f : LFault) (pc : Nat) (mac : Bool) (s : State) : State :=
  let s := { s with ln := { s.ln with fault := latchFault half l.val f pc mac s } }
  let s := modLane l (fun ln => { ln with lastIssue := some s.clk.cyc }) s
  let bit := if f.code = 0x100C#16 then causeControl else causeLane
  moduleDoubt bit f.code (BitVec.ofNat 8 l.val) (w l.val) (w pc) f.arg s

/-- The active half of a lane. -/
def activeHalf (s : State) (l : Nat) : Bool := s.ln.half.getLsbD l

/-- A fault met while the lane runs its active half. -/
def laneFault (l : Fin 16) (f : LFault) (pc : Nat) (mac : Bool) (s : State) : State :=
  laneFaultIn (activeHalf s l.val) l f pc mac s

/-! ### Fetch -/

/-- Offset of bundle `i` of a lane's half in the program window (R16, R59). -/
def bundleAddr (half : Bool) (l i : Nat) : Nat := l * 0x40000 + half.toNat * 0x20000 + i * 32

/-- Bundle `i` of the active half. -/
def fetch (s : State) (l i : Nat) : Nat := leNat (sgets zeroByte s.ln.prog (bundleAddr (activeHalf s l) l i) 32)

/-- The check of bundle `i` of the active half fails (R18). -/
def fetchBad (s : State) (l i : Nat) : Bool := s.ln.badBundles.contains (bundleAddr (activeHalf s l) l i / 32)

/-! ### Results appear (R69, R84, R100) -/

/-- Operations whose result appears in the lane's next step. -/
def dueOf (ln : Lane) : List InFlight := ln.inflight.filter fun r => decide (r.due ≤ ln.step)

/-- The trap that a result meets under the mask in force: DIV_ZERO or INV. -/
def trapOf (trap : Word) (r : InFlight) : Option LFault :=
  if flagDZ r.f && flagDZ trap then some ⟨0x1009, r.arg, none⟩
  else if flagINV r.f && flagINV trap then some ⟨0x100A, w (unitBase r.unit), none⟩
  else none

/-- The trap of results that appear together: DIV_ZERO goes before INV (R79). DESIGN CHOICE (log 62): of two results of one step that trap
alike, the operation started first gives the argument. -/
def firstTrap (trap : Word) (rs : List InFlight) : Option LFault :=
  let ts := rs.filterMap (trapOf trap)
  match ts.find? (fun f => f.code = 0x1009#16) with
  | some f => some f
  | none => ts.head?

/-- The trap of the results that are due. -/
def dueTrap (ln : Lane) : Option LFault := firstTrap ln.trap (dueOf ln)

/-- Predicate after a CMP write (R99): PSEL[2:0] names it, PSEL[4:3] the mode. -/
def predWrite (p : BitVec 8) (psel : Nat) (r : Bool) : BitVec 8 :=
  let i := psel % 8
  let old := p.getLsbD i
  if i = 0 then p
  else match psel / 8 % 4 with
    | 0 => putBit p i r
    | 1 => putBit p i (old && r)
    | 2 => putBit p i (old || r)
    | _ => p

/-- One result appears in its unit's ports. -/
def appear (ln : Lane) (r : InFlight) : Lane :=
  let u := ln.units[r.unit.idx.val]
  let u' : UnitPorts := match r.unit with
    | .img => { u with f := r.f }
    | .sys => { u with q := r.q, q2 := r.q2, q3 := r.q3 }
    | .lsu => { u with q := r.q }
    | .dsk => { u with q := r.q }
    | .ctl => { u with q := r.q }
    | _ => { u with q := r.q, q2 := r.q2, f := r.f }
  { ln with units := ln.units.set r.unit.idx.val u'
            p := if r.unit = .cmp then predWrite ln.p r.pred (r.q == 1) else ln.p }

/-- Every due result appears, in start order. -/
def present (ln : Lane) : Lane :=
  let due := dueOf ln
  due.foldl appear { ln with inflight := ln.inflight.filter fun r => decide (ln.step < r.due) }

/-! ### The moves of a step -/

/-- What one step issues: the bundle index that LN_PC shows, the header byte, the occupied slots, its moves, and
whether it comes from a macro expansion or belongs to a repeated body. -/
structure Issue where
  pc : Nat
  header : Nat
  occ : Nat
  moves : List Mv
  mac : Option MacroRun
  macLen : Nat
  body : Bool
  deriving Repr

/-- Moves of a body that have no effect (R131). -/
def bodyIgnored (m : Mv) : Bool :=
  decide (0x3C1 ≤ m.dst ∧ m.dst ≤ 0x3C6) || decide (0x3D0 ≤ m.dst ∧ m.dst ≤ 0x3D4)
  || decide (0x390 ≤ m.dst ∧ m.dst ≤ 0x398)

/-- The moves that take effect on the predicates of the step. -/
def effective (is : Issue) (ln : Lane) : List Mv :=
  is.moves.filter fun m => guardOk ln.p m.g && !(is.body && bodyIgnored m)

/-- Value of a special read port (R64). -/
def readSpecial (s : State) (l : Fin 16) (ln : Lane) (p : Nat) : Word :=
  match p with
  | 0x048 => 0
  | 0x049 => 0xFFFFFFFF#32
  | 0x04A => w l.val
  | 0x04B => w (l.val / 4)
  | 0x04C => w s.frm.k
  | 0x04D => w (s.frm.k / 2 ^ 32)
  | 0x04E => w s.clk.tickph
  | 0x04F => w (guardCyc s)
  | 0x050 => w ln.cls
  | 0x051 => w (midPh s)
  | 0x052 => w (slowPh s)
  | 0x053 => w ln.segId
  | 0x054 => bitWord (activeHalf s l.val)
  | 0x055 => 1
  | _ => activeId s

/-- Value of a source port. -/
def readPort (s : State) (l : Fin 16) (ln : Lane) (p : Nat) : Word :=
  if p < 0x040 then vget 0 ln.v p
  else if p < 0x048 then bitWord (ln.p.getLsbD (p - 0x040))
  else match unitOf p with
    | some (u, o) => readUnit ln u o
    | none => readSpecial s l ln p

/-- Value that a move carries. -/
def mvValue (s : State) (l : Fin 16) (ln : Lane) (m : Mv) : Word :=
  match m.src with
  | .port p => readPort s l ln p
  | .imm x => x

/-- The values of a step: destination port and value of every effective move. -/
abbrev Vals := List (Nat × Word)

/-- The value moved to a port in this step. -/
def moved (vs : Vals) (p : Nat) : Option Word := (vs.find? fun x => x.1 == p).map (·.2)

/-- An operand of a unit: moved in this step, or held in its port (R68, R81). -/
def opnd (ln : Lane) (vs : Vals) (u : UnitId) (k : Nat) : Word :=
  match moved vs (unitBase u + k) with
  | some x => x
  | none =>
    let q := ln.units[u.idx.val]
    match k with
    | 0 => q.o1
    | 1 => q.o2
    | _ => q.o3

/-- The trigger of a unit in this step: operation and T. -/
def trigger (vs : Vals) (u : UnitId) : Option (Nat × Word) :=
  vs.findSome? fun x => match trigOf x.1 with
    | some (v, op) => if v = u then some (op, x.2) else none
    | none => none

/-- A REP state or operand port as this step leaves it. -/
def repPort (vs : Vals) (k : Nat) (cur : Word) : Word := (moved vs (0x3C0 + k)).getD cur
def repElemAfter (vs : Vals) (cur : Word) : Word :=
  match moved vs 0x3C4 with
  | some x => (cur &&& 0xFFFFFFF0#32) ||| (x &&& 0xF)
  | none => cur

/-- A transfer is triggered in this step (R117). -/
def isTransfer (vs : Vals) : Bool :=
  match trigger vs .ctl with
  | some (op, _) => decide (0x10 ≤ op ∧ op ≤ 0x14)
  | none => false

/-- The REP trigger that acts in this step: a transfer in the bundle makes it ignored (R118). -/
def repTrigger (vs : Vals) : Option (Nat × Word) := if isTransfer vs then none else trigger vs .rep

/-! ### Access rules -/

/-- Locals reach from 0x8400 to 0xFFFF (R75, R106). -/
def localsOk (a len : Nat) : Bool := decide (0x8400 ≤ a ∧ a + len ≤ 0x10000)

/-- The grants of the lane cover a shared access (R106, R159). -/
def grantOk (s : State) (l a len : Nat) (write : Bool) : Bool :=
  match s.plr.run with
  | none => false
  | some ar => ar.grants.any fun g =>
      g.lane == l && decide (g.base ≤ a ∧ a + len ≤ g.base + g.len) && (if write then g.write else g.read)

/-- A shared access is allowed. -/
def sharedOk (s : State) (l a len : Nat) (write : Bool) : Bool :=
  decide (a ≤ 0x017FFFFF) && grantOk s l (a / len * len) len write

/-- What an IMG access comes to (R108 to R111). -/
inductive ImgAccess where
  | protect
  | invalid
  | word (addr : Nat)
  deriving DecidableEq, Repr

/-- Position of an element in a list. -/
def posOf {α : Type} [BEq α] (x : α) (xs : List α) : Option Nat := xs.findIdx? (· == x)

/-- Largest age and the sample count of age 0, by class (R109). -/
def ageLimit (s : State) (cls : Nat) : Nat :=
  if cls = 1 then 8127 - (progM s - 1) else if cls = 2 then 8127 - (progS s - 1) else 8127
def ageZero (s : State) (cls : Nat) : Nat :=
  let k1 := if cls = 1 then s.frm.k - midPh s else if cls = 2 then s.frm.k - slowPh s else s.frm.k
  k1 - horizon s

/-- The running segment declares item `i` of an access kind: 0 IN, 1 OUT, 2 HS, 3 HQ (R109, R149). -/
def declares (s : State) (ln : Lane) (kind i : Nat) : Bool :=
  match s.plr.run with
  | none => false
  | some a => a.imgGrants.any fun g =>
      g.segId == ln.segId && g.kind == kind && decide (g.first ≤ i ∧ i < g.first + g.count)

/-- Resolve an IMG trigger. -/
def imgAccess (s : State) (ln : Lane) (op : Nat) (t age : Word) : ImgAccess :=
  let i := t.toNat
  match op with
  | 0x10 =>
    if 65535 < i then .invalid
    else if !declares s ln 0 i then .protect
    else if ln.cls = 1 ∨ ln.cls = 2 then
      match posOf i (classIn s ln.cls) with
      | some n => .word (areaBase s (classArea ln.cls) + 4 * n)
      | none => .protect
    else .word (areaBase s 0 + 4 * i)
  | 0x11 =>
    if ln.cls = 3 then .protect
    else if 16383 < i then .invalid
    else if !declares s ln 1 i then .protect
    else if ln.cls = 1 ∨ ln.cls = 2 then
      match posOf i (classOut s ln.cls) with
      | some n => .word (areaBase s (classArea ln.cls) + 4 * ((classIn s ln.cls).length + n))
      | none => .protect
    else .word (areaBase s 1 + 4 * i)
  | 0x12 =>
    if 191 < i ∨ ageLimit s ln.cls < age.toNat then .invalid
    else if !declares s ln 2 i then .protect
    else .word (histAddr s (i / 8) (i % 8) (ageZero s ln.cls - age.toNat))
  | _ =>
    if 23 < i ∨ ageLimit s ln.cls < age.toNat then .invalid
    else if !declares s ln 3 i then .protect
    else .word (qualAddr s i (ageZero s ln.cls - age.toNat))

/-- Data-stack depth and base of the running class (R112, R126). -/
def stackDepth (ln : Lane) : Nat := if ln.cls = 3 then ln.bgDsp else ln.dsp
def stackBase (ln : Lane) : Nat := if ln.cls = 3 then 0x4000 else 0
def setDepth (ln : Lane) (d : Nat) : Lane := if ln.cls = 3 then { ln with bgDsp := d } else { ln with dsp := d }

/-- Word of scratch. -/
def scrWord (ln : Lane) (a : Nat) : Word := BitVec.ofNat 32 (leNat (sgets zeroByte ln.scratch a 4))

/-! ### Batons -/

/-- The lane waits on baton `n`, and is not being preempted. -/
def waitsBaton (ln : Lane) (n : Nat) : Bool :=
  match ln.mode, ln.wait with
  | .wait, .baton m _ => m == n && !ln.saving
  | _, _ => false

/-- Lanes below `l` that wait on a baton take it first (R123). -/
def waitersBelow (s : State) (l n : Nat) : Nat := (where_ l fun i => waitsBaton (vget State.lane0 s.lanes i) n).length

/-- Higher lanes that took baton `n` in this cycle: of one cycle's claims the lower lanes' go first (R123). -/
def takenAbove (s : State) (l n : Nat) : List BatonTake :=
  s.ln.takes.filter fun t => t.baton == n && t.cyc == s.clk.cyc && decide (l < t.lane)

/-- Baton `n` is available to lane `l` in this cycle. -/
def batonFree (s : State) (l n : Nat) : Bool :=
  decide (waitersBelow s l n < vget 0 s.ln.batons n + (takenAbove s l n).length)

/-- The highest lane of a list of takes. -/
def highestTake : List BatonTake → Option BatonTake
  | [] => none
  | t :: ts => match highestTake ts with
    | some u => some (if t.lane < u.lane then u else t)
    | none => some t

/-- A lane that loses its baton to a lower lane of the same cycle: TRYW gives 0, and WAIT waits. -/
def loseBaton (t : BatonTake) (ln : Lane) : Lane :=
  if t.tryw then
    { ln with inflight := ln.inflight.map fun r => if r.unit == .ctl && r.due == ln.step then { r with q := 0 } else r }
  else if ln.mode = .stopped then { ln with wasMode := .wait, wait := .baton t.baton t.deadline }
  else { ln with mode := .wait, wait := .baton t.baton t.deadline }

/-- Lane `l` takes baton `n`, which is available to it: from the count, or from the highest lane that took it in this
cycle (R121, R123). -/
def takeBaton (l n : Nat) (tryw : Bool) (deadline : Option Nat) (s : State) : State :=
  let mine : BatonTake := ⟨l, n, s.clk.cyc, tryw, deadline⟩
  let now := s.ln.takes.filter fun t => t.cyc == s.clk.cyc
  if 0 < vget 0 s.ln.batons n then
    { s with ln := { s.ln with batons := vmod s.ln.batons n (· - 1), takes := mine :: now } }
  else match highestTake (takenAbove s l n) with
    | some t => { s with lanes := vmod s.lanes t.lane (loseBaton t), ln := { s.ln with takes := mine :: now.erase t } }
    | none => s

/-- The armature lists segment `p` for a lane in this frame phase (R40, R41, R119). -/
def inPhase (s : State) (l : Nat) (p : Placed) : Bool :=
  p.lane == l && (p.cls == 0 || (p.cls == 1 && p.share == midPh s) || (p.cls == 2 && p.share == slowPh s))

/-- The scheduled segments of a lane in this frame, and its BACKGROUND segments, in order. -/
def schedule (s : State) (l : Nat) : List Placed :=
  match s.plr.run with
  | none => []
  | some a => a.placed.filter (inPhase s l)
def background (s : State) (l : Nat) : List Placed :=
  match s.plr.run with
  | none => []
  | some a => a.placed.filter fun p => p.lane == l && p.cls == 3

/-- The timetable entry of a lane whose parity fails when it is used: its number (R18). -/
def entryBad (s : State) (l : Nat) (p : Placed) : Option Nat :=
  match s.plr.run with
  | none => none
  | some a => (posOf p (a.placed.filter (·.lane == l))).filter fun e => s.plr.parityBad.contains (l, e)

/-- ARMATURE_CHECK of a used timetable entry (R18, R23). -/
def entryDoubt (l : Nat) (p : Option Placed) (s : State) : State :=
  match p.bind (entryBad s l) with
  | some e => moduleDoubt causeControl 0x1014 srcFRM 2 (w l) (w e) s
  | none => s

/-- The timetable entry that lane `l` goes on to when its running segment ends (R119). -/
def entryAfter (s : State) (l : Nat) (ln : Lane) : Option Placed :=
  if ln.cls = 3 then (background s l)[ln.bgPos + 1]?
  else match (schedule s l)[ln.schedPos + 1]? with
    | some p => some p
    | none => if ln.bgSaved.isSome then none else (background s l).head?

/-- Deadline of a WAIT bundle, by lane, frame phase and bundle index (R125): none in BACKGROUND; its issue cycle where
the armature holds none. -/
def deadlineOf (s : State) (l : Nat) (ln : Lane) (pc : Nat) : Option Nat :=
  if ln.cls = 3 then none
  else some ((((schedule s l).flatMap (·.deadlines)).find? fun d => d.1 == pc).elim s.clk.tickph (·.2))

/-! ### Faults of a step (R77 to R79) -/

/-- First move of a pair that collides at run time (R70, R172). -/
def collision (ms : List Mv) : Option Mv := firstPair collide ms

/-- The triggers that start a shared access. -/
def startsShared (m : Mv) : Bool :=
  match trigOf m.dst with
  | some (.lsu, op) => op == 0x18 || op == 0x19
  | some (.img, _) => true
  | _ => false

/-- BANK_PROTECT of the LSU and IMG triggers of a step (R106, R109). DESIGN CHOICE (log 62): when both break the rule,
the LSU access gives the argument. -/
def protectFault (s : State) (l : Fin 16) (ln : Lane) (vs : Vals) : Option LFault :=
  let lsu := match trigger vs .lsu with
    | some (op, t) =>
      let a := t.toNat
      let len := match op with
        | 0x10 => 4 | 0x13 => 4 | 0x18 => 4 | 0x19 => 4
        | 0x11 => 2 | 0x14 => 2
        | _ => 1
      let ok := if op = 0x18 ∨ op = 0x19 then sharedOk s l.val a 4 (op == 0x19) else localsOk (a / len * len) len
      if ok then none else some (LFault.mk 0x100B t none)
    | none => none
  match lsu with
  | some f => some f
  | none => match trigger vs .img with
    | some (op, t) =>
      if imgAccess s ln op t (opnd ln vs .img 2) = .protect then some ⟨0x100B, t, none⟩ else none
    | none => none

/-- Stack faults of a step; among several, the lower code (R79). -/
def stackFault (ln : Lane) (vs : Vals) : Option LFault :=
  let d := stackDepth ln
  let dsk := match trigger vs .dsk with
    | some (op, t) => match op with
      | 0x10 => if 4096 ≤ d then some (LFault.mk 0x1002 4096 none) else none
      | 0x11 => if d = 0 then some ⟨0x1003, w d, none⟩ else none
      | 0x12 => if d ≤ t.toNat then some ⟨0x1003, w d, none⟩ else none
      | 0x13 => if d < t.toNat then some ⟨0x1003, w d, none⟩ else none
      | _ => none
    | none => none
  match dsk with
  | some f => some f
  | none => match trigger vs .ctl with
    | some (op, _) =>
      if op = 0x12 ∧ 64 ≤ ln.rstack.length then some ⟨0x1004, 64, none⟩
      else if op = 0x13 ∧ ln.rstack = [] then some ⟨0x1005, 0, none⟩
      else none
    | none => none

/-- A popped return entry whose parity fails (R126). -/
def returnFault (ln : Lane) (vs : Vals) : Option LFault :=
  match trigger vs .ctl, ln.rstack with
  | some (op, _), e :: _ => if op = 0x13 ∧ !e.parityOk then some ⟨0x100C, w ln.rstack.length, none⟩ else none
  | _, _ => none

/-- A WAIT that would still wait at its deadline in its own issue cycle (R125). -/
def waitFault (s : State) (l : Fin 16) (ln : Lane) (is : Issue) (vs : Vals) : Option LFault :=
  match trigger vs .ctl with
  | some (op, t) =>
    let n := t.toNat % 256
    if op = 0x15 ∧ ¬ batonFree s l.val n then
      match deadlineOf s l.val ln is.pc with
      | some d => if d ≤ s.clk.tickph then some ⟨0x100E, w n, none⟩ else none
      | none => none
    else none
  | none => none

/-- The first of a list of possible faults. -/
def firstFault (fs : List (Option LFault)) : Option LFault := fs.findSome? id

/-- The fault of an issue step, in the order of R79; `form` is an ILLEGAL_BUNDLE of the bundle's own form. -/
def stepFault (s : State) (l : Fin 16) (ln : Lane) (is : Issue) (vs : Vals) (form : Bool) : Option LFault :=
  let hdr := w is.header
  let eff := effective is ln
  firstFault
    [returnFault ln vs,
     if form then some ⟨0x1007, hdr, none⟩ else none,
     (collision eff).map fun m => ⟨0x1007, hdr, some m.slot⟩,
     if 1 < (eff.filter startsShared).length then some ⟨0x1007, hdr, none⟩ else none,
     is.moves.findSome? fun m => (portFault m).map fun p => ⟨0x1006, w p, some m.slot⟩,
     protectFault s l ln vs,
     stackFault ln vs,
     dueTrap ln,
     waitFault s l ln is vs]

/-! ### Stalls (R71, R73) -/

/-- Slots that a step must not find outstanding: those it reads and those it loads or stores through. -/
def slotsNeeded (ln : Lane) (eff : List Mv) (vs : Vals) : List Nat :=
  let reads := eff.filterMap fun m => match m.src with
    | .port p => if 0x2F0 ≤ p ∧ p < 0x300 then some (p - 0x2F0) else none
    | .imm _ => none
  let lsu := match trigger vs .lsu with
    | some (op, _) => if op = 0x18 ∨ op = 0x19 then [(opnd ln vs .lsu 1).toNat % 16] else []
    | none => []
  let img := match trigger vs .img with
    | some _ => [(opnd ln vs .img 1).toNat % 16]
    | none => []
  reads ++ lsu ++ img

/-- The step stalls. DESIGN CHOICE (log 62): an IMG access out of its range waits for its slot and for room in the queue
like any other. -/
def stalls (ln : Lane) (eff : List Mv) (vs : Vals) : Bool :=
  (slotsNeeded ln eff vs).any (fun k => (vget State.slot0 ln.slots k).outstanding)
  || (eff.any startsShared && decide (16 ≤ ln.reqs.length))

/-! ### Effects of a step -/

/-- Start an operation: its result appears `lat` steps after this one. -/
def startOp (u : UnitId) (lat : Nat) (r : OpRes) (pred : Nat) (ln : Lane) : Lane :=
  { ln with inflight := ln.inflight ++ [⟨u, ln.step + lat, r.q, r.q2, r.q3, r.f, pred, r.arg⟩] }

/-- Abandon the running operation of a busy unit (R69). -/
def abandon (u : UnitId) (due : Nat) (ln : Lane) : Lane :=
  { ln with inflight := ln.inflight.filter fun r => !(r.unit == u && r.due == due) }

/-- A unit's trigger of a step acts on the lane. -/
def onTrigger (vs : Vals) (u : UnitId) (g : Nat → Word → Lane → Lane) (ln : Lane) : Lane :=
  match trigger vs u with
  | some (op, t) => g op t ln
  | none => ln

/-- The flag word that a unit presents. -/
def flagsOf (ln : Lane) (u : UnitId) : Word := (ln.units[u.idx.val]).f

/-- Starts of the operations of ALU_n, MUL, DIV, BCD, BIT, CMP, FPU and CRD (R83, R87 to R104). Operands and flags are
those of `ln0`, the lane as the step begins. -/
def startAlu (vs : Vals) (ln0 : Lane) (u : UnitId) (op : Nat) (t : Word) (ln : Lane) : Lane :=
  startOp u 1 (aluOp op (opnd ln0 vs u 0) t (flagC (flagsOf ln0 u))) 0 ln
def startMul (vs : Vals) (ln0 : Lane) (op : Nat) (t : Word) (ln : Lane) : Lane :=
  let r := mulOp op (opnd ln0 vs .mul 0) t ln.acc
  startOp .mul 3 r.1 0 { ln with acc := r.2 }
def startDiv (vs : Vals) (ln0 : Lane) (op : Nat) (t : Word) (ln : Lane) : Lane :=
  startOp .div 18 (divOp op (opnd ln0 vs .div 0) (opnd ln0 vs .div 1) t) 0
    { abandon .div ln.divBusy ln with divBusy := ln.step + 18 }
def startBcd (vs : Vals) (ln0 : Lane) (op : Nat) (t : Word) (ln : Lane) : Lane :=
  startOp .bcd 1 (bcdOp op (opnd ln0 vs .bcd 0) t (flagDC (flagsOf ln0 .bcd))) 0 ln
def startBit (vs : Vals) (ln0 : Lane) (op : Nat) (t : Word) (ln : Lane) : Lane :=
  let r := bitOp op (opnd ln0 vs .bit 0) t ln.edges
  startOp .bit 1 r.1 0 { ln with edges := r.2 }
def startCmp (vs : Vals) (ln0 : Lane) (op : Nat) (t : Word) (ln : Lane) : Lane :=
  startOp .cmp 1 (cmpOp op (opnd ln0 vs .cmp 0) (opnd ln0 vs .cmp 1) t).2 ((opnd ln0 vs .cmp 2).toNat % 32) ln
def longFpu (op : Nat) : Bool := op == 0x15 || op == 0x16
def startFpu (vs : Vals) (ln0 : Lane) (op : Nat) (t : Word) (ln : Lane) : Lane :=
  startOp .fpu (if longFpu op then 12 else 4) (fpuOp op (opnd ln0 vs .fpu 0) (opnd ln0 vs .fpu 1) t) 0
    { abandon .fpu ln.fpuBusy ln with fpuBusy := if longFpu op then ln.step + 12 else 0 }
def startCrd (vs : Vals) (ln0 : Lane) (op : Nat) (t : Word) (ln : Lane) : Lane :=
  startOp .crd 24 (crdOp op (opnd ln0 vs .crd 0) t) 0 { abandon .crd ln.crdBusy ln with crdBusy := ln.step + 24 }

/-- The arithmetic units' triggers of a step. -/
def runArith (vs : Vals) (ln0 ln : Lane) : Lane :=
  onTrigger vs .crd (startCrd vs ln0) (onTrigger vs .fpu (startFpu vs ln0) (onTrigger vs .cmp (startCmp vs ln0)
    (onTrigger vs .bit (startBit vs ln0) (onTrigger vs .bcd (startBcd vs ln0) (onTrigger vs .div (startDiv vs ln0)
      (onTrigger vs .mul (startMul vs ln0) (onTrigger vs .alu1 (startAlu vs ln0 .alu1)
        (onTrigger vs .alu0 (startAlu vs ln0 .alu0) ln))))))))

/-- The data-stack trigger of a step (R112). -/
def runStack (vs : Vals) (ln : Lane) : Lane :=
  let d := stackDepth ln
  let b := stackBase ln
  match trigger vs .dsk with
  | none => ln
  | some (op, t) => match op with
    | 0x10 => setDepth { ln with scratch := sputs zeroByte (b + 4 * d) (wordBytes t) ln.scratch } (d + 1)
    | 0x11 => startOp .dsk 2 (res1 (scrWord ln (b + 4 * (d - 1))) 0) 0 (setDepth ln (d - 1))
    | 0x12 => startOp .dsk 2 (res1 (scrWord ln (b + 4 * (d - 1 - t.toNat))) 0) 0 ln
    | 0x13 => setDepth ln (d - t.toNat)
    | _ => startOp .dsk 2 (res1 (w d) 0) 0 ln

/-- A shared access enters the request queue and holds its slot (R71, R105, R172). -/
def queueReq (s : State) (slot a : Nat) (op : SharedOp) (store : Bool) (ln : Lane) : Lane :=
  { ln with
    reqs := ln.reqs ++ [⟨a, op, s.clk.cyc + 1⟩]
    slots := vmod ln.slots slot fun r => { r with outstanding := true, granted := none, store := store } }

/-- The LSU trigger of a step (R105). -/
def runLsu (s : State) (vs : Vals) (ln0 ln : Lane) : Lane :=
  match trigger vs .lsu with
  | none => ln
  | some (op, t) =>
    let a := t.toNat
    let o1 := opnd ln0 vs .lsu 0
    let slot := (opnd ln0 vs .lsu 1).toNat % 16
    let rd (a n : Nat) : Word := BitVec.ofNat 32 (leNat (sgets zeroByte ln.scratch a n))
    let wr (a n : Nat) : Lane := { ln with scratch := sputs zeroByte a (leBytes n o1.toNat) ln.scratch }
    match op with
    | 0x10 => startOp .lsu 2 (res1 (rd (a / 4 * 4) 4) 0) 0 ln
    | 0x11 => startOp .lsu 2 (res1 (rd (a / 2 * 2) 2) 0) 0 ln
    | 0x12 => startOp .lsu 2 (res1 (rd a 1) 0) 0 ln
    | 0x13 => wr (a / 4 * 4) 4
    | 0x14 => wr (a / 2 * 2) 2
    | 0x15 => wr a 1
    | 0x18 => queueReq s slot (a / 4 * 4) (.load slot 4 false) false ln
    | _ => queueReq s slot (a / 4 * 4) (.store slot 4 o1) true ln

/-- The IMG trigger of a step (R108, R111). -/
def runImg (s : State) (vs : Vals) (ln0 ln : Lane) : Lane :=
  match trigger vs .img with
  | none => ln
  | some (op, t) =>
    let slot := (opnd ln0 vs .img 1).toNat % 16
    let flags (inv : Bool) (ln : Lane) : Lane :=
      startOp .img 1 (res1 0 (flagWord false false false false false false inv)) 0 ln
    match imgAccess s ln0 op t (opnd ln0 vs .img 2) with
    | .word a =>
      if op = 0x11 then flags false (queueReq s slot a (.store slot 4 (opnd ln0 vs .img 0)) true ln)
      else flags false (queueReq s slot a (.load slot 4 (op == 0x13)) false ln)
    | _ =>
      if op = 0x11 then flags true ln
      else flags true { ln with slots := vmod ln.slots slot fun r => { r with data := 0 } }

/-- Third result word of TTICK and NOW (R113): locked, holdover, HOLD_LIM and REALIGN from bit 16 (R214, R224). -/
def timeQ3 (nt : Nat) (flags : BitVec 4) : Word :=
  w (nt / ntSec / 2 ^ 32 % 2 ^ 16) ||| (BitVec.setWidth 32 flags <<< 16)

/-- The SYS trigger of a step that gives a result (R113). -/
def runSys (s : State) (vs : Vals) (ln : Lane) : Lane :=
  let time (nt : Nat) (flags : BitVec 4) : OpRes := ⟨w (nt % ntSec / ntNs), w (nt / ntSec), timeQ3 nt flags, 0, 0⟩
  match trigger vs .sys with
  | some (0x10, t) => startOp .sys 1 (res1 (s.frm.evw.extractLsb' (32 * (t.toNat % 4)) 32) 0) 0 ln
  | some (0x11, _) => startOp .sys 1 (time s.frm.ttick s.frm.ttFlags) 0 ln
  | some (0x12, _) => startOp .sys 1 (time (ntCap s) (timeFlags s)) 0 ln
  | _ => ln

/-- LOG places its entry, at most 4 per lane and frame (R114). -/
def runLog (l : Fin 16) (vs : Vals) (ln0 : Lane) (s : State) : State :=
  match trigger vs .sys with
  | some (0x13, t) =>
    if ln0.logs < 4 then
      note (BitVec.ofNat 16 (0xE000 + t.toNat % 4096)) (BitVec.ofNat 8 l.val) (opnd ln0 vs .sys 0) (opnd ln0 vs .sys 1)
        (opnd ln0 vs .sys 2) (modLane l (fun ln => { ln with logs := ln.logs + 1 }) s)
    else modLane l (fun ln => { ln with logDrops := ln.logDrops + 1 }) s
  | _ => s

/-- Registers, predicates, operand and state ports that the moves write. -/
def writePort (ln : Lane) (x : Nat × Word) : Lane :=
  let (p, v) := x
  if p < 0x040 then { ln with v := vset ln.v p v }
  else if p < 0x048 then { ln with p := putBit ln.p (p - 0x040) (v.getLsbD 0) }
  else match unitOf p with
    | none => ln
    | some (u, o) =>
      let set (g : UnitPorts → UnitPorts) : Lane := { ln with units := ln.units.set u.idx.val (g ln.units[u.idx.val]) }
      match u, o with
      | .rep, 0 => { ln with repCount := v }
      | .rep, 1 => { ln with repSrc := v }
      | .rep, 2 => { ln with repDst := v }
      | .rep, 3 => { ln with repStride := v }
      | .rep, 4 => { ln with repElem := (ln.repElem &&& 0xFFFFFFF0#32) ||| (v &&& 0xF) }
      | .rep, 5 => { ln with repVal := v }
      | .rep, 6 => { ln with repMask := v }
      | .sys, 3 => { ln with trap := v &&& 0x50 }
      | _, 0 => set fun q => { q with o1 := v }
      | _, 1 => set fun q => { q with o2 := v }
      | _, 2 => set fun q => { q with o3 := v }
      | _, _ => ln

/-- REP.elem with the operation fields of R129. -/
def repElemOp (elem : Word) (op body blen : Nat) : Word :=
  (elem &&& 0xF) ||| at_ (body % 4096) 8 ||| at_ (blen % 16) 20 ||| at_ op 24

/-- A REP trigger outside a body (R130, R133). -/
def runRep (is : Issue) (vs : Vals) (ln : Lane) : Lane :=
  match repTrigger vs with
  | none => ln
  | some (op, t) =>
    if op = 0x15 then
      match ln.repRun with
      | .body a b c _ => { ln with repRun := .body a b c true }
      | _ => ln
    else if op = 0x10 then
      { ln with repCount := t, repElem := repElemOp ln.repElem 1 (is.pc + 1) 0, repRun := .setup is.pc }
    else
      let ln := { ln with repCount := t, repProc := 0 }
      if t = 0 ∨ field ln.repElem 0 2 = 3 then
        startOp .rep 1 (res1 0 (flagWord false false true false false false (field ln.repElem 0 2 == 3))) 0 ln
      else { ln with repElem := repElemOp ln.repElem (op - 0x10 + 1) 0 0, repRun := .block is.pc none none }

/-- The program counter after a step without a transfer: the next template bundle, the next body bundle or pass, or the
next bundle (R130, R140). -/
def advance (is : Issue) (ln : Lane) : Lane :=
  match is.mac with
  | some m =>
    if m.next < is.macLen then { ln with mac := some m } else { ln with mac := none, pc := is.pc + 1 }
  | none =>
    match ln.repRun with
    | .body first len pos brk =>
      if !is.body then { ln with pc := is.pc + 1 }
      else if pos + 1 < len then { ln with repRun := .body first len (pos + 1) brk, pc := first + pos + 1 }
      else
        let ln := { ln with repCount := ln.repCount - 1, repSrc := ln.repSrc + ln.repStride
                            repDst := ln.repDst + ln.repStride }
        if brk || (ln.repCount == (0 : Word)) then
          { ln with repRun := .none, repElem := ln.repElem &&& 0xF, pc := first + len }
        else { ln with repRun := .body first len 0 false, pc := first }
    | .block p _ _ => { ln with pc := p }
    | _ => { ln with pc := is.pc + 1 }

/-- A segment starts on a lane (R84, R119): its first bundle, class, identity and trap mask. -/
def startSegment (p : Placed) (pos : Nat) (ln : Lane) : Lane :=
  { ln with pc := p.first, cls := p.cls, segId := p.segId, trap := w p.trap &&& 0x50, mac := none
            schedPos := if p.cls = 3 then ln.schedPos else pos
            bgPos := if p.cls = 3 then pos else ln.bgPos }

/-- A scheduled segment starts, at once or at its start time (R119, R155). -/
def startOrWait (s : State) (p : Placed) (pos : Nat) (ln : Lane) : Lane :=
  if s.clk.tickph < p.start then
    { startSegment p pos ln with mode := .wait, wait := .start p.start }
  else { startSegment p pos ln with mode := .sched, wait := .none }

/-- A saved BACKGROUND context runs on (R85, R135). -/
def restoreBg (b : BgSave) (ln : Lane) : Lane :=
  { ln with
    v := b.v, p := b.p, units := b.units, acc := b.acc, trap := b.trap, repCount := b.repCount, repSrc := b.repSrc
    repDst := b.repDst, repStride := b.repStride, repElem := b.repElem, repVal := b.repVal, repMask := b.repMask
    repProc := b.repProc
    repRun := match b.repRun with
      | .body a c d e => .reload a c d e
      | r => r
    -- accesses of the scheduled work that are still queued complete without landing in the restored slots
    slots := b.slots, reqs := ln.reqs.map (fun r => match r.op with
      | .load _ n e => { r with op := .load 20 n e }
      | .store _ n v => { r with op := .store 20 n v })
    inflight := [], rstack := b.rstack, pc := b.pc, lastPc := b.lastPc, segId := b.segId, bgPos := b.bgPos
    wait := b.wait, mac := b.mac, lastMacro := b.lastMacro, cls := 3, bgSaved := none
    mode := match b.wait with
      | .none => .bg
      | _ => .wait }

/-- The lane goes to BACKGROUND work, or to DONE when it has none (R43, R76, R119). -/
def enterBg (s : State) (l : Nat) (ln : Lane) : Lane :=
  match ln.bgSaved with
  | some b => restoreBg b ln
  | none =>
    match background s l with
    | p :: _ => { startSegment p 0 ln with mode := .bg, wait := .none, rstack := [] }
    | [] => { ln with mode := .done, wait := .none }

/-- END of the running segment (R119, R120); a frame-end counts only before the guard cycle (R44). -/
def endSegment (s : State) (l : Fin 16) (ln : Lane) : Lane :=
  let ln := { ln with rstack := [], mac := none, repRun := .none }
  if ln.cls = 3 then
    match (background s l.val)[ln.bgPos + 1]? with
    | some p => { startSegment p (ln.bgPos + 1) ln with mode := .bg }
    | none => { ln with mode := .done }
  else
    match (schedule s l.val)[ln.schedPos + 1]? with
    | some p => startOrWait s p (ln.schedPos + 1) ln
    | none =>
      enterBg s l.val (if s.clk.tickph < guardCyc s then { ln with frameEnd := some s.clk.tickph } else ln)

/-- The CTL trigger of a step, on the lane (R116 to R121). -/
def runCtl (s : State) (l : Fin 16) (is : Issue) (vs : Vals) (ln : Lane) : Lane :=
  match trigger vs .ctl with
  | none => ln
  | some (op, t) =>
    let jump (a : Nat) (ln : Lane) : Lane := { ln with pc := a, mac := none }
    match op with
    | 0x10 => jump t.toNat ln
    | 0x11 => jump (BitVec.ofNat 32 is.pc + t).toNat ln
    | 0x12 => jump t.toNat { ln with rstack := ⟨is.pc + 1, true⟩ :: ln.rstack }
    | 0x13 => match ln.rstack with
      | e :: r => jump e.index { ln with rstack := r }
      | [] => ln
    | 0x14 => endSegment s l ln
    | 0x15 =>
      let n := t.toNat % 256
      if batonFree s l.val n then ln
      else { ln with mode := .wait, wait := .baton n (deadlineOf s l.val ln is.pc) }
    | 0x17 => startOp .ctl 1 (res1 (bitWord (batonFree s l.val (t.toNat % 256))) 0) 0 ln
    | 0x18 => startOp .ctl 1 (res1 (w ln.rstack.length) 0) 0 ln
    | _ => ln

/-- The CTL trigger of a step, on the batons (R121, R122); `ln` is the lane that issues it, from bundle `pc`. -/
def ctlBatons (l : Fin 16) (vs : Vals) (ln : Lane) (pc : Nat) (s : State) : State :=
  match trigger vs .ctl with
  | none => s
  | some (op, t) =>
    let n := t.toNat % 256
    if op = 0x15 ∨ op = 0x17 then
      if batonFree s l.val n then takeBaton l.val n (op == 0x17) (deadlineOf s l.val ln pc) s else s
    else if op = 0x16 then
      let stores := (ln.reqs.filter fun r => match r.op with
        | .store _ _ _ => true
        | .load _ _ _ => false).length
      { s with ln := { s.ln with posts := s.ln.posts ++ [⟨l.val, n, s.clk.cyc, stores, s.clk.cyc⟩] } }
    else s

/-- The end of a stall: its cycles count for scheduled work. -/
def endStall (s : State) (ln : Lane) : Lane :=
  match ln.stallFrom with
  | none => ln
  | some c => { ln with stallFrom := none
                        stallCur := if ln.mode = .sched then ln.stallCur + (s.clk.cyc - c) else ln.stallCur }

/-- A lane that stalls in this cycle. -/
def beginStall (s : State) (ln : Lane) : Lane :=
  if ln.stallFrom.isSome then ln else { ln with stallFrom := some s.clk.cyc }

/-- One step is over. -/
def countStep (s : State) (ln : Lane) : Lane := { ln with step := ln.step + 1, lastIssue := some s.clk.cyc }

/-- The lane's part of an issued bundle. `ln` has its results presented. -/
def issueLane (s : State) (l : Fin 16) (is : Issue) (vs : Vals) (ln : Lane) : Lane :=
  let a := runArith vs ln (endStall s ln)
  let a := runStack vs a
  let a := runLsu s vs ln a
  let a := runImg s vs ln a
  let a := runSys s vs a
  let a := vs.foldl writePort a
  let a := runRep is vs a
  let a := { a with lastPc := is.pc, lastMacro := is.mac.isSome
                    slotsCur := if a.cls = 3 then a.slotsCur else a.slotsCur + is.occ }
  countStep s (runCtl s l is vs (advance is a))

/-- A lane that the doubt of this very cycle stopped still completes the bundle it is executing (R25 step 1, R79). -/
def stoppedNow (s : State) (ln : Lane) : Bool :=
  ln.mode == .stopped && s.clk.cyc == s.sys.doubtCyc && s.sys.latched

/-- The lane as it runs in this cycle. -/
def runningLane (s : State) (ln : Lane) : Lane := if stoppedNow s ln then { ln with mode := ln.wasMode } else ln

/-- A lane back in the state that the doubt left it in. -/
def settleStop (s : State) (old new : Lane) : Lane :=
  if stoppedNow s old then { new with wasMode := new.mode, mode := .stopped } else new

/-- An element of a preempted block operation is under way: its step has begun and stalls (R134, R135). -/
def elementUnderWay (ln : Lane) : Bool :=
  ln.saving && ln.stallFrom.isSome && match ln.repRun with
    | .block _ _ _ => true
    | _ => false

/-- The lane may issue in this cycle: it runs, and it has issued nothing in this cycle; BACKGROUND issues before the guard
cycle only, but for an element that it began before (R43, R135). -/
def canIssue (s : State) (ln : Lane) : Bool :=
  (ln.mode == .sched || (ln.mode == .bg && (decide (s.clk.tickph < guardCyc s) || elementUnderWay ln)))
  && ln.lastIssue != some s.clk.cyc

/-! ### The save of BACKGROUND (R43, R75, R85, R135) -/

/-- The context that the save area holds. -/
def saveBg (ln : Lane) : BgSave where
  v := ln.v
  p := ln.p
  units := ln.units
  acc := ln.acc
  trap := ln.trap
  repCount := ln.repCount
  repSrc := ln.repSrc
  repDst := ln.repDst
  repStride := ln.repStride
  repElem := ln.repElem
  repVal := ln.repVal
  repMask := ln.repMask
  repProc := ln.repProc
  repRun := ln.repRun
  slots := ln.slots
  rstack := ln.rstack
  pc := ln.pc
  lastPc := ln.lastPc
  segId := ln.segId
  bgPos := ln.bgPos
  wait := ln.wait
  mac := ln.mac
  lastMacro := ln.lastMacro

/-- Operations in flight complete into their ports; a result that traps is not written (R78, R85). -/
def finishOps (ln : Lane) : Lane :=
  { (ln.inflight.filter fun r => (trapOf ln.trap r).isNone).foldl appear ln with inflight := [] }

/-- The lane is saved: it goes to DONE. -/
def saveLane (ln : Lane) : Lane :=
  let ln := finishOps ln
  { ln with bgSaved := some (saveBg ln), saving := false, mode := .done, wait := .none, stallFrom := none }

/-- A preempted lane whose accesses have all returned, with no element under way, is saved. -/
def saveIfDone (ln : Lane) : Lane :=
  if ln.saving && (ln.mode == .bg || ln.mode == .wait) && ln.reqs.isEmpty && !(ln.slots.any (·.outstanding))
      && !elementUnderWay ln then saveLane ln
  else ln

/-- Issue the moves of a step: fault, stall or effect (R77, R71, R68). -/
def issueMoves (l : Fin 16) (is : Issue) (form : Bool) (s : State) : State :=
  let old := s.lanes[l.val]
  let run := runningLane s old
  let ln := present run
  let eff := effective is ln
  let vs : Vals := eff.map fun m => (m.dst, mvValue s l ln m)
  if stalls ln eff vs then
    modLane l (fun _ => settleStop s old (beginStall s run)) s
  else
    -- the trap is judged on the lane before its results appear
    match stepFault s l { ln with inflight := run.inflight } is vs form with
    | some f => laneFault l f is.pc is.mac.isSome s
    | none =>
      let s' := runLog l vs ln (ctlBatons l vs ln is.pc s)
      let new := issueLane s l is vs { ln with logs := (s'.lanes[l.val]).logs, logDrops := (s'.lanes[l.val]).logDrops }
      let s' := modLane l (fun _ => settleStop s old new) s'
      if trigger vs .ctl |>.any (·.1 == 0x14) then entryDoubt l.val (entryAfter s l.val ln) s' else s'

end Sys2Proof.Machine
end

