-- ==== Sys2Proof/Machine/Banks.lean ====
section
/-! DEFINITION. The arbiters of shared memory (R170 to R176): one bank decides in one bank cycle, and granted data
returns. -/
namespace Sys2Proof.Machine

/-- The head of a lane's request queue when it competes for bank `b` in this cycle (R172). -/
def headFor (s : State) (b l : Nat) : Option SharedReq :=
  match (vget State.lane0 s.lanes l).reqs with
  | r :: _ => if r.addr / bankSize = b ∧ r.since ≤ s.clk.cyc then some r else none
  | [] => none

/-- Lanes of a cluster that wait on a bank, counted from the lane after the one last granted there (R173). -/
def clusterWaiters (s : State) (b c : Nat) : List Nat :=
  let last := vget 0 (vget State.bank0 s.mem.banks b).lastLane c
  ((List.range 4).map fun i => 4 * c + (last + 1 + i) % 4).filter fun l => (headFor s b l).isSome

/-- The lane that has waited longest; of several that began together, the first of the round (R173). -/
def longest (s : State) (b : Nat) : List Nat → Option Nat
  | [] => none
  | l :: t =>
    match longest s b t with
    | none => some l
    | some m =>
      let at_ (x : Nat) : Nat := match headFor s b x with
        | some r => r.since
        | none => s.clk.cyc + 1
      if at_ m < at_ l then some m else some l

/-- What waits on the bank beside the lanes in this cycle. -/
structure Agents where
  ne : Bool
  eq : Bool
  te : Bool
  mgmt : Bool

/-- A requester has a request waiting. -/
def waits (s : State) (b : Nat) (ag : Agents) (r : Nat) : Bool :=
  match r with
  | 4 => ag.ne
  | 5 => ag.eq
  | 6 => ag.te
  | c => clusterWaiters s b c ≠ []

/-- The first requester after `ptr`, in cyclic order, with a request waiting (R174). -/
def nextTurn (s : State) (b : Nat) (ag : Agents) (ptr : Nat) : Option Nat :=
  ((List.range 7).map fun i => (ptr + 1 + i) % 7).find? (waits s b ag)

/-- Access after the grant: 3 cycles in a near bank, 6 in a far one (R172). -/
def accessTime (l b : Nat) : Nat := if b / 8 = l / 4 then 3 else 6

/-- The next access of the lane becomes the head in the cycle after the grant. -/
def nextHead (cyc : Nat) : List SharedReq → List SharedReq
  | [] => []
  | r :: t => { r with since := max r.since (cyc + 1) } :: t

/-- Posts of the lane that wait for this store count from its grant (R122). -/
def storeGranted (l cyc : Nat) (p : HeldPost) : HeldPost :=
  if p.lane = l ∧ 0 < p.stores then { p with stores := p.stores - 1, base := max p.base cyc } else p

/-- A value of `n` bytes read from shared memory. -/
def shRead (s : State) (a n : Nat) : Word := BitVec.ofNat 32 (leNat (sgets zeroByte s.mem.shared a n))

/-- What a load returns: of a quality word LATE_RX reads 0 (R110, R194). -/
def loaded (quality : Bool) (x : Word) : Word := if quality then clrBit x 17 else x

/-- Lane `l` is granted its head access to bank `b`. -/
def grantLane (b l : Nat) (s : State) : State :=
  match headFor s b l with
  | none => s
  | some r =>
    let bk := vget State.bank0 s.mem.banks b
    let bk := { bk with lastLane := vset bk.lastLane (l / 4) (l % 4), waitMax := max bk.waitMax (s.clk.cyc + 1 - r.since) }
    let mark (slot : Nat) (due : Nat) (d : Word) (ln : Lane) : Lane :=
      { ln with reqs := nextHead s.clk.cyc ln.reqs.tail
                slots := vmod ln.slots slot fun q => { q with granted := some (due, d) } }
    let s := { s with mem := { s.mem with banks := vset s.mem.banks b bk } }
    match r.op with
    | .load slot n q =>
      { s with lanes := vmod s.lanes l (mark slot (s.clk.cyc + accessTime l b) (loaded q (shRead s r.addr n))) }
    | .store slot n v =>
      let s := markClass r.addr (shPut r.addr (leBytes n v.toNat) s)
      { s with lanes := vmod s.lanes l (mark slot (s.clk.cyc + 1) v)
               ln := { s.ln with posts := s.ln.posts.map (storeGranted l s.clk.cyc) } }

/-- The agents that wait on a bank, NE, EQ, TE, MGMT in this order; a request waits from the first cycle that shows it. -/
def agentsWait (cyc : Nat) (ag : Agents) (bk : Bank) : Bank :=
  let flags := [ag.ne, ag.eq, ag.te, ag.mgmt]
  { bk with since := vmap bk.since fun i t => if flags.getD i false then some (t.getD cyc) else none }

/-- An agent's request is granted: its wait counts, and its next request starts to wait anew (R175). -/
def agentGranted (cyc i : Nat) (bk : Bank) : Bank :=
  let from_ := (vget none bk.since i).getD cyc
  { bk with since := vset bk.since i none, waitMax := max bk.waitMax (cyc + 1 - from_) }

/-- The decision of bank `b` in bank cycle BCYC (R174). -/
def decideBank (b : Nat) (ag : Agents) (s : State) : State :=
  let put (f : Bank → Bank) (s : State) : State := { s with mem := { s.mem with banks := vmod s.mem.banks b f } }
  let count (s : State) : State := put (fun k => { k with grantsCur := k.grantsCur + 1 }) s
  let agent (i : Nat) (s : State) : State := count (put (agentGranted s.clk.cyc i) s)
  let give (r : Nat) (s : State) : State :=
    if 4 ≤ r then (if waits s b ag r then agent (r - 4) s else s)
    else match longest s b (clusterWaiters s b r) with
      | some l => count (grantLane b l s)
      | none => s
  let s := put (agentsWait s.clk.cyc ag) (put (fun k => { k with lastCyc := some s.clk.cyc }) s)
  let bk := vget State.bank0 s.mem.banks b
  if s.clk.cyc % 20 = 19 ∧ ag.mgmt then agent 3 s
  else if 0 < bk.left then
    give bk.ptr.val (put (fun k => { k with left := k.left - 1 }) s)
  else
    match nextTurn s b ag bk.ptr.val with
    | none => s
    | some t =>
      let n := if t < 4 then (clusterWaiters s b t).length else 1
      give t (put (fun k => { k with ptr := Fin.ofNat 7 t, left := n - 1 }) s)

/-- BANK_GRANT (R174): bank `b` decides once in this bank cycle; the flags say which agents wait on it. -/
def execBankGrant (b : Fin 32) (ne eq te mgmt : Bool) (s : State) : Host.Outcome State Fault Refusal :=
  act (fun s => whenever ((s.mem.banks[b.val]).lastCyc ≠ some s.clk.cyc) (decideBank b.val ⟨ne, eq, te, mgmt⟩) s) s

/-- A granted access completes: the slot holds its data and is no longer outstanding (R71, R172). -/
def returnSlot (cyc : Nat) (q : RetSlot) : RetSlot :=
  match q.granted with
  | some (due, d) => if due ≤ cyc then { q with data := d, outstanding := false, granted := none } else q
  | none => q

/-- LOAD_RETURN (R71, R172): the data of return slot `slot`, or of REP channel `slot - 16`, arrives. -/
def execLoadReturn (l : Fin 16) (slot : Fin 20) (s : State) : Host.Outcome State Fault Refusal :=
  act (fun s => modLane l (fun ln =>
    saveIfDone { ln with slots := vmod ln.slots slot.val (returnSlot s.clk.cyc) }) s) s

/-- MEM_CTL.CLR_MAX (R175). -/
def memClrMaxOp : RegOp :=
  always fun s => { s with mem := { s.mem with banks := s.mem.banks.map fun k => { k with waitMax := 0 } } }

/-- MEM_CLR_MAX: a session writes MEM_CTL.CLR_MAX. -/
def execMemClrMax (sid : Fin 4) (s : State) : Host.Outcome State Fault Refusal :=
  act (hostDo sid.val roleOPERATOR memClrMaxOp) s

end Sys2Proof.Machine
end

