-- ==== Sys2Proof/Machine/Sha.lean ====
section
/-! DEFINITION. SHA-256 and HMAC-SHA-256, which the manual names and leaves to their standards (R349): PRESUMED from
FIPS 180-4 and RFC 2104. The constants are computed from the primes, as the standard defines them. -/
namespace Sys2Proof.Machine

/-- `x` with the lower `n` bits filled in as the k-th root of `v`, rounded down. -/
def rootBits (k v : Nat) : Nat → Nat → Nat
  | 0, x => x
  | n + 1, x => rootBits k v n (if (x + 2 ^ n) ^ k ≤ v then x + 2 ^ n else x)

/-- The first 32 bits of the fraction of the k-th root of a number below 2^9. -/
def rootFraction (k v : Nat) : Nat := rootBits k (v * 2 ^ (32 * k)) 40 0 % 2 ^ 32

/-- The primes below 312: there are 64. -/
def shaPrimes : List Nat :=
  (List.range 312).filter fun p => decide (2 ≤ p) && (List.range 16).all fun i => p % (i + 2) != 0 || p == i + 2

/-- The constant of each round, from the cube roots; the hash value to begin with, from the square roots of the first
eight. -/
def roundConstants : List Nat := shaPrimes.map (rootFraction 3)
def hashStart : List Word := (shaPrimes.take 8).map fun p => w (rootFraction 2 p)

/-- The exclusive or of a word turned right by two amounts with a third word. -/
def turned (x : Word) (i j : Nat) (y : Word) : Word := x.rotateRight i ^^^ x.rotateRight j ^^^ y

/-- The eight working variables. -/
structure ShaVars where
  a : Word
  b : Word
  c : Word
  d : Word
  e : Word
  f : Word
  g : Word
  h : Word

/-- One round, with the round's constant and message word already added. -/
def ShaVars.next (v : ShaVars) (kw : Word) : ShaVars :=
  let choose := if_ v.e v.f v.g
  let most := (v.a ||| v.b) &&& v.c ||| (v.a &&& v.b)
  let low := v.h + kw + choose + turned v.e 6 11 (v.e.rotateRight 25)
  { v with
    a := low + most + turned v.a 2 13 (v.a.rotateRight 22), b := v.a, c := v.b, d := v.c, e := v.d + low, f := v.e, g := v.f, h := v.g }
where
  /-- Bits of `y` where `x` has a 1, of `z` where it has a 0. -/
  if_ (x y z : Word) : Word := (y ^^^ z) &&& x ^^^ z

/-- The rounds for a list of constants. The sixteen message words to come stand in `win`; each round takes the first and
adds the one that follows the last. -/
def shaRounds : List Nat → List Word → ShaVars → ShaVars
  | [], _, v => v
  | k :: ks, win, v =>
    let m (i : Nat) : Word := win.getD i 0
    let s15 := m 1
    let s2 := m 14
    let new := m 0 + m 9 + turned s15 7 18 (s15 >>> 3) + turned s2 17 19 (s2 >>> 10)
    shaRounds ks (win.drop 1 ++ [new]) (v.next (w k + m 0))

/-- Working variables from a hash value and back. -/
def ShaVars.of (h : List Word) : ShaVars :=
  let m (i : Nat) : Word := h.getD i 0
  { a := m 0, b := m 1, c := m 2, d := m 3, e := m 4, f := m 5, g := m 6, h := m 7 }
def ShaVars.words (v : ShaVars) : List Word := [v.a, v.b, v.c, v.d, v.e, v.f, v.g, v.h]

/-- The hash value after a block of 64 bytes, which are sixteen big-endian words. -/
def shaBlock (h : List Word) (block : List Byte) : List Word :=
  let win := (List.range 16).map fun i => w (beNat ((block.drop (4 * i)).take 4))
  let v := (shaRounds roundConstants win (ShaVars.of h)).words
  (List.range 8).map fun i => h.getD i 0 + v.getD i 0

/-- A message with its end mark, its zeros and its length in bits: whole blocks. -/
def shaPad (bs : List Byte) : List Byte :=
  let z := (119 - bs.length % 64) % 64
  bs ++ (0x80#8 :: List.replicate z 0) ++ beBytes 8 (8 * bs.length)

/-- SHA-256. -/
def sha256 (bs : List Byte) : List Byte :=
  let p := shaPad bs
  let h := (List.range (p.length / 64)).foldl (fun h i => shaBlock h ((p.drop (64 * i)).take 64)) hashStart
  h.flatMap fun x => beBytes 4 x.toNat

/-- HMAC-SHA-256 with a key of at most 64 bytes. -/
def hmac256 (key msg : List Byte) : List Byte :=
  let pad (x : Byte) : List Byte := (List.range 64).map fun i => key.getD i 0 ^^^ x
  sha256 (pad 0x5c ++ sha256 (pad 0x36 ++ msg))

end Sys2Proof.Machine
end

