-- ==== Sys2Proof/Machine/Crypto.lean ====
section
/-! DEFINITION. AES-GMAC and ECDSA P-256 verification, which the manual names and leaves to their standards (R349):
PRESUMED from FIPS 197, SP 800-38D, FIPS 186 and SP 800-186. -/
namespace Sys2Proof.Machine

/-! ### AES -/

/-- Multiplication by x in GF(2^8). -/
def xtime (a : Nat) : Nat := if a < 128 then 2 * a else (2 * a - 256) ^^^ 0x1B

/-- Product in GF(2^8), over `n` bits of the second factor. -/
def gmul : Nat → Nat → Nat → Nat
  | 0, _, _ => 0
  | n + 1, a, b => (if b % 2 = 1 then a else 0) ^^^ gmul n (xtime a) (b / 2)

/-- Square in GF(2^8), and the inverse a^254. -/
def gsq (a : Nat) : Nat := gmul 8 a a
def ginv (a : Nat) : Nat :=
  let a2 := gsq a
  let a4 := gsq a2
  let a8 := gsq a4
  let a16 := gsq a8
  let a32 := gsq a16
  let a64 := gsq a32
  let m := gmul 8
  m (m (m a2 a4) (m a8 a16)) (m (m a32 a64) (gsq a64))

/-- The S-box. -/
def sbox (b : Byte) : Byte :=
  let i := BitVec.ofNat 8 (ginv b.toNat)
  i ^^^ i.rotateLeft 1 ^^^ i.rotateLeft 2 ^^^ i.rotateLeft 3 ^^^ i.rotateLeft 4 ^^^ 0x63

/-- Next words of the key schedule, newest word first: `nk` key words, from word `i`, `n` more. -/
def aesExpand (nk : Nat) : Nat → Nat → Nat → List (List Byte) → List (List Byte)
  | 0, _, _, ws => ws
  | n + 1, i, rc, ws =>
    let t := ws.getD 0 []
    let t' := if i % nk = 0 then
        let u := (t.drop 1 ++ t.take 1).map sbox
        (u.take 1).map (· ^^^ BitVec.ofNat 8 rc) ++ u.drop 1
      else if 6 < nk ∧ i % nk = 4 then t.map sbox else t
    let rc' := if i % nk = 0 then xtime rc else rc
    aesExpand nk n (i + 1) rc' (List.zipWith (· ^^^ ·) (ws.getD (nk - 1) []) t' :: ws)

/-- Bytes in groups of four. -/
def fours : Nat → List Byte → List (List Byte)
  | 0, _ => []
  | n + 1, bs => bs.take 4 :: fours n (bs.drop 4)

/-- Round keys of a key of 16 or 32 bytes, 16 bytes each. -/
def aesKeys (key : List Byte) : List (List Byte) :=
  let nk := key.length / 4
  let words := (aesExpand nk (4 * (nk + 7) - nk) nk 1 (fours nk key).reverse).reverse
  (List.range (nk + 7)).map fun r => ((words.drop (4 * r)).take 4).flatten

/-- Bytes combined. -/
def xorBytes (a b : List Byte) : List Byte := List.zipWith (· ^^^ ·) a b

/-- Rows shifted. -/
def shiftRows (s : List Byte) : List Byte := (List.range 16).map fun i => s.getD ((i + 4 * (i % 4)) % 16) 0

/-- One column mixed. -/
def mixColumn (c : List Byte) : List Byte :=
  let g (i : Nat) : Nat := (c.getD (i % 4) 0).toNat
  (List.range 4).map fun i =>
    BitVec.ofNat 8 (xtime (g i) ^^^ xtime (g (i + 1)) ^^^ g (i + 1) ^^^ g (i + 2) ^^^ g (i + 3))

/-- One block encrypted. -/
def aesBlock (keys : List (List Byte)) (block : List Byte) : List Byte :=
  let last := keys.length - 1
  let s := xorBytes block (keys.getD 0 [])
  let s := (List.range (last - 1)).foldl (fun s r =>
    xorBytes ((fours 4 (shiftRows (s.map sbox))).flatMap mixColumn) (keys.getD (r + 1) [])) s
  xorBytes (shiftRows (s.map sbox)) (keys.getD last [])

/-! ### GMAC -/

/-- Product in GF(2^128) with the reflected polynomial: `n` bits of `x`, most significant first. -/
def ghMul : Nat → Nat → Nat → Nat → Nat
  | 0, _, _, z => z
  | n + 1, x, v, z =>
    ghMul n x (if v % 2 = 1 then (v / 2) ^^^ (0xE1 <<< 120) else v / 2) (if (x >>> n) % 2 = 1 then z ^^^ v else z)

/-- GHASH over blocks of 16 bytes. -/
def ghash (h : Nat) : Nat → List Byte → Nat → Nat
  | 0, _, y => y
  | n + 1, bs, y => ghash h n (bs.drop 16) (ghMul 128 (y ^^^ beNat (bs.take 16)) h 0)

/-- AES-GMAC tag of authenticated data with a 96-bit IV. -/
def gmacTag (key iv data : List Byte) : List Byte :=
  let keys := aesKeys key
  let h := beNat (aesBlock keys (List.replicate 16 0))
  let padded := data ++ List.replicate ((16 - data.length % 16) % 16) 0 ++ beBytes 8 (8 * data.length) ++ beBytes 8 0
  let g := ghash h (padded.length / 16) padded 0
  xorBytes (beBytes 16 g) (aesBlock keys (iv ++ [0, 0, 0, 1]))

/-! ### ECDSA over P-256 -/

/-- Field prime, group order, curve coefficient and base point. -/
def p256P : Nat := 0xFFFFFFFF00000001000000000000000000000000FFFFFFFFFFFFFFFFFFFFFFFF
def p256N : Nat := 0xFFFFFFFF00000000FFFFFFFFFFFFFFFFBCE6FAADA7179E84F3B9CAC2FC632551
def p256B : Nat := 0x5AC635D8AA3A93E7B3EBBD55769886BC651D06B0CC53B0F63BCE3C3E27D2604B
def p256G : Nat × Nat :=
  (0x6B17D1F2E12C4247F8BCE6E563A440F277037D812DEB33A0F4A13945D898C296,
   0x4FE342E2FE1A7F9B8EE7EB4A7C0F9E162BCE33576B315ECECBB6406837BF51F5)

/-- Power modulo `m`, over `n` bits of the exponent. -/
def powMod (m : Nat) : Nat → Nat → Nat → Nat → Nat
  | 0, _, _, acc => acc
  | n + 1, b, e, acc => powMod m n (b * b % m) (e / 2) (if e % 2 = 1 then acc * b % m else acc)

/-- Inverse modulo a prime. -/
def invMod (m a : Nat) : Nat := powMod m 256 (a % m) (m - 2) 1

/-- A point of the curve; `none` is the point at infinity. -/
abbrev EcPoint := Option (Nat × Nat)

/-- Difference modulo the field prime. -/
def fsubP (a b : Nat) : Nat := (a + p256P - b % p256P) % p256P

/-- Sum of two points. -/
def ecAdd : EcPoint → EcPoint → EcPoint
  | none, q => q
  | p, none => p
  | some (x1, y1), some (x2, y2) =>
    if x1 = x2 ∧ (y1 + y2) % p256P = 0 then none
    else
      let l := if x1 = x2 then fsubP (3 * x1 * x1 + p256P) 3 * invMod p256P (2 * y1) % p256P
        else fsubP y2 y1 * invMod p256P (fsubP x2 x1) % p256P
      let x3 := fsubP (fsubP (l * l) x1) x2
      some (x3, fsubP (l * fsubP x1 x3) y1)

/-- Multiple of a point, over `n` bits. -/
def ecMul : Nat → Nat → EcPoint → EcPoint
  | 0, _, _ => none
  | n + 1, k, p => let r := ecMul n (k / 2) (ecAdd p p); if k % 2 = 1 then ecAdd p r else r

/-- A public key lies on the curve. -/
def onCurve (x y : Nat) : Bool :=
  decide (x < p256P ∧ y < p256P) && y * y % p256P == (fsubP (x * x * x) (3 * x) + p256B) % p256P

/-- Verification of a signature (r, s) over a hash. -/
def ecdsaOk (hash x y r s : Nat) : Bool :=
  if r = 0 ∨ p256N ≤ r ∨ s = 0 ∨ p256N ≤ s ∨ !onCurve x y then false
  else
    let i := invMod p256N s
    match ecAdd (ecMul 256 (hash * i % p256N) (some p256G)) (ecMul 256 (r * i % p256N) (some (x, y))) with
    | none => false
    | some (px, _) => px % p256N == r

end Sys2Proof.Machine
end

