-- ==== Sys2Proof/Machine/NeBase.lean ====
section
/-! DEFINITION. What the parts of the network engine share: configuration words, ports, counters, notes and the checks
that every subscribed message passes (R184, R185, R193, R200, R207, R208, R348). -/
namespace Sys2Proof.Machine

/-! ### Objects -/

/-- Kinds of objects (NE_OBJ_SEL.KIND). -/
def kSVSUB : Nat := 0
def kGSSUB : Nat := 1
def kSVPUB : Nat := 2
def kGOPUB : Nat := 3

/-- How many objects a kind has. -/
def neCount : Nat → Nat
  | 0 => 24 | 1 => 256 | 2 => 8 | 3 => 64 | _ => 0

/-- Key of a configuration word. -/
def neKey (kind idx word : Nat) : Nat := kind * 65536 + idx * 256 + word

/-- Default of a configuration word. -/
def zeroWord : Nat → Word := fun _ => 0

/-- An active configuration word of an object. -/
def neAct (s : State) (kind idx word : Nat) : Word := sget zeroWord s.ne.act (neKey kind idx word)

/-- The configuration word that an object follows: subscriptions the active one, publications that of the frame whose
image is released (R35, R209). -/
def neCfg (s : State) (kind idx word : Nat) : Word :=
  if kind < kSVPUB then neAct s kind idx word else sget zeroWord s.ne.pub (neKey kind idx word)

/-- A staged one. -/
def neStg (s : State) (kind idx word : Nat) : Word := sget zeroWord s.ne.stg (neKey kind idx word)

/-- Fields of CTRL, LIMITS and the rest (NE_CFG_WIN). -/
def neEn (s : State) (kind idx : Nat) : Bool := (neCfg s kind idx 0).getLsbD 0
def nePair (s : State) (kind idx : Nat) : Nat := field (neCfg s kind idx 0) 1 3
def nePort (s : State) (kind idx : Nat) : Nat := field (neCfg s kind idx 0) 4 1
def neDmac (s : State) (kind idx : Nat) : Nat :=
  (neCfg s kind idx 3).toNat + field (neCfg s kind idx 4) 0 16 * 2 ^ 32
def neAppid (s : State) (kind idx : Nat) : Nat := field (neCfg s kind idx 2) 0 16

/-- A string of configuration words, without its padding. -/
def neStr (s : State) (kind idx first : Nat) : List Byte :=
  ((List.range 16).flatMap fun i => wordBytes (neCfg s kind idx (first + i))).reverse.dropWhile (· == 0) |>.reverse

/-- A string as a message carries it, without padding. -/
def trimStr (bs : List Byte) : List Byte := (bs.reverse.dropWhile (· == 0)).reverse

/-- Entry e of a type list (R200). -/
def neType (s : State) (kind idx e : Nat) : Nat := field (neCfg s kind idx (8 + e / 8)) (4 * (e % 8)) 4

/-- A type list up to its END. -/
def neTypes (s : State) (kind idx : Nat) : List Nat := ((List.range 32).map (neType s kind idx)).takeWhile (· ≠ 0)

/-! ### Ports and pairs -/

/-- Ports 2n and 2n + 1 form pair n (R184). -/
def pairOf (port : Nat) : Nat := port / 2

/-- A pair. -/
def nePairOf (s : State) (n : Nat) : Pair := vget State.pair0 s.ne.pairs n

/-- Change a pair. -/
def modPair (n : Nat) (f : Pair → Pair) (s : State) : State := { s with ne := { s.ne with pairs := vmod s.ne.pairs n f } }

/-- A PRP or HSR pair whose ports run different speeds carries no traffic (R185). -/
def spdErr (p : Pair) : Bool := p.mode != 0 && p.linkA && p.linkB && p.spdA != p.spdB

/-- Link of a port. -/
def portLink (s : State) (port : Nat) : Bool :=
  if port % 2 = 0 then (nePairOf s (pairOf port)).linkA else (nePairOf s (pairOf port)).linkB

/-- Advance a counter of a port (NE_PORT_CNT_n). -/
def portInc (port n : Nat) (s : State) : State :=
  { s with ne := { s.ne with portCnt := vmod s.ne.portCnt port fun c => vmod c n (· + 1) } }

/-- A frame has arrived at a port that takes part; a message row stands for the frame that carries it (R208). -/
def arrived (port : Nat) (s : State) : State := if spdErr (nePairOf s (pairOf port)) then s else portInc port 0 s

/-- The MAC address of a port in the pair's mode (R186). -/
def ownMac (s : State) (port : Nat) : Nat :=
  let p := nePairOf s (pairOf port)
  Config.baseMac.toNat + (if p.mode = 0 then port else 2 * pairOf port)

/-- Copies of a frame: on both ports of a PRP or HSR pair, port A as LAN A, on the named port in INDEP (R187, R188). A port
without link carries none. -/
def frameCopies (s : State) (pair port : Nat) (m : TxMsg) : List (Nat × SentTag) :=
  let p := nePairOf s pair
  let tag (x : Nat) : SentTag := match p.mode with
    | 1 => .prp p.seq (x % 2 == 1) (Config.lsduSize m)
    | 2 => .hsr p.seq (Config.lsduSize m)
    | _ => .none
  ((if p.mode = 0 then [2 * pair + port % 2] else [2 * pair, 2 * pair + 1]).filter (portLink s)).map fun x => (x, tag x)

/-- What a frame needs beside its pair and message: destination, VLAN, EtherType, authentication. -/
structure TxHead where
  dst : Option Nat
  vlan : Option (Nat × Nat)
  ether : Option Nat
  auth : Option SentAuth
  deriving DecidableEq, Repr

/-- The frame of a message on a pair. -/
def frameOf (s : State) (pair port : Nat) (h : TxHead) (m : TxMsg) : TxFrame :=
  ⟨ownMac s (2 * pair + port % 2), h.dst, h.vlan, h.ether, frameCopies s pair port m, h.auth, m⟩

/-- A frame goes out on a pair and is counted on each port that carries it; a pair with SPD_ERR carries none (R185). -/
def pairSend (pair port : Nat) (h : TxHead) (m : TxMsg) (s : State) : State :=
  if 6 ≤ pair ∨ spdErr (nePairOf s pair) then s
  else
    let f := frameOf s pair port h m
    let s := f.copies.foldl (fun s c => portInc c.1 1 s) { s with ne := { s.ne with sent := s.ne.sent ++ [f] } }
    modPair pair (fun p => if p.mode = 0 then p else { p with seq := (p.seq + 1) % 65536 }) s

/-- RING_OK: the own supervision frame returned from both directions within 4,000 ms. -/
def ringOk (s : State) (p : Pair) : Bool :=
  p.mode == 2 && (match p.supA, p.supB with
    | some a, some b => decide (s.clk.cyc ≤ a + 4000 * cycMs) && decide (s.clk.cyc ≤ b + 4000 * cycMs)
    | _, _ => false)

/-- NE_PAIR_n_STS. -/
def pairSts (s : State) (n : Nat) : Word :=
  let p := nePairOf s n
  bitWord p.linkA ||| (bitWord p.linkB <<< 1) ||| at_ p.spdA 2 ||| at_ p.spdB 4 ||| at_ p.mode 6
  ||| (bitWord (ringOk s p) <<< 8) ||| (bitWord (spdErr p) <<< 9)

/-! ### Events, notes, links of the pair -/

/-- Set a bit of NE_EVT. -/
def neEvt (n : Nat) (s : State) : State := { s with ne := { s.ne with evt := setBit s.ne.evt n } }

/-- A NOTE of R208: object index, code, and the count since the last one, at most once per second. -/
def neNote (obj idx : Nat) (code : BitVec 16) (s : State) : State :=
  rlNote obj code.toNat (fun n => note code srcNE (w idx) (BitVec.setWidth 32 code) n) s

/-- The module drives outputs and publishes (R291). -/
def drives (s : State) : Bool := s.hsb.role == .alone || s.hsb.role == .active

/-- Send a message on the sync links, of a driving module with EN = 1 (R295). -/
def hsbSend (m : HsbMsg) (s : State) : State := if hsbEn s ∧ drives s then hsbPush m s else s

/-! ### Keys (R348) -/

/-- Requesters of the key engine, by their USE bit in the attribute word. -/
def useNE : Nat := 11
def useSECURE : Nat := 12
def useNORMAL : Nat := 13
def useHOST : Nat := 14

/-- A key slot. -/
def keySlot (s : State) (slot : Nat) : KeySlot := vget (State.key0 slot) s.key.slots slot

/-- The engine serves a request of a requester on a slot for one of the given types (R348). -/
def keyServes (s : State) (slot use : Nat) (types : List Nat) : Bool :=
  let k := keySlot s slot
  k.state == .valid && k.attr.getLsbD use && (!k.attr.getLsbD 15 || use == useSECURE)
  && k.attr.getLsbD (16 + lifecycle s) && types.contains (field k.attr 0 4)

/-- LEN of an attribute word. -/
def attrLen (a : Word) : Nat := field a 4 6

/-- Key material of a slot, as long as LEN says. -/
def slotKey (s : State) (slot : Nat) : List Byte :=
  let k := keySlot s slot
  k.material.toList.take (attrLen k.attr)

/-- The slot types of an AUTH code: HMAC uses type 3, GMAC type 1 (R349). -/
def authTypes (auth : Nat) : List Nat := if auth = 1 then [3] else [1]

/-- The tag that a slot's key gives for a message (R207, R349): HMAC-SHA-256 of 128 or 256 bits, AES-GMAC of 64 or 128. -/
def authTag (s : State) (slot alg : Nat) (long : Bool) (iv bytes : List Byte) : List Byte :=
  if alg = 1 then (hmac256 (slotKey s slot) bytes).take (if long then 32 else 16)
  else (gmacTag (slotKey s slot) iv bytes).take (if long then 16 else 8)

/-- A subscribed message passes its authentication (R207): tag of the configured kind and length, under the current key
or the next one where that is accepted. -/
def authOk (s : State) (kind idx : Nat) (tag : Option AuthTag) : Bool :=
  let ctrl := neCfg s kind idx 0
  let keys := neCfg s kind idx 6
  let auth := field ctrl 5 2
  if auth = 0 then true
  else match tag with
    | none => false
    | some t =>
      let slot := if t.next then field keys 8 6 else field keys 0 6
      auth ≤ 2 && t.alg == auth && (!t.next || keys.getLsbD 14) && keyServes s slot useNE (authTypes auth)
      && t.tag == authTag s slot auth (ctrl.getLsbD 7) t.iv t.covered

/-- A publication's slot can be used (R207). -/
def pubKeyOk (s : State) (kind idx : Nat) : Bool :=
  let auth := field (neCfg s kind idx 0) 5 2
  auth == 0 || (auth ≤ 2 && keyServes s (field (neCfg s kind idx 6) 0 6) useNE (authTypes auth))

/-- A subscription takes messages of a port, destination and APPID (R193, R200). -/
def neMatch (s : State) (kind idx port dmac appid : Nat) : Bool :=
  let pair := pairOf port
  neEn s kind idx && nePair s kind idx == pair && ((nePairOf s pair).mode != 0 || nePort s kind idx == port % 2)
  && neDmac s kind idx == dmac && neAppid s kind idx == appid

/-- The VLAN, simulation and confRev checks (R193, R197, R200). -/
def neAccepts (s : State) (kind idx : Nat) (vlan : Option Nat) (sim : Bool) (confRev : Word → Bool) : Bool :=
  let ctrl := neCfg s kind idx 0
  (!ctrl.getLsbD 10 || vlan == some (field (neCfg s kind idx 2) 16 12))
  && (!sim || ctrl.getLsbD 8) && (!ctrl.getLsbD 9 || confRev (neCfg s kind idx 5))

/-- Subscriptions judge messages until t_d (R209). -/
def neListens (s : State) : Bool := !s.sys.latched

/-- Words of a list placed in the frozen image at a base; zero words are not listed. -/
def freezeAt (base : Nat) (ws : List (Nat × Word)) (m : List (Nat × Word)) : List (Nat × Word) :=
  ws.foldl (fun m x => sput zeroWord (base + x.1) x.2 m) m

end Sys2Proof.Machine
end

