-- ==== Sys2Proof/Machine/NvsBase.lean ====
section
/-! DEFINITION. What the parts of the parameter store share: places, record copies and their validity (R312, R316 to
R318), counter rings (R320), the flush marker (R325) and the counting of store errors (R313). -/
namespace Sys2Proof.Machine

/-- Regions (R312). -/
def nvJOURNAL : Nat := 0x4000
def nvMARKER : Nat := 0x4400
def nvCOUNTERS : Nat := 0x8000
def nvENERGY : Nat := 0xA8000
def nvEFLUSH : Nat := 0xB4000
def nvRETAIN : Nat := 0xB8000
def nvRFLUSH : Nat := 0xD8000
def nvRING : Nat := 0xE8000
def nvUSER : Nat := 0x1E8000

/-- Change the NVS block. -/
def modNvs (f : Nvs → Nvs) (s : State) : State := { s with nvs := f s.nvs }

/-- Bytes of the store. -/
def nvBytes (s : State) (a n : Nat) : List Byte := sgets zeroByte s.nvs.mem a n

/-- Some group of a range is uncorrectable. -/
def nvUnc (s : State) (a n : Nat) : Bool := s.nvs.unc.any fun g => decide (g < a + n ∧ a < g + 8)

/-- Every byte of a range reads 0 without an uncorrectable error. -/
def nvBlank (s : State) (a n : Nat) : Bool := !nvUnc s a n && s.nvs.mem.all fun x => !decide (a ≤ x.1 ∧ x.1 < a + n)

/-- Groups of a range among `gs`. -/
def groupsIn (a n : Nat) (gs : List Nat) : List Nat := gs.filter fun g => decide (g < a + n ∧ a < g + 8)

/-- Groups with a corrected and with an uncorrectable error are reported: the first are counted and noted, the second
noted with their offset. -/
def nvReport (ce unc : List Nat) (s : State) : State :=
  let s := ce.foldl (fun s g =>
    rlNote 0x300000 0xA001 (fun _ => note1 0xA001 srcNVS (w g))
      (modNvs (fun v => { v with ceCnt := v.ceCnt + 1, evt := setBit v.evt 0 }) s)) s
  unc.foldl (fun s g =>
    note1 0xA002 srcNVS (w g) (modNvs (fun v => { v with evt := setBit v.evt 1, ueAddr := g }) s)) s

/-- The groups of a range are decoded by a read (R313). -/
def nvDecode (a n : Nat) (s : State) : State := nvReport (groupsIn a n s.nvs.ceGroups) (groupsIn a n s.nvs.unc) s

/-- A write at `a` of `n` bytes reads the groups that it covers in part (R314). -/
def nvMerge (a n : Nat) (s : State) : State :=
  let s := if a % 8 ≠ 0 ∧ n ≠ 0 then nvDecode (a / 8 * 8) 8 s else s
  if (a + n) % 8 ≠ 0 ∧ n ≠ 0 ∧ (a % 8 = 0 ∨ a / 8 ≠ (a + n) / 8) then nvDecode ((a + n) / 8 * 8) 8 s else s

/-! ### Record copies (R316, R317) -/

/-- The copies of a record are read, each as far as its length reaches. -/
def readCopies (size : Nat) (places : List Nat) (s : State) : State :=
  places.foldl (fun s a => nvDecode a (min size (nvNat s (a + 6) 2 + 20)) s) s

/-- SEQ a is newer than b. -/
def newerSeq (a b : Word) : Bool := let d := (a - b).toNat; decide (1 ≤ d ∧ d ≤ 2 ^ 31 - 1)

/-- A copy of a record. -/
def copyBytes (rid : Nat) (jseq seq : Word) (payload : List Byte) : List Byte :=
  let body := leBytes 4 0x52434431 ++ leBytes 2 rid ++ leBytes 2 payload.length ++ wordBytes seq ++ wordBytes jseq ++ payload
  body ++ wordBytes (crc32c body)

/-- The copy at `a`, in a place of `size` bytes, is intact. -/
def copyIntact (s : State) (a size rid : Nat) : Bool :=
  let len := nvNat s (a + 6) 2
  nvNat s a 4 == 0x52434431 && nvNat s (a + 4) 2 == rid && decide (4 ≤ len ∧ len % 4 = 0 ∧ len + 20 ≤ size)
  && !nvUnc s a (len + 20) && crc32c (nvBytes s a (16 + len)) == BitVec.ofNat 32 (nvNat s (a + 16 + len) 4)

/-- STATE of the journal entry: 2 COMMITTED. -/
def journalState (s : State) : Nat := nvNat s (nvJOURNAL + 8) 1

/-- A JSEQ is valid against the entry (R318). -/
def jseqValid (s : State) (j : Word) : Bool :=
  j == 0 || decide (j.toNat < s.nvs.jseq.toNat) || (j == s.nvs.jseq && journalState s == 2)

/-- An intact copy that the journal accepts. -/
def copyValid (s : State) (a size rid : Nat) : Bool :=
  copyIntact s a size rid && jseqValid s (BitVec.ofNat 32 (nvNat s (a + 12) 4))

/-- SEQ of a copy. -/
def copySeq (s : State) (a : Nat) : Word := BitVec.ofNat 32 (nvNat s (a + 8) 4)

/-- Payload of a copy. -/
def copyPayload (s : State) (a : Nat) : List Byte := nvBytes s (a + 16) (nvNat s (a + 6) 2)

/-- Index of the valid copy with the newest SEQ, among copies at `places` of `size` bytes. -/
def newestCopy (s : State) (size rid : Nat) (places : List Nat) : Option Nat :=
  (places.zipIdx).foldl (fun best x =>
    if copyValid s x.1 size rid then
      match best with
      | some b => if newerSeq (copySeq s x.1) (copySeq s (places.getD b 0)) then some x.2 else best
      | none => some x.2
    else best) none

/-- No copy of a record is valid and one is not blank: REC_BAD with NOTE 0xA010. -/
def recordBad (rid size : Nat) (places : List Nat) (s : State) : State :=
  if (newestCopy s size rid places).isNone ∧ places.any (fun a => !nvBlank s a size) then
    note1 0xA010 srcNVS (w rid) (modNvs (fun v => { v with evt := setBit v.evt 2 }) s)
  else s

/-! ### Records of the firmware (R312, R316, R317) -/

/-- Records that RECORDS and the journal hold, by kind: program slot roles, customer chisel entries, the update control
record, stored settings, what the recorder keeps. Kinds 0 and 1 are the energy save and the retained variables. -/
def recROLES : Nat := 2
def recCHISEL : Nat := 3
def recUPDATE : Nat := 4
def recSETTINGS : Nat := 5
def recRECORDER : Nat := 6

/-- RID of a record: the manual names that of the update control record (R380); no other kind has it, and no two kinds
have the same. -/
def recRid (kind : Nat) : Nat :=
  let b := Config.firmwareRid % 4096
  if kind = recUPDATE then 0x0D01 else (if b = 0xD0 then 0xD1 else b) * 16 + kind

/-- Kinds of the records in RECORDS. -/
def recKinds : List Nat := [recROLES, recCHISEL, recUPDATE, recSETTINGS, recRECORDER]

/-- Payload length of a record and the places of its two copies in RECORDS: wholly in the region, no two of them
overlapping. -/
def recLen (kind : Nat) : Nat := 4 * (Config.recordWords kind % 64 + 1)
def recPlaces (kind : Nat) : List Nat := [0, 1].map fun c => 0x28000 + 512 * ((Config.recordPlace + 2 * kind + c) % 1024)

/-- Where `Persist.copies` keeps what a copy of a record says. -/
def recIndex (kind copy : Nat) : Nat := 2 * (kind - 2) + copy

/-- The copy of a record that an update writes, and its SEQ (R317). -/
def nextCopy (size rid : Nat) (places : List Nat) (s : State) : Nat × Word :=
  match newestCopy s size rid places with
  | some i => (1 - i, copySeq s (places.getD i 0) + 1)
  | none => (0, 1)
def nextRecord (kind : Nat) (s : State) : Nat × Word := nextCopy (recLen kind + 20) (recRid kind) (recPlaces kind) s

/-- The control record as it stands (R380). -/
def controlRec (u : Upd) : ControlRec := ⟨u.activeBank, u.prevBank, u.banks, u.pending, u.trial, u.expired, u.tbase, u.tstart⟩

/-- What an update of a record says. -/
def recordNow (kind : Nat) (s : State) : RecVal :=
  match kind with
  | 2 => .roles s.plr.runSlot
  | 3 => .chisel s.ln.active
  | 4 => .control (controlRec s.upd)
  | 5 => .settings s.regs s.ne.stg s.eq.stg
  | _ => .recorder s.evr.size s.evr.base

/-- A record of the firmware is updated (R317). -/
def recordPut (kind : Nat) (jseq : Word) (s : State) : State :=
  let n := nextRecord kind s
  let payload := (List.range (recLen kind)).map (Config.recordByte kind n.2)
  nvPut ((recPlaces kind).getD n.1 0) (copyBytes (recRid kind) jseq n.2 payload)
    { s with persist := { s.persist with copies := vset s.persist.copies (recIndex kind n.1) (some (recordNow kind s)) } }

/-- The value of a record: what its valid copy with the newest SEQ says; none where its owner takes the default (R316). -/
def recordValue (kind : Nat) (s : State) : Option RecVal :=
  (newestCopy s (recLen kind + 20) (recRid kind) (recPlaces kind)).bind fun i => vget none s.persist.copies (recIndex kind i)

/-- A record is read and judged (R313, R316). -/
def recordJudge (kind : Nat) (s : State) : State :=
  recordBad (recRid kind) (recLen kind + 20) (recPlaces kind) (readCopies (recLen kind + 20) (recPlaces kind) s)

/-! ### Counter rings (R320, R321) -/

def ringPOWER : Nat := 0
def ringOPSEC : Nat := 1
def ringTRIAL : Nat := 2
def ringUPD : Nat := 3
def ringTOTAL : Nat := 4

/-- A ring's record of its current slot. -/
def ringOf (s : State) (r : Nat) : Ring := vget State.ring0 s.nvs.rings r

/-- Value of a counter. -/
def counter (s : State) (r : Nat) : Nat := (ringOf s r).value.toNat

/-- Write a counter: the slot after the current one, SEQ + 1; the first update of a ring writes slot 0 with SEQ 1. -/
def ringPut (r : Nat) (value : Nat) (s : State) : State :=
  let c := ringOf s r
  let slot := if c.written then (c.slot + 1) % 1024 else 0
  let seq := if c.written then c.seq + 1 else 1
  modNvs (fun v => { v with rings := vset v.rings r ⟨BitVec.ofNat 64 value, seq, slot, true⟩ })
    (nvPut (nvCOUNTERS + r * 16384 + slot * 16) (State.ringSlotBytes (value % 2 ^ 64) seq.toNat) s)

/-- Advance a counter. -/
def ringInc (r : Nat) (s : State) : State := ringPut r (counter s r + 1) s

/-- Offset of a ring's slot. -/
def slotAt (r i : Nat) : Nat := nvCOUNTERS + r * 16384 + i * 16

/-- A slot's check holds. -/
def ringSlotOk (s : State) (r i : Nat) : Bool :=
  let a := slotAt r i
  !nvUnc s a 16 && nvNat s (a + 12) 4 == (crc32c (nvBytes s a 12)).toNat

/-- The current slot of a ring, read from the array. -/
def ringScan (s : State) (r : Nat) : Ring :=
  (List.range 1024).foldl (fun best i =>
    if nvBlank s (slotAt r i) 16 ∨ !ringSlotOk s r i then best
    else
      let q := BitVec.ofNat 32 (nvNat s (slotAt r i + 8) 4)
      if best.written ∧ !newerSeq q best.seq then best
      else ⟨BitVec.ofNat 64 (nvNat s (slotAt r i) 8), q, i, true⟩) State.ring0

/-- Every ring read at start-up: one with written slots of which none is valid is reported. -/
def ringsScan (s : State) : State :=
  let s := nvDecode nvCOUNTERS 0x20000 s
  forAll (List.range 8) (fun r s =>
    let g := ringScan s r
    let s := modNvs (fun v => { v with rings := vset v.rings r g }) s
    if !g.written ∧ !nvBlank s (nvCOUNTERS + r * 16384) 16384 then
      note1 0xA030 srcNVS (w r) (modNvs (fun v => { v with evt := setBit v.evt 3 }) s)
    else s) s

/-! ### The marker (R325) -/

/-- The 64 bytes of a marker. -/
def markerBytes (parts : Nat) (pcyc : Nat) (cause : BitVec 16) (frame : Word) (rec : Word) (slots : Nat) : List Byte :=
  let b := leBytes 4 0x464C5348 ++ leBytes 4 parts ++ leBytes 8 pcyc ++ leBytes 4 cause.toNat ++ wordBytes frame
    ++ wordBytes rec ++ leBytes 4 slots ++ List.replicate 24 0
  b ++ wordBytes (crc32c b) ++ List.replicate 4 0

/-- The marker is valid. -/
def markerOk (s : State) : Bool :=
  !nvUnc s nvMARKER 64 && nvNat s nvMARKER 4 == 0x464C5348
  && crc32c (nvBytes s nvMARKER 56) == BitVec.ofNat 32 (nvNat s (nvMARKER + 56) 4)

end Sys2Proof.Machine
end

