-- ==== Sys2Proof/Machine/HlBase.lean ====
section
/-! DEFINITION. Sessions as the other blocks see them: which slot may authenticate which role (R368, R369), closing a
session with its reasons (R367, R376), and the update lock that a closing session releases (R387). -/
namespace Sys2Proof.Machine

/-- Change the host link; the update state; the key engine. -/
def modHl (f : Hl → Hl) (s : State) : State := { s with hl := f s.hl }
def modUpd (f : Upd → Upd) (s : State) : State := { s with upd := f s.upd }
def modKey (f : Key → Key) (s : State) : State := { s with key := f s.key }

/-- The highest role that a slot may authenticate (HL_ROLE_MAP_n). -/
def slotRole (slot : Nat) (s : State) : Nat := field (reg (0x100080 + 4 * (slot / 16)) s) (2 * (slot % 16)) 2

/-- A slot meets the conditions of R368 for a role. -/
def slotAuthOk (slot role : Nat) (s : State) : Bool := keyServes s slot useNORMAL [3] && decide (role ≤ slotRole slot s)

/-- The path of R369 is open: PROVISION, and no slot authenticates a PROVISIONER. -/
def bootstrapOpen (s : State) : Bool :=
  lifecycle s == 1 && !(List.range 64).any fun i => slotAuthOk i rolePROVISIONER s

/-- Role and slot of a session (0x3F for one opened under R369). -/
def sesRole (sid : Nat) (s : State) : Nat :=
  match session sid s with
  | some ss => ss.role.val
  | none => 0
def sesSlot (sid : Nat) (s : State) : Nat :=
  match session sid s with
  | some ⟨_, _, some k, _, _, _, _, _, _, _⟩ => k.val
  | _ => 0x3F

/-! ### The update lock (R387) -/

/-- The bank that an update works on: the one that is not ACTIVE (R389). -/
def updBank (s : State) : Nat := if s.upd.activeBank then 0 else 1

/-- The control record, changed by one update of its record (R380). -/
def modRecord (f : Upd → Upd) (s : State) : State := recordPut recUPDATE 0 (modUpd f s)

/-- A firmware bank's entry, changed. -/
def modBank (b : Nat) (f : FwBank → FwBank) (s : State) : State :=
  modRecord (fun u => { u with banks := vmod u.banks b f }) s

/-- UPD_STS.SESS. -/
def UpdSess.code : UpdSess → Nat
  | .idle => 0 | .downloading => 1 | .downloaded => 2 | .verifying => 3 | .verified => 4

/-- The session state returns to IDLE and the lock is free; a VERIFIED bank drops back to COMPLETE. -/
def updRelease (s : State) : State :=
  let s := if s.upd.sess = .verified then modBank (updBank s) (fun b => { b with state := .complete }) s else s
  modUpd (fun u => { u with sess := .idle, holder := none }) s

/-- A lapse, or the release by a close. -/
def updLapse (sid : Nat) (s : State) : State :=
  updRelease (note 0xD022 srcUPD (w s.upd.sess.code) (w s.upd.nextOff) (w sid)
    (modUpd (fun u => { u with evt := setBit u.evt 2 }) s))

/-! ### Closing (R367, R376) -/

/-- A session closes: NOTE 0xC002, its update lock is released, and an answer still owed will find it closed. -/
def closeSession (sid reason : Nat) (s : State) : State :=
  match session sid s with
  | none => s
  | some ss =>
    let s := note 0xC002 srcHL (w sid) (w reason) (w ss.role.val) s
    let s := if s.upd.holder.map (·.val) = some sid then updLapse sid s else s
    modHl (fun h => { h with
      sessions := vset h.sessions sid none
      owed := h.owed.map fun o => if o.sid.val = sid then { o with live := false } else o }) s

/-- Sessions whose slot no longer meets R368 for their role close with reason 2; a slot that a write is going through is
not judged before its commit point (R376). -/
def closeUnfit (s : State) : State :=
  forAll (List.range 4) (fun sid s =>
    match session sid s with
    | some ⟨_, role, some k, _, _, _, _, _, _, _⟩ =>
      if (s.key.wr.map (·.slot)) ≠ some k.val ∧ !slotAuthOk k.val role.val s then closeSession sid 2 s else s
    | _ => s) s

end Sys2Proof.Machine
end

