-- ==== Sys2Proof/Machine/EqBase.lean ====
section
/-! DEFINITION. What the parts of the metering engine share: configuration words, correction and interpolation of
channels (R234 to R238), the tests of a sample. -/
namespace Sys2Proof.Machine

/-! ### Fixed point (R241)

The manual gives the formulas and the resolution 2^-32 of a residue, not the engine's intermediate rounding: a value that
is no multiple of 2^-32 is taken as one of its two neighbours, by a free choice (log 64). -/

/-- One of the two neighbours in 1/2^32. -/
def eqFix (x : Rat) : Rat :=
  let n := (x * 4294967296).floor
  (((if Config.eqUp x ∧ (n : Rat) < x * 4294967296 then n + 1 else n) : Int) : Rat) / 4294967296

/-- One of the two neighbouring integers of a number that is not negative. -/
def eqInt (x : Rat) : Nat := (if Config.eqUp x ∧ ((x.floor : Int) : Rat) < x then x.floor + 1 else x.floor).toNat

/-- Square root, within 2^-32. -/
def eqSqrt (x : Rat) : Rat :=
  let n := (x * 18446744073709551616).floor.toNat
  let r := isqrtFrom n (Nat.log2 n / 2 + 1) 0
  let r := if Config.eqUp x ∧ (r : Rat) * (r : Rat) < x * 18446744073709551616 then r + 1 else r
  (r : Rat) / 4294967296

/-- The value of a binary32 setting. -/
def eqOfF32 (x : Word) : Rat := if fExp x = 255 then Config.eqOfF32 x else ratOfF32 x

/-- A value in units of 0.01 % of a nominal value. -/
def eqPercent (x nominal : Rat) : Nat := if nominal = 0 then Config.eqOfZero x else eqInt (x / nominal * 10000)

/-- π to 50 digits. -/
def eqPi : Rat := 314159265358979323846264338327950288419716939937510 / 100000000000000000000000000000000000000000000000000

/-- Delay in samples of R238: D = 4 − φ × rate / (2π × f), φ in microradian. -/
def eqDelay (phase : Int) (rate : Nat) (f : Rat) : Rat :=
  eqFix (4 - (phase : Rat) * (rate : Rat) / (2000000 * eqPi * f))

/-! ### Configuration (EQ_CFG_WIN) -/

def kPOINT : Nat := 0
def kCHAN : Nat := 1
def kPULSE : Nat := 2
def kGLOBAL : Nat := 3

/-- How many objects a kind has. -/
def eqCount : Nat → Nat
  | 0 => 96 | 1 => 192 | 2 => 16 | _ => 1

/-- Default of a configuration word. -/
def eqDefault (key : Nat) : Word :=
  let n := key % 256
  match key / 65536 with
  | 0 => if n = 4 then 50 else 0
  | 1 => if 10 ≤ n ∧ n < 18 then 0x40000000 else if n = 26 then w (9000 + 11000 * 65536)
    else if n = 27 then w (500 + 200 * 65536) else 0
  | 2 => if n = 2 then 32 else 0
  | 3 => if n = 0 then 0x200 else 0
  | _ => 0

/-- A configuration word in a set of settings. -/
def eqWord (m : List (Nat × Word)) (kind idx n : Nat) : Word := sget eqDefault m (neKey kind idx n)

/-- Change the EQ block; set a bit of EQ_EVT. -/
def modEq (f : EqEng → EqEng) (s : State) : State := { s with eq := f s.eq }
def eqEvt (n : Nat) (s : State) : State := modEq (fun e => { e with evt := setBit e.evt n }) s

/-- Points, channels and generators, and one of them changed. -/
def eqPoint (s : State) (p : Nat) : Point := vget State.point0 s.eq.points p
def modPoint (p : Nat) (f : Point → Point) (s : State) : State := modEq (fun e => { e with points := vmod e.points p f }) s
def eqChan (s : State) (c : Nat) : EqChan := vget State.chan0 s.eq.chans c
def modChan (c : Nat) (f : EqChan → EqChan) (s : State) : State := modEq (fun e => { e with chans := vmod e.chans c f }) s
def eqGen (s : State) (g : Nat) : PulseGen := vget State.gen0 s.eq.gens g
def modGen (g : Nat) (f : PulseGen → PulseGen) (s : State) : State := modEq (fun e => { e with gens := vmod e.gens g f }) s

/-- Fields of a point. -/
def ptEn (m : List (Nat × Word)) (p : Nat) : Bool := (eqWord m kPOINT p 0).getLsbD 0
def ptPhases (m : List (Nat × Word)) (p : Nat) : Nat :=
  let n := field (eqWord m kPOINT p 0) 1 2
  if n = 0 then 3 else n
def ptU (m : List (Nat × Word)) (p ph : Nat) : Nat := field (eqWord m kPOINT p 1) (8 * ph) 8
def ptI (m : List (Nat × Word)) (p ph : Nat) : Nat := field (eqWord m kPOINT p 2) (8 * ph) 8
def ptN (m : List (Nat × Word)) (p : Nat) : Nat := max 1 (field (eqWord m kPOINT p 4) 0 16)
def ptSceil (m : List (Nat × Word)) (p : Nat) : Rat := eqOfF32 (eqWord m kPOINT p 5)
/-- QEXP, a signed four-bit field, within −3 to 6. -/
def ptQexp (m : List (Nat × Word)) (p : Nat) : Int :=
  max (-3) (min 6 ((BitVec.ofNat 4 (field (eqWord m kPOINT p 3) 0 4)).toInt))

/-- Channels of a point. -/
def ptChans (m : List (Nat × Word)) (p : Nat) : List Nat :=
  (List.range (ptPhases m p)).flatMap fun ph => [ptU m p ph, ptI m p ph]

/-- Fields of a channel. -/
def chVoltage (m : List (Nat × Word)) (c : Nat) : Bool := (eqWord m kCHAN c 0).getLsbD 0
def chPq (m : List (Nat × Word)) (c : Nat) : Bool := chVoltage m c && (eqWord m kCHAN c 0).getLsbD 1
def chNominal (m : List (Nat × Word)) (c : Nat) : Rat := eqOfF32 (eqWord m kCHAN c 1)

/-- Global settings: nominal frequency in Hz, BRIDGE. -/
def eqNominal (s : State) : Nat := if (eqWord s.eq.act kGLOBAL 0 0).getLsbD 0 then 60 else 50
def eqBridge (s : State) : Nat := min 8 (field (eqWord s.eq.act kGLOBAL 0 0) 8 4)

/-- Nominal period, and sampling instant of a count, in s. -/
def eqPeriod (s : State) : Rat := 1 / (eqNominal s : Rat)
def instant (s : State) (n : Nat) : Rat := (n : Rat) / (rate s : Rat)

/-! ### Correction (R237, R238) -/

/-- Segments of a channel that count: up to the first breakpoint that does not rise. -/
def segments (m : List (Nat × Word)) (c : Nat) : List (Nat × Int × Int) :=
  let all := (List.range (field (eqWord m kCHAN c 0) 4 3 + 1)).map fun j =>
    (field (eqWord m kCHAN c (2 + j)) 0 16, (eqWord m kCHAN c (10 + j)).toInt,
     max (-100000) (min 100000 (eqWord m kCHAN c (18 + j)).toInt))
  rising all
where
  /-- The longest rising start. -/
  rising : List (Nat × Int × Int) → List (Nat × Int × Int)
    | [] => []
    | [a] => [a]
    | a :: b :: t => if a.1 < b.1 then a :: rising (b :: t) else [a]

/-- Value between two segments, the division truncated toward zero. -/
def interSeg (a b x : Nat) (va vb : Int) : Int :=
  va + Int.tdiv ((vb - va) * (Int.ofNat x - Int.ofNat a)) (Int.ofNat b - Int.ofNat a)

/-- Gain and phase at an operating point. -/
def correctionAt (x : Nat) : List (Nat × Int × Int) → Int × Int
  | [] => (0x40000000, 0)
  | [a] => a.2
  | a :: b :: t =>
    if x ≤ a.1 then a.2
    else if x < b.1 then (interSeg a.1 b.1 x a.2.1 b.2.1, interSeg a.1 b.1 x a.2.2 b.2.2)
    else correctionAt x (b :: t)

/-- The correction of a channel is set from its operating point. -/
def setCorrection (c : Nat) (s : State) : State :=
  modChan c (fun ch =>
    let g := correctionAt ch.x (segments s.eq.act c)
    { ch with gain := g.1, phase := g.2 }) s

/-- The lowest-numbered enabled point that uses a channel. -/
def chanOwner (s : State) (c : Nat) : Option Nat :=
  (List.range 96).find? fun p => ptEn s.eq.act p && (ptChans s.eq.act p).contains c

/-- Frequency that a point is taken to have: nominal in FREERUN. -/
def ptFreq (s : State) (p : Nat) : Rat :=
  let pt := eqPoint s p
  if pt.freerun ∨ pt.freq = 0 then (eqNominal s : Rat) else pt.freq

/-- Frequency by which a channel is delayed. -/
def chanFreq (s : State) (c : Nat) : Rat :=
  match chanOwner s c with
  | some p => ptFreq s p
  | none => (eqNominal s : Rat)

/-- A received sample in V or A: 10 mV or 1 mA a unit. A channel number above 191 names no channel and reads 0. -/
def rawSample (s : State) (c : Nat) (j : Int) : Rat :=
  if c < 192 then
    ((shWord s (histAddr s (c / 8) (c % 8) j.toNat)).toInt : Rat) / (if chVoltage s.eq.act c then 100 else 1000)
  else 0

/-- Third-order Lagrange interpolation at `t` over the four samples around it. -/
def lagrange (v : Int → Rat) (t : Rat) : Rat :=
  let b := t.floor
  let m := t - (b : Rat)
  (m + 1) * (m - 1) * (m - 2) / 2 * v b - m * (m - 1) * (m - 2) / 6 * v (b - 1)
    - (m + 1) * m * (m - 2) / 2 * v (b + 1) + (m + 1) * m * (m - 1) / 6 * v (b + 2)

/-- Corrected sample of a channel at a count, delayed by further samples (R237, R238, R240). -/
def corrected (s : State) (c n : Nat) (extra : Rat) : Rat :=
  let ch := eqChan s c
  let d := eqDelay ch.phase (rate s) (chanFreq s c) + eqFix extra
  eqFix (lagrange (rawSample s c) ((n : Rat) - d) * (ch.gain : Rat) / 1073741824)

/-! ### Samples -/

/-- Quality word of a channel's entry. -/
def chanQuality (s : State) (c n : Nat) : Word := shWord s (qualAddr s (c / 8) n)

/-- The entry is MISSING or the channel is invalid (R242). -/
def chanBad (s : State) (c n : Nat) : Bool :=
  if c < 192 then (chanQuality s c n).getLsbD 16 || (chanQuality s c n).getLsbD (c % 8) else true

/-- A value is below −1 % of the nominal peak √2 × nominal (R239). -/
def belowDead (nominal u : Rat) : Bool := decide (u < 0) && decide (nominal * nominal / 5000 < u * u)

/-- Time of a zero crossing between counts n − 1 and n (R239). -/
def crossTime (s : State) (n : Nat) (a b : Rat) : Rat := instant s (n - 1) + (-a) / (b - a) / (rate s : Rat)

end Sys2Proof.Machine
end

