-- ==== Sys2Proof/Machine/Pair.lean ====
section
/-! DEFINITION. What an ACTIVE module asks of its STANDBY peer before it arms (R306), and the CONTROL messages it sends. -/
namespace Sys2Proof.Machine

/-- ACTIVE with a STANDBY peer. -/
def paired (s : State) : Bool := s.hsb.role == .active && s.hsb.peerRole == some .standby

/-- Words of a staged group (R47), with their keys. -/
def stagedWords (s : State) (g : Nat) : List Word :=
  let flat (m : List (Nat × Word)) : List Word := m.flatMap fun x => [w x.1, x.2]
  match g with
  | 0 => flat s.ne.stg
  | 1 => flat s.eq.stg
  | 2 => flat (s.regs.filter fun x => decide (0x90000 ≤ x.1 ∧ x.1 < 0xA0000))
  | 3 => flat (s.regs.filter fun x => decide (0xA0000 ≤ x.1 ∧ x.1 < 0xB0000 ∧ 0x40 ≤ x.1 % 0x4000))
  | _ => [stagedId s]

/-- CRC-32C of a staged group (R306). DESIGN CHOICE (log 62): over each word that differs from its default, after its key, in
ascending keys. -/
def stagedCrc (s : State) (g : Nat) : Word := crc32c (wordsBytes (stagedWords s g))

/-- The peer reports the same staged blocks for the groups of a mask. -/
def peerStagedSame (s : State) (groups : BitVec 5) : Bool :=
  match s.hsb.peerBeat with
  | none => false
  | some b => (List.range 5).all fun g => !groups.getLsbD g || b.stagedCrc.getD g 0 == stagedCrc s g

/-- The peer reports PLACED and this module's maquette hash. -/
def peerPlacedSame (s : State) : Bool :=
  match s.hsb.peerBeat, s.plr.maq with
  | some b, some a => b.plrState == 4 && b.maqHash == a.hash
  | _, _ => false

/-- Send a CONTROL command to a STANDBY peer. -/
def sendControl (c : Control) (s : State) : State :=
  if paired s then hsbPush (.control c) s else s

/-- A 64-bit register pair. -/
def regPair (lo : Nat) (s : State) : Nat := (reg lo s).toNat + (reg (lo + 4) s).toNat * 2 ^ 32

/-! ### Commits (R47 to R49, R144) -/

/-- CHISEL_ID that the running program names; the empty program names none (R144). -/
def runNames (s : State) : Option Word := s.plr.run.map (·.chiselId)

/-- The arm of a CHISEL group for frame `f` disagrees with the programs (R144). DESIGN CHOICE (log 62): the empty program
names no CHISEL_ID, so while it runs an arm stands beside a swap for `f` that names another ID than the staged one; the check
at T_{f−1} judges that pair. -/
def chiselArmBad (f : Nat) (s : State) : Bool :=
  match runNames s with
  | none => false
  | some id =>
    let named := s.plr.swapF == some f && (match s.plr.maq with
      | some a => a.chiselId == stagedId s
      | none => false)
    stagedId s != id && !named

/-- The verdict on an arm of settings groups for frame `f` (R48, R144, R306). -/
def armVerdict (f : Nat) (groups : BitVec 5) (s : State) : Res :=
  if s.hsb.role = .standby then .denied
  else if s.frm.commitArmed then .busy
  else if booting s ∨ f ≤ s.frm.k + 1 then .late
  else if groups.getLsbD 4 ∧ chiselArmBad f s then .denied
  else if paired s ∧ !peerStagedSame s groups then .denied
  else .ok

/-- A commit is armed. -/
def setArm (f : Nat) (groups : BitVec 5) (s : State) : State :=
  { s with frm := { s.frm with commitArmed := true, commitGroups := groups, commitF := f, committed := false } }

/-- FRM_COMMIT_CTL.ARM. -/
def commitArmOp (groups : BitVec 5) : RegOp := fun s =>
  let f := regPair 0x10030 s
  let v := armVerdict f groups s
  let s := { s with frm := { s.frm with lastLate := v == .late } }
  if v = .ok then (.ok, sendControl (.commitArm f groups) (setReg 0x10038 (BitVec.setWidth 32 groups) (setArm f groups s)))
  else (v, s)

/-- FRM_COMMIT_CTL.CANCEL (R49): nothing armed, nothing to cancel. -/
def commitCancelOp : RegOp := fun s =>
  if !s.frm.commitArmed then (.ok, { s with frm := { s.frm with lastLate := false } })
  else if s.frm.commitF ≤ s.frm.k + 1 then (.late, { s with frm := { s.frm with lastLate := true } })
  else (.ok, sendControl .commitCancel
    { s with frm := { s.frm with commitArmed := false, committed := false, lastLate := false } })

/-- COMMIT_ARM (R48). -/
def execCommitArm (sid : Fin 4) (groups : BitVec 5) (s : State) : Host.Outcome State Fault Refusal :=
  act (hostDo sid.val roleENGINEER (commitArmOp groups)) s

/-- COMMIT_CANCEL (R49). -/
def execCommitCancel (sid : Fin 4) (s : State) : Host.Outcome State Fault Refusal :=
  act (hostDo sid.val roleENGINEER commitCancelOp) s

/-! ### The other commands of FRM -/

/-- FRM_CTL.CLR_MAX (R45). -/
def frmClrMaxOp : RegOp := always fun s => { s with frm := { s.frm with useMax := 0 } }

/-- FRM_CLR_MAX. -/
def execFrmClrMax (sid : Fin 4) (s : State) : Host.Outcome State Fault Refusal :=
  act (hostDo sid.val roleOPERATOR frmClrMaxOp) s

/-- FRM_HOST_EVT: each 1 raises its host event for the next freeze (R39). -/
def hostEventOp (mask : Word) : RegOp := always fun s =>
  if s.frm.hostStepAt = tickStep s then { s with frm := { s.frm with hostStep := s.frm.hostStep ||| mask } }
  else { s with frm := { s.frm with
    hostEvt := s.frm.hostEvt ||| s.frm.hostStep, hostStep := mask, hostStepAt := tickStep s } }

/-- HOST_EVENT. -/
def execHostEvent (sid : Fin 4) (mask : Word) (s : State) : Host.Outcome State Fault Refusal :=
  act (hostDo sid.val roleOPERATOR (hostEventOp mask)) s

/-- A read of FRM_FRAME_LO latches the high half (R34). -/
def frameLoOp (s : State) : Word × State := (w s.frm.k, { s with frm := { s.frm with kShadow := w (s.frm.k / 2 ^ 32) } })

/-- FRAME_LO_READ. -/
def execFrameLoRead (sid : Fin 4) (s : State) : Host.Outcome State Fault Refusal := act (hostReadDo sid.val frameLoOp) s

/-- A read of FRM_K0_LO latches the high half (R50). -/
def k0LoOp (s : State) : Word × State :=
  (w s.frm.k0, { s with frm := { s.frm with k0Shadow := w (s.frm.k0 / 2 ^ 32) } })

/-- K0_LO_READ. -/
def execK0LoRead (sid : Fin 4) (s : State) : Host.Outcome State Fault Refusal := act (hostReadDo sid.val k0LoOp) s

end Sys2Proof.Machine
end

