-- ==== Sys2Proof/Machine/Time.lean ====
section
/-! DEFINITION. Network time, its sources and its state (R210 to R215), IRIG-B and PPS (R221 to R223), the tick's place
in network time (R224). -/
namespace Sys2Proof.Machine

/-- Change the TIM block; set a bit of TIM_EVT. -/
def modTim (f : Tim → Tim) (s : State) : State := { s with tim := f s.tim }
def timEvt (n : Nat) (s : State) : State := modTim (fun t => { t with evt := setBit t.evt n }) s

/-- A source by its place: 0 PTP, 1 IRIG, 2 PPS; registers number them from 1. -/
def timSource (s : State) (i : Nat) : TimSource := vget State.source0 s.tim.sources i
def modSource (i : Nat) (f : TimSource → TimSource) (s : State) : State :=
  modTim (fun t => { t with sources := vmod t.sources i f }) s

/-- Sources in order of priority (TIM_CFG.SRC_1 to SRC_3). -/
def timOrder (s : State) : List Nat := [0, 2, 4].map fun b => field (reg 0x60004 s) b 2

/-- The first listed source that is valid, 0 for none (R211). -/
def timSelect (s : State) : Nat :=
  match (timOrder s).find? fun n => n != 0 && (timSource s (n - 1)).valid with
  | some n => n
  | none => 0

/-- TAI − UTC in use (R210). -/
def utcOfs (s : State) : Nat :=
  match s.tim.ptpUtc with
  | some x => x
  | none => field (reg 0x60010 s) 0 16

/-- The newest part of a history of rates that makes up `n` lane cycles. -/
def histTake : Nat → List (Nat × Int) → List (Nat × Int)
  | _, [] => []
  | 0, _ => []
  | n, (d, f) :: t => (min d n, f) :: histTake (n - d) t

/-- The average of a history of rates, by the time each was in force. DESIGN CHOICE (log 63): rounded down to 0.001 ppm. -/
def histMean (l : List (Nat × Int)) (none_ : Int) : Int :=
  let d := (l.map (·.1)).sum
  if d = 0 then none_ else (l.map fun x => Int.ofNat x.1 * x.2).sum / Int.ofNat d

/-- The rate in force in LOCKED so far goes to the history, of which 60 s are kept (R212). -/
def lockPush (s : State) : State :=
  if s.tim.state = .locked then
    modTim (fun t => { t with
      lockHist := histTake (60 * cycSec) ((s.clk.cyc - t.lockSeg, t.freq) :: t.lockHist), lockSeg := s.clk.cyc }) s
  else s

/-- A new rate correction. -/
def setFreq (f : Int) (s : State) : State := modTim (fun t => { t with freq := f }) (lockPush s)

/-- A change of the time state (R212, R39); a step that waits for its tick is not made outside ACQUIRING (R213). -/
def timGoto (st : TimState) (s : State) : State :=
  if s.tim.state = st then s
  else
    let old := s.tim.state
    let s := assertEvw 34 (modTim (fun t => { t with state := st, stepPend := none }) (lockPush s))
    match st with
    | .locked => timEvt 0 (noteU 0x5001 srcTIM (modTim (fun t => { t with
        everLocked := true, holdLim := false, holdStart := none, lockSeg := s.clk.cyc }) s))
    | .holdover =>
      let s := modTim (fun t => { t with freq := histMean t.lockHist t.freq }) s
      if old = .locked then
        timEvt 1 (noteU 0x5002 srcTIM (modTim (fun t => { t with holdStart := some s.clk.cyc }) s))
      else s
    | .acquiring => modTim (fun t => { t with lockRun := 0, stepped := false, fromHold := old == .holdover }) s
    | .freerun => modTim (fun t => { t with freq := t.stored }) s

/-- The source in use follows the valid sources, and the state follows it (R211, R212). -/
def timReselect (s : State) : State :=
  let new := timSelect s
  let s := if new = s.tim.src then s
    else
      let s := if s.tim.state = .locked ∧ s.tim.src ≠ 0 ∧ new ≠ 0 then noteU 0x5006 srcTIM s else s
      timEvt 6 (modTim (fun t => { t with
        lockSrc := if t.state = .locked then t.src else t.lockSrc, src := new, lockRun := 0 }) s)
  if new = 0 then
    match s.tim.state with
    | .locked => timGoto .holdover s
    | .acquiring => timGoto (if s.tim.fromHold then .holdover else .freerun) s
    | _ => s
  else match s.tim.state with
    | .freerun => timGoto .acquiring s
    | .holdover => timGoto .acquiring s
    | _ => s

/-- A source stops being valid. -/
def timInvalid (i : Nat) (s : State) : State :=
  timReselect (modSource i (fun x => { x with valid := false, good := 0, outliers := 0 }) s)

/-- The servo's correction, within ±500 ppm (R213). -/
def servo (offset freq : Int) : Int := max (-500000) (min 500000 (Config.servoRate offset freq))

/-- A bad measurement breaks the run of good ones. -/
def timBad (i : Nat) (s : State) : State := modSource i (fun x => { x with good := 0 }) s

/-- A good measurement of the source in use in ACQUIRING: step once, or slew and judge the lock (R212, R213). -/
def timAcquire (i : Nat) (offset : Int) (s : State) : State :=
  let limit : Int := if i = 1 then 1000 else 200
  let step : Int := Int.ofNat (max 10 (field (reg 0x60008 s) 0 20)) * 1000
  if (reg 0x60004 s).getLsbD 6 ∧ !s.tim.stepped ∧ step ≤ (offset.natAbs : Int) then
    modTim (fun t => { t with stepped := true, lockRun := 0, stepPend := some (-offset) }) s
  else
    let run := if (offset.natAbs : Int) ≤ limit then s.tim.lockRun + 1 else 0
    let s := setFreq (servo offset s.tim.freq) (modTim (fun t => { t with lockRun := run }) s)
    if 16 ≤ run then timGoto .locked s else s

/-- A measurement: the module's time less the source's, in ns (R211, R212). -/
def timMeasure (i : Nat) (offset : Int) (s : State) : State :=
  let s := modTim (fun t => { t with offset := offset }) s
  if s.tim.state = .locked ∧ 10000 < offset.natAbs then
    let n := (timSource s i).outliers + 1
    let s := modSource i (fun x => { x with outliers := n, good := 0 }) s
    if 3 ≤ n ∧ (timSource s i).valid then timInvalid i s else s
  else
    let good := min 3 ((timSource s i).good + 1)
    let s := modSource i (fun x => { x with
      outliers := 0, good := good, lastGood := s.clk.cyc, valid := x.valid || good == 3 }) s
    let s := timReselect s
    if s.tim.src ≠ i + 1 then s
    else match s.tim.state with
      | .acquiring => timAcquire i offset s
      | .locked => setFreq (servo offset s.tim.freq) s
      | _ => s

/-- SOURCE_TIMEOUT: no good measurement for 3 s (R211). -/
def execSourceTimeout (src : Fin 3) (s : State) : Host.Outcome State Fault Refusal :=
  act (fun s => let x := timSource s src.val
    whenever (x.valid && decide (x.lastGood + 3 * cycSec ≤ s.clk.cyc)) (timInvalid src.val) s) s

/-! ### The holdover limit (R214) -/

/-- Seconds in the holdover interval. -/
def holdSeconds (s : State) : Nat :=
  match s.tim.holdStart with
  | some c => (s.clk.cyc - c) / cycSec
  | none => 0

/-- LIMIT and ACT of TIM_HOLD. -/
def holdLimitS (s : State) : Nat := field (reg 0x6000C s) 0 16
def holdAct (s : State) : Nat := field (reg 0x6000C s) 16 2

/-- The limit is reached. -/
def holdLimit (s : State) : State :=
  let n := w (holdSeconds s)
  let l := w (holdLimitS s)
  let s := assertEvw 36 (timEvt 3 (modTim (fun t => { t with holdLim := true }) s))
  match holdAct s with
  | 0 => note 0x5004 srcTIM n l 0 s
  | 1 => localDoubt 0x5004 srcTIM n l 0 s
  | _ => moduleDoubt causeHoldover 0x5004 srcTIM n l 0 s

/-- HOLD_LIMIT. -/
def execHoldLimit (s : State) : Host.Outcome State Fault Refusal :=
  act (fun s => whenever (s.tim.holdStart.isSome && !s.tim.holdLim && holdLimitS s != 0
    && decide (holdLimitS s ≤ holdSeconds s)) holdLimit s) s

/-- CLOCK_LOSS (R215). -/
def execClockLoss (c : ClockFault) (s : State) : Host.Outcome State Fault Refusal :=
  act (match c with
    | .tcxo ppm => moduleDoubt causeClock 0x5030 srcTIM (w ppm) 0 0
    | .pll n => moduleDoubt causeClock 0x5031 srcTIM (w n) 0 0
    | .interval ns => moduleDoubt causeClock 0x5032 srcTIM (w ns) 0 0) s

/-! ### IRIG-B (R221) -/

/-- Days from 1970-01-01 to the first day of a year of this century. -/
def daysTo (year : Nat) : Nat := 10957 + 365 * year + (year + 3) / 4 - (year + 99) / 100 + (year + 399) / 400

/-- Year of the century of a frame, where one is known. -/
def irigYear (f : IrigMsg) (s : State) : Option Nat :=
  let y := field (reg 0x60004 s) 16 8
  if f.ext then some f.year else if y = 0 then none else some y

/-- Network time in seconds of a frame: local time to UTC by the 1344 offset, then to TAI. -/
def irigTime (f : IrigMsg) (year : Nat) (s : State) : Int :=
  Int.ofNat ((daysTo year + (f.day - 1)) * 86400 + f.sec) - (if f.ext then f.localOfs * 1800 else 0) + Int.ofNat (utcOfs s)

/-- A decoded frame. -/
def irigFrame (f : IrigMsg) (s : State) : State :=
  let sts : BitVec 8 := (if f.ext then 4#8 else 0) ||| (if f.lsp then 8#8 else 0) ||| (BitVec.ofNat 8 f.tq <<< 4)
  let s0 := modTim (fun t => { t with irigSts := sts, irigCyc := some s.clk.cyc }) s
  match irigYear f s with
  | none => timBad 1 (modTim (fun t => { t with irigLast := none }) s0)
  | some y =>
    let now := irigTime f y s
    let follows := match s.tim.irigLast with
      | some l => decide (now = Int.ofNat l + 1)
      | none => false
    let s := modTim (fun t => { t with irigLast := some now.toNat }) s0
    if f.parityOk && follows && f.tq % 16 != 15 then
      timMeasure 1 (Int.ofNat (ntCap s / ntNs) - Int.ofNat f.ageNs - now * 1000000000) s
    else timBad 1 s

/-- IRIG_FRAME. -/
def execIrigFrame (f : IrigMsg) (s : State) : Host.Outcome State Fault Refusal := act (irigFrame f) s

/-! ### PPS (R222, R223) -/

/-- Offset in ns to the nearest whole second. -/
def ppsOffset (s : State) : Int :=
  let n := ntCap s % ntSec / ntNs
  if n ≤ 500000000 then Int.ofNat n else Int.ofNat n - 1000000000

/-- A pulse of the PPS input. -/
def ppsIn (widthNs : Nat) (s : State) : State :=
  if widthNs < 1000 then s
  else if 400000000 < (ppsOffset s).natAbs then timBad 2 s
  else timMeasure 2 (ppsOffset s) (assertEvw 38 s)

/-- PPS_IN. -/
def execPpsIn (widthNs : Nat) (s : State) : Host.Outcome State Fault Refusal := act (ppsIn widthNs) s

/-- MODE and WIDTH of TIM_PPSO. -/
def ppsMode (s : State) : Nat := field (reg 0x60074 s) 0 2
def ppsWidthMs (s : State) : Nat := min 500 (max 1 (field (reg 0x60074 s) 2 10))

/-- The output pulses in the state in force. -/
def ppsAllowed (s : State) : Bool :=
  ppsMode s == 1 || (ppsMode s == 2 && (s.tim.state == .locked || (s.tim.state == .holdover && !s.tim.holdLim)))

/-- PPS_OUT: within 10 ns of a whole second that it has not yet marked. -/
def execPpsOut (s : State) : Host.Outcome State Fault Refusal :=
  act (fun s => whenever (ppsAllowed s && !s.tim.ppsHigh && decide (nowNs s < 10) && s.tim.ppsSec != some (nowSec s))
    (modTim fun t => { t with ppsHigh := true, ppsEnd := s.clk.cyc + ppsWidthMs s * cycMs, ppsSec := some (nowSec s) }) s) s

/-- PPS_PULSE_END. -/
def execPpsPulseEnd (s : State) : Host.Outcome State Fault Refusal :=
  act (fun s => whenever (s.tim.ppsHigh && decide (s.tim.ppsEnd ≤ s.clk.cyc))
    (modTim fun t => { t with ppsHigh := false }) s) s

/-! ### The tick in network time (R224, R213) -/

/-- e of R224 times the tick rate, in units of 10^-19 s. -/
def tickErrR (s : State) (k : Nat) : Int := Int.ofNat (s.clk.nt * rate s) - Int.ofNat (k * ntSec)

/-- Saturate to 32 bits, signed. -/
def sat32 (x : Int) : Int := max (-(2 ^ 31)) (min (2 ^ 31 - 1) x)

/-- Realignment judged at the tick of frame k. -/
def realignJudge (k : Nat) (s : State) : State :=
  let eR := tickErrR s k
  let on := decide (20 * ntNs * rate s ≤ eR.natAbs)
  let s := modTim (fun t => { t with realign := on, tickErr := sat32 ((eR / Int.ofNat (rate s)) / Int.ofNat ntNs) })
    (if on = s.tim.realign then s else assertEvw 37 s)
  s

/-- NOTE 0x5005 when |e| falls below 20 ns again. -/
def realignNote (was : Bool) (s : State) : State :=
  if was ∧ !s.tim.realign then timEvt 4 (noteU 0x5005 srcTIM s) else s

/-- A pending step is applied in the step of the tick, after its time was captured (R213). -/
def stepApply (s : State) : State :=
  match s.tim.stepPend with
  | none => s
  | some d =>
    let s := { s with clk := { s.clk with nt := (Int.ofNat s.clk.nt + d * Int.ofNat ntNs).toNat } }
    timEvt 2 (assertEvw 35 (note1 0x5003 srcTIM (BitVec.ofInt 32 d) (modTim (fun t =>
      { t with stepPend := none, steps := (s.clk.cyc, d) :: t.steps.take 3 }) s)))

/-- Network time a number of lane cycles ago: at the rate correction in force, without the steps made since (R263). -/
def ntAgo (s : State) (cycles : Nat) : Int :=
  Int.ofNat s.clk.nt - Int.ofNat cycles * (25000000000 + 25 * s.tim.freq)
    - ((s.tim.steps.filter fun x => decide (s.clk.cyc < x.1 + cycles)).map (·.2)).sum * Int.ofNat ntNs

/-- The target of the next tick, times the rate: t + P − adj, adj within ±0.5 % of the period. -/
def nextTarget (s : State) (k : Nat) : Nat :=
  let eR := tickErrR s k
  let lim := Int.ofNat (ntSec / 200)
  let adj := max (-lim) (min lim eR)
  (Int.ofNat (s.clk.nt * rate s) + Int.ofNat ntSec - adj).toNat

/-- The tick is due: network time has reached its target, at the start of a 10 ns step. -/
def tickDue (s : State) : Bool := decide (s.tim.target ≤ s.clk.nt * rate s) && s.clk.cyc % 4 == 0

/-- The interval since the last tick breaks R32. -/
def intervalBad (s : State) : Bool :=
  let x : Int := Int.ofNat ((s.clk.cyc - s.frm.tickCyc) * rate s) - Int.ofNat cycSec
  decide (cycSec < x.natAbs * 100)

/-! ### Reads -/

/-- A read of TIM_NOW_NS latches the seconds (R210); captures are quantised to 2 ns. -/
def timNowOp (s : State) : Word × State :=
  (w (ntCap s % ntSec / ntNs), modTim (fun t => { t with nowShadow := nowSec s % 2 ^ 48 }) s)

/-- TIM_NOW_READ. -/
def execTimNowRead (sid : Fin 4) (s : State) : Host.Outcome State Fault Refusal := act (hostReadDo sid.val timNowOp) s

end Sys2Proof.Machine
end

