-- ==== Sys2Proof/Machine/FieldRows.lean ====
section
/-! DEFINITION. Field inputs and outputs (R259 to R270). -/
namespace Sys2Proof.Machine

/-- An input, an output, a group, and each of them changed. -/
def fin_ (s : State) (n : Nat) : FieldIn := vget State.in0 s.fio.ins n
def fout (s : State) (n : Nat) : FieldOut := vget State.out0 s.fio.outs n
def ogrp (s : State) (g : Nat) : OutGroup := vget State.og0 s.fio.og g
def modIn (n : Nat) (f : FieldIn → FieldIn) (s : State) : State := { s with fio := { s.fio with ins := vmod s.fio.ins n f } }
def modOut (n : Nat) (f : FieldOut → FieldOut) (s : State) : State :=
  { s with fio := { s.fio with outs := vmod s.fio.outs n f } }
def modOg (g : Nat) (f : OutGroup → OutGroup) (s : State) : State := { s with fio := { s.fio with og := vmod s.fio.og g f } }

/-- Set a bit of FIO_EVT. -/
def fioEvt (n : Nat) (s : State) : State := { s with fio := { s.fio with evt := setBit s.fio.evt n } }

/-! ### Inputs -/

/-- Filter time of an input in lane cycles: units of 10 µs, at most 800 (FIO_IN_FILT_n). -/
def filtUs (s : State) (n : Nat) : Nat := min 800 (field (regAct (0x90040 + 4 * n) s) 0 10) * 10

/-- Supply of the group of an input. -/
def inSupply (s : State) (n : Nat) : Bool := vget false s.fio.igSup (n / 8)

/-- The level an input with filtered level `level` presents: 0 while its group has no supply or it has a wire break (R260,
R264). -/
def inGate (s : State) (n : Nat) (level : Bool) : Bool := inSupply s n && level && !(fin_ s n).wb
def inPresent (s : State) (n : Nat) : Bool := inGate s n (fin_ s n).filtered

/-- Network time in µs modulo 2^32, of a time in units of 10^-19 s. -/
def usOf (nt : Nat) : Word := w (nt / 10 ^ 13)

/-- An accepted transition (R262, R263): the stamp is the network time of the raw transition that began the run, less
the coupler's 3 µs. -/
def acceptTransition (n : Nat) (level : Bool) (heldUs : Nat) (s : State) : State :=
  modIn n (fun i => { i with
    filtered := level, chg := true, multi := i.chg
    stamp := usOf (ntAgo s (heldUs * cycUs) - 3 * 10 ^ 13).toNat }) s

/-- The 1 µs step of the input sampling. -/
def usStep (s : State) : Nat := s.clk.cyc / cycUs

/-- Begin to keep what the present 1 µs step changes. -/
def usOpen (s : State) : State :=
  if s.fio.usAt = usStep s then s
  else { s with fio := { s.fio with usAt := usStep s, usIns := [], usRuns := [] } }

/-- An input has changed in the present 1 µs step: what reaches the die in the step of T_k belongs to frame k + 1 (R262). -/
def usFresh (s : State) (n : Nat) : Bool := s.fio.usAt == usStep s && s.fio.usIns.any (·.1 == n)

/-- An input as a tick in the present 1 µs step finds it. -/
def finAtTick (s : State) (n : Nat) : FieldIn :=
  if usFresh s n then ((s.fio.usIns.find? (·.1 == n)).map (·.2)).getD (fin_ s n) else fin_ s n

/-- A level reported as held: accepted once it has lasted for the filter time, else kept as a run in progress (R270). -/
def judgeRun (n : Nat) (level : Bool) (heldUs : Nat) (s : State) : State :=
  let s := usOpen s
  if filtUs s n ≤ heldUs then
    acceptTransition n level heldUs
      (if usFresh s n then s else { s with fio := { s.fio with usIns := (n, fin_ s n) :: s.fio.usIns } })
  else { s with fio := { s.fio with usRuns := (n, level, heldUs) :: s.fio.usRuns } }

/-- ACCEPTED_TRANSITION. -/
def execAcceptedTransition (n : Fin 32) (level : Bool) (heldUs : Nat) (s : State) : Host.Outcome State Fault Refusal :=
  act (fun s => whenever ((fin_ s n.val).filtered != level) (judgeRun n.val level heldUs) s) s

/-- The runs in progress in the step of T_F count against the filter times that a commit has made active (R270). -/
def acceptRuns (s : State) : State :=
  (if s.fio.usAt = usStep s then s.fio.usRuns else []).foldr (fun x s =>
    whenever ((fin_ s x.1).filtered != x.2.1 && decide (filtUs s x.1 ≤ x.2.2)) (acceptTransition x.1 x.2.1 x.2.2) s) s

/-- WB of an input sets or clears (R264). -/
def setWb (n : Nat) (on : Bool) (s : State) : State :=
  let s := assertEvw 42 (modIn n (fun i => { i with wb := on }) s)
  if on then fioEvt 0 (localU 0x7001 srcFIO s) else noteU 0x7002 srcFIO s

/-- The current of an open input, held for 20 ms, judged (R264). -/
def judgeWb (n microAmp : Nat) (s : State) : State :=
  let i := fin_ s n
  if microAmp < 150 ∧ !i.wb then setWb n true s
  else if 300 ≤ microAmp ∧ i.wb then setWb n false s
  else s

/-- WIRE_BREAK. -/
def execWireBreak (n : Fin 32) (microAmp : Nat) (s : State) : Host.Outcome State Fault Refusal :=
  act (fun s => whenever ((regAct 0x90024 s).getLsbD n.val && inSupply s n.val && !(fin_ s n.val).filtered)
    (judgeWb n.val microAmp) s) s

/-! ### Output codes (R267) -/

/-- Rank of a code: a smaller rank is shown first. -/
def codeRank : Nat → Nat
  | 6 => 0 | 8 => 1 | 7 => 2 | 2 => 3 | 1 => 4 | 3 => 5 | 4 => 6 | 5 => 7 | _ => 8

/-- A code that is a LOCAL doubt. -/
def codeLocal (c : Nat) : Bool := c != 0 && c != 4

/-- PAR of an output, as its active settings give it. -/
def outPar (s : State) (n : Nat) : Bool := (regAct (0x90140 + 4 * n) s).getLsbD 5

/-- An off period or a thermal shutdown of R265 keeps an output off. -/
def inOff (o : FieldOut) : Bool := o.off.isSome || o.hot

/-- An output switched on. -/
def outOn (s : State) (n : Nat) : Bool :=
  let o := fout s n
  let g := ogrp s (n / 8)
  o.drive && !inOff o && g.enabled && g.supply

/-- Readback of an output: the level of its terminal, by a stage that the group's L+ powers (R259, R267). -/
def outRb (s : State) (n : Nat) : Bool := ((fout s n).ext.getD (outOn s n)) && (ogrp s (n / 8)).supply

/-- The readback stage reports a level: one that the switch does not give is held by something else. -/
def senseRb (n : Nat) (rb : Bool) (s : State) : State :=
  modOut n (fun o => { o with ext := if outOn s n = rb then none else some rb }) s

/-- The code whose condition stands without regard to the readback. -/
def standing (s : State) (n : Nat) : Nat :=
  let o := fout s n
  let g := ogrp s (n / 8)
  if !g.supply then 6
  else if !g.enabled then 8
  else match o.off with
    | some (.groupOvl, _) => 7
    | some (.overcurrent, _) => if o.hot then 2 else 1
    | none => if o.hot then 2 else 0

/-- The code that a readback level gives once 1 ms has passed since the last change of command or retry. -/
def mismatch (s : State) (n : Nat) (rb : Bool) : Nat :=
  let o := fout s n
  if s.clk.cyc < o.lastChange + cycMs ∨ rb = o.drive then 0
  else if !o.drive then (if o.par then 4 else 3)
  else 5

/-- An output takes a code. -/
def setCode (n c : Nat) (s : State) : State :=
  let o := fout s n
  if o.code = c then s
  else
    let s := assertEvw 43 (modOut n (fun o => { o with code := c }) s)
    if c = 0 then s
    else
      let code := BitVec.ofNat 16 (0x7010 + c)
      let entry (s : State) : State :=
        if codeLocal c then localDoubt code srcFIO (w n) (w c) (bitWord o.drive) s
        else note code srcFIO (w n) (w c) (bitWord o.drive) s
      let s := rlNote n code.toNat (fun _ => entry) s
      if codeLocal c then fioEvt 1 s else s

/-- A condition of a code arises: the code shows unless one above it stands. -/
def raiseCode (n c : Nat) (s : State) : State :=
  if codeRank c < codeRank (fout s n).code then setCode n c s else s

/-- Channels of an output group. -/
def channels (g : Nat) : List Nat := [8 * g, 8 * g + 1, 8 * g + 2, 8 * g + 3, 8 * g + 4, 8 * g + 5, 8 * g + 6, 8 * g + 7]

/-- The command in force becomes off, and what a release gave is void: the output waits for the next release. -/
def cmdOff (n : Nat) (s : State) : State :=
  modOut n (fun o => { o with
    cmd := false, drive := false, lastChange := if o.drive then s.clk.cyc else o.lastChange }) s

/-! ### Supplies (R260) -/

/-- L+ of a group is lost: groups 0 to 3 are IG_0 to IG_3, 4 and 5 are OG_0 and OG_1. -/
def supplyLost (grp : Nat) (s : State) : State :=
  if grp < 4 then
    if vget false s.fio.igSup grp then
      fioEvt 2 (assertEvw 44 (localU 0x7020 srcFIO
        { s with fio := { s.fio with igSup := vset s.fio.igSup grp false } }))
    else s
  else
    let g := grp - 4
    let s := if (ogrp s g).supply then
        fioEvt 2 (assertEvw 44 (localU 0x7020 srcFIO (modOg g (fun o => { o with supply := false }) s)))
      else s
    forAll (channels g) (fun n s => raiseCode n 6 (cmdOff n s)) s

/-- SUPPLY_LOSS. -/
def execSupplyLoss (grp : Fin 6) (s : State) : Host.Outcome State Fault Refusal := act (supplyLost grp.val) s

/-- L+ of a group is back: outputs take the commands released at the next tick. -/
def supplyBack (grp : Nat) (s : State) : State :=
  let s' := assertEvw 44 (noteU 0x7021 srcFIO s)
  if grp < 4 then
    if vget false s.fio.igSup grp then s else { s' with fio := { s'.fio with igSup := vset s'.fio.igSup grp true } }
  else if (ogrp s (grp - 4)).supply then s else modOg (grp - 4) (fun o => { o with supply := true }) s'

/-- SUPPLY_RESTORE. -/
def execSupplyRestore (grp : Fin 6) (s : State) : Host.Outcome State Fault Refusal := act (supplyBack grp.val) s

/-! ### Off periods (R265) -/

/-- A channel enters an off period. -/
def offCount (n : Nat) (f : FieldOut → FieldOut) (s : State) : State :=
  modOut n (fun o => f { o with retries := min 65535 (o.retries + 1), lastChange := s.clk.cyc }) s

/-- An off period of 100 ms. -/
def offPeriod (cause : OffCause) (n : Nat) (s : State) : State :=
  offCount n (fun o => { o with off := some (cause, s.clk.cyc) }) s

/-- OVERCURRENT: of a channel that is switched on. -/
def execOvercurrent (n : Fin 16) (s : State) : Host.Outcome State Fault Refusal :=
  act (fun s => whenever (outOn s n.val) (fun s => raiseCode n.val 1 (offPeriod .overcurrent n.val s)) s) s

/-- GROUP_OVERLOAD: of a group with a channel switched on. -/
def execGroupOverload (g : Fin 2) (s : State) : Host.Outcome State Fault Refusal :=
  act (fun s => whenever ((channels g.val).any (outOn s))
    (fun s => forAll (channels g.val) (fun n s => raiseCode n 7 (offPeriod .groupOvl n s))
      (modOg g.val (fun o => { o with ovl := true }) s)) s) s

/-- THERMAL_SHUTDOWN: of a channel that is switched on. -/
def execThermalShutdown (n : Fin 16) (s : State) : Host.Outcome State Fault Refusal :=
  act (fun s => whenever (outOn s n.val) (fun s => raiseCode n.val 2 (offCount n.val (fun o => { o with hot := true }) s)) s) s

/-- An off period has ended: unless another goes on, the switch takes its command again, but no output is switched on
after t_d (R25). -/
def retry (n : Nat) (s : State) : State :=
  let s := modOut n (fun o => if inOff o then o else { o with
    lastChange := s.clk.cyc
    drive := o.cmd && drives s && (ogrp s (n / 8)).enabled && (ogrp s (n / 8)).supply && !s.sys.latched }) s
  let still := (channels (n / 8)).any fun c => match (fout s c).off with
    | some (.groupOvl, _) => true
    | _ => false
  modOg (n / 8) (fun o => { o with ovl := still }) s
where
  /-- Role of R266. -/
  drives (s : State) : Bool := s.hsb.role == .alone || s.hsb.role == .active

/-- OUTPUT_RETRY: 100 ms after the channel switched off for current. -/
def execOutputRetry (n : Fin 16) (s : State) : Host.Outcome State Fault Refusal :=
  act (fun s => whenever (match (fout s n.val).off with
      | some (_, t) => decide (t + 100 * cycMs ≤ s.clk.cyc)
      | none => false) (fun s => retry n.val (modOut n.val (fun o => { o with off := none }) s)) s) s

/-- SWITCH_COOLED: a thermal shutdown ends. -/
def execSwitchCooled (n : Fin 16) (s : State) : Host.Outcome State Fault Refusal :=
  act (fun s => whenever (fout s n.val).hot
    (fun s => retry n.val (modOut n.val (fun o => { o with hot := false }) s)) s) s

/-! ### Readback diagnosis -/

/-- A readback level that has held for 1 ms, judged. -/
def outputDiag (n : Nat) (rb : Bool) (s : State) : State :=
  let c := mismatch s n rb
  let s := senseRb n rb s
  if c = 0 then s else raiseCode n c s

/-- OUTPUT_DIAG. -/
def execOutputDiag (n : Fin 16) (rb : Bool) (s : State) : Host.Outcome State Fault Refusal := act (outputDiag n.val rb) s

/-- The condition of the present code has been absent for 10 ms: the highest condition that stands shows. -/
def diagClear (n : Nat) (rb : Bool) (s : State) : State :=
  let st := standing s n
  let c := if st ≠ 0 then st else mismatch s n rb
  let s := senseRb n rb s
  if codeRank (fout s n).code < codeRank c then setCode n c s else s

/-- DIAG_CLEAR. -/
def execDiagClear (n : Fin 16) (rb : Bool) (s : State) : Host.Outcome State Fault Refusal := act (diagClear n.val rb) s

/-! ### The heartbeat path (R268) -/

/-- A toggle reaches the groups: the first after reset enables them. -/
def hbToggle (s : State) : State :=
  { s with
    fio := { s.fio with og := s.fio.og.map fun g => if g.hbOut then g else { g with enabled := true } }
    frm := { s.frm with hbToggles := s.frm.hbToggles + 1, hbCyc := s.clk.cyc } }

/-- A group's monostable runs out: every switch opens, and the group stays DISABLED until reset. -/
def runout (g : Nat) (s : State) : State :=
  let s := fioEvt 3 (modOg g (fun o => { o with enabled := false, hbOut := true }) s)
  forAll (channels g) (fun n s => raiseCode n 8 (cmdOff n s)) s

/-- MONOSTABLE_RUNOUT: no sooner than 0.60 ms after the last edge. -/
def execMonostableRunout (g : Fin 2) (s : State) : Host.Outcome State Fault Refusal :=
  act (fun s => whenever ((ogrp s g.val).enabled && decide (s.frm.hbCyc + 600 * cycUs ≤ s.clk.cyc)) (runout g.val) s) s

/-! ### Release (R266), freeze (R269), commit (R270) -/

/-- PG_EN and PG of an output. -/
def outPgEn (s : State) (n : Nat) : Bool := (regAct (0x90140 + 4 * n) s).getLsbD 0
def outPg (s : State) (n : Nat) : Nat := field (regAct (0x90140 + 4 * n) s) 1 4

/-- The command of an output at a release whose word 0x0000 is `word`. -/
def outCommand (s : State) (word : Word) (n : Nat) : Bool :=
  if outPgEn s n then (vget State.gen0 s.eq.gens (outPg s n)).on else word.getLsbD n

/-- What R266 gives for an output, off periods apart. -/
def outGate (s : State) (n : Nat) (cmd : Bool) : Bool :=
  let g := ogrp s (n / 8)
  cmd && g.enabled && g.supply && (s.hsb.role == .alone || s.hsb.role == .active)

/-- An output takes a command, with the PAR that goes with it (R270). -/
def takeCommand (n : Nat) (cmd : Bool) (s : State) : State :=
  let c := outGate s n cmd
  let d := c && !inOff (fout s n)
  modOut n (fun o => { o with
    cmd := c, drive := d, par := outPar s n, lastChange := if o.drive = d then o.lastChange else s.clk.cyc }) s

/-- Release of the field output commands (R35 step 1), with what T_k itself still shows latched. -/
def fioRelease (word : Word) (s : State) : State :=
  let bits (p : Nat → Bool) : BitVec 16 := BitVec.ofNat 16 ((where_ 16 p).map (fun n => 2 ^ n)).sum
  let s := { s with fio := { s.fio with onAtTick := bits (outOn s), rbAtTick := bits (outRb s) } }
  forAll (List.range 16) (fun n s => takeCommand n (outCommand s word n) s) s

/-- Bits of a word by a test. -/
def bitsWord (n : Nat) (p : Nat → Bool) : Word := BitVec.ofNat 32 ((where_ n p).map (fun i => 2 ^ i)).sum

/-- Words 0x0207 of R269. -/
def groupWord (s : State) : Word :=
  bitsWord 4 (fun g => vget false s.fio.igSup g) ||| (bitsWord 2 (fun g => (ogrp s g).supply) <<< 4)
  ||| (bitsWord 2 (fun g => (ogrp s g).enabled) <<< 6) ||| (bitsWord 2 (fun g => (ogrp s g).ovl) <<< 8)

/-- Codes of eight outputs, four bits each. -/
def codeWord (s : State) (first : Nat) : Word :=
  (List.range 8).foldl (fun x i => x ||| at_ (fout s (first + i)).code (4 * i)) 0

/-- Words 0x0200 to 0x02FF, by offset from 0x0200 (R269). -/
def fioWords (s : State) : List (Nat × Word) :=
  [(0x00, bitsWord 32 fun n => inGate s n (finAtTick s n).filtered), (0x01, bitsWord 32 fun n => (finAtTick s n).chg),
   (0x02, bitsWord 32 fun n => (finAtTick s n).multi), (0x03, bitsWord 32 fun n => (fin_ s n).wb),
   (0x04, BitVec.setWidth 32 s.fio.rbAtTick), (0x05, BitVec.setWidth 32 s.fio.onAtTick),
   (0x06, bitsWord 16 fun n => codeLocal (fout s n).code), (0x07, groupWord s),
   (0x08, codeWord s 0), (0x09, codeWord s 8), (0x10, usOf s.frm.ttick)]
  ++ (List.range 32).map fun n => (0x20 + n, (finAtTick s n).stamp)

/-- After the freeze, CHG and MULTI count afresh, from the transitions of this 1 µs step. -/
def fioFrozen (s : State) : State :=
  { s with fio := { s.fio with ins := vmap s.fio.ins fun n i => { i with chg := usFresh s n, multi := false } } }

/-- Registers of a staged group become active (R47). -/
def actFollow (lo hi : Nat) (s : State) : State :=
  { s with act := (sclear lo hi s.act) |> fun m =>
      (s.regs.filter fun x => decide (lo ≤ x.1 ∧ x.1 < hi)).foldl (fun m x => sput regReset x.1 x.2 m) m }

/-- The FIO group applies: a wire break of an input whose detection is now off clears. -/
def fioCommit (s : State) : State :=
  let s := acceptRuns (actFollow 0x90020 0x90180 s)
  forAll (where_ 32 fun n => (fin_ s n).wb && !(regAct 0x90024 s).getLsbD n) (fun n s => setWb n false s) s

end Sys2Proof.Machine
end

