-- ==== Sys2Proof/Machine/EqMeter.lean ====
section
/-! DEFINITION. Metering (R239 to R247): line cycles, energies, registers, latches; pulses that become due (R251). -/
namespace Sys2Proof.Machine

/-! ### Sums -/

/-- Sums added. -/
def addPhase (a b : PhaseSum) : PhaseSum := ⟨a.p + b.p, a.q + b.q, a.uu + b.uu, a.ii + b.ii⟩
def addSum (a b : CycSum) : CycSum :=
  ⟨vmap a.phases fun i x => addPhase x (vget State.psum0 b.phases i), a.samples + b.samples, a.good + b.good,
   a.degraded || b.degraded, a.zeroed || b.zeroed, a.test || b.test⟩

/-- RMS over good samples; 0 without any. -/
def rmsOf (sq : Rat) (n : Nat) : Rat := if n = 0 then 0 else eqSqrt (sq / (n : Rat))

/-- Values of a phase over a cycle. -/
def phaseValues (c : CycSum) (ph : PhaseSum) : PhaseAvg :=
  let u := rmsOf ph.uu c.good
  let i := rmsOf ph.ii c.good
  let n : Rat := (c.samples : Rat)
  ⟨u, i, ph.p / n, ph.q / n, u * i⟩

/-- A sum over the phases of a point. -/
def sumPh (n : Nat) (f : Nat → Rat) : Rat := ((List.range n).map f).foldl (· + ·) 0

/-! ### Registers (R241, R247) -/

/-- Energy in 2^-32 quanta of 10^QEXP Wh. -/
def quanta32 (qexp : Int) (e : Rat) : Nat :=
  let x := e / 3600 / (if 0 ≤ qexp then ((10 ^ qexp.toNat : Nat) : Rat) else 1 / ((10 ^ (-qexp).toNat : Nat) : Rat)) * 4294967296
  x.floor.toNat + (if Config.eqUp x ∧ ((x.floor : Int) : Rat) < x then 1 else 0)

/-- A register takes 2^-32 quanta; the answer counts the whole quanta carried. -/
def regTake (x : Nat) (r : EnergyReg) : EnergyReg × Nat :=
  let t := r.residue + x
  let c := t / 2 ^ 32
  let v := r.value.toNat + c
  (⟨BitVec.ofNat 64 v, t % 2 ^ 32, r.wraps + BitVec.ofNat 8 (v / 2 ^ 64), r.wrapFlag || decide (2 ^ 64 ≤ v)⟩, c)

/-- The registers that take the energies of a cycle (R240). -/
def takers (p q e : Rat) : List (Nat × Rat) :=
  [if 0 ≤ p then (0, p) else (1, -p),
   if 0 ≤ q then (if 0 ≤ p then (2, q) else (3, q)) else if p < 0 then (4, -q) else (5, -q), (6, e)]

/-! ### Pulses (R251) -/

/-- Fields of a generator. -/
def pgEn (m : List (Nat × Word)) (g : Nat) : Bool := (eqWord m kPULSE g 0).getLsbD 0
def pgPoint (m : List (Nat × Word)) (g : Nat) : Nat := field (eqWord m kPULSE g 0) 8 7
def pgReg (m : List (Nat × Word)) (g : Nat) : Nat := min 6 (field (eqWord m kPULSE g 0) 16 3)
def pgWeight (m : List (Nat × Word)) (g : Nat) : Nat := max 1 (eqWord m kPULSE g 1).toNat
def pgWidthMs (m : List (Nat × Word)) (g : Nat) : Nat := min 1000 (max 2 (field (eqWord m kPULSE g 2) 0 16))

/-- Ticks of a time in ms, rounded up. -/
def msTicks (s : State) (ms : Nat) : Nat := (ms * rate s + 999) / 1000

/-- Quanta carried at a cycle end at `tc` of a cycle `len` long: pulses become due. -/
def pulsesDue (g quanta : Nat) (tc len : Rat) (s : State) : State :=
  let wgt := pgWeight s.eq.was g
  let gen := eqGen s g
  let m := (gen.count + quanta) / wgt
  let due (i : Nat) : Nat := ((tc + (i : Rat) * len / (m : Rat)) * (rate s : Rat)).ceil.toNat
  modGen g (fun x => { x with count := (gen.count + quanta) % wgt, dues := x.dues ++ (List.range m).map due }) s

/-- Quanta carried into a register of a point. -/
def carried (p r quanta : Nat) (tc len : Rat) (s : State) : State :=
  if quanta = 0 then s
  else forAll (where_ 16 fun g => pgEn s.eq.was g && pgPoint s.eq.was g == p && pgReg s.eq.was g == r)
    (fun g s => pulsesDue g quanta tc len s) s

/-! ### Latches (R244 to R246) -/

/-- Registers with their wrap counts, as snapshot words. -/
def regWord (k : PointKept) (i : Nat) : Word :=
  let r (n : Nat) : EnergyReg := vget State.ereg0 k.regs n
  let wr (n lo : Nat) : Word := at_ (r n).wraps.toNat lo
  if i < 2 then 0
  else if i < 16 then w ((r ((i - 2) / 2)).value.toNat / 2 ^ (32 * (i % 2)))
  else if i = 16 then wr 0 0 ||| wr 1 8 ||| wr 2 16 ||| wr 3 24
  else if i = 17 then wr 4 0 ||| wr 5 8 ||| wr 6 16
  else 0

/-- Words 20 to 48: interval values. -/
def intervalWord (pt : Point) (i : Nat) : Word :=
  let a (n : Nat) : PhaseAvg := vget State.pavg0 pt.interval n
  let mean (x : Rat) : Rat := x / (pt.weight : Rat)
  let tot (f : PhaseAvg → Rat) : Rat := mean (sumPh 3 fun n => f (a n))
  let f32 := f32OfRat
  let sel (base : Nat) (f : PhaseAvg → Rat) : Word := f32 (mean (f (a (i - base))))
  let ns := (pt.cycleEnd * 1000000000).floor.toNat
  if 20 ≤ i ∧ i < 23 then sel 20 (·.u) else if 24 ≤ i ∧ i < 27 then sel 24 (·.i)
  else if 28 ≤ i ∧ i < 31 then sel 28 (·.p) else if 32 ≤ i ∧ i < 35 then sel 32 (·.q)
  else if 36 ≤ i ∧ i < 39 then sel 36 (·.s)
  else match i with
    | 40 => f32 (tot (·.p)) | 41 => f32 (tot (·.q)) | 42 => f32 (tot (·.s))
    | 43 => if tot (·.s) = 0 then 0 else f32 (tot (·.p) / tot (·.s))
    | 44 => f32 pt.freq
    | 45 => w pt.cycles
    | 46 => w (ns % 1000000000) | 47 => w (ns / 1000000000) | 48 => w (ns / 1000000000 / 2 ^ 32 % 2 ^ 16)
    | _ => 0

/-- Words 50 to 57: values of the last completed cycle. -/
def liveWord (pt : Point) (i : Nat) : Word :=
  let a (n : Nat) : PhaseAvg := vget State.pavg0 pt.lastCycle n
  let f32 := f32OfRat
  match i with
  | 50 => f32 pt.freq
  | 51 => f32 (a 0).u | 52 => f32 (a 1).u | 53 => f32 (a 2).u
  | 54 => f32 (a 0).i | 55 => f32 (a 1).i | 56 => f32 (a 2).i
  | 57 => f32 (sumPh 3 fun n => (a n).p)
  | _ => 0

/-- STATUS of a point: EN, the flags of the interval, GAP and the wrap flags. -/
def statusWord (en : Bool) (pt : Point) : Word :=
  let k := pt.kept
  bitWord en ||| (bitWord k.degraded <<< 2) ||| (bitWord pt.freerun <<< 3) ||| (bitWord k.overCeil <<< 4)
  ||| (bitWord k.zeroed <<< 5) ||| (bitWord k.test <<< 6) ||| (bitWord k.gap <<< 7)
  ||| (bitsWord 7 (fun r => (vget State.ereg0 k.regs r).wrapFlag) <<< 8)

/-- The 64 words of a snapshot (R245). -/
def snapWords (en : Bool) (pt : Point) : List Word :=
  (List.range 64).map fun i =>
    if i = 0 then statusWord en pt else if i = 1 then pt.kept.seq else if i < 18 then regWord pt.kept i
    else if i < 50 then intervalWord pt i else if i < 58 then liveWord pt i
    else if i = 58 then w pt.kept.gapBound.toNat else if i = 59 then w (pt.kept.gapBound.toNat / 2 ^ 32) else 0

/-- A snapshot goes into the buffer that is not visible (R246). -/
def pushSnap (hold : Bool) (ws : List Word) (pt : Point) : Point :=
  let pt := if pt.showB then { pt with snapA := ws } else { pt with snapB := ws }
  if hold then { pt with newer := true } else { pt with showB := !pt.showB, newer := false }

/-- The visible snapshot, and the latest. -/
def visibleSnap (pt : Point) : List Word := if pt.showB then pt.snapB else pt.snapA
def latestSnap (pt : Point) : List Word := if pt.showB != pt.newer then pt.snapB else pt.snapA

/-- The end of an N-th line cycle since the last latch closes the interval: its snapshot is taken, and the next interval
begins (R242, R244). -/
def closeInterval (en : Bool) (n : Nat) (pt : Point) : Point :=
  if pt.cycles < n then pt
  else { pt with
    latched := some (snapWords en { pt with kept := { pt.kept with seq := pt.kept.seq + 1 } })
    kept := { pt.kept with degraded := false, overCeil := false, zeroed := false, test := false }
    cycles := 0, weight := 0, interval := Vector.replicate 3 State.pavg0 }

/-- The snapshot of a closed interval becomes the point's latest. -/
def latchPoint (p : Nat) (s : State) : State :=
  match (eqPoint s p).latched with
  | none => s
  | some ws =>
    let hold := s.eq.hold
    let s := assertEvw 39 (eqEvt 0 (modPoint p (fun pt => pushSnap hold ws
      { pt with kept := { pt.kept with seq := pt.kept.seq + 1 }, newFlag := true, latched := none }) s))
    if hold then modEq (fun e => { e with snapOvr := e.snapOvr + 1 }) s else s

/-- N line cycles have ended since the last latch. -/
def latchDue (s : State) (p : Nat) : Bool := (eqPoint s p).latched.isSome

/-- LATCH. -/
def execLatch (p : Fin 96) (s : State) : Host.Outcome State Fault Refusal :=
  act (fun s => whenever (s.eq.run && latchDue s p.val) (latchPoint p.val) s) s

/-! ### Cycle ends (R239, R240) -/

/-- The operating point of each channel whose cycle this point sets, from the RMS of the cycle (R237). -/
def setOperating (p : Nat) (vals : Vector PhaseAvg 3) (s : State) : State :=
  forAll (List.range (ptPhases s.eq.was p)) (fun ph s =>
    let v := vget State.pavg0 vals ph
    let one (c : Nat) (rms : Rat) (s : State) : State :=
      if chanOwner s c = some p then
        setCorrection c (modChan c (fun ch => { ch with
          x := eqPercent rms (chNominal s.eq.act c) }) s)
      else s
    one (ptI s.eq.was p ph) v.i (one (ptU s.eq.was p ph) v.u s)) s

/-- A save falls due at the first cycle end after its interval, and its copy is taken then (R254); cycle ends and latches of
the same frame are in it (R257). -/
def saveJudge (s : State) : State :=
  let per := max 1 (min 3600 (field (reg 0x80008 s) 0 12)) * 1000
  let s := if s.eq.saveDue.isNone ∧ s.eq.saveFrom + per ≤ opMs s then
      modEq (fun e => { e with saveDue := some (opMs s), saveFrom := opMs s, saveFrame := s.frm.k }) s
    else s
  if s.eq.saveDue.isSome ∧ s.eq.saveFrame = s.frm.k then modEq (fun e => { e with saveCopy := some (saveOf s 0) }) s else s

/-- A cycle of a point with the given sums ends at `tc`; the frequency shown is given. -/
def endCycle (p : Nat) (tc freq : Rat) (c : CycSum) (s : State) : State :=
  let s := latchPoint p s
  let m := s.eq.was
  let nph := ptPhases m p
  let ts : Rat := 1 / (rate s : Rat)
  let vals : Vector PhaseAvg 3 := vmap c.phases fun i x => if i < nph then phaseValues c x else State.pavg0
  let ph (i : Nat) : PhaseSum := vget State.psum0 c.phases i
  let v (i : Nat) : PhaseAvg := vget State.pavg0 vals i
  let eP := ts * sumPh nph fun i => (ph i).p
  let eQ := ts * sumPh nph fun i => (ph i).q
  let sTot := sumPh nph fun i => (v i).s
  let len := tc - (eqPoint s p).cycleEnd
  let s := (takers eP eQ (sTot * (c.samples : Rat) * ts)).foldl (fun s x =>
    let t := regTake (quanta32 (ptQexp m p) x.2) (vget State.ereg0 (eqPoint s p).kept.regs x.1)
    carried p x.1 t.2 tc len
      (modPoint p (fun pt => { pt with kept := { pt.kept with regs := vset pt.kept.regs x.1 t.1 } }) s)) s
  let n : Rat := (c.samples : Rat)
  let acc (a b : PhaseAvg) : PhaseAvg := ⟨a.u + b.u * n, a.i + b.i * n, a.p + b.p * n, a.q + b.q * n, a.s + b.s * n⟩
  let s := modPoint p (fun pt => { pt with
    kept := { pt.kept with
      degraded := pt.kept.degraded || c.degraded, zeroed := pt.kept.zeroed || c.zeroed, test := pt.kept.test || c.test
      overCeil := pt.kept.overCeil || decide (ptSceil m p < sTot) }
    freq := freq, cycleEnd := tc, lastCycle := vals
    cycles := pt.cycles + 1, weight := pt.weight + c.samples
    interval := vmap pt.interval fun i a => acc a (v i) }) s
  let s := modPoint p (closeInterval (ptEn m p) (ptN m p)) s
  saveJudge (setOperating p vals s)

/-- A cycle ends in FREERUN, a nominal period after the last cycle end. -/
def freeEnd (p : Nat) (s : State) : State :=
  let pt := eqPoint s p
  modPoint p (fun pt => { pt with cur := pt.late, late := State.csum0 })
    (endCycle p (pt.cycleEnd + eqPeriod s) 0 pt.cur s)

/-- The point enters FREERUN: its frequency reads 0. -/
def enterFree (p : Nat) (s : State) : State := modPoint p (fun pt => { pt with freerun := true, freq := 0 }) s

/-- A counted crossing ends the running cycle. -/
def crossEnd (p : Nat) (tc : Rat) (s : State) : State :=
  let s := if !(eqPoint s p).freerun ∧ (eqPoint s p).cycleEnd + 3 / 2 * eqPeriod s < tc then enterFree p s else s
  let s := if (eqPoint s p).freerun ∧ (eqPoint s p).cycleEnd + eqPeriod s < tc then freeEnd p s else s
  let pt := eqPoint s p
  let f := 1 / (tc - pt.cycleEnd)
  let out := decide (f < 42 ∨ 68 < f)
  modPoint p (fun q => { q with
      freerun := !pt.freerun && out, armed := false, cur := State.csum0, late := State.csum0 })
    (endCycle p tc (if pt.freerun || out then 0 else f) (addSum pt.cur pt.late) s)

/-- Crossings of the reference voltage up to count n. -/
def pointCross (p n : Nat) (s : State) : State :=
  let pt := eqPoint s p
  let u := corrected s (ptU s.eq.act p 0) n 0
  if pt.prevU < 0 ∧ 0 ≤ u ∧ pt.armed then crossEnd p (crossTime s n pt.prevU u) s
  else if !pt.freerun ∧ pt.cycleEnd + 3 / 2 * eqPeriod s ≤ instant s n then enterFree p s
  else s

/-- Products of a phase at a sample. -/
def products (s : State) (p ph n : Nat) : Rat × Rat :=
  let u := corrected s (ptU s.eq.act p ph) n 0
  let i := corrected s (ptI s.eq.act p ph) n 0
  let v := corrected s (ptU s.eq.act p ph) n ((rate s : Rat) / (4 * ptFreq s p))
  (u * i, v * i)

/-- The sums and flags of one sample of a point (R240, R242), with its last good products. -/
def pointSample (p n : Nat) (s : State) : State :=
  let m := s.eq.act
  let nph := ptPhases m p
  let pt := eqPoint s p
  let bad := (ptChans m p).any fun c => chanBad s c n
  let test := (ptChans m p).any fun c => decide (c < 192) && (chanQuality s c n).getLsbD 18
  let bridged := bad && decide (pt.badRun < eqBridge s)
  let last := if bad then pt.lastGood else Vector.ofFn fun i => if i.val < nph then products s p i.val n else (0, 0)
  let prod : Vector (Rat × Rat) 3 := if bad && !bridged then Vector.replicate 3 (0, 0) else last
  let sq (c : Nat) : Rat := if bad then 0 else let x := corrected s c n 0; x * x
  let one : CycSum := ⟨Vector.ofFn fun i => if i.val < nph then
      ⟨(vget (0, 0) prod i.val).1, (vget (0, 0) prod i.val).2, sq (ptU m p i.val), sq (ptI m p i.val)⟩
    else State.psum0, 1, (!bad).toNat, bridged, bad && !bridged, test⟩
  let u := corrected s (ptU m p 0) n 0
  let isLate := decide (pt.cycleEnd + eqPeriod s ≤ instant s n)
  let dead := belowDead (chNominal m (ptU m p 0)) u
  modPoint p (fun pt => { pt with
    prevU := u, armed := pt.armed || dead
    cur := if isLate then pt.cur else addSum pt.cur one
    late := if isLate then addSum pt.late one else pt.late
    lastGood := last, badRun := if bad then pt.badRun + 1 else 0 }) s

/-- Enabled points. -/
def enabledPoints (s : State) : List Nat := where_ 96 (ptEn s.eq.act)

/-- The sample of count n, for every enabled point: crossings first, then the sums. -/
def meterSample (n : Nat) (s : State) : State :=
  let s := forAll (enabledPoints s) (fun p s => pointCross p n s) s
  forAll (enabledPoints s) (fun p s => pointSample p n s) s

end Sys2Proof.Machine
end

