-- ==== Sys2Proof/Machine/EqRows.lean ====
section
/-! DEFINITION. Power quality (R248 to R250), pulse outputs (R252, R253), saves (R254), the engine's commands, commits
and what it gives at a tick (R243, R244, R257). -/
namespace Sys2Proof.Machine

/-! ### Power quality -/

/-- Thresholds of a channel: SAG, SWELL, INT, HYST, as they are for the last sample of the half cycle that ends (R257). -/
def pqSag (s : State) (c : Nat) : Nat := field (eqWord s.eq.was kCHAN c 26) 0 16
def pqSwell (s : State) (c : Nat) : Nat := field (eqWord s.eq.was kCHAN c 26) 16 16
def pqInt (s : State) (c : Nat) : Nat := field (eqWord s.eq.was kCHAN c 27) 0 16
def pqHyst (s : State) (c : Nat) : Nat := field (eqWord s.eq.was kCHAN c 27) 16 16

/-- An event starts with half cycle `r` at `t`. -/
def pqStart (c : Nat) (ty : PqState) (r : Nat) (t : Rat) (s : State) : State :=
  assertEvw 40 (modChan c (fun ch => { ch with
    pq := ty, start := t, extreme := r, halves := 1, events := min 65535 (ch.events + 1) }) s)

/-- A half cycle judged in NORMAL. -/
def pqNormal (c r : Nat) (t : Rat) (s : State) : State :=
  if r < pqSag s c then pqStart c (if r < pqInt s c then .interruption else .sag) r t s
  else if pqSwell s c < r then pqStart c .swell r t s
  else s

/-- The running event ends at `t`; the half cycle is judged again. -/
def pqFinish (c r : Nat) (t : Rat) (s : State) : State :=
  pqNormal c r t (assertEvw 40 (modChan c (fun ch => { ch with pq := .normal, extreme := 0, halves := 0 })
    (pqEnd c (eqChan s c) t false s)))

/-- A half cycle of RMS `r`, started at `t`, judged (R249). -/
def pqJudge (c r : Nat) (t : Rat) (s : State) : State :=
  let ch := eqChan s c
  match ch.pq with
  | .normal => pqNormal c r t s
  | .swell =>
    if r + pqHyst s c ≤ pqSwell s c then pqFinish c r t s
    else modChan c (fun ch => { ch with extreme := max ch.extreme r, halves := ch.halves + 1 }) s
  | _ =>
    let s := if r < pqInt s c then modChan c (fun ch => { ch with pq := .interruption }) s else s
    if pqSag s c + pqHyst s c ≤ r then pqFinish c r t s
    else modChan c (fun ch => { ch with extreme := min ch.extreme r, halves := ch.halves + 1 }) s

/-- A half cycle ends at `t` (R248). -/
def halfEnd (c : Nat) (t sq : Rat) (n : Nat) (s : State) : State :=
  let rms := rmsOf sq n
  let r := if n = 0 then 0 else eqPercent rms (chNominal s.eq.was c)
  let s := pqJudge c r (eqChan s c).halfStart s
  modChan c (fun ch => { ch with rms := rms, rms01 := r, halfStart := t }) s

/-- Half a nominal period. -/
def halfPeriod (s : State) : Rat := eqPeriod s / 2

/-- Half cycles that end by time while no crossing comes, up to `t`. -/
def freeHalves (c : Nat) (t : Rat) : Nat → State → State
  | 0, s => s
  | n + 1, s =>
    let ch := eqChan s c
    if ch.halfFree ∧ ch.halfStart + halfPeriod s ≤ t then
      freeHalves c t n (modChan c (fun ch => { ch with halfSq := ch.lateSq, halfN := ch.lateN, lateSq := 0, lateN := 0 })
        (halfEnd c (ch.halfStart + halfPeriod s) ch.halfSq ch.halfN s))
    else s

/-- No crossing within 0.75 nominal periods before `t`. -/
def judgeFree (c : Nat) (t : Rat) (s : State) : State :=
  freeHalves c t 4 (if (eqChan s c).halfStart + 3 / 4 * eqPeriod s ≤ t then
    modChan c (fun ch => { ch with halfFree := true }) s else s)

/-- The sample of count n of a judged channel. -/
def pqSample (c n : Nat) (s : State) : State :=
  let u := corrected s c n 0
  let ch := eqChan s c
  let nom := chNominal s.eq.act c
  let crosses := decide (ch.prev < 0 ∧ 0 ≤ u) && ch.armedLo || decide (0 < ch.prev ∧ u ≤ 0) && ch.armedHi
  let s := if crosses then
      let t := crossTime s n ch.prev u
      let s := judgeFree c t s
      let ch := eqChan s c
      modChan c (fun ch => { ch with
          halfSq := 0, halfN := 0, lateSq := 0, lateN := 0, halfFree := false, armedLo := false, armedHi := false })
        (halfEnd c t (ch.halfSq + ch.lateSq) (ch.halfN + ch.lateN) s)
    else judgeFree c (instant s n) s
  let good := !chanBad s c n
  let late := decide ((eqChan s c).halfStart + halfPeriod s ≤ instant s n)
  modChan c (fun ch => { ch with
    prev := u, armedLo := ch.armedLo || belowDead nom u, armedHi := ch.armedHi || belowDead nom (-u)
    halfSq := if good && !late then ch.halfSq + u * u else ch.halfSq
    halfN := if good && !late then ch.halfN + 1 else ch.halfN
    lateSq := if good && late then ch.lateSq + u * u else ch.lateSq
    lateN := if good && late then ch.lateN + 1 else ch.lateN }) s

/-! ### Pulses (R252) -/

/-- A pulse that has become due joins the backlog, or is lost at 65,535. -/
def pulseJoin (g due : Nat) (s : State) : State :=
  if (eqGen s g).backlog.length < 65535 then modGen g (fun x => { x with backlog := x.backlog ++ [due] }) s
  else
    assertEvw 41 (note 0x6030 srcEQ (w g) (w (pgPoint s.eq.act g)) (w (pgReg s.eq.act g))
      (eqEvt 3 (modGen g (fun x => { x with ovf := true }) s)))

/-- Pulses due by tick `k` join their backlogs. -/
def pulsesJoin (k : Nat) (s : State) : State :=
  forAll (List.range 16) (fun g s =>
    let d := (eqGen s g).dues
    (d.filter (· ≤ k)).foldl (fun s x => pulseJoin g x s) (modGen g (fun x => { x with dues := d.filter (k < ·) }) s)) s

/-- The width in ticks of a pulse due at `due` after one due at `prev`. -/
def pulseWidth (s : State) (g due : Nat) (prev : Option Nat) : Nat :=
  let wd := msTicks s (pgWidthMs s.eq.act g)
  match prev with
  | none => wd
  | some p => if 2 * wd ≤ due - p then wd else max ((due - p) / 2) (msTicks s 2)

/-- A waiting pulse may start at the next tick: the output has been off for 2 ms. -/
def pulseReady (s : State) (g : Nat) : Bool :=
  let x := eqGen s g
  pgEn s.eq.act g && !x.on && !x.backlog.isEmpty && (match x.offAt with
    | some o => decide (o + msTicks s 2 ≤ s.frm.k + 1)
    | none => true)

/-- A pulse starts at tick k + 1. -/
def pulseStart (g : Nat) (s : State) : State :=
  match (eqGen s g).backlog with
  | [] => s
  | d :: t => modGen g (fun x => { x with
      backlog := t, on := true, onAt := s.frm.k + 1, width := pulseWidth s g d x.prevDue
      prevDue := some d, emitted := x.emitted + 1 }) s

/-- PULSE_START: decided in frame k for tick k + 1 (R253). -/
def execPulseStart (g : Fin 16) (s : State) : Host.Outcome State Fault Refusal :=
  act (fun s => whenever (s.eq.run && pulseReady s g.val) (pulseStart g.val) s) s

/-- PULSE_END: the width runs out at tick k + 1. -/
def execPulseEnd (g : Fin 16) (s : State) : Host.Outcome State Fault Refusal :=
  act (fun s => let x := eqGen s g.val
    whenever (s.eq.run && x.on && decide (x.onAt + x.width ≤ s.frm.k + 1))
      (modGen g.val fun x => { x with on := false, offAt := some (s.frm.k + 1) }) s) s

/-! ### The sample of a frame (R243) -/

/-- EQ_SAMPLE: once in a frame, within its compute window. -/
def eqSample (s : State) : State :=
  let n := s.frm.k - horizon s
  let s := meterSample n s
  let s := forAll (where_ 192 (chPq s.eq.act)) (fun c s => pqSample c n s) s
  modEq (fun e => { e with doneFrame := some s.frm.k }) (pulsesJoin (s.frm.k + 1) s)

/-- EQ_SAMPLE. -/
def execEqSample (s : State) : Host.Outcome State Fault Refusal :=
  act (fun s => whenever (s.eq.run && s.frm.windowOpen && s.eq.doneFrame != some s.frm.k) eqSample s) s

/-- FREERUN_CYCLE_END: of a point in FREERUN whose nominal period ends at or before the last processed sample; the pulses
that it makes due join their backlogs. -/
def execFreerunCycleEnd (p : Fin 96) (s : State) : Host.Outcome State Fault Refusal :=
  act (fun s => whenever (s.eq.run && ptEn s.eq.act p.val && (eqPoint s p.val).freerun && s.eq.doneFrame == some s.frm.k
    && decide ((eqPoint s p.val).cycleEnd + eqPeriod s ≤ instant s (s.frm.k - horizon s))) 
      (fun s => pulsesJoin (s.frm.k + 1) (freeEnd p.val s)) s) s

/-! ### Saves (R254) -/

/-- RID of the energy save, which belongs to the firmware. -/
def energyRid : Nat := recRid 0

/-- Places of the energy save: four ring slots and EFLUSH. -/
def savePlace (i : Nat) : Nat := if i < 4 then nvENERGY + i * 0x3000 else nvEFLUSH

/-- Payload of a save. -/
def energyPayload (seq : Word) : List Byte :=
  (List.range (4 * (1 + Config.energyLen % 3067))).map (Config.energyByte seq.toNat)

/-- Write a copy of the saved state to a place, under its SEQ. -/
def putSave (i : Nat) (copy : EqSave) (seq : Word) (s : State) : State :=
  nvPut (savePlace i) (copyBytes energyRid 0 seq (energyPayload seq))
    { s with persist := { s.persist with saves := vset s.persist.saves i (some { copy with seq := seq }) } }

/-- The current slot of the ring. -/
def curSave (s : State) : Option Nat := newestCopy s 0x3000 energyRid ((List.range 4).map savePlace)

/-- The slot that a save goes to (R317), and its SEQ. -/
def nextSave (s : State) : Nat × Word :=
  match curSave s with
  | some i => ((i + 1) % 4, copySeq s (savePlace i) + 1)
  | none => (0, 1)

/-- A due save completes, or could not complete within SAVE_S. -/
def energySave (s : State) : State :=
  match s.eq.saveDue with
  | none => s
  | some t =>
    let per := max 1 (min 3600 (field (reg 0x80008 s) 0 12)) * 1000
    let n := nextSave s
    let copy := s.eq.saveCopy.getD (saveOf s 0)
    let s := modEq (fun e => { e with saveDue := none, saveCopy := none }) s
    if t + per < opMs s then
      note 0x6040 srcEQ (w n.1) n.2 (w (opMs s - t)) (eqEvt 4 s)
    else modEq (fun e => { e with saveSeq := n.2 }) (putSave n.1 copy n.2 s)

/-- ENERGY_SAVE. -/
def execEnergySave (s : State) : Host.Outcome State Fault Refusal := act (fun s => whenever s.eq.run energySave s) s

/-! ### Commands of the host -/

/-- HOLD ends: the newer buffer becomes visible. -/
def holdOff (s : State) : State :=
  modEq (fun e => { e with
    hold := false
    points := e.points.map fun pt => if pt.newer then { pt with showB := !pt.showB, newer := false } else pt }) s

/-- A write of EQ_SNAP_CTL.HOLD (R246). -/
def snapHoldOp (hold : Bool) : RegOp := always fun s =>
  if hold ∧ !s.eq.hold then modEq (fun e => { e with hold := true, holdCyc := s.clk.cyc, snapOvr := 0 }) s
  else if !hold ∧ s.eq.hold then holdOff s else s

/-- SNAP_HOLD. -/
def execSnapHold (sid : Fin 4) (hold : Bool) (s : State) : Host.Outcome State Fault Refusal :=
  act (hostDo sid.val roleOPERATOR (snapHoldOp hold)) s

/-- HOLD_EXPIRY. -/
def execHoldExpiry (s : State) : Host.Outcome State Fault Refusal :=
  act (fun s => whenever (s.eq.hold && decide (s.eq.holdCyc + 10 * cycSec ≤ s.clk.cyc)) holdOff s) s

/-- EQ_CMD: point, register and command bits are checked in that order. -/
def eqCmdGate (p : BitVec 7) (reg : BitVec 3) (op : RegOp) : RegOp := fun s =>
  if 96 ≤ p.toNat then (.badSpace, s) else if reg = 7 then (.badOp, s) else op s

/-- EQ_CMD.CLEAR (R236, R258). -/
def pointClearOp (p : Nat) : RegOp := fun s =>
  if ptEn s.eq.act p then (.denied, s)
  else (.ok, note 0x6012 srcEQ (w p) (eqPoint s p).kept.seq (kLow s)
    (modPoint p (fun pt => { pt with kept := State.kept0 }) s))

/-- POINT_CLEAR. -/
def execPointClear (sid : Fin 4) (p : BitVec 7) (s : State) : Host.Outcome State Fault Refusal :=
  act (hostDo sid.val roleENGINEER (eqCmdGate p 0 (pointClearOp p.toNat))) s

/-- EQ_CMD.WRAP_CLR (R247). -/
def wrapClrOp (p : Nat) : RegOp := always fun s =>
  modPoint p (fun pt => { pt with kept := { pt.kept with
    regs := pt.kept.regs.map fun r => { r with wrapFlag := false } } }) s

/-- WRAP_CLR. -/
def execWrapClr (sid : Fin 4) (p : BitVec 7) (s : State) : Host.Outcome State Fault Refusal :=
  act (hostDo sid.val roleOPERATOR (eqCmdGate p 0 (wrapClrOp p.toNat))) s

/-- EQ_CMD.PRESET: from EQ_PRESET at the next tick. -/
def presetOp (p reg : Nat) : RegOp := fun s =>
  if 2 ≤ lifecycle s then (.denied, s)
  else (.ok, modEq (fun e => { e with
    presets := e.presets ++ [(p, reg, BitVec.ofNat 64 ((Machine.reg 0x80014 s).toNat + (Machine.reg 0x80018 s).toNat * 2 ^ 32))] }) s)

/-- PRESET. -/
def execPreset (sid : Fin 4) (p : BitVec 7) (reg : BitVec 3) (s : State) : Host.Outcome State Fault Refusal :=
  act (hostDo sid.val roleENGINEER (eqCmdGate p reg (presetOp p.toNat reg.toNat))) s

/-- EQ_PQ_CMD.POP (R250). -/
def pqPopOp : RegOp := always fun s => modEq (fun e => { e with queue := e.queue.drop 1 }) s

/-- PQ_POP. -/
def execPqPop (sid : Fin 4) (s : State) : Host.Outcome State Fault Refusal := act (hostDo sid.val roleOPERATOR pqPopOp) s

/-! ### At a tick -/

/-- Image words of a point (R245): the latest snapshot, with EN, NEW, GAP and the live values as they stand. ZEROED, a LOCAL
doubt, also shows while the interval that runs has it (R10, log 64). -/
def pointImage (s : State) (p : Nat) : List (Nat × Word) :=
  let pt := eqPoint s p
  (List.range 64).map fun i =>
    let x := (latestSnap pt).getD i 0
    (0x5000 + 64 * p + i,
      if i = 0 then (x &&& ~~~0x83#32) ||| bitWord (ptEn s.eq.act p) ||| (bitWord pt.newFlag <<< 1)
        ||| (bitWord pt.kept.gap <<< 7) ||| (bitWord (pt.kept.zeroed || pt.cur.zeroed || pt.late.zeroed) <<< 5)
      else if 50 ≤ i ∧ i < 58 then liveWord pt i
      else if i = 58 then w pt.kept.gapBound.toNat else if i = 59 then w (pt.kept.gapBound.toNat / 2 ^ 32) else x)

/-- Image words of a channel. -/
def chanImage (s : State) (c : Nat) : List (Nat × Word) :=
  let ch := eqChan s c
  let st : Word := w (pqType ch.pq) ||| at_ ch.events 16
  let rms := f32OfRat ch.rms
  [st, rms, w ch.rms01, if ch.pq = .normal then 0 else w ch.extreme, w ch.halves, BitVec.ofInt 32 ch.gain,
    BitVec.ofInt 32 ch.phase, w ch.x].zipIdx.map fun x => (0x6800 + 8 * c + x.2, x.1)

/-- Image words of a generator. -/
def genImage (s : State) (g : Nat) : List (Nat × Word) :=
  let x := eqGen s g
  let b := 0x6E00 + 4 * g
  [(b, bitWord x.on ||| (bitWord x.ovf <<< 1)), (b + 1, w x.backlog.length), (b + 2, x.emitted)]

/-- All metering words. -/
def eqImage (s : State) : List (Nat × Word) :=
  (List.range 96).flatMap (pointImage s) ++ (List.range 192).flatMap (chanImage s) ++ (List.range 16).flatMap (genImage s)

/-- A PRESET takes effect. -/
def presetNow (s : State) (x : Nat × Nat × BitVec 64) : State :=
  modPoint x.1 (fun pt => { pt with kept := { pt.kept with
    regs := vmod pt.kept.regs x.2.1 fun r => { r with value := x.2.2 } } }) s

/-- At a tick, before commits: the latches of the frame that ends, its words, and the waiting PRESETs in order. -/
def eqTick (s : State) : State :=
  let s := forAll (where_ 96 (latchDue s)) latchPoint s
  let ws := (eqImage s).filter fun x => x.2 != 0
  let s := modEq (fun e => { e with
    words := ws, was := e.act, points := e.points.map fun pt => { pt with newFlag := false } }) s
  s.eq.presets.foldl presetNow (modEq (fun e => { e with presets := [] }) s)

/-- A point starts to meter with the sample of count `n`. -/
def pointStart (p n : Nat) (s : State) : State :=
  modPoint p (fun pt => { State.point0 with
    kept := pt.kept, newFlag := pt.newFlag, snapA := pt.snapA, snapB := pt.snapB, showB := pt.showB, newer := pt.newer
    latched := pt.latched
    cycleEnd := instant s n }) s

/-- A channel starts to be judged with the sample of count `n`. -/
def pqBegin (c n : Nat) (s : State) : State :=
  modChan c (fun ch => { ch with
    prev := 0, armedLo := false, armedHi := false, halfFree := false, halfStart := instant s n
    halfSq := 0, halfN := 0, lateSq := 0, lateN := 0 }) s

/-- A channel stops being judged: its running event is queued with TRUNC. -/
def pqDrop (c : Nat) (s : State) : State :=
  if (eqChan s c).pq = .normal then s
  else assertEvw 40 (modChan c (fun ch => { ch with pq := .normal, extreme := 0, halves := 0 })
    (pqEnd c (eqChan s c) (eqChan s c).halfStart true s))

/-- The EQ group applies at T_f (R47, R253, R257). -/
def eqCommit (f : Nat) (s : State) : State :=
  let old := s.eq.act
  let n := f - horizon s
  let s := modEq (fun e => { e with act := e.stg }) s
  let new := s.eq.act
  let s := forAll (where_ 96 fun p => ptEn old p != ptEn new p) (fun p s => pointStart p n s) s
  let s := forAll (where_ 192 fun c => (List.range 18).any fun i => eqWord old kCHAN c (8 + i) != eqWord new kCHAN c (8 + i)
    || eqWord old kCHAN c (i % 10) != eqWord new kCHAN c (i % 10)) setCorrection s
  let s := forAll (where_ 192 fun c => chPq new c && !chPq old c) (fun c s => pqBegin c n s) s
  let s := forAll (where_ 192 fun c => chPq old c && !chPq new c) pqDrop s
  let s := forAll (where_ 16 fun g => pgPoint old g != pgPoint new g || pgReg old g != pgReg new g)
    (fun g s => modGen g (fun x => { x with count := 0, dues := [], backlog := [] }) s) s
  forAll (where_ 16 fun g => pgEn new g && !pgEn old g) (fun g s => modGen g (fun x => { x with prevDue := none }) s) s

/-- The engine starts with the first frame `k`. -/
def eqBegin (k : Nat) (s : State) : State :=
  let n := k - horizon s
  let s := modEq (fun e => { e with run := true, doneFrame := none, saveFrom := opMs s, saveDue := none, was := e.act }) s
  let s := forAll (enabledPoints s) (fun p s => pointStart p n s) s
  let s := forAll (List.range 192) setCorrection s
  forAll (where_ 192 (chPq s.eq.act)) (fun c s => pqBegin c n s) s

end Sys2Proof.Machine
end

