-- ==== Sys2Proof/Machine/CanRows.lean ====
section
/-! DEFINITION. The CAN FD controllers (R271 to R288). -/
namespace Sys2Proof.Machine

/-- A controller, and one changed. -/
def canCtl (s : State) (n : Nat) : CanCtl := vget State.can0 s.can.ctl n
def modCan (n : Nat) (f : CanCtl → CanCtl) (s : State) : State := { s with can := ⟨vmod s.can.ctl n f⟩ }

/-- A buffer, and one changed. -/
def txBuf (c : CanCtl) (b : Nat) : TxBuf := vget State.txbuf0 c.bufs b
def modBuf (n b : Nat) (f : TxBuf → TxBuf) (s : State) : State := modCan n (fun c => { c with bufs := vmod c.bufs b f }) s

/-- CFG bits read at reset. -/
def canListen (c : CanCtl) : Bool := c.cfg.getLsbD 1
def canByNumber (c : CanCtl) : Bool := c.cfg.getLsbD 2
def canAutoRec (c : CanCtl) : Bool := c.cfg.getLsbD 3
def canTdco (c : CanCtl) : Nat := field c.cfg 16 7
def canTdc (c : CanCtl) : Bool := c.dbt.getLsbD 28

/-- The CAN clock of 80 MHz: 5 lane cycles (R272). -/
def canClock (s : State) : Nat := s.clk.cyc / 5

/-- Host address of a register of CAN_n. -/
def canReg (n off : Nat) : Nat := 0xA0000 + 0x4000 * n + off

/-- Time-master settings in force (CAN_n_TM_*): mode, identifier word with IDE, cycle and phase in µs. -/
def tmMode (s : State) (n : Nat) : Nat := field (regAct (canReg n 0x44) s) 0 2
def tmId (s : State) (n : Nat) : Word :=
  (regAct (canReg n 0x48) s &&& 0x1FFFFFFF) ||| (bitWord ((regAct (canReg n 0x44) s).getLsbD 2) <<< 29)
def tmCyc (s : State) (n : Nat) : Nat := min 1000000 (max 250 (field (regAct (canReg n 0x4C) s) 0 20))
def tmPhase (s : State) (n : Nat) : Nat := field (regAct (canReg n 0x50) s) 0 20 % tmCyc s n

/-- Count an event of CAN_n_CNT_k; set a bit of CAN_n_EVT. -/
def canCount (n k : Nat) (s : State) : State := modCan n (fun c => { c with cnt := vmod c.cnt k (· + 1) }) s
def canEvt (n b : Nat) (s : State) : State := modCan n (fun c => { c with evt := setBit c.evt b }) s

/-- SOURCE code of CAN_n. -/
def srcCAN (n : Nat) : BitVec 8 := BitVec.ofNat 8 (0x19 + n)

/-- Codes of R274. -/
def CanState.code : CanState → Nat
  | .off => 0 | .integrating => 1 | .active => 2 | .passive => 3 | .busOff => 4 | .recovering => 5

/-- A controller changes state (R39). -/
def canGoto (n : Nat) (st : CanState) (s : State) : State :=
  if (canCtl s n).state = st then s else assertEvw (30 + n) (modCan n (fun c => { c with state := st }) s)

/-- The entry of a state change: controller, TEC and REC (R275). -/
def canNote (n : Nat) (code : BitVec 16) (sev : Severity) (s : State) : State :=
  let c := canCtl s n
  raiseEntry ⟨code, srcCAN n, sev, false, w n, w c.tec, w c.recv, s.clk.cyc⟩ s

/-- A reference message is dropped (R284). -/
def refDrop (n : Nat) (s : State) : State :=
  noteU 0x8020 (srcCAN n) (canEvt n 3 (canCount n 7 (modCan n (fun c => { c with refDue := none }) s)))

/-- A request becomes the buffer's frame (R277): PENDING, or REFUSED. -/
def badRequest (f : CanFrame) : Bool :=
  let fdf := f.idw.getLsbD 30
  f.idw.getLsbD 31 || (decide (8 < field f.ctl 0 4) && !fdf) || (f.ctl.getLsbD 4 && !fdf)
  || (!f.idw.getLsbD 29 && decide (2 ^ 11 ≤ field f.idw 0 29))

/-- Take a request into a buffer; `replaced` when its frame was PENDING. -/
def takeRequest (n b : Nat) (seq : BitVec 8) (f : CanFrame) (replaced : Bool) (s : State) : State :=
  if badRequest f then
    noteU 0x8030 (srcCAN n) (modBuf n b (fun x => { x with state := .refused, late := false, seq := seq, frame := f }) s)
  else modBuf n b (fun x => { x with
    state := .pending, late := false, seq := seq, frame := f, wasReplaced := replaced }) s

/-- A frame that was ACTIVE has completed or returned to PENDING: a held request takes its place. -/
def releaseHeld (n b : Nat) (s : State) : State :=
  match (txBuf (canCtl s n) b).held with
  | some (seq, f) => takeRequest n b seq f false (modBuf n b (fun x => { x with held := none }) s)
  | none => s

/-- The end of the frame under way after t_d: OFF (R287). -/
def canClose (n : Nat) (s : State) : State :=
  if (canCtl s n).closing then
    canGoto n .off (modCan n (fun c => { c with
      closing := false
      bufs := c.bufs.map fun b => if b.state = .pending then { b with state := .cancelled, held := none } else b }) s)
  else s

/-- The attempt under way ends without success: the frame returns to PENDING (R280). -/
def attemptFails (n : Nat) (s : State) : State :=
  match (canCtl s n).attempt with
  | none => s
  | some a =>
    let s := modCan n (fun c => { c with attempt := none, errTx := some a.what }) s
    match a.what with
    | .reference _ => s
    | .buf b => releaseHeld n b.val (modBuf n b.val (fun x => { x with state := .pending }) s)

/-! ### Counters and states (R274) -/

/-- What an attempt or its error flag carries is a reference message. -/
def TxWhat.isRef : TxWhat → Bool
  | .reference _ => true
  | .buf _ => false

/-- Entry to BUS_OFF: frames wait in their buffers, a reference message that was being sent is dropped (R280, R288), and
recovery starts at once with AUTO_REC. -/
def busOff (n : Nat) (s : State) : State :=
  let s := canNote n 0x8002 .local_ (canEvt n 1 (canCount n 5 (canGoto n .busOff s)))
  let s := if (canCtl s n).errTx.any (·.isRef) && (canCtl s n).refDue.isSome then refDrop n s else s
  if canAutoRec (canCtl s n) then modCan n (fun c => { c with recv := 0 }) (canGoto n .recovering s) else s

/-- The state follows the counters. -/
def canJudge (n : Nat) (s : State) : State :=
  let c := canCtl s n
  let high := decide (128 ≤ c.tec ∨ 128 ≤ c.recv)
  match c.state with
  | .active => if 255 < c.tec then busOff n s
    else if high then canNote n 0x8001 .note (canEvt n 0 (canGoto n .passive s)) else s
  | .passive => if 255 < c.tec then busOff n s
    else if high then s else canNote n 0x8003 .note (canGoto n .active s)
  | _ => s

/-- The controller takes part in the bus. -/
def onBus (c : CanCtl) : Bool := c.state == .active || c.state == .passive

/-- Change the error counters, which LISTEN freezes. -/
def canTec (n : Nat) (f : CanCtl → CanCtl) (s : State) : State :=
  if canListen (canCtl s n) then s else canJudge n (modCan n f s)

/-! ### Reception (R281, R282, R285) -/

/-- A frame passes filter `f` (R281). -/
def canPasses (s : State) (n : Nat) (fr : CanFrame) (f : Nat) : Bool :=
  let m := regAct (canReg n (0x100 + 8 * f)) s
  let k := regAct (canReg n (0x104 + 8 * f)) s
  m.getLsbD 31 && ((fr.idw ^^^ m) &&& k &&& 0x1FFFFFFF) == 0 && fr.idw.getLsbD 29 == m.getLsbD 29
  && (!k.getLsbD 30 || fr.idw.getLsbD 30 == m.getLsbD 30)

/-- The frame is the reference message of a time slave. -/
def isReference (s : State) (n : Nat) (fr : CanFrame) : Bool :=
  tmMode s n == 2 && (fr.idw &&& 0x3FFFFFFF) == tmId s n

/-- Data bytes of a frame: by DLC, none in a remote frame. -/
def canBytes (f : CanFrame) : Nat :=
  let d := field f.ctl 0 4
  if f.idw.getLsbD 31 then 0
  else if d ≤ 8 then d
  else if !f.idw.getLsbD 30 then 8
  else match d with
    | 9 => 12 | 10 => 16 | 11 => 20 | 12 => 24 | 13 => 32 | 14 => 48 | _ => 64

/-- The 20 words of a frame slot (R283). -/
def slotOf (q : Nat) (r : RxFrame) : List Word :=
  [r.frame.idw, (r.frame.ctl &&& 0x3F) ||| at_ r.filter 8 ||| at_ q 13 ||| at_ (canBytes r.frame) 16, r.stamp, 0]
  ++ r.frame.data.toList

/-- Frame slot i of a mirror, by word. -/
def slotWords (i q : Nat) (r : RxFrame) : List (Nat × Word) := (slotOf q r).zipIdx.map fun x => (16 + 20 * i + x.2, x.1)

/-- A received frame enters queue `q`. -/
def canEnqueue (n q : Nat) (r : RxFrame) (s : State) : State :=
  let c := canCtl s n
  let len := if q = 0 then c.rxq0.length else c.rxq1.length
  if len < 32 then
    let s := modCan n (fun c => if q = 0 then { c with rxq0 := c.rxq0 ++ [r] } else { c with rxq1 := c.rxq1 ++ [r] }) s
    hsbSend (.mirrorCan n q (slotOf q r)) (assertEvw (26 + n) (canCount n 0 s))
  else
    let s := modCan n (fun c => if q = 0 then { c with ovf0 := true } else { c with ovf1 := true }) s
    rlNote (2 * n + q) 0x8010 (fun _ => noteU 0x8010 (srcCAN n)) (canEvt n 2 (canCount n (3 + q) s))

/-- A slave hears a reference message (R285). -/
def hearReference (n : Nat) (fr : CanFrame) (sof : Nat) (s : State) : State :=
  modCan n (fun c => { c with
    refLost := false, refNew := true, refShown := field (vget 0 fr.data 0) 0 6, refSof := sof, refHeard := s.clk.cyc }) s

/-- A frame received without error: REC falls by the counting of ISO 11898-1, then filters and queues. -/
def canReceive (n : Nat) (r : CanRx) (s : State) : State :=
  let fr := r.frame
  let sof := (s.clk.nt - r.ageNs * ntNs) / (2 * ntNs) * (2 * ntNs)
  let s := if isReference s n fr then hearReference n fr sof s else s
  let back := 119 + Config.choice 1 s.fresh % 9
  let s := canTec n (fun c => { c with errTx := none, recv := if 127 < c.recv then back else c.recv - 1 })
    { s with fresh := s.fresh + 1 }
  match (List.range 32).find? (canPasses s n fr) with
  | none => canCount n 2 s
  | some f =>
    canEnqueue n (if (regAct (canReg n (0x104 + 8 * f)) s).getLsbD 31 then 1 else 0) ⟨fr, f, usOf sof, s.clk.cyc⟩ s

/-- CAN_FRAME_RECEIVED. -/
def execCanFrameReceived (n : Fin 4) (r : CanRx) (s : State) : Host.Outcome State Fault Refusal :=
  act (fun s => let c := canCtl s n.val
    whenever (onBus c && !c.closing && c.attempt.isNone) (canReceive n.val r) s) s

/-! ### Transmission (R278 to R280) -/

/-- Arbitration field of an identifier word as a number: the 11 bits on the bus first, then IDE, then the rest. -/
def arbKey (idw : Word) : Nat :=
  if idw.getLsbD 29 then (field idw 18 11 * 2 + 1) * 2 ^ 18 + field idw 0 18 else field idw 0 11 * 2 * 2 ^ 18

/-- Candidates of an attempt with their rank, in the order that settles ties (R278). -/
def txCandidates (s : State) (n : Nat) : List (Nat × TxWhat) :=
  let c := canCtl s n
  let rank (b : Nat) (idw : Word) : Nat := if canByNumber c then b else arbKey idw
  let bufs := (List.finRange 3).filterMap fun b =>
    if (txBuf c b.val).state = .pending then some (rank b.val (txBuf c b.val).frame.idw, TxWhat.buf b) else none
  let ref := if c.refDue.isSome then [(rank 0 (tmId s n), TxWhat.reference (c.refDue.getD 0))] else []
  if Config.refTieFirst then ref ++ bufs else bufs ++ ref

/-- The candidate of lowest rank, the first of equals. -/
def lowest : List (Nat × TxWhat) → Option (Nat × TxWhat)
  | [] => none
  | x :: t => match lowest t with
    | some y => if y.1 < x.1 then some y else some x
    | none => some x

/-- An attempt starts: SOF is stamped. -/
def txAttempt (n : Nat) (s : State) : State :=
  match lowest (txCandidates s n) with
  | some x => modCan n (fun c => { c with attempt := some ⟨x.2, false, ntCap s, none⟩, withdrawn := none, errTx := none }) s
  | none => s

/-- The controller may start an attempt (R287). -/
def mayAttempt (s : State) (n : Nat) : Bool :=
  let c := canCtl s n
  onBus c && !canListen c && c.attempt.isNone && drives s && !s.sys.latched

/-- TX_ATTEMPT. -/
def execTxAttempt (n : Fin 4) (s : State) : Host.Outcome State Fault Refusal :=
  act (fun s => whenever (mayAttempt s n.val) (txAttempt n.val) s) s

/-- An attempt is under way and not yet committed. -/
def inArbitration (c : CanCtl) : Bool :=
  match c.attempt with
  | some a => !a.committed
  | none => false

/-- LOST_ARBITRATION: the frame stays PENDING. -/
def execLostArbitration (n : Fin 4) (s : State) : Host.Outcome State Fault Refusal :=
  act (fun s => whenever (inArbitration (canCtl s n.val))
    (fun s => canClose n.val (modCan n.val (fun c => { c with attempt := none }) s)) s) s

/-- Codes of a buffer's state in the mirror. -/
def TxState.code : TxState → Nat
  | .idle => 0 | .pending => 1 | .active => 2 | .done => 3 | .cancelled => 4 | .replaced => 5 | .refused => 6

/-- Words 8 + 2b and 9 + 2b of a mirror. -/
def bufWords (b : Nat) (x : TxBuf) : List (Nat × Word) :=
  let st := if x.state = .pending ∧ x.wasReplaced then TxState.replaced else x.state
  [(8 + 2 * b, at_ st.code 0 ||| (bitWord x.late <<< 3) ||| (BitVec.setWidth 32 x.seq <<< 8)
      ||| (BitVec.setWidth 32 x.cseq <<< 16)), (9 + 2 * b, x.doneStamp)]

/-- The image of the frame in progress, not yet assembled, shows a buffer as it stands. -/
def canShow (n b : Nat) (s : State) : State :=
  if s.frm.assembled then s
  else { s with ne := { s.ne with
    frozen := freezeAt (0x300 + n * 0x100) (bufWords b (txBuf (canCtl s n) b)) s.ne.frozen } }

/-- A bus error (R280): counters by ISO 11898-1, the error frame counted, the frame back to PENDING. Further errors while an
error flag is under way, each of 8, signal no error frame of their own. -/
def canError (n : Nat) (e : CanErr) (s : State) : State :=
  let c := canCtl s n
  let step := if e.weight8 then 8 else 1
  let further := if e.transmitter then c.attempt.isNone else e.weight8
  let s := if canListen c || further then s else canCount n 6 s
  let s := if e.transmitter then attemptFails n s else modCan n (fun c => { c with errTx := none }) s
  let s := canTec n (fun c =>
    if e.transmitter then (if e.exempt then c else { c with tec := c.tec + 8 })
    else { c with recv := min 255 (c.recv + step) }) s
  canClose n s

/-- The frame of an attempt is an FD frame. -/
def sendsFd (c : CanCtl) (a : Attempt) : Bool :=
  match a.what with
  | .buf b => (txBuf c b.val).frame.idw.getLsbD 30
  | .reference _ => false

/-- The loop delay is measured at the BRS bit of an FD frame with TDC_EN: beyond 127 clocks it is a bit error (R272). -/
def measureLoop (n loop : Nat) (s : State) : State :=
  let c := canCtl s n
  match c.attempt with
  | none => s
  | some a =>
    if !canTdc c || !sendsFd c a then s
    else if 127 < loop then canError n ⟨true, true, false⟩ s
    else modCan n (fun c => { c with attempt := some { a with loop := some loop }, ssp := some (loop + canTdco c) }) s

/-- The commit point of the attempt passes (R279), and the control field with its BRS bit follows. -/
def canCommitPoint (n loop : Nat) (s : State) : State :=
  match (canCtl s n).attempt with
  | none => s
  | some a =>
    let s := modCan n (fun c => { c with attempt := some { a with committed := true } }) s
    measureLoop n loop (match a.what with
      | .buf b => modBuf n b.val (fun x => { x with state := .active, wasReplaced := false }) s
      | .reference _ => s)

/-- A cancel in the CAN clock of the commit point is LATE (R279): the attempt goes on, a new request taken since is held. -/
def cancelLate (n : Nat) (x : Withdrawn) (s : State) : State :=
  let now := txBuf (canCtl s n) x.buf.val
  modBuf n x.buf.val (fun _ => { x.was with
    late := true, cseq := now.cseq, seqBase := now.seqBase, cseqBase := now.cseqBase
    held := if now.state = .cancelled then none else some (now.seq, now.frame) })
    (modCan n (fun c => { c with attempt := some x.attempt, withdrawn := none }) s)

/-- FRAME_COMMIT_POINT: of the attempt in arbitration, or of one that a cancel withdrew in this CAN clock. -/
def execFrameCommitPoint (p : CommitBit) (s : State) : Host.Outcome State Fault Refusal :=
  act (fun s => let n := p.ctl.val
    let c := canCtl s n
    if inArbitration c then canCommitPoint n p.loop s
    else match c.withdrawn with
      | some x => whenever (x.clock == canClock s && c.attempt.isNone)
          (fun s => canShow n x.buf.val (canCommitPoint n p.loop (cancelLate n x s))) s
      | none => s) s

/-- A reference message as it is sent (R284): cycle count, and the SOF stamp of the previous one. -/
def refFrame (s : State) (n : Nat) (count : Nat) : CanFrame :=
  ⟨tmId s n, 8, #v[w count, usOf (canCtl s n).refSof, 0, 0, 0, 0, 0, 0, 0, 0, 0, 0, 0, 0, 0, 0]⟩

/-- The SOF stamp of a frame: less the transceiver loop delay of 12.5 ns per clock where it was measured (R283). -/
def sofOf (a : Attempt) : Nat := a.sof - a.loop.getD 0 * (125 * ntNs / 10)

/-- A committed frame completes: TEC falls by 1 (ISO 11898-1). -/
def txDone (n : Nat) (s : State) : State :=
  match (canCtl s n).attempt with
  | none => s
  | some a =>
    let s := canCount n 1 s
    let s := match a.what with
      | .buf b =>
        let f := (txBuf (canCtl s n) b.val).frame
        releaseHeld n b.val (modBuf n b.val (fun x => { x with state := .done, doneStamp := usOf (sofOf a) })
          (modCan n (fun c => { c with attempt := none, sentFrame := some f }) s))
      | .reference count =>
        let f := refFrame s n count
        modCan n (fun c => { c with
          attempt := none, refDue := if c.refDue = some count then none else c.refDue
          refShown := count, refNew := true, refSof := sofOf a, sentFrame := some f }) s
    canClose n (canTec n (fun c => { c with tec := c.tec - 1 }) s)

/-- TX_DONE. -/
def execTxDone (n : Fin 4) (s : State) : Host.Outcome State Fault Refusal :=
  act (fun s => whenever ((canCtl s n.val).attempt.any fun a => a.committed) (txDone n.val) s) s

/-- CAN_ERROR: as a transmitter only while an attempt or its error flag is under way. -/
def execCanError (n : Fin 4) (e : CanErr) (s : State) : Host.Outcome State Fault Refusal :=
  act (fun s => let c := canCtl s n.val
    whenever (onBus c && if e.transmitter then c.attempt.isSome || c.errTx.isSome else c.attempt.isNone)
      (canError n.val e) s) s

/-! ### Integration and recovery -/

/-- Recovery ends: ERROR_ACTIVE with both counters 0 (R274). -/
def recovered (n : Nat) (s : State) : State :=
  canNote n 0x8003 .note (canGoto n .active (modCan n (fun c => { c with tec := 0, recv := 0, errTx := none }) s))

/-- 11 consecutive recessive bits: they end integration, and count in REC while RECOVERING, up to 128 (R274). -/
def recessive11 (n : Nat) (s : State) : State :=
  let c := canCtl s n
  match c.state with
  | .integrating => canGoto n .active s
  | .recovering => if 127 ≤ c.recv then recovered n s else modCan n (fun c => { c with recv := c.recv + 1 }) s
  | _ => s

/-- INTEGRATION_END. -/
def execIntegrationEnd (n : Fin 4) (s : State) : Host.Outcome State Fault Refusal := act (recessive11 n.val) s

/-- CAN_n_CMD.RECOVER: ignored while not in BUS_OFF (R288). -/
def recoverOp (n : Nat) : RegOp := always fun s =>
  whenever ((canCtl s n).state == .busOff)
    (fun s => modCan n (fun c => { c with recv := 0 }) (canGoto n .recovering s)) s

/-- RECOVER. -/
def execRecover (sid : Fin 4) (n : Fin 4) (s : State) : Host.Outcome State Fault Refusal :=
  act (hostDo sid.val roleOPERATOR (recoverOp n.val)) s

/-- RECOVERY_END. -/
def execRecoveryEnd (n : Fin 4) (s : State) : Host.Outcome State Fault Refusal :=
  act (fun s => whenever ((canCtl s n.val).state == .recovering) (recovered n.val) s) s

/-- CAN_n_CMD.CLR_CNT. -/
def canClrCntOp (n : Nat) : RegOp := always (modCan n fun c => { c with cnt := Vector.replicate 8 0 })

/-- CAN_CLR_CNT. -/
def execCanClrCnt (sid : Fin 4) (n : Fin 4) (s : State) : Host.Outcome State Fault Refusal :=
  act (hostDo sid.val roleOPERATOR (canClrCntOp n.val)) s

/-! ### Reference messages (R284, R285) -/

/-- Number of the basic cycle that holds a network time. -/
def cycleIndex (s : State) (n : Nat) : Nat := (s.clk.nt / 10 ^ 13 + tmCyc s n - tmPhase s n) / tmCyc s n

/-- A reference message still in arbitration is withdrawn; one past its commit point goes on. -/
def refWithdraw (c : CanCtl) : CanCtl :=
  { c with attempt := c.attempt.filter fun a => a.committed || !a.what.isRef }

/-- A basic cycle begins. -/
def referenceDue (n : Nat) (s : State) : State :=
  let s := if (canCtl s n).refDue.isSome then refDrop n s else s
  modCan n (fun c => { refWithdraw c with
    refDue := some c.refCycle, refCycle := (c.refCycle + 1) % 64, lastCycle := some (cycleIndex s n) }) s

/-- A controller of a module that no longer drives sends nothing: it withdraws from arbitration, no reference message is due,
and a frame past its commit point completes (R287). -/
def canLeave (s : State) : State :=
  { s with can := ⟨s.can.ctl.map fun c => { c with attempt := c.attempt.filter (·.committed), refDue := none }⟩ }

/-- Network time has been set anew: the next basic cycle begins at the next cycle begin from there. -/
def cyclesRebase (s : State) : State :=
  { s with can := ⟨vmap s.can.ctl fun n c => { c with lastCycle := some (cycleIndex s n) }⟩ }

/-- REFERENCE_DUE: of a time master, at each cycle begin. -/
def execReferenceDue (n : Fin 4) (s : State) : Host.Outcome State Fault Refusal :=
  act (fun s => let c := canCtl s n.val
    whenever (tmMode s n.val == 1 && c.state != .off && drives s && !s.sys.latched
      && (match c.lastCycle with
        | some i => decide (i < cycleIndex s n.val)
        | none => true)) (referenceDue n.val) s) s

/-- REF_LOST: of a time slave that hears none for two cycles. -/
def execRefLost (n : Fin 4) (s : State) : Host.Outcome State Fault Refusal :=
  act (fun s => let c := canCtl s n.val
    whenever (tmMode s n.val == 2 && c.state != .off && !c.refLost
        && decide (c.refHeard + 2 * tmCyc s n.val * cycUs ≤ s.clk.cyc))
      (fun s => noteU 0x8021 (srcCAN n.val) (canEvt n.val 3 (modCan n.val (fun c => { c with refLost := true }) s)))
      s) s

/-! ### Release (R276, R277) and freeze (R283) -/

/-- The 20 words of a buffer in the released output image. -/
def canRequest (s : State) (n b : Nat) : Word × CanFrame :=
  let a := 0x0100 + n * 0x100 + 32 * b
  (imgOutWord s a, ⟨imgOutWord s (a + 1), imgOutWord s (a + 2), Vector.ofFn fun i => imgOutWord s (a + 4 + i.val)⟩)

/-- A cancel judged against the frame pending before the release (R279). -/
def canCancel (n b : Nat) (cseq : BitVec 8) (s : State) : State :=
  let c := canCtl s n
  let mine := c.attempt.any fun a => a.what == .buf (Fin.ofNat 3 b)
  let s := modBuf n b (fun x => { x with cseq := cseq }) s
  match (txBuf c b).state with
  | .pending =>
    modBuf n b (fun x => { x with state := .cancelled, wasReplaced := false })
      (if mine then modCan n (fun c => { c with
        attempt := none
        withdrawn := c.attempt.map fun a => ⟨Fin.ofNat 3 b, a, txBuf c b, canClock s⟩ }) s else s)
  | .active => modBuf n b (fun x => { x with late := true }) s
  | _ => s

/-- A new request reaches a buffer (R277). -/
def canNewRequest (n b : Nat) (seq : BitVec 8) (f : CanFrame) (s : State) : State :=
  let c := canCtl s n
  let mine := c.attempt.any fun a => a.what == .buf (Fin.ofNat 3 b)
  match (txBuf c b).state with
  | .active => modBuf n b (fun x => { x with held := some (seq, f) }) s
  | .pending => takeRequest n b seq f true (if mine then modCan n (fun c => { c with attempt := none }) s else s)
  | _ => takeRequest n b seq f false s

/-- Buffer b of CAN_n at a release. A module that does not drive follows the baselines only (R287). -/
def bufRelease (n b : Nat) (s : State) : State :=
  let (ctl, f) := canRequest s n b
  let seq := BitVec.ofNat 8 (field ctl 0 8)
  let cseq := BitVec.ofNat 8 (field ctl 8 8)
  let x := txBuf (canCtl s n) b
  let s := modBuf n b (fun x => { x with wasReplaced := false, seqBase := seq, cseqBase := cseq }) s
  if !drives s then s
  else
    let s := if cseq = x.cseqBase then s else canCancel n b cseq s
    if seq = x.seqBase then s else canNewRequest n b seq f s

/-- Release of the transmit requests (R35 step 1). -/
def canRelease (s : State) : State :=
  forAll (List.range 4) (fun n s => forAll (List.range 3) (bufRelease n) s) s

/-- Nanoseconds and seconds words of a network time. -/
def ntWords (nt : Nat) : List Word := [w (nt % ntSec / ntNs), w (nt / ntSec), w (nt / ntSec / 2 ^ 32 % 2 ^ 16)]

/-- Frames whose end of frame was reached before this lane cycle lead their queue. -/
def canRipe (cyc : Nat) (q : List RxFrame) : List RxFrame := q.takeWhile fun r => decide (r.eofCyc < cyc)

/-- CAN_n at a freeze: mirror words by offset, and the controller with the moved frames gone. -/
def canFreeze (cyc : Nat) (c : CanCtl) : List (Nat × Word) × CanCtl :=
  let m0 := (canRipe cyc c.rxq0).take 12
  let m1 := (canRipe cyc c.rxq1).take (12 - m0.length)
  let c' := { c with
    rxq0 := c.rxq0.drop m0.length, rxq1 := c.rxq1.drop m1.length, ovf0 := false, ovf1 := false, refNew := false }
  let local_ := c.state == .busOff || c.state == .recovering
  let head : List (Nat × Word) :=
    [(0, at_ c.state.code 0 ||| (bitWord local_ <<< 3) ||| (bitWord c.refLost <<< 4) ||| (bitWord (canListen c) <<< 5)),
     (1, at_ (min c.tec 511) 0 ||| at_ (min c.recv 255) 16),
     (2, at_ (m0.length + m1.length) 0 ||| at_ c'.rxq0.length 8 ||| at_ c'.rxq1.length 16
       ||| (bitWord c.ovf0 <<< 24) ||| (bitWord c.ovf1 <<< 25)),
     (3, at_ c.refShown 0 ||| (bitWord c.refNew <<< 8))]
  let slots := (m0.map fun r => (0, r)) ++ m1.map fun r => (1, r)
  (head ++ (ntWords c.refSof).zipIdx.map (fun x => (4 + x.2, x.1))
    ++ (List.range 3).flatMap (fun b => bufWords b (txBuf c b))
    ++ slots.zipIdx.flatMap (fun x => slotWords x.2 x.1.1 x.1.2), c')

/-! ### Commit (R286) and start (R273) -/

/-- Words of the time-master settings. -/
def tmWords (s : State) (n : Nat) : List Word := [0x44, 0x48, 0x4C, 0x50].map fun o => regAct (canReg n o) s

/-- A time-master change: the first cycle begins at the next cycle begin, with count 0. -/
def tmRestart (n : Nat) (s : State) : State :=
  modCan n (fun c => { refWithdraw c with
    refDue := none, refCycle := 0, lastCycle := some (cycleIndex s n), refLost := false, refHeard := s.clk.cyc }) s

/-- The CAN group applies. -/
def canApply (s : State) : State :=
  forAll (List.range 4) (fun n s =>
    let old := tmWords s n
    let s := actFollow (canReg n 0x44) (canReg n 0x200) s
    if tmWords s n = old then s else tmRestart n s) s

/-- The bit timing meets R272. -/
def canTimingOk (nbt dbt : Word) : Bool :=
  let nq := (field nbt 0 8 + 1) * (1 + (field nbt 8 8 + 1) + (field nbt 16 7 + 1))
  let dq := (field dbt 0 5 + 1) * (1 + (field dbt 8 5 + 1) + (field dbt 16 4 + 1))
  decide (2 ≤ field nbt 8 8 + 1 ∧ field nbt 24 7 ≤ field nbt 16 7 ∧ field dbt 24 4 ≤ field dbt 16 4
    ∧ 80 ≤ nq ∧ nq ≤ 8000 ∧ 10 ≤ dq ∧ dq ≤ 160 ∧ dq ≤ nq)

/-- CAN_n at module reset. -/
def canStart (cfg nbt dbt : Word) : CanCtl :=
  let en := cfg.getLsbD 0
  let ok := canTimingOk nbt dbt
  { State.can0 with
    cfg := cfg, nbt := nbt, dbt := dbt, btErr := !ok
    state := if en && ok then .integrating else .off }

end Sys2Proof.Machine
end

