-- ==== Sys2Proof/Machine/NeGoose.lean ====
section
/-! DEFINITION. GOOSE subscriptions (R200 to R203): decoding, acceptance, the states, expiry. -/
namespace Sys2Proof.Machine

/-- A subscription, and one changed. -/
def gsSub (s : State) (i : Nat) : GsSub := vget State.gs0 s.ne.gs i
def modGs (i : Nat) (f : GsSub → GsSub) (s : State) : State := { s with ne := { s.ne with gs := vmod s.ne.gs i f } }

/-- Counter places: status word n is place n − 3. -/
def gACC : Nat := 0
def gNEW : Nat := 1
def gANOM : Nat := 2
def gEXP : Nat := 3
def gMIS : Nat := 4
def gAUTH : Nat := 5
def gREJ : Nat := 6

/-- Object number of a subscription in the rate rows of NOTEs. -/
def gsObj (i : Nat) : Nat := kGSSUB * 65536 + i

/-- Count at a place. -/
def gsCount (i place : Nat) (s : State) : State := modGs i (fun g => { g with cnt := vmod g.cnt place (· + 1) }) s

/-- A violation counted and noted (R208). -/
def gsViol (i place : Nat) (code : BitVec 16) (s : State) : State := neNote (gsObj i) i code (neEvt 2 (gsCount i place s))

/-! ### Decoding (R200) -/

/-- A value as an INTEGER of up to 32 bits. -/
def int32 (v : Int) : Bool := decide (-(2 ^ 31) ≤ v ∧ v < 2 ^ 31)

/-- Member words of one element under a type code; `none` where tag or length differ. -/
def goMember (ty : Nat) (v : GoVal) : Option (List Word) :=
  match v with
  | .boolean b => if ty = 1 then some [bitWord b] else none
  | .bits len x => if (ty = 2 ∧ len ≤ 32) ∨ (ty = 9 ∧ len = 13) then some [x &&& w (2 ^ len - 1)] else none
  | .int x => if ty = 3 ∧ int32 x then some [BitVec.ofInt 32 x] else none
  | .unsigned x => if ty = 4 ∧ x < 2 ^ 32 then some [w x] else none
  | .float x => if ty = 5 then some [x] else none
  | .utc a b => if ty = 6 then some [a, b] else none
  | .structOpen => if ty = 7 then some [] else none
  | .structClose => if ty = 8 then some [] else none

/-- The members of a message under a type list. -/
def goDecode : List Nat → List GoVal → Option (List Word)
  | [], [] => some []
  | t :: ts, v :: vs =>
    match goMember t v, goDecode ts vs with
    | some a, some b => some (a ++ b)
    | _, _ => none
  | _, _ => none

/-- Nesting of a type list stays within two levels and closes (R200). -/
def nestOk : List Nat → Nat → Bool
  | [], d => d == 0
  | 7 :: ts, d => decide (d < 2) && nestOk ts (d + 1)
  | 8 :: ts, d => decide (0 < d) && nestOk ts (d - 1)
  | _ :: ts, d => nestOk ts d

/-- A type list opens a structure within two others. -/
def nestDeep : List Nat → Nat → Bool
  | [], _ => false
  | 7 :: ts, d => decide (2 ≤ d) || nestDeep ts (d + 1)
  | 8 :: ts, d => nestDeep ts (d - 1)
  | _ :: ts, d => nestDeep ts d

/-- The dataset of a message for a subscription: at most 32 member words. -/
def gsDecode (s : State) (i : Nat) (data : Option (List GoVal)) : Option (List Word) :=
  let ts := neTypes s kGSSUB i
  match data with
  | none => none
  | some vs =>
    if !nestOk ts 0 then none
    else match goDecode ts vs with
      | some ms => if ms.length ≤ 32 then some (ms ++ List.replicate (32 - ms.length) 0) else none
      | none => none

/-! ### Judgement (R202) -/

/-- What R202 makes of a message. -/
inductive GsVerdict where
  | baseline | hold | duplicate | refresh | new (gap restart : Bool)
  deriving DecidableEq, Repr

/-- The judgement against the last accepted message. -/
def gsVerdict (g : GsSub) (ndsCom : Bool) (st sq : Word) (members : List Word) : GsVerdict :=
  let dst := st - g.st
  let dsq := sq - g.sq
  if g.state = .wait ∨ g.state = .expired then .baseline
  else if ndsCom then .hold
  else if dst = 0 then
    if dsq = 0 ∨ dsq.msb then .duplicate
    else if members = g.members then .refresh else .hold
  else if !dst.msb then .new (1 < dst.toNat) false
  else if st = 1 then .new false true
  else .hold

/-! ### Presentation (R201) -/

/-- Code of a state in the status word. -/
def GsState.code : GsState → Nat
  | .off => 0 | .wait => 1 | .valid => 2 | .held => 3 | .expired => 4

/-- The status word of R201. -/
def gsStatus (g : GsSub) : Word :=
  let b (c : Bool) (i : Nat) : Word := bitWord c <<< i
  b (g.state == .valid) 0 ||| b (g.state == .held) 1 ||| b (g.state == .expired) 2 ||| b (g.state == .wait) 3
  ||| b g.newFlag 4 ||| b g.gap 5 ||| b g.restart 6 ||| b g.test 7 ||| b g.sim 8 ||| b g.ndscom 9
  ||| b g.reject 10 ||| b g.mismatch 11 ||| b g.auth 12

/-- The words of a subscription in the input image, by offset. -/
def gsBlock (g : GsSub) : List (Nat × Word) :=
  match g.state with
  | .off => []
  | .wait => [(0, gsStatus g)]
  | _ => [(0, gsStatus g), (1, g.st), (2, g.sq), (3, g.t0), (4, g.t1), (5, w g.tal)]
         ++ g.members.zipIdx.map fun x => (8 + x.2, x.1)

/-- Words by offset in which two blocks differ. -/
def gsDiff (old new : List (Nat × Word)) : List (Nat × Word) :=
  let at_ (b : List (Nat × Word)) (n : Nat) : Word := ((b.find? (·.1 == n)).map (·.2)).getD 0
  (where_ 40 fun n => at_ old n != at_ new n).map fun n => (n, at_ new n)

/-- Where the block of a subscription has changed, its generation advances and a driving module mirrors the changed words
(R295, R296). -/
def gsChanged (i : Nat) (s : State) : State :=
  let g := gsSub s i
  let b := gsBlock g
  if b = g.shown then s
  else
    let gen := (g.gen + 1) % 256
    hsbSend (.mirrorGs i gen (gsDiff g.shown b)) (modGs i (fun g => { g with gen := gen, shown := b }) s)

/-- What every accepted message sets (R201 to R203). -/
def gsAccept (i : Nat) (m : GooseMsg) (s : State) : State :=
  gsCount i gACC (modGs i (fun g => { g with
    state := .valid, sq := m.sq, tal := max 1 m.tal, tAcc := ntCap s, ndscom := m.ndsCom
    reject := false, mismatch := false, auth := false }) s)

/-- An accepted new state. -/
def gsNew (i : Nat) (m : GooseMsg) (members : List Word) (gap restart : Bool) (s : State) : State :=
  assertEvw 24 (gsCount i gNEW (modGs i (fun g => { g with
    st := m.st, t0 := m.t0, t1 := m.t1, members := members, newFlag := true, gap := gap, restart := restart
    test := m.test, sim := m.sim, newAt := tickStep s }) (gsAccept i m s)))

/-- A held message (R202, R203). -/
def gsHold (i : Nat) (m : GooseMsg) (s : State) : State :=
  let entered := (gsSub s i).state != .held
  let s := modGs i (fun g => { g with state := .held, ndscom := m.ndsCom }) s
  let s := if entered then assertEvw 25 (neEvt 1 s) else s
  gsViol i gANOM 0x4021 s

/-- A message that passed every check, judged. -/
def gsTake (i : Nat) (m : GooseMsg) (members : List Word) (s : State) : State :=
  let g := gsSub s i
  match gsVerdict g m.ndsCom m.st m.sq members with
  | .baseline =>
    let s := if g.state = .expired then neNote (gsObj i) i 0x4025 s else s
    gsChanged i (gsNew i m members false false s)
  | .hold => gsChanged i (gsHold i m s)
  | .duplicate => gsCount i gREJ (gsChanged i (modGs i (fun g => { g with ndscom := m.ndsCom }) s))
  | .refresh => gsChanged i (gsAccept i m s)
  | .new gap restart => gsChanged i (gsNew i m members gap restart s)

/-- Keep a subscription as it was before the 10 ns step in which a message changes it: a message of the step of T_k belongs
to frame k + 1 (R36, R209). -/
def gsKeep (i : Nat) (s : State) : State :=
  let old := if s.ne.gsStepAt = tickStep s then s.ne.gsStep else []
  { s with ne := { s.ne with
      gsStepAt := tickStep s
      gsStep := if old.any (·.1 == i) then old else (i, gsSub s i) :: old } }

/-- A subscription as a tick in the present step finds it. -/
def gsAtTick (s : State) (i : Nat) : GsSub :=
  match (if s.ne.gsStepAt = tickStep s then s.ne.gsStep else []).find? (·.1 == i) with
  | some x => x.2
  | none => gsSub s i

/-- A message has changed a subscription in the present step. -/
def gsFresh (s : State) (i : Nat) : Bool := s.ne.gsStepAt == tickStep s && s.ne.gsStep.any (·.1 == i)

/-- A GOOSE message judged for one subscription that its identity selects. -/
def gsJudge (i : Nat) (m : GooseMsg) (s : State) : State :=
  let s := gsKeep i s
  if !neAccepts s kGSSUB i m.vlan m.sim (fun x => m.confRev == x) then
    gsChanged i (gsViol i gREJ 0x4023 (modGs i (fun g => { g with reject := true }) s))
  else if !authOk s kGSSUB i m.auth then
    gsChanged i (gsViol i gAUTH 0x4022 (modGs i (fun g => { g with auth := true }) s))
  else match gsDecode s i m.data with
    | none => gsChanged i (gsViol i gMIS 0x4020 (modGs i (fun g => { g with mismatch := true }) s))
    | some members => gsTake i m members s

/-- The subscriptions that a message's identity selects (R200). -/
def gsSelected (port : Nat) (m : GooseMsg) (s : State) : List Nat :=
  where_ 256 fun i => neMatch s kGSSUB i port m.dmac m.appid && trimStr m.gocbRef == neStr s kGSSUB i 16

/-- A GOOSE message that arrived whole at a port (R200). -/
def gooseMessage (port : Nat) (m : GooseMsg) (s : State) : State :=
  if !neListens s ∨ spdErr (nePairOf s (pairOf port)) then s
  else
    let sel := gsSelected port m s
    if sel.isEmpty then portInc port 4 s else forAll sel (fun i s => gsJudge i m s) s

/-- GOOSE_MESSAGE. -/
def execGooseMessage (port : Fin 12) (m : GooseMsg) (s : State) : Host.Outcome State Fault Refusal :=
  act (fun s => gooseMessage port.val m (arrived port.val s)) s

/-! ### Expiry (R203) -/

/-- TAL of the last accepted message has run out at the tick in force. -/
def gsOverdue (s : State) (i : Nat) : Bool :=
  let g := gsAtTick s i
  (g.state == .valid || g.state == .held) && decide (g.tAcc + g.tal * (ntSec / 1000) ≤ s.frm.ttick)

/-- The generation byte of a subscription in a record that is about to be sent (R296). -/
def recordGen (i gen : Nat) (r : Record) : Record :=
  let n := 147 + i / 4
  let sh := 8 * (i % 4)
  { r with words := r.words.set n ((r.words.getD n 0 &&& ~~~(0xFF#32 <<< sh)) ||| at_ gen sh) }

/-- The record of the tick in force shows a generation that the tick still changes. -/
def regenerate (i : Nat) (s : State) : State :=
  let gen := (gsSub s i).gen
  { s with hsb := { s.hsb with sent := s.hsb.sent.map fun x => match x.msg with
    | .record r => { x with msg := .record (recordGen i gen r) }
    | _ => x } }

/-- A subscription expires at the tick in force; its frozen words and the record follow. A message of the tick's own step has already
restarted the subscription that the tick found overdue. -/
def gsExpire (i : Nat) (s : State) : State :=
  let s := gsViol i gEXP 0x4024 (modGs i (fun g => if gsFresh s i then g else { g with state := .expired }) s)
  let s := regenerate i (gsChanged i (assertEvw 25 (neEvt 1 s)))
  let a := 0x1000 + 0x40 * i
  let old := sget zeroWord s.ne.frozen a
  { s with ne := { s.ne with frozen := sput zeroWord a ((old &&& ~~~3#32) ||| 4#32) s.ne.frozen } }

/-- GOOSE_EXPIRY: judged at ticks only (R203). -/
def execGooseExpiry (sub : Fin 256) (s : State) : Host.Outcome State Fault Refusal :=
  act (fun s => whenever (running s && neListens s && s.clk.tickph == 0 && gsOverdue s sub.val) (gsExpire sub.val) s) s

/-- After the record of a tick, NEW clears of every subscription with no new state since the freeze (R201). -/
def gsNewEnds (s : State) : State :=
  forAll (where_ 256 fun i => (gsSub s i).newFlag && !(gsFresh s i && (gsSub s i).newAt == tickStep s))
    (fun i s => gsChanged i (modGs i (fun g => { g with newFlag := false }) s)) s

/-! ### Commits (R203, R209) -/

/-- To WAIT, members 0. -/
def gsWait (i : Nat) (s : State) : State :=
  gsChanged i (modGs i (fun g => { State.gs0 with cnt := g.cnt, gen := g.gen, shown := g.shown, state := .wait }) s)

/-- To OFF. -/
def gsOff (i : Nat) (s : State) : State :=
  gsChanged i (modGs i (fun g => { State.gs0 with cnt := g.cnt, gen := g.gen, shown := g.shown }) s)

end Sys2Proof.Machine
end

