-- ==== Sys2Proof/Machine/NeSv.lean ====
section
/-! DEFINITION. Sampled-value subscriptions (R193 to R197): acceptance, closure at the cut-off, the states. -/
namespace Sys2Proof.Machine

/-- A stream, and a stream changed. -/
def svSub (s : State) (i : Nat) : SvSub := vget State.sv0 s.ne.sv i
def modSv (i : Nat) (f : SvSub → SvSub) (s : State) : State := { s with ne := { s.ne with sv := vmod s.ne.sv i f } }

/-- Counter places of a stream: status word n is place n − 1. -/
def cACC : Nat := 0
def cMISSING : Nat := 1
def cLATE : Nat := 2
def cDUP : Nat := 3
def cJUMP : Nat := 4
def cMALF : Nat := 5
def cOOW : Nat := 6
def cAUTH : Nat := 7
def cREJ : Nat := 8

/-- A violation of a stream is counted, without a record (R208). -/
def svCount (i place : Nat) (s : State) : State :=
  neEvt 2 (modSv i (fun v => { v with cnt := vmod v.cnt place (· + 1) }) s)

/-- A drop with its recorder code (R208). -/
def svDrop (i place : Nat) (code : BitVec 16) (s : State) : State :=
  neNote i i code (modSv i (fun v => { v with lastDrop := code, lostDrop := code }) (svCount i place s))

/-- The stream enters LOST (R196, R208). -/
def svLost (i : Nat) (s : State) : State :=
  let v := svSub s i
  assertEvw i (rlNote i 0x4010 (fun n => note 0x4010 srcNE (w i) (BitVec.setWidth 32 v.lostDrop) n)
    (neEvt 0 (modSv i (fun v => { v with state := .lost, good := 0, lostDrop := 0 }) s)))

/-- Quality of one received ASDU (R194): INV, QST, TEST, OPB, SIM and SYNC. Channel qualities hold the validity in bits
1:0 (0 good, 1 invalid, 2 reserved, 3 questionable), test in bit 11 and operatorBlocked in bit 12. -/
def svQuality (sim : Bool) (a : SvAsdu) : Word :=
  let q := a.quals.toList
  let bitsOf (p : Word → Bool) : Nat := (q.zipIdx.map fun x => if p x.1 then 2 ^ x.2 else 0).sum
  let sync := if a.smpSynch ≤ 2 then a.smpSynch else 3
  at_ (bitsOf fun x => field x 0 2 == 1 || field x 0 2 == 2) 0 ||| at_ (bitsOf fun x => field x 0 2 == 3) 8
  ||| (bitWord (q.any fun x => x.getLsbD 11) <<< 18) ||| (bitWord (q.any fun x => x.getLsbD 12) <<< 19)
  ||| (bitWord sim <<< 20) ||| at_ sync 21

/-- Write the sample words and the quality word of entry `j`. -/
def svStore (i j : Nat) (vals : List Word) (q : Word) (s : State) : State :=
  shPutW (qualAddr s i j) q (forAll (List.range 8) (fun c s => shPutW (histAddr s i c j) (vals.getD c 0) s) s)

/-- The cut-off of `j` has passed. -/
def cutPassed (s : State) (j : Nat) : Bool :=
  match s.ne.lastCut with
  | some c => decide (j ≤ c)
  | none => false

/-- Entry `j` was closed while the stream was enabled. -/
def svClosed (s : State) (i j : Nat) : Bool :=
  cutPassed s j && (match (svSub s i).closedFrom with
    | some f => decide (f ≤ j)
    | none => false)

/-- Entry `j` already holds a sample. -/
def svHolds (s : State) (i j : Nat) : Bool :=
  (svSub s i).held.any (·.1 == j) || (svClosed s i j && !(shWord s (qualAddr s i j)).getLsbD 16)

/-! ### Closure (R195, R196) -/

/-- Sample words of the entry before `j`; 0 if it was not closed since the stream was enabled. -/
def svPrev (s : State) (i j : Nat) : List Word :=
  if svClosed s i (j - 1) ∧ 0 < j then (List.range 8).map fun c => shWord s (histAddr s i c (j - 1))
  else List.replicate 8 0

/-- Quality bits 7:0 and LOST, of an entry that leaves the stream in LOST. -/
def lostBits : Word := 0x008000FF

/-- Close entry `j` of an enabled stream, with the sample that arrived by lane cycle `by_`, and judge the state from it. -/
def svClose (i j by_ : Nat) (s : State) : State :=
  let v := svSub s i
  let lim := max 1 (field (neCfg s kSVSUB i 1) 0 8)
  let rec_ := max 1 (field (neCfg s kSVSUB i 1) 8 12)
  let have_ := v.held.any fun x => x.1 == j && decide (x.2 ≤ by_)
  let old := shWord s (qualAddr s i j)
  let mrun := if have_ then 0 else min 255 (v.mrun + 1)
  let vals := if have_ then (List.range 8).map (fun c => shWord s (histAddr s i c j)) else svPrev s i j
  let base : Word := if have_ then old &&& 0x007FFFFF else 0x000100FF
  let good := if have_ then v.good + 1 else 0
  let s := modSv i (fun v => { v with
    mrun := mrun, good := good, held := v.held.filter (·.1 ≠ j)
    closedFrom := some (v.closedFrom.getD j)
    cnt := if have_ then v.cnt else vmod v.cnt cMISSING (· + 1) }) s
  let s := match v.state with
    | .lost =>
      if rec_ ≤ good then
        assertEvw i (neNote i i 0x4011 (modSv i (fun v => { v with state := .run, good := 0 }) s))
      else s
    | .run => if lim ≤ mrun then svLost i s else s
    | .off => s
  let q := base ||| at_ mrun 24 ||| (if (svSub s i).state = .lost then lostBits else 0)
  svStore i j vals q s

/-- A sample that had arrived after lane cycle `by_` for an entry closed without it: only LATE_RX and LATE stay (R195). -/
def svTooLate (i j : Nat) (s : State) : State :=
  svDrop i cLATE 0x4005 (shPutW (qualAddr s i j) (setBit (shWord s (qualAddr s i j)) 17)
    (modSv i (fun v => { v with cnt := vmod v.cnt cACC (· - 1) }) s))

/-- Close the entries of a count for every enabled stream, at the cut-off `by_`. -/
def svCutoff (j by_ : Nat) (s : State) : State :=
  let s := forAll (where_ 24 fun i => (svSub s i).state ≠ .off) (fun i s =>
    let late := (svSub s i).held.any fun x => x.1 == j && decide (by_ < x.2)
    let s := svClose i j by_ s
    if late then svTooLate i j s else s) s
  { s with ne := { s.ne with lastCut := some j } }

/-- Lane cycle of the next tick as the clocks run: the first 10 ns step in which network time reaches its target (R224). -/
def nextTickCyc (s : State) : Nat :=
  let per := (25000000000 + 25 * s.tim.freq).toNat
  let reach := (s.tim.target + rate s - 1) / rate s
  (s.clk.cyc + (reach - s.clk.nt + per - 1) / per + 3) / 4 * 4

/-- 2 µs in lane cycles. -/
def cutCycles : Nat := 800

/-- The count of the coming frame is still open. -/
def cutOpen (s : State) : Bool :=
  running s && neListens s && (match s.ne.lastCut with
    | some c => decide (c < s.frm.k + 1 - horizon s)
    | none => true)

/-- Close the count of the coming frame, k + 1 − H. -/
def cutNow (s : State) : State := svCutoff (s.frm.k + 1 - horizon s) s.clk.cyc s

/-- CUTOFF: at T_{j+H} − 2 µs the next count is closed (R195). -/
def cutoff (s : State) : State := whenever (cutOpen s && decide (nextTickCyc s ≤ s.clk.cyc + cutCycles)) cutNow s

/-- The cut-off has passed when a message arrives later than it; a last byte exactly at the cut-off is in time (R193). -/
def cutPassing (s : State) : State := whenever (cutOpen s && decide (nextTickCyc s < s.clk.cyc + cutCycles)) cutNow s

/-- CUTOFF. -/
def execCutoff (s : State) : Host.Outcome State Fault Refusal := act cutoff s

/-- Every cut-off up to that of the frame's own count has passed at its tick: close what is still open, with the samples
that arrived by the cut-off. -/
def cutoffAtTick (k : Nat) (s : State) : State :=
  let j := k - horizon s
  let by_ := s.clk.cyc - cutCycles
  match s.ne.lastCut with
  | some c => if c < j then svCutoff j by_ s else s
  | none => svCutoff j by_ s

/-! ### Acceptance (R193) -/

/-- One sample of an accepted message with the message's network time `n` in ticks (R193). -/
def svSample (i : Nat) (sim : Bool) (a : SvAsdu) (s : State) : State :=
  let s := cutPassing s
  let r := rate s
  let n := ntCap s * r / ntSec
  let c := a.smpCnt
  let back := (n + 1 + r * 2 - c) % r
  let j := n + 1 - back
  let rateBad := match a.smpRate with
    | some x => x != r
    | none => false
  if decide (r ≤ c ∨ n + 1 < back ∨ j + 64 < n) || rateBad then svDrop i cOOW 0x4002 s
  else if svHolds s i j then svCount i cDUP s
  else if cutPassed s j then
    svDrop i cLATE 0x4005 (shPutW (qualAddr s i j) (setBit (shWord s (qualAddr s i j)) 17) s)
  else
    let v := svSub s i
    let jump := match v.lastJ with
      | some l => decide (l + 1 < j)
      | none => false
    let s := if jump then neNote i i 0x4004 (svCount i cJUMP s) else s
    let s := svStore i j a.vals.toList (svQuality sim a) s
    hsbSend (.mirrorSv i j a.vals.toList) (modSv i (fun v => { v with
      held := v.held ++ [(j, s.clk.cyc)], lastSmp := c, cnt := vmod v.cnt cACC (· + 1)
      lastJ := some (match v.lastJ with
        | some l => max l j
        | none => j) }) s)

/-- An SV message judged for one stream that its identity selects. -/
def svJudge (i : Nat) (m : SvMsg) (s : State) : State :=
  if !m.wellFormed ∨ m.asdus.length = 0 ∨ 8 < m.asdus.length then svDrop i cMALF 0x4001 s
  else if !neAccepts s kSVSUB i m.vlan m.sim (fun x => m.asdus.all fun a => a.confRev == x) then
    svDrop i cREJ 0x4007 s
  else if !authOk s kSVSUB i m.auth then svDrop i cAUTH 0x4006 s
  else m.asdus.foldl (fun s a => svSample i m.sim a s) s

/-- The streams that a message's identity selects (R193). -/
def svSelected (port : Nat) (m : SvMsg) (s : State) : List Nat :=
  where_ 24 fun i => pairOf port < 4 && neMatch s kSVSUB i port m.dmac m.appid
    && m.asdus.all fun a => trimStr a.svId == neStr s kSVSUB i 16

/-- An SV message that arrived whole at a port (R193). -/
def svMessage (port : Nat) (m : SvMsg) (s : State) : State :=
  if !neListens s ∨ spdErr (nePairOf s (pairOf port)) then s
  else
    let sel := svSelected port m s
    if sel.isEmpty then portInc port 4 s else forAll sel (fun i s => svJudge i m s) s

/-- SV_MESSAGE. -/
def execSvMessage (port : Fin 12) (m : SvMsg) (s : State) : Host.Outcome State Fault Refusal :=
  act (fun s => svMessage port.val m (arrived port.val s)) s

/-! ### Commits (R209) -/

/-- A stream newly enabled: LOST with MRUN = 0; every entry keeps what it holds. -/
def svEnable (i : Nat) (s : State) : State :=
  svLost i (modSv i (fun v => { v with
    mrun := 0, lastJ := none, closedFrom := none, held := [], lostDrop := 0 }) s)

/-- A stream whose identity changed: LOST with MRUN = 0; entries before `f` keep what they hold. -/
def svRestart (i f : Nat) (s : State) : State :=
  svLost i (modSv i (fun v => { v with
    mrun := 0, lastJ := none, held := v.held.filter fun x => x.1 < f }) s)

/-- A stream disabled. -/
def svDisable (i : Nat) (s : State) : State :=
  if (svSub s i).state = .off then s
  else assertEvw i (modSv i (fun v => { v with state := .off, held := [], mrun := 0, good := 0 }) s)

end Sys2Proof.Machine
end

