-- ==== Sys2Proof/Machine/NePub.lean ====
section
/-! DEFINITION. Publications (R198, R199, R204 to R206), what MODULE doubt does to them (R25, R205), and the clearing of
counters. -/
namespace Sys2Proof.Machine

/-- Publications, and publications changed. -/
def svPub (s : State) (i : Nat) : SvPub := vget State.sp0 s.ne.sp i
def goPub (s : State) (i : Nat) : GoPub := vget State.gp0 s.ne.gp i
def modSp (i : Nat) (f : SvPub → SvPub) (s : State) : State := { s with ne := { s.ne with sp := vmod s.ne.sp i f } }
def modGp (i : Nat) (f : GoPub → GoPub) (s : State) : State := { s with ne := { s.ne with gp := vmod s.ne.gp i f } }

/-- Queue a message for sending, of a driving module. -/
def neQueue (h : TxHead) (m : TxMsg) (pair port : Nat) (s : State) : State :=
  if drives s then pairSend pair port h m s else s

/-- The authentication extension of a publication's message (R207); the IV of a GMAC tag is a free value. -/
def pubAuth (s : State) (kind i : Nat) (m : TxMsg) : Option SentAuth :=
  let ctrl := neCfg s kind i 0
  let alg := field ctrl 5 2
  let slot := field (neCfg s kind i 6) 0 6
  if alg = 0 then none
  else
    let iv := if alg = 1 then [] else (List.range 3).flatMap fun n => wordBytes (Config.freeWord (s.fresh + n))
    some ⟨alg, slot, iv, authTag s slot alg (ctrl.getLsbD 7) iv (Config.msgBytes m)⟩

/-- Queue a publication's message, on its pair and port, under its addresses, tag and authentication. -/
def pubQueue (kind i : Nat) (m : TxMsg) (s : State) : State :=
  let a := neCfg s kind i 2
  let vlan := if (neCfg s kind i 0).getLsbD 10 then some (field a 16 12, field a 28 3) else none
  let h : TxHead := ⟨some (neDmac s kind i), vlan, none, pubAuth s kind i m⟩
  neQueue h m (nePair s kind i) (nePort s kind i) { s with fresh := s.fresh + 3 }

/-- A module that keeps publication state: a driving one, and one on the mirrored image, which publishes nothing (R299,
R301). -/
def tracks (s : State) : Bool :=
  drives s || s.hsb.role == .standby || (s.hsb.role == .syncing && s.hsb.xferFrom.isSome)

/-- One message sent on a pair, of a driving module; a pair with SPD_ERR carries none (R185). -/
def sentOne (s : State) (pair : Nat) : Word := bitWord (drives s && !spdErr (nePairOf s pair))

/-- A publication enters KEY (R207): a LOCAL doubt of it. -/
def pubKeyNote (kind i : Nat) (s : State) : State :=
  neEvt 4 (rlNote (kind * 65536 + i) 0x4040
    (fun n => localDoubt 0x4040 srcNE (w i) 0x4040 n) s)

/-! ### Sampled values -/

/-- smpSynch by the time state (R198). -/
def smpSynch (s : State) : Nat :=
  match s.tim.state with
  | .locked => 2
  | .holdover => 1
  | _ => if s.tim.everLocked then 1 else 0

/-- The state of an SV publication before it is judged. -/
def spGate (i : Nat) (s : State) : State :=
  let p := svPub s i
  let st : PubState := if !neEn s kSVPUB i then .off else if pubKeyOk s kSVPUB i then .run else .key
  let s := modSp i (fun p => { p with state := st, asdus := if st = .run then p.asdus else [] }) s
  if st = .key ∧ p.state ≠ .key then pubKeyNote kSVPUB i s else s

/-- Add the ASDU of a frame and send when the message is full, at ticks with k mod NASDU = 0 (R198): the frames k − NASDU
to k − 1, those that the publication built. -/
def spEmit (i k : Nat) (a : Asdu) (s : State) : State :=
  let n := field (neCfg s kSVPUB i 0) 16 3 + 1
  let p := svPub s i
  let all := (p.asdus ++ [a]).filter fun x => decide (k ≤ x.frame + n)
  if k % n = 0 then
    pubQueue kSVPUB i (.sv i (neAppid s kSVPUB i) all) (modSp i (fun p => { p with
      asdus := [], sent := p.sent + sentOne s (nePair s kSVPUB i), lastSmp := a.smpCnt }) s)
  else modSp i (fun p => { p with asdus := all }) s

/-- Words of a publication in the released output image. -/
def outWords (s : State) (base n : Nat) : List Word := (List.range n).map fun c => imgOutWord s (base + c)

/-- smpCnt of frame k − 1: (k − 1 − H) mod rate, in integers (R198). -/
def spCount (k : Nat) (s : State) : Nat := (k + (horizon s + 1) * rate s - 1 - horizon s) % rate s

/-- The ASDU of frame k − 1, with `sync` of T_{k−1} and the words of the output image (R198). -/
def spAsdu (s : State) (i k sync : Nat) : Asdu :=
  let b := 0x800 + 0x20 * i
  ⟨k - 1, neStr s kSVPUB i 16, neCfg s kSVPUB i 5, spCount k s, sync, outWords s b 8, outWords s (b + 8) 8⟩

/-- SP_i at the tick T_k: the ASDU of frame k − 1, with `sync` of T_{k−1} (R198). -/
def spRelease (i k sync : Nat) (s : State) : State :=
  let s := spGate i s
  if (svPub s i).state = .run then spEmit i k (spAsdu s i k sync) s else s

/-- A quality with validity invalid (R25). -/
def qInvalid (q : Word) : Word := (q &&& ~~~3#32) ||| 1#32

/-- SP_i at a tick after t_d, until plinth mode: every quality invalid (R25 step 4). DESIGN CHOICE (log 62): the manual does
not say which values these messages carry, no image being released any more; they carry the output image as it stands. -/
def spDoubt (i k sync : Nat) (s : State) : State :=
  if (svPub s i).state = .run then
    let bad (a : Asdu) : Asdu := { a with qual := a.qual.map qInvalid }
    spEmit i k (bad (spAsdu s i k sync)) (modSp i (fun p => { p with asdus := p.asdus.map bad }) s)
  else s

/-! ### GOOSE -/

/-- T1 and T0 of a publication in ms. -/
def gpT1 (s : State) (i : Nat) : Nat := min 1000 (max 1 (field (neCfg s kGOPUB i 1) 0 10))
def gpT0 (s : State) (i : Nat) : Nat := min 60000 (max 100 (field (neCfg s kGOPUB i 1) 10 16))

/-- Interval m of the retransmission curve in ms (R204). -/
def gpInterval (s : State) (i m : Nat) : Nat := min (2 ^ (min (m - 1) 16) * gpT1 s i) (gpT0 s i)

/-- Member words published. -/
def gpMembers (s : State) (i : Nat) : List Word :=
  outWords s (0x1000 + 0x40 * i + 8) (min 32 (max 1 (field (neCfg s kGOPUB i 7) 0 6)))

/-- Control word of a publication: FORCE and TEST. -/
def gpControl (s : State) (i : Nat) : Word := imgOutWord s (0x1000 + 0x40 * i)

/-- The state of a GOOSE publication before it is judged. -/
def gpGate (i : Nat) (s : State) : State :=
  let p := goPub s i
  let st : PubState := if !neEn s kGOPUB i then .off else if pubKeyOk s kGOPUB i then .run else .key
  let s := modGp i (fun p => { p with state := st }) s
  if st = .key ∧ p.state ≠ .key then pubKeyNote kGOPUB i s else s

/-- stNum + 1, skipping 0; the next sqNum of a retransmission. -/
def nextSt (st : Word) : Word := if st + 1 = 0 then 1 else st + 1
def nextSq (sq : Word) : Word := if sq + 1 = 0 then 1 else sq + 1

/-- One element of an encoded dataset from its word, and from a second one for a UtcTime (R200, R204). -/
def goElem (ty : Nat) (a b : Word) : GoVal :=
  match ty with
  | 1 => .boolean (a != 0)
  | 2 => .bits 32 a
  | 3 => .int a.toInt
  | 4 => .unsigned a.toNat
  | 5 => .float a
  | 6 => .utc a b
  | _ => .bits 13 (a &&& 0x1FFF)

/-- The members of a message, encoded by a type list (R204). DESIGN CHOICE (log 62): a reserved code gives no element, and
the list ends where the member words do. -/
def goEncode : List Nat → List Word → List GoVal
  | [], _ => []
  | 7 :: ts, ms => .structOpen :: goEncode ts ms
  | 8 :: ts, ms => .structClose :: goEncode ts ms
  | 6 :: ts, a :: b :: ms => .utc a b :: goEncode ts ms
  | t :: ts, a :: ms =>
    if t = 6 then [] else if t < 10 then goElem t a 0 :: goEncode ts ms else goEncode ts (a :: ms)
  | _ :: _, [] => []

/-- The message of a publication as its state stands (R204). -/
def gpMessage (s : State) (i tal : Nat) (members : List Word) : TxMsg :=
  let p := goPub s i
  .goose i (neAppid s kGOPUB i) (neStr s kGOPUB i 16) (neStr s kGOPUB i 32) (neStr s kGOPUB i 48) (neCfg s kGOPUB i 5)
    p.st p.sq tal (p.tRel / ntNs) p.test (goEncode (neTypes s kGOPUB i) members)

/-- Queue the message of a publication as its state stands. -/
def gpQueue (i tal : Nat) (members : List Word) (s : State) : State :=
  pubQueue kGOPUB i (gpMessage s i tal members)
    (modGp i (fun p => { p with sent := p.sent + sentOne s (nePair s kGOPUB i) }) s)

/-- A new state is due: members differ from the last published, or FORCE (R204). -/
def gpDiffers (s : State) (i : Nat) : Bool :=
  (gpControl s i).getLsbD 0 || (goPub s i).last != some (gpMembers s i)

/-- GP_i starts a new state at the releasing tick. -/
def gpNew (i : Nat) (s : State) : State :=
  let ms := gpMembers s i
  let iv := gpInterval s i 1
  gpQueue i (2 * iv) ms (modGp i (fun p => { p with
    st := nextSt p.st, sq := 0, last := some ms, test := (gpControl s i).getLsbD 1, tRel := ntCap s
    nextN := 1, dueMs := iv, interval := iv }) s)

/-- GP_i at a release. -/
def gpRelease (i : Nat) (s : State) : State :=
  let s := gpGate i s
  if (goPub s i).state = .run ∧ gpDiffers s i then gpNew i s else s

/-- A retransmission is due at the tick in force (R204). -/
def gpDue (s : State) (i : Nat) : Bool :=
  let p := goPub s i
  p.state == .run && p.last.isSome && decide (0 < p.nextN) && decide (p.tRel + p.dueMs * (ntSec / 1000) ≤ s.frm.ttick)

/-- Retransmission n: sqNum + 1, and the next one falls due after interval n + 1. -/
def gpAgain (i : Nat) (s : State) : State :=
  let p := goPub s i
  let iv := gpInterval s i (p.nextN + 1)
  gpQueue i (2 * iv) (p.last.getD []) (modGp i (fun p => { p with
    sq := nextSq p.sq, nextN := p.nextN + 1, dueMs := p.dueMs + iv, interval := iv }) s)

/-- GOOSE_RETRANSMIT: in the lane cycle of a tick. -/
def execGooseRetransmit (pub : Fin 64) (s : State) : Host.Outcome State Fault Refusal :=
  act (fun s => whenever (running s && tracks s && s.clk.tickph == 0 && gpDue s pub.val) (gpAgain pub.val) s) s

/-- Publications take the settings of the frame whose image is released; one whose identity a commit changed starts again
at stNum 1 (R209). -/
def pubSettings (s : State) : State :=
  { s with ne := { s.ne with
      pub := s.ne.act
      gp := vmap s.ne.gp fun _ p => if p.restart then { State.gp0 with sent := p.sent, state := p.state } else p } }

/-- Publication at a tick after the first (R38, R206): SV messages, then GOOSE new states. -/
def neRelease (k sync : Nat) (s : State) : State :=
  let s := pubSettings s
  if tracks s then forAll (List.range 64) gpRelease (forAll (List.range 8) (fun i s => spRelease i k sync s) s) else s

/-- A tick after t_d, before plinth mode: sampled values go on with invalid quality (R25), but not from a module whose
peer was STANDBY (R304). -/
def neDoubtTick (k sync : Nat) (s : State) : State :=
  let s := pubSettings s
  if drives s ∧ !s.hsb.failover then forAll (List.range 8) (fun i s => spDoubt i k sync s) s else s

/-! ### MODULE doubt -/

/-- Types of the member words of a publication, markers dropped, a UtcTime taking two words. -/
def wordTypes (ts : List Nat) : List Nat :=
  ts.flatMap fun t => if t = 7 ∨ t = 8 then [] else if t = 6 then [6, 6] else [t]

/-- Members of the last message (R205): qualities with validity invalid. -/
def lastMembers (s : State) (i : Nat) : List Word :=
  let ts := wordTypes (neTypes s kGOPUB i)
  ((goPub s i).last.getD []).zipIdx.map fun x =>
    if ts.getD x.2 0 = 9 then (x.1 &&& ~~~3#32) ||| 2#32 else x.1

/-- GP_i sends once more as a new state and stops (R25 step 4, R205). -/
def gpLast (i : Nat) (s : State) : State :=
  let p := goPub s i
  if p.state = .run then
    let s := if p.last.isSome then
        gpQueue i (2 * gpT1 s i) (lastMembers s i) (modGp i (fun p => { p with
          st := nextSt p.st, sq := 0, tRel := ntCap s, interval := gpT1 s i }) s)
      else s
    modGp i (fun p => { p with state := .halted, nextN := 0 }) s
  else s

/-- Step 4 of R25, once, of a driving module. -/
def doubtGoose (s : State) : State :=
  whenever s.sys.goosePending (fun s =>
    let s := { s with sys := { s.sys with goosePending := false } }
    if drives s then forAll (List.range 64) gpLast s else s) s

/-- DOUBT_GOOSE. -/
def execDoubtGoose (s : State) : Host.Outcome State Fault Refusal := act doubtGoose s

/-- Plinth mode stops sampled-value publication (R25 step 6). -/
def pubStop (s : State) : State :=
  { s with ne := { s.ne with
      sp := vmap s.ne.sp fun _ p => if p.state = .run then { p with state := .halted, asdus := [] } else p
      gp := vmap s.ne.gp fun _ p => if p.state = .run then { p with state := .halted } else p } }

/-! ### Commits (R209) -/

/-- Words of an object that differ between its staged and its active copy. -/
def neDiff (s : State) (kind i : Nat) : List Nat := where_ 64 fun n => neStg s kind i n != neAct s kind i n

/-- The type list of an object in a copy of the settings, up to its END. -/
def typesIn (m : List (Nat × Word)) (kind i : Nat) : List Nat :=
  ((List.range 32).map fun e => field (sget zeroWord m (neKey kind i (8 + e / 8))) (4 * (e % 8)) 4).takeWhile (· ≠ 0)

/-- A type list that nests deeper than two levels is refused when the commit seals it (R200). DEDUCED (log 62): the list in
force stays. -/
def sealTypes (old : List (Nat × Word)) (kind i : Nat) (s : State) : State :=
  if nestDeep (typesIn s.ne.act kind i) 0 then
    { s with ne := { s.ne with act := [8, 9, 10, 11].foldl (fun m n =>
        sput zeroWord (neKey kind i n) (sget zeroWord old (neKey kind i n)) m) s.ne.act } }
  else s

/-- A refused type list of a subscription shows and counts as a mismatch (R200, R208). -/
def sealNote (bad : Bool) (i : Nat) (s : State) : State :=
  if bad then gsChanged i (gsViol i gMIS 0x4020 (modGs i (fun g => { g with mismatch := true }) s)) else s

/-- What an applied commit does to an object whose old CTRL.EN was `was`, for the changed words `ch`. -/
def neCommitObj (f kind i : Nat) (was : Bool) (ch : List Nat) (s : State) : State :=
  let en := neEn s kind i
  match kind with
  | 0 =>
    if !en then svDisable i s
    else if !was then svEnable i s
    else if ch.any (fun n => n ≠ 1 ∧ n ≠ 6) then svRestart i f s else s
  | 1 =>
    if !en then (if was then gsOff i s else s)
    else
      let bad := nestDeep (typesIn s.ne.stg kind i) 0
      sealNote bad i
        (if !was ∨ ch.any (fun n => n ≠ 1 ∧ n ≠ 6 ∧ !(bad && 8 ≤ n && n ≤ 11)) then gsWait i s else s)
  | 3 =>
    if ch.any (fun n => n ≠ 1 ∧ n ≠ 6) then modGp i (fun p => { p with restart := true }) s else s
  | _ => s

/-- Objects that a commit changes. -/
def neChanged (s : State) : List (Nat × Nat) :=
  [kSVSUB, kGSSUB, kSVPUB, kGOPUB].flatMap fun kind =>
    (where_ (neCount kind) fun i => !(neDiff s kind i).isEmpty).map fun i => (kind, i)

/-- The NE group applies at T_f (R209): active copies follow the staged ones, and each changed object reacts. -/
def neCommit (f : Nat) (s : State) : State :=
  let objs := (neChanged s).map fun x => (x.1, x.2, (neAct s x.1 x.2 0).getLsbD 0, neDiff s x.1 x.2)
  let old := s.ne.act
  let s := { s with ne := { s.ne with act := s.ne.stg } }
  let s := objs.foldl (fun s x => if x.1 % 2 = 1 then sealTypes old x.1 x.2.1 s else s) s
  objs.foldl (fun s x => neCommitObj f x.1 x.2.1 x.2.2.1 x.2.2.2 s) s

/-! ### Counters -/

/-- NE_CTL.CLR_CNT: every counter of every port and object to 0, and TIM_CNT_n. -/
def neClrCntOp : RegOp := always fun s =>
  { s with
    ne := { s.ne with
      portCnt := Vector.replicate 12 (Vector.replicate 8 0)
      sv := vmap s.ne.sv fun _ v => { v with cnt := Vector.replicate 9 0 }
      gs := vmap s.ne.gs fun _ g => { g with cnt := Vector.replicate 7 0 }
      sp := vmap s.ne.sp fun _ p => { p with sent := 0 }
      gp := vmap s.ne.gp fun _ p => { p with sent := 0 } }
    tim := { s.tim with cnt := Vector.replicate 12 (Vector.replicate 8 0) } }

/-- NE_CLR_CNT. -/
def execNeClrCnt (sid : Fin 4) (s : State) : Host.Outcome State Fault Refusal :=
  act (hostDo sid.val roleOPERATOR neClrCntOp) s

end Sys2Proof.Machine
end

