-- ==== Sys2Proof/Machine/NeImage.lean ====
section
/-! DEFINITION. The input image (R190, R191): every word of frame k as it is latched at T_k, and its writing. -/
namespace Sys2Proof.Machine

/-- A stream in LOST shows LOST and every INV bit (R196), also in the frame of the commit that put it there, whose entry
was closed before it (R209, log 35). -/
def svLostMark (s : State) (i : Nat) : Word := if (svSub s i).state = .lost then lostBits else 0

/-- Sample and quality words of the enabled streams at count k − H (R193, R194). -/
def svImage (s : State) (k : Nat) : List (Nat × Word) :=
  (where_ 24 fun i => (svSub s i).state ≠ .off).flatMap fun i =>
    (0xC0 + i, (shWord s (qualAddr s i (k - horizon s)) &&& ~~~0x20000#32) ||| svLostMark s i)
    :: (List.range 8).map fun c => (8 * i + c, shWord s (histAddr s i c (k - horizon s)))

/-- Words 0x0118 to 0x011B (R191). -/
def keyStatusWords (s : State) : List Word :=
  let gp (first : Nat) : Word := bitsWord 32 fun i => (goPub s (first + i)).state == .key
  let any (st : SlotState) : Bool := s.key.slots.toList.any fun k => k.state == st
  [gp 0, gp 32, bitsWord 8 fun i => (svPub s i).state == .key,
   bitWord (!s.key.rngOk) ||| (bitWord (any .bad) <<< 1) ||| (bitWord (any .locked) <<< 2)
   ||| (bitWord (s.rtc.tamp.toList.any fun t => t.latched) <<< 3)]

/-- Codes of HSB_STS. -/
def Role.code : Role → Nat
  | .alone => 0 | .syncing => 1 | .active => 2 | .standby => 3 | .diverged => 4

/-- The peer's role as shown (R5, HSB_STS.PEER): 7 if none. DESIGN CHOICE (log 62): the register's Reset column gives 0 and
its Effect column 7 for no peer; with no peer heard the field reads 7, from reset on. -/
def peerCode (s : State) : Nat :=
  match s.hsb.peerRole with
  | some r => r.code
  | none => 7

/-- Words 0x0700 to 0x0702 (R297). -/
def hsbWords (s : State) : List Word :=
  [w s.hsb.role.code ||| at_ (peerCode s) 4 ||| (bitWord (vget false s.hsb.link 0) <<< 8)
     ||| (bitWord (vget false s.hsb.link 1) <<< 9) ||| (bitWord s.hsb.beaconSeen <<< 10),
   s.hsb.switchovers, s.hsb.switchK]

/-- Network time words at T_k, with its flags (words 0x0106 to 0x0108). -/
def tickTimeWords (s : State) : List Word :=
  let t := s.frm.ttick
  [w (t % ntSec / ntNs), w (t / ntSec),
   w (t / ntSec / 2 ^ 32 % 2 ^ 16) ||| (BitVec.setWidth 32 s.frm.ttFlags <<< 16)]

/-- The event word as four words. -/
def evwWords (s : State) : List Word := (List.range 4).map fun i => (s.frm.evw >>> (32 * i)).setWidth 32

/-- Consecutive words placed from a base. -/
def placeWords (base : Nat) (ws : List Word) : List (Nat × Word) := ws.zipIdx.map fun x => (base + x.2, x.1)

/-- Every word of the image but the CAN mirrors, as it stands at T_k. -/
def imageWords (s : State) (k : Nat) : List (Nat × Word) :=
  svImage s k ++ placeWords 0x100 (evwWords s) ++ placeWords 0x104 [w k, w (k / 2 ^ 32)]
  ++ placeWords 0x106 (tickTimeWords s) ++ placeWords 0x110 ((List.range 6).map (pairSts s))
  ++ placeWords 0x118 (keyStatusWords s)
  ++ (fioWords s).map (fun x => (0x200 + x.1, x.2)) ++ placeWords 0x700 (hsbWords s)
  ++ (List.range 256).flatMap (fun i => (gsBlock (gsAtTick s i)).map fun x => (0x1000 + 0x40 * i + x.1, x.2))
  ++ s.eq.words.filter fun x => decide (0x5000 ≤ x.1 ∧ x.1 < 0x8000)

/-- Words listed as frozen: zero words are not. -/
def frozenOf (ws : List (Nat × Word)) : List (Nat × Word) := freezeAt 0 ws []

/-- The freeze of frame k (R35 step 4, R36). -/
def freeze (k : Nat) (s : State) : State :=
  let mir := (List.range 4).map fun n => canFreeze s.clk.cyc (canCtl s n)
  let can := mir.zipIdx.flatMap fun x => x.1.1.map fun y => (0x300 + x.2 * 0x100 + y.1, y.2)
  let ws := imageWords s k ++ can
  fioFrozen { s with
    can := ⟨vmap s.can.ctl fun _ c => (canFreeze s.clk.cyc c).2⟩
    ne := { s.ne with
      frozen := frozenOf ws } }

/-- Bit 51 of the event word, by words 0x0118 to 0x011B of this frame and the last (R39): the record carries it. -/
def judgeKeyWords (s : State) : State :=
  let now := (List.range 4).map fun i => sget zeroWord s.ne.frozen (0x118 + i)
  if now = s.frm.keyWords then s
  else
    let s := { s with frm := { s.frm with keyWords := now, evw := setBit s.frm.evw 51 } }
    { s with ne := { s.ne with frozen := freezeAt 0 (placeWords 0x100 (evwWords s)) s.ne.frozen } }

/-- Write the frozen image to its area: words not listed read 0 (R190). -/
def writeImage (s : State) : State :=
  let b := areaBase s 0
  let s := { s with mem := { s.mem with shared := sclear b (b + lenIn) s.mem.shared } }
  s.ne.frozen.foldl (fun s x => shPutW (b + 4 * x.1) x.2 s) s

end Sys2Proof.Machine
end

