-- ==== Sys2Proof/Machine/Image.lean ====
section
/-! DEFINITION. Program images (R145 to R151): their tables as read from bytes, the checks of LOAD (R146), and the
checks of the verifier that R158 lists before placement. -/
namespace Sys2Proof.Machine

/-- A number of `n` bytes at an offset of an image. -/
def imgNat (bs : List Byte) (off n : Nat) : Nat := leNat ((bs.drop off).take n)

/-- An access entry (R149). -/
structure Acc where
  kind : Nat
  count : Nat
  first : Nat
  deriving DecidableEq, Repr

/-- A relocation entry (R148). -/
structure Reloc where
  bundle : Nat
  slot : Nat
  kind : Nat
  id : Nat
  deriving DecidableEq, Repr

/-- A segment record with its entries (R147). `sound` says that its reserved bytes are 0 and its ranges lie inside. -/
structure Seg where
  segId : Nat
  cls : Nat
  trap : Nat
  wcs : Nat
  nstall : Nat
  dstack : Nat
  rdepth : Nat
  nbundle : Nat
  codeOff : Nat
  accs : List Acc
  relocs : List Reloc
  sound : Bool
  deriving DecidableEq, Repr

/-- A program image. -/
structure Img where
  bytes : List Byte
  imageId : Nat
  chiselId : Nat
  classes : Nat
  m : Nat
  s : Nat
  digest : List Byte
  segs : List Seg
  deps : List (Nat × Nat)
  vars : List VarInfo
  edges : List (Nat × Nat)
  batons : List (Nat × Nat)
  /-- Every record outside the segments obeys its own ranges and reserved bytes. -/
  sound : Bool
  deriving DecidableEq, Repr

/-! ### LOAD (R146) -/

/-- The tables that the header locates: count, record size, offset. -/
def imgTables (bs : List Byte) : List (Nat × Nat × Nat) :=
  let h := imgNat bs
  [(h 0x16 2, 32, h 0x20 4), (h 0x34 4, 8, h 0x24 4), (h 0x18 2, 16, h 0x28 4), (h 0x1A 2, 8, h 0x2C 4),
   (h 0x1C 2, 4, h 0x30 4)]

/-- A table lies between the header and the trailer; an empty one has no extent. -/
def tableInside (len : Nat) (t : Nat × Nat × Nat) : Bool :=
  t.1 == 0 || (decide (64 ≤ t.2.2) && decide (t.2.2 + t.1 * t.2.1 ≤ len - 32))

/-- The header check of R146 step 1. -/
def headerOk (bs : List Byte) (len : Nat) : Bool :=
  let h := imgNat bs
  bs.length == len && decide (96 ≤ len ∧ len ≤ 0x400000 ∧ len % 32 = 0) && h 0 4 == 0x4D514349 && h 4 2 == 1
  && (crc32c (bs.take 0x3C)).toNat == h 0x3C 4 && h 0x1E 2 == 0 && decide (h 0x10 1 < 64 ∧ h 0x11 1 < 16)
  && decide (1 ≤ h 0x16 2 ∧ h 0x16 2 ≤ 4096) && decide (h 0x1C 2 ≤ 256) && h 0x0C 4 == len
  && (imgTables bs).all (tableInside len)

/-- The trailer digest holds (R145). -/
def digestOk (bs : List Byte) : Bool := sha256 (bs.take (bs.length - 32)) == bs.drop (bs.length - 32)

/-- Result of steps 2 to 4 of R146 for a rate code. -/
def loadTail (bs : List Byte) (rate : Nat) : Option Nat :=
  if imgNat bs 6 2 ≠ 1 then some 0x2002
  else if ¬ (imgNat bs 0x10 1).testBit rate then some 0x2003
  else if !digestOk bs then some 0x2004
  else none

/-- Result of LOAD's checks (R146): `none` when the image passes. -/
def loadCheck (bs : List Byte) (len rate : Nat) : Option Nat :=
  if !headerOk bs len then some 0x2001 else loadTail bs rate

/-! ### Reading the tables -/

/-- A range lies between the header and the trailer. -/
def rangeInside (len off size : Nat) : Bool := decide (64 ≤ off ∧ off + size ≤ len - 32)

/-- The access entry at an offset, and whether it is sound. -/
def readAcc (bs : List Byte) (o : Nat) : Acc × Bool :=
  (⟨imgNat bs o 1, imgNat bs (o + 2) 2, imgNat bs (o + 4) 4⟩, imgNat bs (o + 1) 1 == 0 && decide (imgNat bs o 1 ≤ 8))

/-- The relocation entry at an offset, and whether it is sound. -/
def readReloc (bs : List Byte) (o : Nat) : Reloc × Bool :=
  (⟨imgNat bs o 2, imgNat bs (o + 2) 1, imgNat bs (o + 3) 1, imgNat bs (o + 4) 4⟩,
   decide (1 ≤ imgNat bs (o + 3) 1 ∧ imgNat bs (o + 3) 1 ≤ 4))

/-- The segment record at an offset (R147). -/
def readSeg (bs : List Byte) (len o : Nat) : Seg :=
  let h (k n : Nat) : Nat := imgNat bs (o + k) n
  let nb := h 0x0E 2
  let nacc := h 0x16 2
  let nrel := h 0x14 2
  let inside := rangeInside len (h 0x10 4) (32 * nb) && (nacc == 0 || rangeInside len (h 0x1C 4) (8 * nacc))
    && (nrel == 0 || rangeInside len (h 0x18 4) (8 * nrel))
  let accs := if inside then (List.range nacc).map fun i => readAcc bs (h 0x1C 4 + 8 * i) else []
  let rels := if inside then (List.range nrel).map fun i => readReloc bs (h 0x18 4 + 8 * i) else []
  ⟨h 0 2, h 2 1, h 3 1, h 4 4, h 8 2, h 0x0A 2, h 0x0C 1, nb, h 0x10 4, accs.map (·.1), rels.map (·.1),
   inside && h 0x0D 1 == 0 && h 0x10 4 % 32 == 0 && decide (h 2 1 ≤ 3) && decide (1 ≤ nb ∧ nb ≤ 4096)
     && (h 3 1) &&& 0xAF == 0 && accs.all (·.2) && rels.all (·.2)⟩

/-- The variable record at an offset (R151), and whether it is sound. -/
def readVar (bs : List Byte) (len o : Nat) : VarInfo × Bool :=
  let h (k n : Nat) : Nat := imgNat bs (o + k) n
  let size := h 4 4
  (⟨h 0 4, size, h 8 1, h 9 1, h 0x0A 2, h 0x0C 4, 0⟩,
   decide (4 ≤ size ∧ size ≤ 0x800000 ∧ size % 4 = 0) && decide (h 8 1 ≤ 6) && decide (h 9 1 < 4)
     && ((h 9 1).testBit 1 || rangeInside len (h 0x0C 4) size))

/-- A whole image that has passed LOAD. DESIGN CHOICE (log 62): the SEGIDs of a dependency edge lie at offsets 0 and 2, and
bytes 4 to 7 are its reserved bytes (R150). -/
def readImg (bs : List Byte) : Img :=
  let h := imgNat bs
  let len := bs.length
  let rows (off size n : Nat) : List Nat := (List.range n).map fun i => off + size * i
  let segs := (rows (h 0x20 4) 32 (h 0x16 2)).map (readSeg bs len)
  let deps := rows (h 0x24 4) 8 (h 0x34 4)
  let vars := (rows (h 0x28 4) 16 (h 0x18 2)).map (readVar bs len)
  let edges := rows (h 0x2C 4) 8 (h 0x1A 2)
  let batons := rows (h 0x30 4) 4 (h 0x1C 2)
  { bytes := bs, imageId := h 0x38 4, chiselId := h 8 4, classes := h 0x11 1, m := h 0x12 2, s := h 0x14 2
    digest := bs.drop (len - 32), segs := segs
    deps := deps.map fun o => (h o 2, h (o + 2) 2)
    vars := vars.map (·.1)
    edges := edges.map fun o => (h o 4, h (o + 4) 1)
    batons := batons.map fun o => (h o 1, h (o + 1) 1)
    sound := deps.all (fun o => h (o + 4) 4 == 0) && vars.all (·.2)
      && edges.all (fun o => decide (h (o + 4) 1 ≤ 1) && h (o + 5) 3 == 0)
      && batons.all (fun o => decide (h (o + 1) 1 ≤ 3) && h (o + 2) 2 == 0) }

/-! ### What segments declare -/

/-- Items that a segment declares of a kind (R149), in rising order. -/
def declared (k : Nat) (sg : Seg) : List Nat :=
  (sg.accs.filter (·.kind == k)).flatMap fun a => (List.range a.count).map (a.first + ·)

/-- Words that the segments of a class declare of a kind, rising and without repeats. -/
def classWords (k cls : Nat) (segs : List Seg) : List Nat :=
  (((segs.filter (·.cls == cls)).flatMap (declared k)).mergeSort).eraseDups

/-- Bundle `i` of a segment's code. -/
def segBundle (im : Img) (sg : Seg) (i : Nat) : Nat := imgNat im.bytes (sg.codeOff + 32 * i) 32

/-! ### The verifier (R158) -/

/-- A refusal: code, item, detail 1 and detail 2 of the report (R160). -/
structure Refuse where
  code : Nat
  item : Nat
  d1 : Nat
  d2 : Nat
  deriving DecidableEq, Repr

/-- The first of several possible refusals. -/
def firstRefusal (xs : List (Option Refuse)) : Option Refuse := xs.findSome? id

/-- Refuse when a condition holds. -/
def refuseIf (c : Bool) (code item d1 d2 : Nat) : Option Refuse := if c then some ⟨code, item, d1, d2⟩ else none

/-- CLASS of R158. -/
def classRefusal (im : Img) : Option Refuse :=
  let has (c : Nat) : Bool := im.classes.testBit c
  firstRefusal
    [im.segs.findSome? fun sg => refuseIf (decide (sg.cls ≤ 3) && !has sg.cls) 0x2006 sg.segId 0 0,
     refuseIf ((List.range 4).any fun c => has c && !im.segs.any (·.cls == c)) 0x2006 0 0 0,
     refuseIf (if has 1 then decide (im.m < 2 ∨ 64 < im.m) else im.m != 0) 0x2006 0 0 0,
     refuseIf (if has 2 then decide (im.s < 2 ∨ 4096 < im.s) else im.s != 0) 0x2006 0 0 0,
     refuseIf (has 1 && has 2 && im.s % im.m != 0) 0x2006 0 0 0]

/-- Bytes of an image's variables. -/
def varBytes (vs : List VarInfo) : Nat := vs.foldl (fun n v => n + v.size) 0

/-- Payload of the retained record (R323). -/
def retainBytes (vs : List VarInfo) : Nat :=
  4 + (vs.filter fun v => v.flags.testBit 0).foldl (fun n v => n + 12 + v.size) 0

/-- Variables of the predecessor that an image carries: equal VID, TYPE, SIZE and TTAG (R156, R166). -/
def sameVar (a b : VarInfo) : Bool := a.vid == b.vid && a.typ == b.typ && a.size == b.size && a.ttag == b.ttag
def carriedFrom (old : List VarInfo) (v : VarInfo) : Option VarInfo := old.find? (sameVar v)

/-- SIZE of R158, as far as the image and the running variables decide it. -/
def sizeRefusal (im : Img) (old : List VarInfo) : Option Refuse :=
  let kept := varBytes (old.filter fun v => !im.vars.any (sameVar v))
  firstRefusal
    [refuseIf (decide (0x800000 < varBytes im.vars + kept)) 0x2007 0 0 0,
     refuseIf (decide (65516 < retainBytes im.vars)) 0x2007 0 0 0,
     refuseIf (decide (65536 < im.segs.foldl (fun n sg => n + sg.nbundle) 0)) 0x2007 0 0 0,
     refuseIf ([1, 2].any fun c => decide (16384 < (classWords 0 c im.segs).length)) 0x2007 0 0 0]

/-- First slot of a pair of moves that satisfies a relation and whose guards can both pass. -/
def clashing (r : Mv → Mv → Bool) (ms : List Mv) : Option Mv := firstPair (fun a b => r a b && bothCanPass a.g b.g) ms

/-- A move starts a shared access (R172). -/
def sharedMove (m : Mv) : Bool :=
  match trigOf m.dst with
  | some (.lsu, op) => op == 0x18 || op == 0x19
  | some (.img, _) => true
  | _ => false

/-- A transfer trigger, and a REP trigger (R117, R118). -/
def transferMove (m : Mv) : Bool :=
  match trigOf m.dst with
  | some (.ctl, op) => decide (op ≤ 0x14)
  | _ => false
def repMove (m : Mv) : Bool :=
  match trigOf m.dst with
  | some (.rep, _) => true
  | _ => false

/-- Slot at which a bundle breaks R53 to R58, R65, R70, R118, R139 or R172. -/
def bundleFault (b : Nat) : Option Nat :=
  let ms := movesOf b
  if reservedOf b ≠ 0 ∨ fmtOf b = 3 then some 0
  else if fmtOf b = 2 then (if (b >>> 52) % 2 ^ 196 ≠ 0 then some 0 else none)
  else if formBad b then some (((List.range 8).find? (badForm b)).getD 0)
  else match ms.find? (fun m => (portFault m).isSome), clashing collide ms,
      clashing (fun a c => sharedMove a && sharedMove c) ms,
      clashing (fun a c => (transferMove a && repMove c) || (repMove a && transferMove c)) ms with
    | some m, _, _, _ => some m.slot
    | none, some m, _, _ => some m.slot
    | none, none, some m, _ => some m.slot
    | none, none, none, x => x.map (·.slot)

/-- A relocation names an immediate of a bundle and an identity that the image declares (R148). -/
def relocOk (im : Img) (sg : Seg) (r : Reloc) : Bool :=
  let b := segBundle im sg r.bundle
  decide (r.bundle < sg.nbundle ∧ r.slot < 8 ∧ fmtOf b < 2) && slotMoves b r.slot
  && (isLongMove b r.slot || decide (0x10000 ≤ slotSrc (slotBits b r.slot)))
  && (if r.kind = 2 then im.vars.any (·.vid == r.id) else if r.kind = 1 then true else im.edges.any (·.1 == r.id))

/-- VERIFY of R158, as far as single bundles and records decide it. -/
def verifyRefusal (im : Img) : Option Refuse :=
  firstRefusal
    [refuseIf (!im.sound) 0x2008 0 0 0,
     im.segs.findSome? fun sg =>
       if !sg.sound then some ⟨0x2008, sg.segId, 0, 0⟩
       else firstRefusal
         [(List.range sg.nbundle).findSome? fun i =>
            (bundleFault (segBundle im sg i)).map fun k => Refuse.mk 0x2008 sg.segId i k,
          sg.relocs.findSome? fun r => refuseIf (!relocOk im sg r) 0x2008 sg.segId r.bundle r.slot]]

/-- A number occurs twice. -/
def repeats : List Nat → Bool
  | [] => false
  | a :: t => t.contains a || repeats t

/-- Segments that must be taken before `sg` within its class (R154): producers, and posters of a baton it waits on. -/
def before (im : Img) (sg p : Seg) : Bool :=
  p.cls == sg.cls && p.segId != sg.segId &&
    (im.deps.contains (p.segId, sg.segId) || (declared 7 p).any fun b => (declared 8 sg).contains b)

/-- Cost with the bound of far banks (R153). -/
def cost25 (sg : Seg) : Nat := sg.wcs + sg.nstall * 25

/-- Of two segments, the one to take first (R154). -/
def firstTaken (a b : Seg) : Seg :=
  if cost25 b < cost25 a then a else if cost25 a < cost25 b then b else if b.segId < a.segId then b else a

/-- The order of placement within one class; `none` when a cycle leaves segments that wait for one another. -/
def orderClass (im : Img) : Nat → List Seg → Option (List Seg)
  | _, [] => some []
  | 0, _ :: _ => none
  | n + 1, left =>
    match left.filter fun sg => !left.any (before im sg) with
    | [] => none
    | a :: t =>
      let x := t.foldl firstTaken a
      (orderClass im n (left.erase x)).map (x :: ·)

/-- The order of placement (R154). -/
def placeOrder (im : Img) : Option (List Seg) :=
  let cls (c : Nat) : Option (List Seg) := orderClass im im.segs.length (im.segs.filter (·.cls == c))
  match cls 0, cls 1, cls 2, cls 3 with
  | some a, some b, some c, some d => some (a ++ b ++ c ++ d)
  | _, _, _, _ => none

/-- Class of a segment by identity. -/
def clsOf (im : Img) (id : Nat) : Option Nat := (im.segs.find? (·.segId == id)).map (·.cls)

/-- A dependency edge obeys R150. -/
def depOk (im : Img) (d : Nat × Nat) : Bool :=
  match clsOf im d.1, clsOf im d.2 with
  | some a, some b => d.1 != d.2 && (a == b || (a == 0 && (b == 1 || b == 2)))
  | _, _ => false

/-- GRAPH of R158. -/
def graphRefusal (im : Img) : Option Refuse :=
  let unknown (sg : Seg) : Bool :=
    (declared 4 sg ++ declared 5 sg).any (fun i => !im.vars.any (·.vid == i))
    || (declared 6 sg).any (fun i => !im.edges.any (·.1 == i))
    || (declared 7 sg ++ declared 8 sg).any (fun i => !im.batons.any (·.1 == i))
  let uses (b c : Nat) : Bool := im.segs.any fun sg => sg.cls == c && (declared 7 sg ++ declared 8 sg).contains b
  firstRefusal
    [refuseIf (repeats (im.segs.map (·.segId)) || repeats (im.vars.map (·.vid)) || repeats (im.edges.map (·.1))
       || repeats (im.batons.map (·.1))) 0x2009 0 0 0,
     im.segs.findSome? fun sg => refuseIf (unknown sg) 0x2009 sg.segId 0 0,
     im.deps.findSome? fun d => refuseIf (!depOk im d) 0x2009 d.2 0 0,
     refuseIf (placeOrder im).isNone 0x2009 0 0 0,
     im.segs.findSome? fun sg => refuseIf (sg.cls == 3 && declared 1 sg != []) 0x2009 sg.segId 0 0,
     im.segs.zipIdx.findSome? fun (sg, k) => refuseIf ((declared 1 sg).any fun i =>
       (im.segs.take k).any fun o => o.cls != sg.cls && (declared 1 o).contains i) 0x2009 sg.segId 0 0,
     im.batons.findSome? fun b => refuseIf ((List.range 4).any fun c => c != b.2 && uses b.1 c) 0x2009 b.1 0 0]

/-- STACK of R158. -/
def stackRefusal (im : Img) : Option Refuse :=
  im.segs.findSome? fun sg => refuseIf (decide (4096 < sg.dstack ∨ 64 < sg.rdepth)) 0x200A sg.segId 0 0

/-- Refusals of R158 that need no placement, in the order of its table. -/
def staticRefusal (im : Img) (active staged : Word) (old : List VarInfo) : Option Refuse :=
  firstRefusal
    [refuseIf (im.chiselId != active.toNat && im.chiselId != staged.toNat) 0x2005 0 0 0,
     classRefusal im, sizeRefusal im old, verifyRefusal im, graphRefusal im, stackRefusal im]

end Sys2Proof.Machine
end

