-- ==== Sys2Proof/Machine/Verify.lean ====
section
/-! DEFINITION. The verifier's analysis of the paths of a placed segment (R158): a unit triggered while busy (R69, R83),
a CMP predicate write that collides (R100), the stacks at END (R120, R126), repetitions (R130, R131), the targets of
transfers (R117). Every path is followed on which each guard passes or fails as its predicate does, which is unknown until
a guard tests it and again once it is written. -/
namespace Sys2Proof.Machine

/-- Where a path stands: before the bundle at its index, or at a place of a repeated body whose passes left are known or
not, with a BREAK taken in this pass. -/
inductive PathPos where
  | bundle
  | body (first len pos : Nat) (left : Option Nat) (brk : Bool)
  deriving DecidableEq, Repr

/-- What the verifier knows at a point of a path. -/
structure PathState where
  pc : Nat
  pos : PathPos
  rstack : List Nat
  /-- Words on the data stack above the segment's entry, where known. -/
  depth : Option Nat
  /-- Steps for which DIV, FPU and CRD are still busy (R83). -/
  divBusy : Nat
  fpuBusy : Nat
  crdBusy : Nat
  /-- PSEL of the CMP unit, where known (R99). -/
  psel : Option Nat
  /-- Predicates that a CMP of the step before may write in this step (R100). -/
  pend : BitVec 8
  /-- Predicates whose value is known, and the values. -/
  known : BitVec 8
  vals : BitVec 8
  deriving DecidableEq, Repr

/-- What the paths of a lane are judged against: its placed bundles, the chisel table, the values of ports that no
program changes, and the verdict on a transfer whose target comes from another port. -/
structure PathCtx where
  code : Nat → Option Nat
  entry : Nat → ChiselEntry
  lane : Nat
  open_ : Nat → Bool

/-- What a step of a path shows: a refusal with its code and slot, or the states that may follow. -/
inductive PathStep where
  | bad (code slot : Nat)
  | go (next : List PathState)

/-! ### Guards -/

/-- Settle the predicates of a list of guards in every way that agrees with what is known. -/
def settleGuards : List Nat → PathState → List PathState
  | [], x => [x]
  | g :: t, x =>
    let i := g % 8
    if i = 0 ∨ x.known.getLsbD i then settleGuards t x
    else
      let on (b : Bool) : PathState := { x with known := setBit x.known i, vals := putBit x.vals i b }
      settleGuards t (on true) ++ settleGuards t (on false)

/-- A guard passes on settled predicates. -/
def pathGuard (x : PathState) (g : Nat) : Bool := guardOk (setBit x.vals 0) g

/-- Predicates forgotten. -/
def forget (m : BitVec 8) (x : PathState) : PathState := { x with known := x.known &&& ~~~m }

/-! ### The effect of a step on what is known -/

/-- The immediate that a move carries, or the value of a port that no program changes. -/
def pathValue (lane : Nat) (m : Mv) : Option Word :=
  match m.src with
  | .imm v => some v
  | .port 0x048 => some 0
  | .port 0x049 => some 0xFFFFFFFF
  | .port 0x04A => some (w lane)
  | .port 0x04B => some (w (lane / 4))
  | .port 0x055 => some 1
  | .port _ => none

/-- The trigger of a unit among the moves that take effect. -/
def pathTrigger (u : UnitId) (ms : List Mv) : Option (Nat × Mv) :=
  ms.findSome? fun m => match trigOf m.dst with
    | some (v, op) => if v = u then some (op, m) else none
    | none => none

/-- A unit is triggered while it is busy. -/
def busyFault (x : PathState) (ms : List Mv) : Option Mv :=
  let hit (u : UnitId) (n : Nat) : Option Mv := if n = 0 then none else (pathTrigger u ms).map (·.2)
  (hit .div x.divBusy).or ((hit .fpu x.fpuBusy).or (hit .crd x.crdBusy))

/-- A move writes a predicate in the step in which a CMP write to it lands (R100). -/
def predFault (x : PathState) (ms : List Mv) : Option Mv :=
  ms.find? fun m => decide (0x040 ≤ m.dst ∧ m.dst < 0x048) && x.pend.getLsbD (m.dst - 0x040)

/-- Predicates that a CMP may write with the PSEL in force. -/
def cmpTargets : Option Nat → BitVec 8
  | none => 0xFE
  | some p => if p / 8 % 4 = 3 then 0 else clrBit (setBit 0 (p % 8)) 0

/-- The units, PSEL and predicates after the moves of a step. -/
def afterMoves (c : PathCtx) (ms : List Mv) (x : PathState) : PathState :=
  let busy (u : UnitId) (n lat : Nat) (long : Nat → Bool) : Nat := match pathTrigger u ms with
    | some (op, _) => if long op then lat - 1 else n - 1
    | none => n - 1
  let psel := match ms.find? (·.dst == unitBase .cmp + 2) with
    | some m => (pathValue c.lane m).map fun v => v.toNat % 32
    | none => x.psel
  let pred (x : PathState) (m : Mv) : PathState :=
    if 0x041 ≤ m.dst ∧ m.dst < 0x048 then
      match pathValue c.lane m with
      | some v => { x with known := setBit x.known (m.dst - 0x040), vals := putBit x.vals (m.dst - 0x040) (v.getLsbD 0) }
      | none => { x with known := clrBit x.known (m.dst - 0x040) }
    else x
  { ms.foldl pred x with
    divBusy := busy .div x.divBusy 18 fun _ => true
    fpuBusy := busy .fpu x.fpuBusy 12 longFpu
    crdBusy := busy .crd x.crdBusy 24 fun _ => true
    psel := psel
    pend := if (pathTrigger .cmp ms).isSome then cmpTargets psel else 0 }

/-- A step without a bundle: time passes, and a CMP write lands. -/
def quietPath (n : Nat) (x : PathState) : PathState :=
  if n = 0 then x
  else { forget x.pend x with divBusy := x.divBusy - n, fpuBusy := x.fpuBusy - n, crdBusy := x.crdBusy - n, pend := 0 }

/-- The data stack after a step; `none` when the step faults at run time, and a refusal when the stack may overflow. -/
def pathStack (c : PathCtx) (ms : List Mv) (x : PathState) : Option (Option Nat) × Bool :=
  match pathTrigger .dsk ms, x.depth with
  | some (0x10, _), some d => if 4096 ≤ d then (none, true) else (some (some (d + 1)), false)
  | some (0x11, _), some d => if d = 0 then (none, false) else (some (some (d - 1)), false)
  | some (0x13, m), some d => match pathValue c.lane m with
    | some v => if d < v.toNat then (none, false) else (some (some (d - v.toNat)), false)
    | none => (some none, false)
  | _, d => (some d, false)

/-! ### Repetition -/

/-- Bundles from index `i` that are repeat-marked, at most `n`. -/
def markedRun (c : PathCtx) : Nat → Nat → List Nat
  | 0, _ => []
  | n + 1, i => match c.code i with
    | some b => if fmtOf b = 1 then b :: markedRun c n (i + 1) else []
    | none => []

/-- A body holds a move that R131 forbids in one. -/
def bodyForbidden (b : Nat) : Option Mv := (movesOf b).find? fun m => m.dst == 0x3C0 || bodyIgnored m

/-- RUN from bundle `p` with count `t`, where known: the setup step, then the body or what follows it (R130, R131). -/
def pathRun (c : PathCtx) (p slot : Nat) (t : Option Word) (x : PathState) : PathStep :=
  let body := markedRun c 16 (p + 1)
  let n := body.length
  let y := quietPath 1 x
  let skip : PathState := { y with pc := p + 1 + n, pos := .bundle }
  let into : PathState := { y with pc := p + 1, pos := .body (p + 1) n 0 (t.map BitVec.toNat) false }
  if body = [] ∨ (body.findSome? bodyForbidden).isSome then .bad 0x2008 slot
  else match t with
    | some 0 => .go [skip]
    | some _ => .go [into]
    | none => .go [skip, into]

/-- Element steps that a block operation takes at the least. -/
def leastElements (op : Nat) (t : Option Word) : Nat :=
  match t with
  | none => 0
  | some v => if v = 0 then 0 else if op = 0x11 ∨ op = 0x14 then v.toNat else 1

/-! ### The steps of a path -/

/-- What follows the moves of a step at bundle `p`: a transfer, a repetition, or `after`. -/
def pathNext (c : PathCtx) (p : Nat) (ms : List Mv) (after : PathState → List PathState) (x : PathState) : PathStep :=
  let jump (m : Mv) (a : Option Nat) (f : PathState → PathState) : PathStep :=
    match a with
    | some a => if 4095 < a then .bad 0x2008 m.slot else .go [{ f x with pc := a, pos := .bundle }]
    | none => if c.open_ p then .bad 0x2008 m.slot else .go []
  match pathTrigger .ctl ms with
  | some (0x10, m) => jump m ((pathValue c.lane m).map BitVec.toNat) id
  | some (0x11, m) => jump m ((pathValue c.lane m).map fun v => (BitVec.ofNat 32 p + v).toNat) id
  | some (0x12, m) =>
    if p = 4095 then .bad 0x2008 m.slot
    else if 64 ≤ x.rstack.length then .bad 0x200A m.slot
    else jump m ((pathValue c.lane m).map BitVec.toNat) fun x => { x with rstack := (p + 1) :: x.rstack }
  | some (0x13, m) => match x.rstack with
    | a :: t => jump m (some a) fun x => { x with rstack := t }
    | [] => .go []
  | some (0x14, m) => if x.rstack ≠ [] ∨ x.depth ≠ some 0 then .bad 0x2008 m.slot else .go []
  | _ => match pathTrigger .rep ms with
    | some (0x10, m) => pathRun c p m.slot (pathValue c.lane m) x
    | some (0x15, _) => .go (after x)
    | some (op, m) => .go ((after x).map (quietPath (leastElements op (pathValue c.lane m))))
    | none => .go (after x)

/-- The moves of one step, with guards settled: checks, effect, and what follows. -/
def pathMoves (c : PathCtx) (p : Nat) (all : List Mv) (after : Bool → PathState → List PathState) (x : PathState) :
    PathStep :=
  let ms := all.filter fun m => pathGuard x m.g
  match busyFault x ms, predFault x ms with
  | some m, _ => .bad 0x2008 m.slot
  | none, some m => .bad 0x2008 m.slot
  | none, none =>
    match pathStack c ms x with
    | (_, true) => .bad 0x200A 0
    | (none, false) => .go []
    | (some d, false) =>
      let brk := match pathTrigger .rep ms with
        | some (op, _) => op == 0x15
        | none => false
      pathNext c p ms (after brk) { afterMoves c ms x with depth := d }

/-- Join the outcomes of the ways in which guards can settle. -/
def joinSteps : List PathStep → PathStep
  | [] => .go []
  | .bad k s :: _ => .bad k s
  | .go xs :: t => match joinSteps t with
    | .bad k s => .bad k s
    | .go ys => .go (xs ++ ys)

/-- One step of moves from a state in every way that the guards allow. -/
def pathIssue (c : PathCtx) (p : Nat) (ms : List Mv) (after : Bool → PathState → List PathState) (x : PathState) :
    PathStep :=
  joinSteps ((settleGuards (ms.map (·.g)) (forget x.pend x)).map (pathMoves c p ms after))

/-- Continue every state of a step. -/
def pathThen (r : PathStep) (f : PathState → PathStep) : PathStep :=
  match r with
  | .bad k s => .bad k s
  | .go xs => joinSteps (xs.map f)

/-- The template bundles of a macro call at bundle `p`, one step each (R140); one that breaks a rule of bundles once its
ports are in place is refused with the call. A state that stays in the expansion stands at no bundle. -/
def pathMacro (c : PathCtx) (p : Nat) (params : Vector Nat 4) : List Nat → PathState → PathStep
  | [], x => .go [{ x with pc := p + 1, pos := .bundle }]
  | b :: t, x =>
    let ms := (movesOf b).map (substMv params)
    if ms.any (fun m => (portFault m).isSome) || (clashing collide ms).isSome
        || (clashing (fun a c => sharedMove a && sharedMove c) ms).isSome then .bad 0x2008 0
    else pathThen (pathIssue c p ms (fun _ y => [{ y with pc := 4097 }]) x) fun y =>
      if y.pc = 4097 then pathMacro c p params t y else .go [y]

/-- The next step of a path; a path ends where no bundle is placed. -/
def pathStep (c : PathCtx) (x : PathState) : PathStep :=
  match c.code x.pc with
  | none => .go []
  | some b =>
    match x.pos with
    | .body first len pos left brk =>
      let after (k : Bool) (y : PathState) : List PathState :=
        if pos + 1 < len then [{ y with pc := first + pos + 1, pos := .body first len (pos + 1) left (brk || k) }]
        else
          let out : PathState := { y with pc := first + len, pos := .bundle }
          let again (n : Option Nat) : PathState := { y with pc := first, pos := .body first len 0 n false }
          if brk || k then [out]
          else match left with
            | some n => if n ≤ 1 then [out] else [again (some (n - 1))]
            | none => [out, again none]
      pathIssue c x.pc ((movesOf b).filter fun m => !bodyIgnored m) after x
    | .bundle =>
      let after (_ : Bool) (y : PathState) : List PathState := [{ y with pc := x.pc + 1 }]
      if fmtOf b = 1 then .bad 0x2008 0
      else if fmtOf b = 2 then
        let e := c.entry (callOpc b)
        joinSteps ((settleGuards [callG b] (forget x.pend x)).map fun y =>
          if !pathGuard y (callG b) then .go (after false (quietPath 1 y))
          else if e.len = 0 then .go []
          else pathMacro c x.pc (Vector.ofFn fun i => callPar b i.val) ((List.range e.len).map (templateBundle e)) y)
      else pathIssue c x.pc (movesOf b) after x

/-- Follow every path: `todo` holds the states still to be followed, `seen` those already met. The answer is the code,
bundle and slot of the first finding. -/
def explore (c : PathCtx) : Nat → List PathState → List PathState → Option (Nat × Nat × Nat)
  | 0, _, _ => none
  | _ + 1, [], _ => none
  | n + 1, x :: todo, seen =>
    if seen.contains x then explore c n todo seen
    else match pathStep c x with
      | .bad k s => some (k, x.pc, s)
      | .go xs => explore c n (xs ++ todo) (x :: seen)

/-- What the paths from a segment's first bundle show. DESIGN CHOICE (log 12): at its start the units are idle, and PSEL
and the predicates are unknown. -/
def pathFinding (c : PathCtx) (first : Nat) : Option (Nat × Nat × Nat) :=
  explore c (2 ^ 64) [⟨first, .bundle, [], some 0, 0, 0, 0, none, 0, 0, 0⟩] []

end Sys2Proof.Machine
end

