-- ==== Sys2Proof/Machine/Place.lean ====
section
/-! DEFINITION. Placement (R152 to R157): lanes and shares, banks, start times and deadlines, acceptance, the armature
(R159) and the report (R160). -/
namespace Sys2Proof.Machine

/-- A segment with its lane: share frame, first bundle index, begin and finish counted from TICKPH 2,400, start time
(0 for none) and deadlines by bundle of the segment (R154, R155). -/
structure Plc where
  seg : Seg
  lane : Nat
  share : Nat
  first : Nat
  fin : Nat
  start : Nat
  deadlines : List (Nat × Nat)
  deriving DecidableEq, Repr

/-- A placed segment runs in frame phase `j`. -/
def inPh (im : Img) (p : Plc) (j : Nat) : Bool :=
  p.seg.cls == 0 || (p.seg.cls == 1 && p.share == j % im.m) || (p.seg.cls == 2 && p.share == j % im.s)

/-- P of R154. -/
def phaseCount (im : Img) : Nat := if im.classes.testBit 2 then im.s else if im.classes.testBit 1 then im.m else 1

/-- Load(n, j) (R154). -/
def loadOf (im : Img) (ps : List Plc) (n j : Nat) : Nat :=
  (ps.filter fun p => p.lane == n && inPh im p j).foldl (fun a p => max a p.fin) 0

/-- Latest finish plus FENCE of the producers placed on other lanes in phase `j`, 0 without one. -/
def fenceOf (im : Img) (ps : List Plc) (sg : Seg) (n j : Nat) : Nat :=
  (ps.filter fun p => im.deps.contains (p.seg.segId, sg.segId) && p.lane != n && inPh im p j).foldl
    (fun a p => max a (p.fin + 25)) 0

/-- begin(n) in the phases of a share (R154): the work placed so far is the same in each of them. -/
def beginOf (im : Img) (ps : List Plc) (sg : Seg) (n j : Nat) : Nat := max (loadOf im ps n j) (fenceOf im ps sg n j)

/-- The least of a list by a key; the earlier one of equals. -/
def leastBy {α : Type} (key : α → Nat) : List α → Option α
  | [] => none
  | a :: t => match leastBy key t with
    | none => some a
    | some b => if key b < key a then some b else some a

/-- Edge cells joined to `cells` through segments that share one (R154), in `n` rounds. -/
def groupCells (im : Img) : Nat → List Nat → List Nat
  | 0, cells => cells
  | n + 1, cells =>
    groupCells im n ((cells ++ (im.segs.filter fun sg => (declared 6 sg).any cells.contains).flatMap (declared 6)).eraseDups)

/-- Lanes allowed for a segment: code room, and its edge group's lane (R154). -/
def allowedLanes (im : Img) (ps : List Plc) (sg : Seg) : List Nat :=
  let mine := declared 6 sg
  let cells := if mine = [] then [] else groupCells im im.segs.length mine
  let pin := (ps.find? fun p => (declared 6 p.seg).any cells.contains).map (·.lane)
  let used (n : Nat) : Nat := (ps.filter (·.lane == n)).foldl (fun a p => a + p.seg.nbundle) 0
  (List.range 16).filter fun n => decide (used n + sg.nbundle ≤ 4096) && (pin.isNone || pin == some n)

/-- Share frame of a segment (R154). -/
def shareOf (im : Img) (ps : List Plc) (sg : Seg) : Nat :=
  if sg.cls = 1 ∨ sg.cls = 2 then
    let cyc := if sg.cls = 1 then im.m else im.s
    let lo := (ps.filter fun p => p.seg.cls == sg.cls && im.deps.contains (p.seg.segId, sg.segId)).foldl
      (fun a p => max a p.share) 0
    let placedCost (f : Nat) : Nat := (ps.filter fun p => p.seg.cls == sg.cls && p.share == f).foldl
      (fun a p => a + cost25 p.seg) 0
    (leastBy placedCost ((List.range cyc).filter fun f => decide (lo ≤ f))).getD lo
  else 0

/-- Lane of a segment (R154). -/
def laneFor (im : Img) (ps : List Plc) (sg : Seg) (share : Nat) : Option Nat :=
  let key (n : Nat) : Nat :=
    if sg.cls = 3 then (ps.filter (·.lane == n)).foldl (fun a p => max a p.fin) 0
    else beginOf im ps sg n share + cost25 sg
  leastBy key (allowedLanes im ps sg)

/-- The lanes, shares and code places of the segments in their order; a segment without a lane refuses (R154). -/
def assignLanes (im : Img) : List Seg → List Plc → Except Refuse (List Plc)
  | [], ps => .ok ps
  | sg :: t, ps =>
    let f := shareOf im ps sg
    match laneFor im ps sg f with
    | none => .error ⟨0x2007, sg.segId, 0, 0⟩
    | some n =>
      let first := (ps.filter (·.lane == n)).foldl (fun a p => a + p.seg.nbundle) 0
      let fin := if sg.cls = 3 then 0 else beginOf im ps sg n f + cost25 sg
      assignLanes im t (ps ++ [⟨sg, n, f, first, fin, 0, []⟩])

/-! ### Edge cells (R98, R154) -/

/-- Edge cells of a lane in rising identity. -/
def laneCells (ps : List Plc) (n : Nat) : List Nat :=
  (((ps.filter (·.lane == n)).flatMap fun p => declared 6 p.seg).mergeSort).eraseDups

/-- The edge map. -/
def edgeMap (im : Img) (ps : List Plc) : List EdgeInfo :=
  (List.range 16).flatMap fun n => (laneCells ps n).zipIdx.map fun (e, r) =>
    ⟨e, ((im.edges.find? (·.1 == e)).map (·.2 == 1)).getD false, n, r⟩

/-! ### Banks (R156) -/

/-- Areas that an access entry names, with the number of accesses it counts. -/
def accAreas (im : Img) (sg : Seg) (a : Acc) : List (Nat × Nat) :=
  let img (k : Nat) : Nat := if sg.cls = 1 then 26 else if sg.cls = 2 then 27 else k
  match a.kind with
  | 0 => [(img 0, a.count)]
  | 1 => [(img 1, a.count)]
  | 2 => ((List.range a.count).map (a.first + ·)).filterMap fun c => if c < 192 then some (2 + c / 8, 1) else none
  | 3 => ((List.range a.count).map (a.first + ·)).filterMap fun c => if c < 24 then some (2 + c, 1) else none
  | 4 => ((im.vars.map (·.vid)).mergeSort.findIdx? (· == a.first)).toList.map fun i => (30 + i, a.count)
  | 5 => ((im.vars.map (·.vid)).mergeSort.findIdx? (· == a.first)).toList.map fun i => (30 + i, a.count)
  | _ => []

/-- Accesses of a cluster's lanes to an area. -/
def affinity (im : Img) (ps : List Plc) (area c : Nat) : Nat :=
  (ps.filter (·.lane / 4 == c)).foldl (fun n p =>
    n + (p.seg.accs.flatMap (accAreas im p.seg)).foldl (fun k x => if x.1 = area then k + x.2 else k) 0) 0

/-- The cluster with the most accesses to an area, if any lane accesses it; areas of step 6 have none. -/
def bestCluster (im : Img) (ps : List Plc) (area : Nat) : Option Nat :=
  if area = 28 ∨ area = 29 then none
  else
    let key (c : Nat) : Nat := affinity im ps area c
    match leastBy (fun c => 0x100000000 - key c) [0, 1, 2, 3] with
    | some c => if key c = 0 then none else some c
    | none => none

/-- Class-image words and buffer words of a class. -/
def classSize (im : Img) (c : Nat) : Nat := 4 * ((classWords 0 c im.segs).length + (classWords 1 c im.segs).length)

/-- Variables in ascending VID. -/
def sortedVars (im : Img) : List VarInfo := im.vars.mergeSort fun a b => decide (a.vid ≤ b.vid)

/-- Areas to place, in the order of R156: number, size, VID. -/
def areaOrder (im : Img) : List (Nat × Nat × Option VarInfo) :=
  [(0, lenIn, none), (1, lenOut, none)] ++ (List.range 24).map (fun i => (2 + i, lenHist, none))
  ++ ([1, 2].filter im.classes.testBit).map (fun c => (25 + c, classSize im c, none))
  ++ (sortedVars im).zipIdx.map (fun (v, i) => (30 + i, v.size, some v))
  ++ [(28, lenIntake, none), (29, lenEnergy, none)]

/-- Bytes assigned in a bank. -/
def bankBytes (as : List Area) (b : Nat) : Nat :=
  (as.filter fun a => a.base / bankSize == b).foldl (fun n a => n + a.len) 0

/-- Storage that area `id` must leave alone in the map in force: every other area of it, and its variables (R156).
DEDUCED (log 62): an area other than a variable may take its own place again. -/
def inForce (force : List Area) (id : Nat) : List Range :=
  (force.filter fun a => decide (30 ≤ a.id) || a.id != id).map fun a => ⟨a.base, a.len⟩

/-- Place the areas; `force` is the map in force, `used` the areas already placed. -/
def assignBanks (im : Img) (ps : List Plc) (old : List VarInfo) (force : List Area) :
    List (Nat × Nat × Option VarInfo) → List Range → List Area → Except Refuse (List Area)
  | [], _, as => .ok as
  | (id, size, v) :: t, placed, as =>
    let vid := (v.map (·.vid)).getD 0
    let used := placed ++ inForce force id
    match v.bind (carriedFrom old) with
    | some o => assignBanks im ps old force t placed (as ++ [⟨id, o.base, size, w vid⟩])
    | none =>
      let near := match bestCluster im ps id with
        | none => none
        | some c => leastBy (bankBytes as)
            (((List.range 8).map (8 * c + ·)).filter fun b => (fitInBank used b size).isSome)
      let place := match near with
        | some b => fitInBank used b size
        | none => fitTop used size 32
      match place with
      | none => .error ⟨0x200B, vid, 0, 0⟩
      | some a => assignBanks im ps old force t (⟨a, size⟩ :: placed) (as ++ [⟨id, a, size, w vid⟩])

/-- Base of an area. -/
def areaAt (as : List Area) (id : Nat) : Nat := ((findArea id as).map (·.base)).getD 0

/-! ### Costs, start times and deadlines (R153, R155) -/

/-- All declared areas of a segment lie in near banks of its lane's cluster. -/
def allNear (im : Img) (as : List Area) (p : Plc) : Bool :=
  (p.seg.accs.flatMap (accAreas im p.seg)).all fun x => areaAt as x.1 / bankSize / 8 == p.lane / 4

/-- Cost with the bank-dependent bound (R153). -/
def costNear (im : Img) (as : List Area) (p : Plc) : Nat :=
  p.seg.wcs + p.seg.nstall * (if allNear im as p then 22 else 25)

/-- Batons that a bundle waits on with WAIT: of an immediate, its low 8 bits; of a port, every baton the segment declares
for WAIT or TRYW. -/
def waitBatons (sg : Seg) (b : Nat) : List Nat :=
  if 2 ≤ fmtOf b then []
  else ((movesOf b).filter (·.dst == 0x395)).flatMap fun m => match m.src with
    | .imm x => [x.toNat % 256]
    | .port _ => declared 8 sg

/-- The deadline of a WAIT on batons, from the posters placed so far in the same frames (R155). -/
def waitDeadline (ps : List Plc) (p : Plc) (bats : List Nat) : Option Nat :=
  match ps.filter fun q => q.seg.cls == p.seg.cls && q.share == p.share && q.seg.segId != p.seg.segId
      && (declared 7 q.seg).any bats.contains with
  | [] => none
  | qs => some (2400 + qs.foldl (fun a q => max a q.fin) 0 + 4 + 25)

/-- Final times of the scheduled segments, in order; a deadline at or above the guard refuses (R155). -/
def assignTimes (im : Img) (as : List Area) (guard : Nat) : List Plc → List Plc → Except Refuse (List Plc)
  | [], ps => .ok ps
  | p :: t, ps =>
    if p.seg.cls = 3 then assignTimes im as guard t ps
    else
      let fence := fenceOf im ps p.seg p.lane p.share
      let dls := (List.range p.seg.nbundle).filterMap fun i =>
        let bats := waitBatons p.seg (segBundle im p.seg i)
        if bats = [] then none else (waitDeadline ps p bats).map fun d => (i, d, bats)
      match dls.find? fun x => decide (guard ≤ x.2.1) with
      | some (_, _, bats) => .error ⟨0x200D, bats.headD 0, 0, 0⟩
      | none =>
        let last := dls.foldl (fun a x => max a (x.2.1 - 2400)) 0
        let b := max (max (loadOf im ps p.lane p.share) fence) last
        assignTimes im as guard t
          (ps ++ [{ p with fin := b + costNear im as p, start := if fence = 0 then 0 else 2400 + fence
                           deadlines := dls.map fun x => (x.1, x.2.1) }])

/-! ### Relocation (R148) -/

/-- Slot `n` of a bundle replaced. -/
def setSlot (b n x : Nat) : Nat := b - slotBits b n * 2 ^ (31 * n) + x * 2 ^ (31 * n)

/-- Add to the immediate of a slot; `none` when the sum leaves its range. -/
def relocate (b n add : Nat) : Option Nat :=
  let x := slotBits b n
  if isLongMove b n then
    let c := slotSrc x % 2 * 2 ^ 31 + slotBits b (n + 1)
    let sum : Int := (if c < 2 ^ 31 then Int.ofNat c else Int.ofNat c - 2 ^ 32) + Int.ofNat add
    if sum < -(2 ^ 31) ∨ 2 ^ 32 ≤ sum then none
    else
      let v := (sum % 2 ^ 32).toNat
      some (setSlot (setSlot b n (x / 2 * 2 + v / 2 ^ 31)) (n + 1) (v % 2 ^ 31))
  else
    let c := slotSrc x % 2 ^ 16
    let sum : Int := (if c < 2 ^ 15 then Int.ofNat c else Int.ofNat c - 2 ^ 16) + Int.ofNat add
    if sum < -32768 ∨ 32767 < sum then none
    else some (setSlot b n (x / 2 ^ 16 * 2 ^ 16 + (sum % 2 ^ 16).toNat))

/-- The value that a relocation adds. -/
def relocValue (p : Plc) (im : Img) (as : List Area) (es : List EdgeInfo) (r : Reloc) : Nat :=
  let cell := ((es.find? (·.id == r.id)).map (·.cell)).getD 0
  match r.kind with
  | 1 => p.first
  | 2 => (((sortedVars im).findIdx? (·.vid == r.id)).map fun i => areaAt as (30 + i)).getD 0
  | 3 => cell * 65536
  | _ => cell / 32

/-- A transfer whose immediate target leaves the half, or a CALL in its last bundle (R117, R158). -/
def badTarget (index b : Nat) : Option Nat :=
  if 2 ≤ fmtOf b then none
  else ((movesOf b).find? fun m => match trigOf m.dst, m.src with
    | some (.ctl, 0x10), .imm x => decide (4095 < x.toNat)
    | some (.ctl, 0x11), .imm x => decide (4095 < (BitVec.ofNat 32 index + x).toNat)
    | some (.ctl, 0x12), .imm x => decide (4095 < x.toNat) || index == 4095
    | some (.ctl, 0x12), .port _ => index == 4095
    | _, _ => false).map (·.slot)

/-- Bundle `i` of a segment as it is placed. -/
def placedBundle (im : Img) (as : List Area) (es : List EdgeInfo) (p : Plc) (i : Nat) : Except Refuse Nat :=
  let step (b : Except Refuse Nat) (r : Reloc) : Except Refuse Nat :=
    match b with
    | .error e => .error e
    | .ok b => match relocate b r.slot (relocValue p im as es r) with
      | some b' => .ok b'
      | none => .error ⟨0x2008, p.seg.segId, i, r.slot⟩
  match (p.seg.relocs.filter (·.bundle == i)).foldl step (.ok (segBundle im p.seg i)) with
  | .error e => .error e
  | .ok b => match badTarget (p.first + i) b with
    | some k => .error ⟨0x2008, p.seg.segId, i, k⟩
    | none => .ok b

/-- The placed code: lane, bundle index and bundle of every bundle. -/
def placedCode (im : Img) (as : List Area) (es : List EdgeInfo) : List Plc → Except Refuse (List (Nat × Nat × Nat))
  | [] => .ok []
  | p :: t =>
    let one (acc : Except Refuse (List (Nat × Nat × Nat))) (i : Nat) : Except Refuse (List (Nat × Nat × Nat)) :=
      match acc, placedBundle im as es p i with
      | .error e, _ => .error e
      | .ok _, .error e => .error e
      | .ok l, .ok b => .ok (l ++ [(p.lane, p.first + i, b)])
    match (List.range p.seg.nbundle).foldl one (.ok []), placedCode im as es t with
    | .error e, _ => .error e
    | .ok _, .error e => .error e
    | .ok l, .ok m => .ok (l ++ m)

/-! ### Paths (R158) -/

/-- The first finding on the paths of the placed segments, in their order: the segment that holds the bundle is the item. -/
def pathRefusal (im : Img) (entry : Nat → ChiselEntry) (code : List (Nat × Nat × Nat)) (all : List Plc) : Option Refuse :=
  all.findSome? fun p =>
    let at_ (i : Nat) : Option Nat := (code.find? fun x => x.1 == p.lane && x.2.1 == i).map (·.2.2)
    (pathFinding ⟨at_, entry, p.lane, Config.verifierTarget im.bytes p.lane⟩ p.first).map fun (k, i, slot) =>
      let q := (all.find? fun q => q.lane == p.lane && decide (q.first ≤ i ∧ i < q.first + q.seg.nbundle)).getD p
      if k = 0x2008 then ⟨k, q.seg.segId, i - q.first, slot⟩ else ⟨k, q.seg.segId, 0, 0⟩

/-! ### Grants (R159) -/

/-- Words of an image that an access entry of a segment covers, as ranges of the area that the class uses (R42, R109). -/
def imageGrant (n base : Nat) (write : Bool) (words : Option (List Nat)) (a : Acc) : List Grant :=
  match words with
  | none => [⟨n, base + 4 * a.first, 4 * a.count, !write, write⟩]
  | some ws => match ws.findIdx? (· == a.first) with
    | some i => [⟨n, base + 4 * i, 4 * a.count, !write, write⟩]
    | none => []

/-- Ranges that an access entry of a segment on lane `n` declares (R149). -/
def accGrants (im : Img) (as : List Area) (n : Nat) (sg : Seg) (a : Acc) : List Grant :=
  let class_ := sg.cls == 1 || sg.cls == 2
  let cin := classWords 0 sg.cls im.segs
  let cout := classWords 1 sg.cls im.segs
  let own := areaAt as (25 + sg.cls)
  let hist (i off : Nat) : Grant := ⟨n, areaAt as (2 + i) + off, 0x8000, true, false⟩
  let items := (List.range a.count).map (a.first + ·)
  match a.kind with
  | 0 => if class_ then imageGrant n own false (some cin) a else imageGrant n (areaAt as 0) false none a
  | 1 => if class_ then imageGrant n (own + 4 * cin.length) true (some cout) a else imageGrant n (areaAt as 1) true none a
  | 2 => (items.filter (· < 192)).map fun c => hist (c / 8) (c % 8 * 0x8000)
  | 3 => (items.filter (· < 24)).map fun i => hist i 0x40000
  | _ => []

/-- Ranges that meet or touch and allow the same become one. -/
def mergeGrants (gs : List Grant) : List Grant :=
  (gs.mergeSort fun a b => decide (a.base ≤ b.base)).foldl (fun acc g => match acc with
    | h :: t => if g.base ≤ h.base + h.len ∧ g.read = h.read ∧ g.write = h.write then
        { h with len := max (h.base + h.len) (g.base + g.len) - h.base } :: t else g :: acc
    | [] => [g]) [] |>.reverse

/-- A lane's ranges: the variables, image words and histories that its segments declare. -/
def laneGrants (im : Img) (as : List Area) (ps : List Plc) (n : Nat) : List Grant :=
  let mine := (ps.filter (·.lane == n)).map (·.seg)
  let uses (k vid : Nat) : Bool := mine.any fun sg => (declared k sg).contains vid
  let vars := (sortedVars im).zipIdx.filterMap fun (v, i) =>
    if uses 4 v.vid ∨ uses 5 v.vid then some (Grant.mk n (areaAt as (30 + i)) v.size (uses 4 v.vid) (uses 5 v.vid))
    else none
  let kind (r w : Bool) : List Grant :=
    mergeGrants ((vars ++ mine.flatMap fun sg => sg.accs.flatMap (accGrants im as n sg)).filter fun g =>
      g.read == r && g.write == w)
  kind true false ++ kind false true ++ kind true true

/-! ### The whole placement -/

/-- What the placer takes besides the image (R152). -/
structure PlaceIn where
  active : Word
  staged : Word
  mgmtVer : Word
  laneVer : Word
  rate : Nat
  hm1 : Nat
  margin : Nat
  pred : Option Armature
  /-- Entries of the chisel table that the image names. -/
  entry : Nat → ChiselEntry

/-- A placement that reaches the rule of R157: the armature, its code, and the figures of the report. -/
structure PlaceOut where
  arm : Armature
  code : List (Nat × Nat × Nat)
  /-- The scheduled segments with their final times, and every segment. -/
  ps : List Plc
  all : List Plc
  /-- The DEADLINE refusal of R157, if the loads break its rule. -/
  refusedBy : Option Refuse

/-- Numbers of an armature, in the order of R159, over which its hash is taken. -/
def armNumbers (a : Armature) : List Nat :=
  a.digest.map BitVec.toNat ++ [a.mgmtVer.toNat, a.laneVer.toNat, a.rate, a.hm1, a.margin, a.keyChisel.toNat, a.chiselId.toNat]
  ++ a.predHash.map BitVec.toNat
  ++ a.placed.flatMap (fun p => [p.segId, p.cls, p.share, p.lane, p.first, p.nbundle, p.trap, p.start, p.fin]
      ++ p.deadlines.flatMap fun d => [d.1, d.2])
  ++ a.grants.flatMap (fun g => [g.lane, g.base, g.len, g.read.toNat, g.write.toNat])
  ++ a.areas.flatMap (fun r => [r.id, r.base, r.len, r.vid.toNat])
  ++ a.edges.flatMap (fun e => [e.id, e.init.toNat, e.lane, e.cell]) ++ a.midIn ++ a.slowIn
  ++ a.imgGrants.flatMap (fun g => [g.segId, g.kind, g.first, g.count])
  ++ a.vars.flatMap (fun v => [v.vid, v.size, v.typ, v.flags, v.ttag, v.base]) ++ a.midOut ++ a.slowOut ++ a.fastOut
  ++ a.batons.flatMap (fun b => [b.1, b.2]) ++ [a.hasBg.toNat, a.m, a.s]

/-- The 256-bit hash as eight words. -/
def armHash (a : Armature) : List Word :=
  (List.range 8).map fun i => (Config.armatureHash (armNumbers a)).getD i 0

/-- The armature of a placement. -/
def mkArmature (im : Img) (i : PlaceIn) (as : List Area) (es : List EdgeInfo) (sched all : List Plc) : Armature :=
  let final (p : Plc) : Plc := (sched.find? fun q => q.seg.segId == p.seg.segId).getD p
  let a : Armature := {
    imageId := w im.imageId, digest := im.digest, mgmtVer := i.mgmtVer, laneVer := i.laneVer, rate := i.rate
    hm1 := i.hm1, margin := i.margin, keyChisel := i.active, chiselId := w im.chiselId
    predHash := match i.pred with
      | some p => p.hash
      | none => List.replicate 8 0
    hasBg := im.classes.testBit 3
    m := im.m
    s := im.s
    placed := (all.map final).map fun p =>
      ⟨p.seg.segId, p.seg.cls, p.share, p.lane, p.first, p.seg.nbundle, p.seg.trap, p.start, p.fin,
       p.deadlines.map fun d => (p.first + d.1, d.2)⟩
    grants := (List.range 16).flatMap (laneGrants im as all)
    imgGrants := im.segs.flatMap fun sg => (sg.accs.filter fun a => decide (a.kind ≤ 3)).map fun a =>
      ⟨sg.segId, a.kind, a.first, a.count⟩
    areas := as
    vars := (sortedVars im).zipIdx.map fun (v, k) => { v with base := areaAt as (30 + k) }
    edges := es
    midIn := classWords 0 1 im.segs
    slowIn := classWords 0 2 im.segs
    midOut := classWords 1 1 im.segs
    slowOut := classWords 1 2 im.segs
    fastOut := classWords 1 0 im.segs
    batons := im.batons
    hash := [] }
  { a with hash := armHash a }

/-- The largest use over all lanes and phases with its place; the first of equals in order of phase, then lane. -/
def largestUse (im : Img) (ps : List Plc) : Nat × Nat × Nat :=
  ((List.range (phaseCount im)).flatMap fun j => (List.range 16).map fun n => (loadOf im ps n j, n, j)).foldl
    (fun a x => if a.1 < x.1 then x else a) (0, 0, 0)

/-- The first lane and phase whose use exceeds the limit (R157), with the segment that finishes last there. -/
def overLimit (im : Img) (ps : List Plc) (limit : Nat) : Option Refuse :=
  (List.range (phaseCount im)).findSome? fun j => (List.range 16).findSome? fun n =>
    let u := loadOf im ps n j
    if limit < u then
      let last := (ps.filter fun p => p.lane == n && inPh im p j && p.fin == u).getLast?
      some ⟨0x200C, (last.map (·.seg.segId)).getD 0, n * 65536 + j, u⟩
    else none

/-- window and limit of R157. -/
def windowOf (rate : Nat) : Nat := guardCycOf rate - 2400
def limitOf (rate margin : Nat) : Nat := windowOf rate * (100 - margin) / 100

/-- Placement (R152 to R159). -/
def placeImage (im : Img) (i : PlaceIn) : Except Refuse PlaceOut :=
  let old := match i.pred with
    | some p => p.vars
    | none => []
  match staticRefusal im i.active i.staged old, placeOrder im with
  | some r, _ => .error r
  | none, none => .error ⟨0x2009, 0, 0, 0⟩
  | none, some order =>
    match assignLanes im order [] with
    | .error r => .error r
    | .ok all =>
      if (List.range 16).any fun n => decide (4096 < (laneCells all n).length) then .error ⟨0x2007, 0, 0, 0⟩
      else
        let es := edgeMap im all
        let force := match i.pred with
          | some p => p.areas
          | none => []
        match assignBanks im all old force (areaOrder im) [] [] with
        | .error r => .error r
        | .ok as =>
          match (List.range 16).find? fun n => decide (64 < (laneGrants im as all n).length) with
          | some n => .error ⟨0x200B, ((all.filter (·.lane == n)).getLast?.map (·.seg.segId)).getD 0, 0, 0⟩
          | none =>
            match placedCode im as es all with
            | .error r => .error r
            | .ok code => match pathRefusal im i.entry code all, assignTimes im as (guardCycOf i.rate) all [] with
              | some r, _ => .error r
              | none, .error r => .error r
              | none, .ok sched => .ok ⟨mkArmature im i as es sched all, code, sched, all, overLimit im sched (limitOf i.rate i.margin)⟩

/-! ### The report (R160) -/

/-- Words of every report. -/
def reportHead (im : Img) (i : PlaceIn) (r : Refuse) : List (Nat × Word) :=
  [(0, w r.code), (1, w im.imageId), (2, w r.item), (3, w r.d1), (4, w r.d2), (5, w (limitOf i.rate i.margin)),
   (6, w (windowOf i.rate)), (7, w i.margin)]

/-- What stands when the report is made: bundles placed, scheduled segments with their final times, all segments, areas. -/
structure Figures where
  bundles : Nat
  ps : List Plc
  all : List Plc
  areas : List Area

/-- The figures of every report. -/
def reportFigures (im : Img) (i : PlaceIn) (o : Figures) : List (Nat × Word) :=
  let old := match i.pred with
    | some p => p.vars
    | none => []
  let kept := im.vars.filter fun v => (carriedFrom old v).isSome
  let off := ((sortedVars im).zipIdx.filter fun (v, k) => (carriedFrom old v).isSome &&
    match bestCluster im o.all (30 + k) with
    | some c => areaAt o.areas (30 + k) / bankSize / 8 != c
    | none => false).length
  let (use, n, j) := largestUse im o.ps
  let win := windowOf i.rate
  let laneUse (n : Nat) : Nat := (o.ps.filter (·.lane == n)).foldl (fun a p => max a p.fin) 0
  [(8, w use), (9, w (n * 65536 + j)), (10, BitVec.ofInt 32 (((win : Int) - use) * 10000 / win)), (11, w o.bundles),
   (12, w (varBytes im.vars)), (13, w (retainBytes im.vars)), (14, w kept.length),
   (15, w (im.vars.length - kept.length)), (16, w (old.length - kept.length)), (17, w off)]
  ++ (List.range 16).map (fun n => (32 + n, w (laneUse n)))
  ++ (List.range 32).map (fun b => (48 + b, w (bankBytes o.areas b)))

/-- The armature's hash; 0 when refused. -/
def reportHash (o : PlaceOut) : List (Nat × Word) :=
  (List.range 8).map (fun k => (18 + k, if o.refusedBy.isSome then 0 else o.arm.hash.getD k 0))

end Sys2Proof.Machine
end

