-- ==== Sys2Proof/Machine/PlacerRows.lean ====
section
/-! DEFINITION. The placer's commands (R146, R162 to R164, R168) and host writes to a maquette half (R60). -/
namespace Sys2Proof.Machine

/-! ### Program slots in NOR (R378) -/

/-- Offset of a program slot. -/
def slotBase (slot : Bool) : Nat := if slot then 0x3400000 else 0x3000000

/-- Bytes of the image in a slot. -/
def slotBytes (s : State) (slot : Bool) : List Byte :=
  let b := slotBase slot
  sgets norDefault s.upd.nor b (leNat (sgets norDefault s.upd.nor (b + 0x0C) 4))

/-- The slot that does not hold the running image. -/
def stagedSlot (s : State) : Bool := !s.plr.runSlot

/-- IMAGE_ID of the staged image, 0 without one. -/
def stagedImageId (s : State) : Word :=
  if s.plr.state = .empty then 0 else ((vget none s.plr.slotId (stagedSlot s).toNat)).getD 0

/-- The staged slot emptied. -/
def emptySlot (s : State) : State :=
  let b := slotBase (stagedSlot s)
  { s with upd := { s.upd with nor := sclear b (b + 0x400000) s.upd.nor }
           plr := { s.plr with slotId := vset s.plr.slotId (stagedSlot s).toNat none, maq := none } }

/-! ### LOAD -/

/-- Bytes that LOAD judges: none when the image does not lie wholly in the transfer and working area. -/
def loadBytes (s : State) : List Byte :=
  let a := (reg 0x30008 s).toNat
  let n := (reg 0x3000C s).toNat
  if inTransfer s a n then sgets zeroByte s.mem.shared a n else []

/-- IMAGE_ID as the header at PLR_LOAD_ADDR gives it (R161); 0 beyond shared memory. -/
def headerId (s : State) : Word :=
  let a := (reg 0x30008 s).toNat + 0x38
  if a + 4 ≤ sharedSize then w (leNat (sgets zeroByte s.mem.shared a 4)) else 0

/-- PLR_CMD.LOAD (R146, R162, R163). -/
def loadOp : RegOp := fun s =>
  match s.plr.state with
  | .placing => (.busy, s)
  | .armed => (.busy, s)
  | .loading => (.denied, s)
  | _ =>
    let bs := loadBytes s
    match loadCheck bs (reg 0x3000C s).toNat s.frm.rate with
    | some c => (.ok, note (BitVec.ofNat 16 c) srcPLR (headerId s) (w (c - 0x2000)) 0
        { s with plr := { s.plr with result := BitVec.ofNat 16 c } })
    | none =>
      let s := emptySlot s
      (.ok, { s with plr := { s.plr with
          state := .loading, loadAddr := (reg 0x30008 s).toNat, loadLen := bs.length, since := s.clk.cyc } })

/-- LOAD. -/
def execLoad (sid : Fin 4) (s : State) : Host.Outcome State Fault Refusal := act (hostDo sid.val roleENGINEER loadOp) s

/-- The image is in the staged NOR slot (R161, R162). -/
def loadedEff (s : State) : State :=
  let bs := sgets zeroByte s.mem.shared s.plr.loadAddr s.plr.loadLen
  let id := w (imgNat bs 0x38 4)
  let k := stagedSlot s
  note 0x2013 srcPLR id 0 0
    { s with upd := { s.upd with nor := sputs norDefault (slotBase k) bs s.upd.nor }
             plr := { s.plr with state := .loaded, slotId := vset s.plr.slotId k.toNat (some id), result := 0x2013 } }

/-- LOADED: LOADING ends. -/
def execLoaded (s : State) : Host.Outcome State Fault Refusal :=
  act (fun s => if s.plr.state = .loading then loadedEff s else s) s

/-! ### PLACE -/

/-- MARGIN in force for the next PLACE (R157). -/
def marginOf (s : State) : Nat := (reg 0x30000 s).toNat

/-- The inputs of a placement (R152), with the entries of the chisel table that the image names. -/
def placeInput (im : Img) (pred : Option Armature) (s : State) : PlaceIn :=
  ⟨activeId s, stagedId s, s.upd.partVer[1], s.upd.partVer[4], s.frm.rate, s.frm.hm1, marginOf s, pred,
   if im.chiselId = (activeId s).toNat then activeEntry s else stagedEntry s⟩

/-- The report of a placement (R160). DESIGN CHOICE (log 62): an image that is refused before R157 has placed nothing. -/
def reportOf (im : Img) (i : PlaceIn) (ms : Word) : Except Refuse PlaceOut → List (Nat × Word)
  | .error r => reportHead im i r ++ reportFigures im i ⟨0, [], [], []⟩ ++ [(26, ms)]
  | .ok o => reportHead im i (o.refusedBy.getD ⟨0x2000, 0, 0, 0⟩) ++ reportFigures im i ⟨o.code.length, o.ps, o.all, o.arm.areas⟩
      ++ reportHash o ++ [(26, ms)]

/-- A bundle of a maquette half that the host wrote, that `code` does not replace, and whose contents break a rule (R60):
its index and slot. -/
def hostBundleFault (s : State) (code : List (Nat × Nat × Nat)) : Option (Nat × Nat) :=
  s.ln.hostBundles.findSome? fun k =>
    let l := k * 32 / 0x40000
    let i := k % 4096
    let maq := decide (k * 32 % 0x40000 ≥ 0x20000) != activeHalf s l
    if maq && !code.any (fun x => x.1 == l && x.2.1 == i) then
      (bundleFault (leNat (sgets zeroByte s.ln.prog (k * 32) 32))).map fun slot => (i, slot)
    else none

/-- The verifier reads whole maquette halves (R60). DESIGN CHOICE (log 62): such a bundle belongs to no segment, and the
report's item is 0. -/
def verifyHalves (s : State) : Except Refuse PlaceOut → Except Refuse PlaceOut
  | .error r => .error r
  | .ok o => match hostBundleFault s o.code with
    | some (i, slot) => .error ⟨0x2008, 0, i, slot⟩
    | none => .ok o

/-- The placement of the staged image: what it will report and leave. -/
def runPlacement (s : State) : State :=
  let im := readImg (slotBytes s (stagedSlot s))
  let i := placeInput im s.plr.run s
  let ms := Config.placeMs s.fresh
  let s := { s with fresh := s.fresh + 1 }
  let p := verifyHalves s (placeImage im i)
  let put (maq : Option Armature) (code : List (Nat × Nat × Nat)) : State :=
    { s with plr := { s.plr with state := .placing, since := s.clk.cyc, nextReport := reportOf im i ms p
                                 maq := maq, nextCode := code } }
  match p with
  | .error _ => put none []
  | .ok o => match o.refusedBy with
    | some _ => put none []
    | none => put (some o.arm) o.code

/-- PLR_CMD.PLACE (R162, R163). -/
def placeOp : RegOp := fun s =>
  match s.plr.state with
  | .empty => (.denied, s)
  | .loading => (.busy, s)
  | .placing => (.busy, s)
  | .armed => (.busy, s)
  | _ => (.ok, runPlacement s)

/-- PLACE. -/
def execPlace (sid : Fin 4) (s : State) : Host.Outcome State Fault Refusal := act (hostDo sid.val roleENGINEER placeOp) s

/-- A bundle written to the maquette half of its lane, with its check (R60). -/
def putBundle (x : Nat × Nat × Nat) (s : State) : State :=
  let a := bundleAddr (!activeHalf s x.1) x.1 x.2.1
  { s with ln := { s.ln with
      prog := sputs zeroByte a (leBytes 32 x.2.2) s.ln.prog, badBundles := s.ln.badBundles.erase (a / 32)
      hostBundles := s.ln.hostBundles.erase (a / 32) } }

/-- Bytes of a variable's initial value (R151). -/
def initBytes (bs : List Byte) (v : VarInfo) : List Byte :=
  if v.flags.testBit 1 then List.replicate v.size 0 else (bs.drop v.initOff).take v.size

/-- Initial values of the maquette's new variables (R166). -/
def putInits (bs : List Byte) (old new : List VarInfo) (s : State) : State :=
  (new.filter fun v => (carriedFrom old v).isNone).foldl (fun s v => shPut v.base (initBytes bs v) s) s

/-- Variables of the running program. -/
def runVars (s : State) : List VarInfo :=
  match s.plr.run with
  | some a => a.vars
  | none => []

/-- A bundle of a maquette half whose check fails when the verifier reads it (R18, R60): lane and index. -/
def maquetteBad (s : State) : Option (Fin 16 × Nat) :=
  s.ln.badBundles.findSome? fun k =>
    let l := k * 32 / 0x40000
    if h : l < 16 then
      (if decide (k * 32 % 0x40000 ≥ 0x20000) != activeHalf s l then some (⟨l, h⟩, k % 4096) else none)
    else none

/-- PLACING ends (R161, R162). -/
def placedEff (s : State) : State :=
  let rep := s.plr.nextReport
  let word (i : Nat) : Word := ((rep.find? fun x => x.1 == i).map (·.2)).getD 0
  let bs := slotBytes s (stagedSlot s)
  let code := BitVec.setWidth 16 (word 0)
  let s := match s.plr.maq with
    | none => { s with plr := { s.plr with state := .refused } }
    | some a =>
      let s := s.plr.nextCode.foldl (fun s x => putBundle x s) s
      let s := putInits bs (runVars s) a.vars s
      { s with plr := { s.plr with state := .placed, maqHashOk := true } }
  let s := note code srcPLR (word 1) (word 2) (word 3)
    { s with plr := { s.plr with report := rep, result := code, nextReport := [], nextCode := [] } }
  match maquetteBad s with
  | some (l, i) => laneFaultIn (!activeHalf s l.val) l ⟨0x100C, w i, none⟩ i false s
  | none => s

/-- PLACED: the placer accepts or refuses. -/
def execPlaced (s : State) : Host.Outcome State Fault Refusal :=
  act (fun s => if s.plr.state = .placing then placedEff s else s) s

/-! ### SWAP, CANCEL, DISCARD, UNCACHE -/

/-- F ends every cycle of the running program (R50). -/
def endsCycles (f : Nat) (s : State) : Bool :=
  let c := if progS s ≠ 0 then progS s else progM s
  c == 0 || (decide (s.frm.k0 ≤ f) && (f - s.frm.k0) % c == 0)

/-- The image's CHISEL_ID is that of the active or of the staged table. -/
def maqChiselOk (s : State) : Bool :=
  match s.plr.maq with
  | some a => a.chiselId == activeId s || a.chiselId == stagedId s
  | none => false

/-- The verdict on SWAP (R163, R164, R306). -/
def swapVerdict (f : Nat) (s : State) : Res :=
  if s.plr.state ≠ .placed ∨ s.hsb.role = .standby then .denied
  else if booting s ∨ f < s.frm.k + 16 then .late
  else if !endsCycles f s ∨ !maqChiselOk s then .denied
  else if paired s ∧ !peerPlacedSame s then .denied
  else .ok

/-- PLR_CMD.SWAP. -/
def swapOp : RegOp := fun s =>
  let f := regPair 0x30014 s
  match swapVerdict f s with
  | .ok => (.ok, sendControl (.swapArm f) { s with plr := { s.plr with state := .armed, swapF := some f, swapDone := false } })
  | r => (r, s)

/-- SWAP. -/
def execSwap (sid : Fin 4) (s : State) : Host.Outcome State Fault Refusal := act (hostDo sid.val roleENGINEER swapOp) s

/-- Word of the placement report as it stands. -/
def reportWord (i : Nat) (s : State) : Word := ((s.plr.report.find? fun x => x.1 == i).map (·.2)).getD 0

/-- An armed swap is disarmed (R161, R164). -/
def disarmSwap (s : State) : State :=
  note 0x2011 srcPLR (stagedImageId s) (reportWord 2 s) (reportWord 3 s) { s with plr := { s.plr with state := .placed, swapF := none } }

/-- PLR_CMD.CANCEL (R164). -/
def swapCancelOp : RegOp := fun s =>
  match s.plr.swapF with
  | none => (.denied, s)
  | some f =>
    if f ≤ s.frm.k + 1 then (.late, s)
    else (.ok, sendControl .swapCancel (disarmSwap s))

/-- SWAP_CANCEL. -/
def execSwapCancel (sid : Fin 4) (s : State) : Host.Outcome State Fault Refusal :=
  act (hostDo sid.val roleENGINEER swapCancelOp) s

/-- PLR_CMD.DISCARD (R162, R163). -/
def discardOp : RegOp := fun s =>
  match s.plr.state with
  | .armed => (.busy, s)
  | .empty => (.denied, s)
  | .loading => (.denied, s)
  | .placing => (.denied, s)
  | _ => (.ok, let s := emptySlot s; { s with plr := { s.plr with state := .empty } })

/-- DISCARD. -/
def execDiscard (sid : Fin 4) (s : State) : Host.Outcome State Fault Refusal := act (hostDo sid.val roleENGINEER discardOp) s

/-- PLR_CMD.UNCACHE (R168). -/
def uncacheOp : RegOp :=
  always fun s => { s with plr := { s.plr with cache := vset s.plr.cache s.plr.runSlot.toNat none } }

/-- UNCACHE. -/
def execUncache (sid : Fin 4) (s : State) : Host.Outcome State Fault Refusal := act (hostDo sid.val roleENGINEER uncacheOp) s

/-! ### Writes to a maquette half (R16, R17, R60, R163) -/

/-- A byte offset of the lane program window lies in an active half. -/
def inActiveHalf (s : State) (o : Nat) : Bool := decide (o % 0x40000 ≥ 0x20000) == activeHalf s (o / 0x40000)

/-- Bytes land in maquette halves: checks are recomputed, and a placed maquette is lost (R162). -/
def maquettePut (o : Nat) (bs : List Byte) (s : State) : State :=
  let hit (k : Nat) : Bool := decide (o / 32 ≤ k ∧ k * 32 < o + bs.length)
  let s := { s with ln := { s.ln with
    prog := sputs zeroByte o bs s.ln.prog, badBundles := s.ln.badBundles.filter fun k => !hit k
    hostBundles := s.ln.hostBundles.filter (fun k => !hit k)
      ++ (List.range ((o + bs.length + 31) / 32 - o / 32)).map (o / 32 + ·) } }
  if s.plr.state = .placed then { s with plr := { s.plr with state := .loaded, maq := none } } else s

/-- A host write of one word through the lane program window, at offset `o` of it. -/
def maquetteWordOp (o : Nat) (x : Word) : RegOp := fun s =>
  if inActiveHalf s o then (.denied, s)
  else match s.plr.state with
    | .placing => (.busy, s)
    | .armed => (.busy, s)
    | _ => (.ok, maquettePut o (wordBytes x) s)

/-- The window of R16 holds the address, and its word is aligned (R365). -/
def maquetteWriteOp (addr : Nat) (x : Word) : RegOp := fun s =>
  if addr < 0x20000000 ∨ 0x20400000 ≤ addr then (.badSpace, s)
  else if addr % 4 ≠ 0 then (.badLen, s)
  else maquetteWordOp (addr - 0x20000000) x s

/-- MAQUETTE_WRITE (R60). -/
def execMaquetteWrite (sid : Fin 4) (addr : Nat) (value : Word) (s : State) : Host.Outcome State Fault Refusal :=
  act (hostDo sid.val roleENGINEER (maquetteWriteOp addr value)) s

end Sys2Proof.Machine
end

