-- ==== Sys2Proof/Machine/HsbBase.lean ====
section
/-! DEFINITION. What the hot-standby unit does with what it hears: roles (R291 to R293), hearing (R294), agreement and
state transfer (R290, R301), divergence (R299). -/
namespace Sys2Proof.Machine

/-- Change the HSB block; set a bit of HSB_EVT; advance a counter of HSB_CNT. -/
def modHsb (f : Hsb → Hsb) (s : State) : State := { s with hsb := f s.hsb }
def hsbEvt (n : Nat) (s : State) : State := modHsb (fun h => { h with evt := setBit h.evt n }) s
def hsbCount (n : Nat) (s : State) : State := modHsb (fun h => { h with cnt := vmod h.cnt n (· + 1) }) s

/-- Fields of HSB_CFG, as read at module reset. -/
def hsbPref (s : State) : Bool := s.hsb.cfg.getLsbD 1
def hsbPairs (s : State) : List Nat := where_ 4 fun p => s.hsb.cfg.getLsbD (2 + p)
def hsbDivMax (s : State) : Nat := max 1 (field s.hsb.cfg 8 8)
def hsbSeekMs (s : State) : Nat := max 100 (field s.hsb.cfg 16 16)

/-- The lanes run on the mirrored image (R297, R301). -/
def mirrored (s : State) : Bool := s.hsb.role == .standby || (s.hsb.role == .syncing && s.hsb.xferFrom.isSome)

/-- The role changes at tick `k` (R291): NOTE 0x9001. -/
def roleTo (r : Role) (k : Nat) (s : State) : State :=
  if s.hsb.role = r then s
  else
    let old := s.hsb.role
    let s := assertEvw 47 (hsbEvt 0 (note 0x9001 srcHSB (w old.code) (w r.code) (w k) (modHsb (fun h => { h with
      role := r, roleK := k, handover := none, hoCommitted := false, divDue := none, doubtAt := none, dual := none
      missRec := 0, missBeat := 0, peerStart := false, verdictDiff := false, ready := false, own := false
      xferFrom := none, xferNext := 0 }) s)))
    let s := if r = .alone ∨ r = .active then s else canLeave s
    if r = .syncing then modHsb (fun h => { h with
      seekFrom := s.clk.cyc, seekDone := false, agreed := false, peerK0 := none, xferDone := false, xferMissed := false
      scanRun := 0, refuse := 0, mirSv := [], mirBase := [], mirGs := [], mirCan := [], meter := none }) s
    else s

/-- What a message tells of its sender's role; event source 48 follows a change. -/
def setPeer (r : Option Role) (s : State) : State :=
  if s.hsb.peerRole = r then s else assertEvw 48 (modHsb (fun h => { h with peerRole := r }) s)

/-- A good message arrived on a link (R294). -/
def gotMessage (link : Nat) (s : State) : State :=
  hsbCount 0 (modHsb (fun h => { h with link := vset h.link link true }) s)

/-- The peer is heard on a link in this frame, so a SYNCING module seeks on. -/
def heardPeer (link : Nat) (s : State) : State :=
  modHsb (fun h => { h with heard := vset h.heard link true, seekFrom := s.clk.cyc, seekDone := false }) s

/-- A message arrives (R294): with EN = 1 only; one whose CRC fails is dropped and counted by its link; the first good copy
acts. A RECORD or BEAT makes its sender heard on the link. -/
def onLink (h : HsHead) (hears : Bool) (f : State → State) (s : State) : State :=
  if !hsbEn s then s
  else if !h.crcOk then hsbCount (1 + h.link.val) s
  else
    let s := gotMessage h.link.val s
    let s := if hears then heardPeer h.link.val s else s
    if s.hsb.taken.contains (h.k, h.seq) || s.hsb.takenPrev.contains (h.k, h.seq) then s
    else f (modHsb (fun x => { x with taken := (h.k, h.seq) :: x.taken }) s)

/-! ### Agreement (R290, R301) -/

/-- Hash of the running armature; the empty program has none. -/
def runHash (s : State) : List Word :=
  match s.plr.run with
  | some a => a.hash
  | none => []

/-- Output words that any segment declares, with word 0x0000 (R298). -/
def outputSet (s : State) : List Nat :=
  match s.plr.run with
  | some a => 0 :: ((a.fastOut ++ a.midOut ++ a.slowOut).filter (· ≠ 0)).eraseDups
  | none => [0]

/-- Input words in the metering area that any segment declares (R298). -/
def meterSet (s : State) : List Nat :=
  match s.plr.run with
  | some a => ((a.imgGrants.filter (·.kind == 0)).flatMap fun g =>
      (List.range g.count).filterMap fun i => if 0x5000 ≤ g.first + i ∧ g.first + i < 0x8000 then some (g.first + i) else none).eraseDups
  | none => []

/-- The reason for which this module refuses sync: 0 none, 1 HASH, 2 CHISEL, 3 SET_SIZE, 4 PROTO. -/
def refuseCode (hash : List Word) (chisel : Word) (protoOk : Bool) (s : State) : Nat :=
  if hash ≠ runHash s then 1 else if chisel ≠ activeId s then 2
  else if 1024 < (outputSet s).length ∨ 1024 < (meterSet s).length then 3 else if !protoOk then 4 else 0

/-- The staged NE, EQ, FIO or CAN settings of an armed commit differ (R290). -/
def stagedDiffer (r : Record) (s : State) : Bool :=
  match r.armed with
  | none => false
  | some g => (List.range 4).any fun i => g.getLsbD i && r.stagedCrc.getD i 0 != stagedCrc s i

/-- The reason shown for settings that differ, which R301 does not list: a free one of the four. -/
def refuseStaged : Nat := 1 + Config.choice 39 0 % 4

/-- A SYNCING module judges the driving peer; while it refuses, no transfer goes on (R301). -/
def judgePeer (r : Record) (s : State) : State :=
  let c := refuseCode r.runHash r.chiselId r.protoOk s
  let c := if c = 0 ∧ stagedDiffer r s then refuseStaged else c
  let s := if c ≠ 0 ∧ c ≠ s.hsb.refuse then note1 0x9004 srcHSB (w c) s else s
  modHsb (fun h => { h with
    refuse := c, agreed := c == 0, xferFrom := if c = 0 then h.xferFrom else none, ready := h.ready && c == 0 }) s

/-! ### Divergence (R299) -/

/-- A divergence: its NOTE, HSB_DIV, and DIVERGED at the next tick; too many in 60 s are a MODULE doubt. -/
def diverge (k : Nat) (word own peer : Word) (s : State) : State :=
  let times := s.clk.opSec :: s.hsb.divTimes.filter fun t => decide (s.clk.opSec < t + 60)
  let s := note 0x9002 srcHSB word own peer (hsbCount 5 (hsbEvt 1 (modHsb (fun h => { h with
    divFrame := w k, divWord := word, divOwn := own, divPeer := peer
    divTimes := times, divDue := some (h.divDue.getD (s.frm.k + 1)) }) s)))
  if hsbDivMax s ≤ times.length then
    moduleDoubt causeStandby 0x9007 srcHSB (w times.length) (w (hsbDivMax s)) 0 s
  else s

/-- A takeover is due or about to be: the peer's DOUBT has arrived, or the record of this tick is missing (R302). -/
def takeoverNear (s : State) : Bool := s.hsb.doubtAt.isSome || s.hsb.record.isNone

/-- Publication state of GP_0 to GP_63. -/
def pubState (s : State) : List (Word × Word) := s.ne.gp.toList.map fun p => (p.st, p.sq)

/-- This module's output set as it stands, for frame `k`. -/
def ownSet (s : State) (k : Nat) : OutSet := ⟨k, (outputSet s).map fun i => (i, imgOutWord s i), pubState s⟩

/-- First word in which two output sets differ. -/
def firstDiff (own peer : OutSet) : Option (Nat × Word × Word) :=
  own.words.findSome? fun x => match peer.words.find? (·.1 == x.1) with
    | some y => if x.2 = y.2 then none else some (x.1, x.2, y.2)
    | none => some (x.1, x.2, 0)

/-! ### The scan (R300) -/

/-- The areas of variables in the map in force. -/
def varAreas (s : State) : List Area := (mapAreas s).filter fun a => 30 ≤ a.id

/-- Edge memory of the lanes by word, then the GOOSE blocks as the image of the frame holds them. -/
def scanRest (s : State) (n : Nat) : Word :=
  if n < 2048 then w ((vget State.lane0 s.lanes (n / 128)).edges.toNat / 2 ^ (32 * (n % 128)))
  else if n < 2048 + 16384 then sget zeroWord s.ne.frozen (0x1000 + (n - 2048)) else 0

/-- Word `n` of variable memory, edge memory and the GOOSE subscription blocks, one after the other; 0 beyond them. -/
def scanWord (s : State) (n : Nat) : Word := go (varAreas s) n
where
  /-- Variables in ascending VID. -/
  go : List Area → Nat → Word
    | [], n => scanRest s n
    | a :: t, n => if n < a.len / 4 then shWord s (a.base + 4 * n) else go t (n - a.len / 4)

/-- Number of blocks of 4 KiB. -/
def scanBlocks (s : State) : Nat := (((varAreas s).map fun a => a.len / 4).sum + 2048 + 16384 + 1023) / 1024

/-- CRC-32C of a block. -/
def scanCrc (s : State) (b : Nat) : Word := crc32c (wordsBytes ((List.range 1024).map fun i => scanWord s (1024 * b + i)))

/-- The CRCs taken after frame `k`: 256 blocks in rotation from the first block at K0, every block once where there are
fewer. -/
def scanCrcs (s : State) (k : Nat) : List Word :=
  let n := scanBlocks s
  (List.range (min 256 n)).map fun i => scanCrc s ((256 * (k - s.frm.k0) + i) % n)

/-- The history of the transfer has been filled (R301 step 3). -/
def historyFull (s : State) : Bool :=
  s.hsb.xferDone && match s.hsb.xferFrom with
    | some f => decide (f + 8192 ≤ s.frm.k)
    | none => false

/-- The peer's CRCs of a frame against this module's, once both are there. -/
def scanJudge (s : State) : State :=
  match s.hsb.scanOwn, s.hsb.scanPeer with
  | some (k, a), some (j, b) =>
    if k ≠ j then s
    else
      let s := modHsb (fun h => { h with scanPeer := none }) s
      match s.hsb.role with
      | .standby => if a = b then s else diverge k (un 0x9002 0 s) (un 0x9002 1 s) (un 0x9002 2 s) s
      | .syncing => modHsb (fun h => { h with scanRun := if a = b ∧ historyFull s then h.scanRun + a.length else 0 }) s
      | _ => s
  | _, _ => s

/-- At a tick the CRCs of the frame that ends are taken. -/
def scanTake (k : Nat) (s : State) : State := scanJudge (modHsb (fun h => { h with scanOwn := some (k, scanCrcs s k) }) s)

/-! ### What the unit sends (R295, R296) -/

/-- Consecutive words of the frozen image. -/
def frozenRun (s : State) (first count : Nat) : List Word := (List.range count).map fun i => sget zeroWord s.ne.frozen (first + i)

/-- Generations of four subscriptions at T_k. -/
def genWord (s : State) (n : Nat) : Word :=
  (List.range 4).foldl (fun x i => x ||| at_ ((gsAtTick s (4 * n + i)).gen) (8 * i)) 0

/-- The words of the record of frame `k`, at its tick. -/
def recordWords (k : Nat) (s : State) : List Word :=
  [w k, w (k / 2 ^ 32), w s.hsb.role.code] ++ frozenRun s 0x106 3 ++ frozenRun s 0x100 4 ++ frozenRun s 0x110 6
  ++ frozenRun s 0xC0 24 ++ frozenRun s 0x200 10 ++ frozenRun s 0x210 1 ++ frozenRun s 0x220 32
  ++ (List.range 4).flatMap (fun n => frozenRun s (0x300 + 0x100 * n) 16) ++ (List.range 64).map (genWord s)
  ++ frozenRun s 0x700 3 ++ frozenRun s 0x118 4

/-- CRCs of the five staged groups. -/
def stagedCrcs (s : State) : List Word := (List.range 5).map (stagedCrc s)

/-- The record of frame `k`. -/
def ownRecord (k : Nat) (s : State) : Record :=
  { k := k, role := s.hsb.role, runHash := runHash s, chiselId := activeId s, protoOk := true
    armed := if s.frm.commitArmed then some s.frm.commitGroups else none, stagedCrc := stagedCrcs s
    verdict := s.hsb.ownVerdict, mac := Config.baseMac, since := s.hsb.roleK, words := recordWords k s }

/-- The BEAT of a module that does not drive. -/
def ownBeat (s : State) : Beat :=
  { role := s.hsb.role, runHash := runHash s, maqHash := (s.plr.maq.map (·.hash)).getD []
    plrState := s.plr.state.code, chiselId := activeId s, stagedCrc := stagedCrcs s, verdict := s.hsb.ownVerdict
    pref := hsbPref s, mac := Config.baseMac }

/-- Metering words of the sync set as EQ has written them (R298). -/
def meterWords (s : State) : List (Nat × Word) := s.eq.words.filter fun x => (meterSet s).contains x.1

/-! ### State transfer (R301) -/

/-- Places of a transfer block: shared memory by offset; edge memory, GOOSE blocks (64 words and the generation),
publication state, CAN baselines and K0 from these bases. -/
def xferEDGES : Nat := 0x2000000
def xferGOOSE : Nat := 0x3000000
def xferPUBS : Nat := 0x4000000
def xferCAN : Nat := 0x5000000
def xferK0 : Nat := 0x6000000

/-- Publication state of GP_i: whether it has published, stNum, sqNum, the next retransmission, its due time and the
interval in ms, TEST, the network time of the release, then the last members. -/
def pubWords (p : GoPub) : List Word :=
  [bitWord p.last.isSome, p.st, p.sq, w p.nextN, w p.dueMs, w p.interval, bitWord p.test]
  ++ [w (p.tRel % ntSec / ntNs), w (p.tRel / ntSec), w (p.tRel / ntSec / 2 ^ 32)] ++ p.last.getD []

/-- Words of shared memory in blocks of 1 KiB. -/
def areaBlocks (s : State) (a : Area) : List (Nat × List Word) :=
  (List.range ((a.len / 4 + 255) / 256)).map fun i =>
    (a.base + 1024 * i, (List.range (min 256 (a.len / 4 - 256 * i))).map fun n => shWord s (a.base + 1024 * i + 4 * n))

/-- A GOOSE block as 64 words with its generation. -/
def goBlock (s : State) (i : Nat) : List Word := frozenRun s (0x1000 + 0x40 * i) 64 ++ [w (gsAtTick s i).gen]

/-- The blocks of a transfer, in the order in which they are sent. -/
def xferPlan (s : State) : List (Nat × List Word) :=
  [(xferK0, [w s.frm.k0, w (s.frm.k0 / 2 ^ 32)])] ++ (varAreas s).flatMap (areaBlocks s)
  ++ (List.range 8).map (fun i => (xferEDGES + 1024 * i, (List.range 256).map fun n => scanRest s (256 * i + n)))
  ++ (List.range 256).map (fun i => (xferGOOSE + 4 * i, goBlock s i))
  ++ (List.range 64).map (fun i => (xferPUBS + 4 * i, pubWords (vget State.gp0 s.ne.gp i)))
  ++ (List.range 12).map fun i =>
    let b := vget State.txbuf0 (vget State.can0 s.can.ctl (i / 3)).bufs (i % 3)
    (xferCAN + 4 * i, [BitVec.setWidth 32 b.seqBase ||| (BitVec.setWidth 32 b.cseqBase <<< 8)])

/-- Blocks sent in a frame, so that 8 MiB take at most 0.2 s. -/
def xferRate (s : State) : Nat := 8192 * 5 / rate s + 1

/-- An ACTIVE module with a SYNCING peer sends the next blocks, with their values after frame `m`, and begins again after
the last. -/
def xferSends (m : Nat) (s : State) : State :=
  if s.hsb.role = .active ∧ s.hsb.peerRole = some .syncing then
    let plan := xferPlan s
    let now := (plan.drop s.hsb.xferNext).take (xferRate s)
    let next := s.hsb.xferNext + now.length
    let s := now.zipIdx.foldl (fun s x =>
      hsbPush (.xfer m x.1.1 x.1.2 (s.hsb.xferNext + x.2 + 1 == plan.length)) s) s
    modHsb (fun h => { h with xferNext := if next < plan.length then next else 0 }) s
  else s

/-- What the unit sends from T_k. -/
def hsbSends (k : Nat) (s : State) : State :=
  if !hsbEn s then s
  else if drives s then
    let s := hsbPush (.record (ownRecord k s)) (hsbPush (.meter (meterWords s)) s)
    let s := match s.hsb.ownOut with
      | some o => hsbPush (.output o) s
      | none => s
    xferSends (k - 1) (scanSend s)
  else
    let s := hsbPush (.beat (ownBeat s)) s
    if s.hsb.role = .standby then scanSend s else s
where
  /-- The scan CRCs of the frame that has ended. -/
  scanSend (s : State) : State :=
    match s.hsb.scanOwn with
    | some (j, crcs) => hsbPush (.scan j crcs) s
    | none => s

end Sys2Proof.Machine
end

