-- ==== Sys2Proof/Machine/HsbRows.lean ====
section
/-! DEFINITION. Messages on the sync links and the beacon (R294 to R301, R305), the mirrored image (R297), the compare
(R299), handover (R307), links (R310) and the roles at a tick (R291, R302 to R309). -/
namespace Sys2Proof.Machine

/-! ### Messages -/

/-- The peer's commit verdict of the last commit point against this module's own: a verdict against none differs (R306). -/
def judgeVerdict (v : Option Bool) (s : State) : State :=
  if v = s.hsb.ownVerdict then s else modHsb (fun h => { h with verdictDiff := true }) s

/-- RECORD of a driving peer. -/
def recordMsg (r : Record) (s : State) : State :=
  let s := modHsb (fun h => { h with peerMac := r.mac }) (setPeer (some r.role) s)
  match s.hsb.role with
  | .alone | .active =>
    let yield := decide (r.since < s.hsb.roleK)
      || (r.since == s.hsb.roleK && decide (r.mac.toNat < Config.baseMac.toNat))
    modHsb (fun h => { h with dual := some yield }) s
  | .syncing => keep r (judgePeer r s)
  | .standby => keep r (if r.k = s.frm.k then judgeVerdict r.verdict s else s)
  | .diverged => s
where
  /-- The record of the frame under way, complete by T_k + 4.5 µs. -/
  keep (r : Record) (s : State) : State :=
    if r.k = s.frm.k ∧ s.clk.tickph ≤ 1800 then modHsb (fun h => { h with record := some r }) s else s

/-- RECORD. -/
def execRecordMsg (h : HsHead) (r : Record) (s : State) : Host.Outcome State Fault Refusal :=
  act (onLink h true (recordMsg r)) s

/-- MIRROR_SV, MIRROR_GS, MIRROR_CAN: kept for the image of the frame that refers to them. -/
def execMirrorSv (h : HsHead) (stream : Fin 24) (j : Nat) (vals : Vector Word 8) (s : State) :
    Host.Outcome State Fault Refusal :=
  act (onLink h false fun s => modHsb (fun h => { h with
    mirSv := (h.mirSv.filter fun x => !(x.1 == stream.val && x.2.1 == j)) ++ [(stream.val, j, vals.toList)] }) s) s

/-- The changed words of a GOOSE subscription block of the peer, by generation. -/
def putMirGs (sub gen : Nat) (ws : List (Nat × Word)) (s : State) : State :=
  modHsb (fun h => { h with
    mirGs := (h.mirGs.filter fun x => !(x.1 == sub && x.2.1 == gen % 256)) ++ [(sub, gen % 256, ws)] }) s

/-- A whole block of the peer. -/
def putMirBase (sub gen : Nat) (ws : List Word) (s : State) : State :=
  modHsb (fun h => { h with mirBase := (h.mirBase.filter fun x => x.1 != sub) ++ [(sub, gen % 256, ws)] }) s

/-- MIRROR_GS. -/
def execMirrorGs (h : HsHead) (sub : Fin 256) (gen : Nat) (words : List (Nat × Word)) (s : State) :
    Host.Outcome State Fault Refusal :=
  act (onLink h false (putMirGs sub.val gen words)) s

/-- MIRROR_CAN. -/
def execMirrorCan (h : HsHead) (ctl : Fin 4) (queue : Fin 2) (words : List Word) (s : State) :
    Host.Outcome State Fault Refusal :=
  act (onLink h false fun s => modHsb (fun h => { h with mirCan := h.mirCan ++ [(ctl.val, queue.val, words)] }) s) s

/-- METER: the frame number of its header is that of the frame whose words it carries. -/
def execMeter (h : HsHead) (words : List (Nat × Word)) (s : State) : Host.Outcome State Fault Refusal :=
  act (onLink h false fun s => modHsb (fun x => { x with meter := some (h.k, words) }) s) s

/-- OUTPUT, with the publication state that a takeover starts from (R303). -/
def execOutputMsg (h : HsHead) (k : Nat) (words : List (Nat × Word)) (pubs : List (Word × Word)) (s : State) :
    Host.Outcome State Fault Refusal :=
  act (onLink h false fun s => modHsb (fun h => { h with output := some ⟨k, words, pubs⟩, peerSt := pubs.map (·.1) }) s) s

/-- DOUBT of the peer. -/
def execDoubtMsg (h : HsHead) (role : Role) (_code : BitVec 16) (_k : Word) (s : State) :
    Host.Outcome State Fault Refusal :=
  act (onLink h false fun s => modHsb (fun h => { h with
    doubtAt := some (h.doubtAt.getD s.clk.cyc) })
    (setPeer (some role) s)) s

/-- BEAT of a peer that does not drive. -/
def beatMsg (b : Beat) (s : State) : State :=
  let s := modHsb (fun h => { h with peerBeat := some b, peerMac := b.mac }) (setPeer (some b.role) s)
  match s.hsb.role with
  | .alone | .active =>
    if b.role = .syncing ∧ refuseCode b.runHash b.chiselId true s = 0 then
      modHsb (fun h => { h with peerStart := true }) s
    else s
  | _ => s

/-- BEAT. -/
def execBeatMsg (h : HsHead) (b : Beat) (s : State) : Host.Outcome State Fault Refusal :=
  act (onLink h true (beatMsg b)) s

/-! ### State transfer (R301) -/

/-- Edge words of a lane replaced from word `i`. -/
def putEdges (n : Nat) (ws : List Word) (s : State) : State :=
  ws.zipIdx.foldl (fun s x =>
    let i := n + x.2
    { s with lanes := vmod s.lanes (i / 128) fun ln =>
        let lo := 32 * (i % 128)
        let clear : BitVec 4096 := 0xFFFFFFFF#4096 <<< lo
        let put : BitVec 4096 := (BitVec.setWidth 4096 x.1) <<< lo
        { ln with edges := (ln.edges &&& ~~~clear) ||| put } }) s

/-- Publication state of GP_i, as `pubWords` lays it out. -/
def putPub (i : Nat) (ws : List Word) (s : State) : State :=
  let x (n : Nat) : Nat := (ws.getD n 0).toNat
  modGp i (fun p => { p with
    st := ws.getD 1 0, sq := ws.getD 2 0, nextN := x 3, dueMs := x 4, interval := x 5, test := x 6 != 0
    tRel := (x 8 + x 9 * 2 ^ 32) * ntSec + x 7 * ntNs
    last := if x 0 = 0 then none else some (ws.drop 10) }) s

/-- SEQ and CSEQ baselines of a transmit buffer. -/
def putBase (i : Nat) (x : Word) (s : State) : State :=
  { s with can := ⟨vmod s.can.ctl (i / 3) fun c => { c with
      bufs := vmod c.bufs (i % 3) fun b => { b with seqBase := x.setWidth 8, cseqBase := (x >>> 8).setWidth 8 } }⟩ }

/-- A block of the state transfer put where it belongs. -/
def xferPut (addr : Nat) (ws : List Word) (s : State) : State :=
    if addr < sharedSize then shPut addr (wordsBytes ws) s
    else if addr < xferEDGES then s
    else if addr < xferGOOSE then putEdges ((addr - xferEDGES) / 4) ws s
    else if addr < xferPUBS then putMirBase ((addr - xferGOOSE) / 4) (ws.getD 64 0).toNat (ws.take 64) s
    else if addr < xferCAN then putPub ((addr - xferPUBS) / 4) ws s
    else if addr < xferK0 then putBase ((addr - xferCAN) / 4) (ws.getD 0 0) s
    else modHsb (fun h => { h with peerK0 := some ((ws.getD 0 0).toNat + (ws.getD 1 0).toNat * 2 ^ 32) }) s

/-- A block with its values after frame `m`: installed before TICKPH = 2,400 of frame m + 1. The transfer is done when the last
block has come and none since the first came too late. -/
def xferMsg (m addr : Nat) (ws : List Word) (last : Bool) (s : State) : State :=
  let inTime := decide (m + 1 = s.frm.k) && decide (s.clk.tickph < 2400)
  let s := if addr = xferK0 then modHsb (fun h => { h with xferMissed := false }) s else s
  let s := if inTime then xferPut addr ws s else modHsb (fun h => { h with xferMissed := true }) s
  modHsb (fun h => { h with xferDone := h.xferDone || (last && !h.xferMissed) }) s

/-- XFER. -/
def execXferMsg (h : HsHead) (m : Nat) (block : XferBlock) (last : Bool) (s : State) : Host.Outcome State Fault Refusal :=
  act (onLink h false fun s => if s.hsb.role = .syncing then xferMsg m block.addr block.words last s else s) s

/-- SCAN: the peer's CRCs after frame `k` (R300). -/
def scanMsg (k : Nat) (crcs : List Word) (s : State) : State :=
  scanJudge (modHsb (fun h => { h with scanPeer := some (k, crcs) }) s)

/-- SCAN. -/
def execScanMsg (h : HsHead) (lo hi : Word) (crcs : List Word) (s : State) : Host.Outcome State Fault Refusal :=
  act (onLink h false (scanMsg (lo.toNat + hi.toNat * 2 ^ 32) crcs)) s

/-- CONTROL: a STANDBY arms or cancels what its peer armed or cancelled (R306, R307). -/
def controlMsg (c : Control) (s : State) : State :=
  if s.hsb.role ≠ .standby then s
  else match c with
    | .swapArm f =>
      if s.plr.state = .placed then { s with plr := { s.plr with state := .armed, swapF := some f, swapDone := false } } else s
    | .swapCancel => if s.plr.swapF.isSome then disarmSwap s else s
    | .commitArm f groups => setReg 0x10038 (BitVec.setWidth 32 groups) (setArm f groups s)
    | .commitCancel => { s with frm := { s.frm with commitArmed := false, committed := false } }
    | .handoverArm f => modHsb (fun h => { h with handover := some f, hoCommitted := false }) s
    | .handoverCancel => modHsb (fun h => { h with handover := none }) s

/-- CONTROL. -/
def execControlMsg (h : HsHead) (c : Control) (s : State) : Host.Outcome State Fault Refusal :=
  act (onLink h false (controlMsg c)) s

/-- BEACON: it counts when it arrives by its tick + 10 µs (R305). -/
def execBeacon (pair : Fin 4) (mac : BitVec 48) (role : Role) (k : Word) (s : State) : Host.Outcome State Fault Refusal :=
  act (fun s => whenever (hsbEn s && decide (s.clk.tickph ≤ 4000) && (hsbPairs s).contains pair.val
      && (role == .alone || role == .active) && k == w s.frm.k)
    (modHsb fun h => { h with beaconNow := true, peerMac := mac, seekFrom := s.clk.cyc, seekDone := false }) s) s

/-! ### The mirrored image (R297) -/

/-- Frame slots of a CAN mirror: the first frames of each queue, and what stays queued. -/
def mirCanSlots (h : Hsb) (n : Nat) (cnt : Word) : Option (List (Nat × Word) × List (Nat × Nat × List Word)) :=
  let mine := h.mirCan.filter fun x => x.1 == n
  let q0 := mine.filter fun x => x.2.1 == 0
  let q1 := mine.filter fun x => x.2.1 == 1
  let total := field cnt 0 8
  let m0 := min total (q0.length - field cnt 8 8)
  let m1 := total - m0
  if q1.length < m1 then none
  else some (((q0.take m0 ++ q1.take m1).map (·.2.2)).zipIdx.flatMap (fun x =>
      x.1.zipIdx.map fun y => (0x300 + 0x100 * n + 16 + 20 * x.2 + y.2, y.1)), q0.drop m0 ++ q1.drop m1)

/-- Words of a sample entry: the mirrored samples, or the fill of R195; `none` when a mirrored sample is missing. -/
def mirEntry (s : State) (h : Hsb) (i j : Nat) (q : Word) : Option (List Word) :=
  if q.getLsbD 16 then some (svPrev s i j)
  else (h.mirSv.find? fun x => x.1 == i && x.2.1 == j).map (·.2.2)

/-- Words of a block replaced. -/
def patchBlock (ws : List Word) (changed : List (Nat × Word)) : List Word :=
  changed.foldl (fun ws x => ws.set x.1 x.2) ws

/-- The GOOSE block of a subscription at a generation: the block held, and every change since in order. -/
def mirBlock (h : Hsb) (i gen : Nat) : Option (List Word) :=
  let (from_, base) := match h.mirBase.find? (·.1 == i) with
    | some x => (x.2.1, x.2.2)
    | none => (0, List.replicate 64 0)
  (List.range ((gen + 256 - from_) % 256)).foldlM (fun ws n =>
    (h.mirGs.find? fun x => x.1 == i && x.2.1 == (from_ + n + 1) % 256).map fun x => patchBlock ws x.2.2) base

/-- What the mirrored image of a frame consists of. -/
structure MirrorImage where
  words : List (Nat × Word)
  samples : List (Nat × List Word × Word)
  /-- GOOSE blocks by subscription and generation. -/
  blocks : List (Nat × Nat × List Word)
  /-- CAN frames that stay queued. -/
  queued : List (Nat × Nat × List Word)
  deriving DecidableEq, Repr

/-- Generation of a subscription in a record. -/
def recordGenOf (r : Record) (i : Nat) : Nat := field (r.words.getD (147 + i / 4) 0) (8 * (i % 4)) 8

/-- METER words for the frame under way; none are needed where the sync set is empty. -/
def meterParts (s : State) : Option (List (Nat × Word)) :=
  if (meterSet s).isEmpty then some []
  else match s.hsb.meter with
    | some (k, ws) => if k = w s.frm.k then some (ws.filter fun y => (meterSet s).contains y.1) else none
    | none => none

/-- What the record and the mirrors give for the frame under way; `none` when a piece is missing. -/
def mirrorParts (s : State) (r : Record) : Option MirrorImage := do
  let x (i : Nat) : Word := r.words.getD i 0
  let run (first count base : Nat) : List (Nat × Word) := (List.range count).map fun i => (base + i, x (first + i))
  let fixed := run 3 3 0x106 ++ run 6 4 0x100 ++ run 10 6 0x110 ++ run 16 24 0xC0 ++ run 40 10 0x200 ++ run 50 1 0x210
    ++ run 51 32 0x220 ++ (List.range 4).flatMap (fun n => run (83 + 16 * n) 16 (0x300 + 0x100 * n))
    ++ run 211 3 0x700 ++ run 214 4 0x118
  let j := s.frm.k - horizon s
  let streams := where_ 24 fun i => (svSub s i).state ≠ .off
  let entries ← streams.mapM fun i => (mirEntry s s.hsb i j (x (16 + i))).map fun v => (i, v, x (16 + i))
  let blocks ← (List.range 256).mapM fun i => (mirBlock s.hsb i (recordGenOf r i)).map fun ws => (i, recordGenOf r i, ws)
  let can ← (List.range 4).mapM fun n => mirCanSlots s.hsb n (x (83 + 16 * n + 2))
  let samples := entries.flatMap fun e => e.2.1.zipIdx.map fun y => (8 * e.1 + y.2, y.1)
  let meter ← meterParts s
  let goose := blocks.flatMap fun b => b.2.2.zipIdx.map fun y => (0x1000 + 0x40 * b.1 + y.2, y.1)
  return ⟨fixed ++ samples ++ goose ++ can.flatMap (·.1) ++ meter, entries, blocks, can.flatMap (·.2)⟩

/-- Words that the mirrored image takes from the peer. -/
def fromPeer (i : Nat) : Bool :=
  decide (i < 0xD8) || decide (0x100 ≤ i ∧ i < 0x109) || decide (0x110 ≤ i ∧ i < 0x116) || decide (0x118 ≤ i ∧ i < 0x11C)
  || decide (0x200 ≤ i ∧ i < 0x20A) || i == 0x210 || decide (0x220 ≤ i ∧ i < 0x240) || decide (0x300 ≤ i ∧ i < 0x703)
  || decide (0x1000 ≤ i ∧ i < 0x8000)

/-- The frame runs on the mirrored image: its words, TTICK, EVW and the sample history are the peer's. -/
def takeMirror (r : Record) (m : MirrorImage) (s : State) : State :=
  let j := s.frm.k - horizon s
  let x (i : Nat) : Word := r.words.getD i 0
  let s := m.samples.foldl (fun s e => svStore e.1 j e.2.1 e.2.2 s) s
  let evw : BitVec 128 := (x 6).setWidth 128 ||| ((x 7).setWidth 128 <<< 32) ||| ((x 8).setWidth 128 <<< 64)
    ||| ((x 9).setWidth 128 <<< 96)
  let frozen := freezeAt 0 m.words (s.ne.frozen.filter fun y => !fromPeer y.1)
  { s with
    ne := { s.ne with frozen := frozen }
    frm := { s.frm with
      evw := evw
      ttick := ((x 4).toNat + field (x 5) 0 16 * 2 ^ 32) * ntSec + (x 3).toNat * ntNs
      ttFlags := ((x 5) >>> 16).setWidth 4
      keyWords := (List.range 4).map fun n => x (214 + n) }
    hsb := { s.hsb with
      mirSv := s.hsb.mirSv.filter fun y => j < y.2.1
      mirBase := m.blocks
      mirGs := s.hsb.mirGs.filter fun y => decide (0 < (y.2.1 + 256 - recordGenOf r y.1) % 256 ∧ (y.2.1 + 256 - recordGenOf r y.1) % 256 < 128)
      mirCan := m.queued, own := false, imageJudged := true } }

/-- The frame runs on the module's own image, marked OWN. -/
def runOwn (s : State) : State := hsbCount 4 (modHsb (fun h => { h with own := true, imageJudged := true }) s)

/-- IMAGE_DEADLINE, at T_k + 4.5 µs. -/
def imageDeadline (s : State) : State :=
  match s.hsb.record with
  | none => runOwn (hsbCount 3 s)
  | some r =>
    match mirrorParts s r with
    | none => runOwn s
    | some m => takeMirror r m s

/-- IMAGE_DEADLINE. -/
def execImageDeadline (s : State) : Host.Outcome State Fault Refusal :=
  act (fun s => whenever (running s && mirrored s && !s.hsb.imageJudged && decide (1800 ≤ s.clk.tickph)) imageDeadline s) s

/-! ### The compare (R299) -/

/-- The verdict on the frame before; an OWN frame is not compared. -/
def compareSets (own : OutSet) (s : State) : State :=
  let k := own.k
  let s := modHsb (fun h => { h with compared := some k }) s
  if s.hsb.ownPrev then (if takeoverNear s then s else diverge k 0xFFFFFFFE 0 0 s)
  else
  let peer := s.hsb.output.filter fun o => o.k == k
  match peer with
  | none => if takeoverNear s then s else diverge k 0xFFFFFFFF 0 0 s
  | some o =>
    match firstDiff own o with
    | some (i, a, b) => diverge k (w i) a b s
    | none =>
      match (own.pubs.zip o.pubs).zipIdx.find? fun x => x.1.1 != x.1.2 with
      | some x => diverge k (un 0x9002 0 s) x.1.1.1 x.1.2.1 s
      | none => s

/-- COMPARE: once a frame, of a module that was STANDBY in the frame before. -/
def execCompare (s : State) : Host.Outcome State Fault Refusal :=
  act (fun s => match s.hsb.ownOut with
    | some o => whenever (s.hsb.role == .standby && s.hsb.imageJudged && decide (s.hsb.roleK ≤ o.k)
        && s.hsb.compared != some o.k && o.k + 1 == s.frm.k) (compareSets o) s
    | none => s) s

/-! ### SYNCING -/

/-- SEEK_TIMEOUT: nothing heard of a peer for SEEK_MS; the role follows at the next tick (R292). -/
def execSeekTimeout (s : State) : Host.Outcome State Fault Refusal :=
  act (fun s => whenever (s.hsb.role == .syncing && decide (s.hsb.seekFrom + hsbSeekMs s * cycMs ≤ s.clk.cyc))
    (modHsb fun h => { h with seekDone := true }) s) s

/-- TRANSFER_COMPLETE: every step of R301 is done; the role follows at the next tick. -/
def execTransferComplete (s : State) : Host.Outcome State Fault Refusal :=
  act (fun s => whenever (s.hsb.role == .syncing && s.hsb.agreed && historyFull s
      && decide (scanBlocks s ≤ s.hsb.scanRun)) (modHsb fun h => { h with ready := true }) s) s

/-! ### Commands of the host (R307) -/

/-- HSB_CMD.HANDOVER. -/
def handoverOp : RegOp := fun s =>
  let f := regPair 0xB0010 s
  if booting s ∨ f < s.frm.k + 16 then (.late, s)
  else if !paired s ∨ s.plr.swapF = some f then (.denied, s)
  else (.ok, sendControl (.handoverArm f) (modHsb (fun h => { h with handover := some f, hoCommitted := false }) s))

/-- HANDOVER. -/
def execHandover (sid : Fin 4) (s : State) : Host.Outcome State Fault Refusal := act (hostDo sid.val roleOPERATOR handoverOp) s

/-- HSB_CMD.CANCEL. -/
def handoverCancelOp : RegOp := fun s =>
  match s.hsb.handover with
  | none => (.ok, s)
  | some f =>
    if f ≤ s.frm.k + 1 then (.late, s)
    else (.ok, sendControl .handoverCancel (modHsb (fun h => { h with handover := none }) s))

/-- HANDOVER_CANCEL. -/
def execHandoverCancel (sid : Fin 4) (s : State) : Host.Outcome State Fault Refusal :=
  act (hostDo sid.val roleOPERATOR handoverCancelOp) s

/-- HSB_CMD.CLR_CNT. -/
def hsbClrCntOp : RegOp := always (modHsb fun h => { h with cnt := Vector.replicate 8 0 })

/-- HSB_CLR_CNT. -/
def execHsbClrCnt (sid : Fin 4) (s : State) : Host.Outcome State Fault Refusal :=
  act (hostDo sid.val roleOPERATOR hsbClrCntOp) s

/-- LINK_DOWN (R310). -/
def execLinkDown (link : Fin 2) (s : State) : Host.Outcome State Fault Refusal :=
  act (fun s => whenever (vget false s.hsb.link link.val) (fun s =>
    let n := vget 0 s.hsb.linkDowns link.val + 1
    note2 0x9005 srcHSB (w link.val) (w n) (hsbEvt 2 (modHsb (fun h => { h with
      link := vset h.link link.val false, linkDowns := vset h.linkDowns link.val n }) s))) s) s

/-! ### Roles at a tick -/

/-- A takeover at T_k (R302, R303): each publication is left so that its next state is S + 2. -/
def takeover (k : Nat) (s : State) : State :=
  let st := s.hsb.peerSt
  let s := roleTo .alone k (noteU 0x9003 srcHSB s)
  let s := setPeer none (hsbCount 6 (modHsb (fun h => { h with switchovers := h.switchovers + 1, switchK := w k }) s))
  { s with ne := { s.ne with gp := vmap s.ne.gp fun i p =>
      { p with st := nextSt (st.getD i p.st), last := none } } }

/-- The handover takes place at T_k. -/
def handoverNow (s : State) (k : Nat) : Bool := s.hsb.handover == some k && s.hsb.hoCommitted

/-- A STANDBY at T_k. -/
def standbyTick (k : Nat) (s : State) : State :=
  let doubt := match s.hsb.doubtAt with
    | some c => decide (c + cycUs ≤ s.clk.cyc)
    | none => false
  if s.hsb.divDue = some k ∨ s.hsb.verdictDiff then roleTo .diverged k s
  else if handoverNow s k then hsbCount 7 (roleTo .active k s)
  else if doubt || (decide (2 ≤ s.hsb.missRec) && !s.hsb.beaconSeen) then takeover k s
  else if 2 ≤ s.hsb.missRec then roleTo .diverged k s
  else s

/-- A driving module at T_k. -/
def driverTick (k : Nat) (s : State) : State :=
  if s.hsb.dual = some true then roleTo .diverged k (noteU 0x9008 srcHSB s)
  else if s.hsb.role = .active then
    if handoverNow s k then hsbCount 7 (roleTo .standby k s)
    else if s.hsb.doubtAt.isSome then setPeer none (roleTo .alone k s)
    else if 2 ≤ s.hsb.missBeat then setPeer none (roleTo .alone k (noteU 0x9006 srcHSB s))
    else s
  else if s.hsb.peerStart then roleTo .active k s else s

/-- A SYNCING module at T_k (R292, R301). -/
def syncTick (k : Nat) (s : State) : State :=
  let tie := match s.hsb.peerBeat with
    | some b => b.role == .syncing && s.hsb.peerRole == some .syncing && s.hsb.heard.toList.any id
        && (if hsbPref s != b.pref then hsbPref s else decide (Config.baseMac.toNat < b.mac.toNat))
    | none => false
  let start := match s.hsb.peerK0 with
    | some k0 => s.hsb.agreed && s.hsb.xferFrom.isNone && decide (k0 ≤ k)
        && (k - k0) % (max 1 (if progS s ≠ 0 then progS s else progM s)) == 0
    | none => false
  if tie || s.hsb.seekDone then roleTo .alone k s
  else if s.hsb.ready && s.hsb.agreed then roleTo .standby k s
  else if start then
    { s with hsb := { s.hsb with xferFrom := some k }, frm := { s.frm with k0 := s.hsb.peerK0.getD s.frm.k0 } }
  else s

/-- What was missed in the frame that ends. -/
def missCount (s : State) : State :=
  let heardAny := s.hsb.heard.toList.any id
  modHsb (fun h => { h with
    missRec := if mirrored s && h.record.isNone then h.missRec + 1 else 0
    missBeat := if s.hsb.role == .active && !heardAny then h.missBeat + 1 else 0
    beaconSeen := h.beaconNow, beaconNow := false }) s

/-- The roles at T_k, and what the new frame starts from. -/
def hsbTick (k : Nat) (s : State) : State :=
  if !hsbEn s then s
  else
    let both := s.hsb.heard.toList.all id
    let s := missCount (scanTake (k - 1) s)
    let s := match s.hsb.role with
      | .standby => standbyTick k s
      | .alone => driverTick k s
      | .active => driverTick k s
      | .syncing => syncTick k s
      | .diverged => if both then roleTo .syncing k s else s
    modHsb (fun h => { h with
      heard := Vector.replicate 2 false, record := none, dual := none
      ownPrev := h.own, own := false, imageJudged := false, sent := [], taken := [], takenPrev := h.taken }) s

/-- The commit point of a handover armed for k + 1. -/
def handoverPoint (k : Nat) (s : State) : State :=
  if s.hsb.handover = some (k + 1) then modHsb (fun h => { h with hoCommitted := true }) s else s

/-- The beacon at a tick, on every pair named (R305). -/
def beaconSend (k : Nat) (s : State) : State :=
  if hsbEn s ∧ drives s then
    forAll (hsbPairs s) (fun p s =>
      neQueue ⟨some s.hsb.bcnDmac, none, some 0x88B5, none⟩ (.beacon Config.baseMac.toNat s.hsb.role.code (w k)) p (2 * p) s) s
  else s

end Sys2Proof.Machine
end

