-- ==== Sys2Proof/Machine/EvrRows.lean ====
section
/-! DEFINITION. The event recorder: records (R327 to R330), acceptance (R333, R334, R336, R339), the intake (R331, R332),
the ring (R335, R336), reading (R338), clearing (R340), and what a flush and a start-up do with it (R337, R341). -/
namespace Sys2Proof.Machine

/-- Change the EVR block; set a bit of EVR_EVT. -/
def modEvr (f : Evr → Evr) (s : State) : State := { s with evr := f s.evr }
def evrEvt (n : Nat) (s : State) : State := modEvr (fun v => { v with evt := setBit v.evt n }) s

/-- Size code in force, and ring size in records (R341). -/
def evrCode (s : State) : Nat := match s.evr.size with | some c => c.val | none => 2
def sizeOf : Nat → Nat
  | 0 => 1024 | 1 => 4096 | 2 => 16384 | _ => 32768
def evrSize (s : State) : Nat := sizeOf (evrCode s)

/-- Fields of EVR_CFG and EVR_RATE. -/
def evrBuffered (s : State) : Bool := (reg 0xD0000 s).getLsbD 2
def evrAttnMin (s : State) : Nat := min 2 (field (reg 0xD0000 s) 4 2)
def evrBufS (s : State) : Nat := min 60 (max 1 (field (reg 0xD0000 s) 8 6))
def evrBurst (s : State) : Nat := max 1 (field (reg 0xD0004 s) 0 16)
def evrRateOf (s : State) : Nat := max 1 (field (reg 0xD0004 s) 16 16)

/-! ### Records -/

/-- Severity codes (R327). -/
def Severity.code : Severity → Nat
  | .note => 0 | .local_ => 1 | .module => 2

/-- Bytes over which CHECK is taken: bytes 6 and 7 as 0 (R328). -/
def checkBytes (ws : List Word) : List Byte :=
  let b := wordsBytes ws
  b.take 6 ++ [0, 0] ++ b.drop 8

/-- A record of eight words with CHECK put in. -/
def sealRec (ws : Vector Word 8) : Rec :=
  let lo := ws[1] &&& 0xFFFF
  let ws := ws.set 1 lo
  ⟨ws.set 1 (lo ||| at_ (crc16 (checkBytes ws.toList)).toNat 16)⟩

/-- CHECK of a record holds. -/
def checkOk (r : Rec) : Bool := sealRec r.words == r

/-- The record of an entry that the intake has taken; `summary` marks the recorder's own summaries. -/
def recOf (t : Taken) (summary : Bool) : Rec :=
  let e := t.entry
  let w0 : Word := BitVec.setWidth 32 e.code ||| (BitVec.setWidth 32 e.source <<< 16) ||| at_ e.sev.code 24
    ||| (bitWord t.boot <<< 28) ||| (bitWord e.offpwr <<< 30) ||| (bitWord summary <<< 31)
  sealRec #v[w0, 0, t.ops, t.pcyc, if t.boot then 0 else t.frame, e.p0, e.p1, e.p2]

/-! ### Numbers and the ring (R335) -/

/-- TOTAL, and the number of the next accepted record, as natural numbers. -/
def evrTotalN (s : State) : Nat := counter s ringTOTAL
def evrNextN (s : State) : Nat := evrTotalN s + s.evr.pending.length

/-- Store offset of record `n`. -/
def recAt (s : State) (n : Nat) : Nat := nvRING + n % evrSize s * 32

/-- A record as the store holds it at an offset. -/
def nvRec (s : State) (a : Nat) : Rec := ⟨Vector.ofFn fun i => BitVec.ofNat 32 (nvNat s (a + 4 * i.val) 4)⟩

/-- The lowest readable number (R338): BASE stands for the last number that ends in its 32 bits. -/
def evrOldestN (s : State) : Nat :=
  let next := evrNextN s
  max (next - (w next - s.evr.base).toNat) (evrTotalN s - evrSize s)

/-- Severity NEW answers to (R339); when NEW is set again while 1, the attention generation advances (R373). -/
def newEntry (sev : Nat) (s : State) : State :=
  if sev < evrAttnMin s then s
  else if s.evr.evt.getLsbD 0 then { s with att := { s.att with agen := s.att.agen + 1 } }
  else evrEvt 0 s

/-- A record becomes pending with the next number. -/
def pend (r : Rec) (s : State) : State :=
  newEntry (field r.words[0] 24 4) (modEvr (fun v => { v with pending := v.pending ++ [⟨r, opTime s⟩] }) s)

/-! ### Folding (R333) -/

/-- CODE, SOURCE and SEVERITY of two records are equal, and REPEAT can still count. -/
def foldsInto (r old : Rec) : Bool :=
  (r.words[0] &&& 0x0FFFFFFF) == (old.words[0] &&& 0x0FFFFFFF) && field old.words[1] 0 16 != 0xFFFF

/-- A record with one more occurrence. -/
def foldRec (old : Rec) : Rec := sealRec (old.words.set 1 (old.words[1] + 1))

/-- The record numbered just below the next one, if it is a good record in reach. -/
def belowRec (s : State) : Option Rec :=
  match s.evr.pending.getLast? with
  | some p => some p.record
  | none =>
    let n := evrTotalN s
    if n = 0 ∨ nvUnc s (recAt s (n - 1)) 32 ∨ !checkOk (nvRec s (recAt s (n - 1))) then none
    else some (nvRec s (recAt s (n - 1)))

/-- That record replaced: in the intake buffer, or its first group in the ring. -/
def putBelow (r : Rec) (s : State) : State :=
  if s.evr.pending.isEmpty then nvPut (recAt s (evrTotalN s - 1)) (wordsBytes (r.words.toList.take 2)) s
  else modEvr (fun v => { v with pending := v.pending.dropLast ++ (v.pending.getLast?.map fun p => ⟨r, p.since⟩).toList }) s

/-! ### Acceptance -/

/-- A token of a class taken, if there is one (R334). -/
def takeToken (cls : Nat) (s : State) : Option State :=
  let b := vget State.bucket0 s.evr.buckets cls
  if b.tokens = 0 then none
  else some (modEvr (fun v => { v with buckets := vset v.buckets cls { b with tokens := b.tokens - 1 } }) s)

/-- An entry held back (R334). -/
def holdBack (cls : Nat) (code : BitVec 16) (s : State) : State :=
  evrEvt 2 (modEvr (fun v => { v with buckets := vmod v.buckets cls fun b =>
    { b with held := b.held + 1, first := if b.held = 0 then code else b.first, sec := s.clk.opSec } }) s)

/-- A record of the recorder itself: neither folded nor held back (R332, R334, R340). -/
def ownRec (code : BitVec 16) (p0 p1 p2 : Word) (summary : Bool) (s : State) : Rec :=
  recOf (stamp ⟨code, srcEVR, .note, false, p0, p1, p2, s.clk.cyc⟩ s) summary

/-- Place a summary where fewer than 1,776 records are pending; else it is lost (R336). -/
def placeOwn (code : BitVec 16) (p0 p1 p2 : Word) (s : State) : State :=
  if s.evr.pending.length < 1776 then pend (ownRec code p0 p1 p2 true s) s else modEvr (loseB code) s

/-- The intake places or folds an entry (R333, R334, R336). -/
def accept (t : Taken) (s : State) : State :=
  let r := recOf t false
  let cls := t.entry.code.toNat / 4096
  let isModule := t.entry.sev == .module
  let big := evrCode s == 3
  let fresh (s : State) : State :=
    if (if isModule then 1792 else 1776) ≤ s.evr.pending.length then modEvr (loseB t.entry.code) s
    else if big && !isModule then
      match takeToken cls s with
      | some s => pend r s
      | none => holdBack cls t.entry.code s
    else pend r s
  if big then fresh s
  else match belowRec s with
    | some old => if foldsInto r old then newEntry t.entry.sev.code (putBelow (foldRec old) s) else fresh s
    | none => fresh s

/-- The losses of cause 0 are reported. -/
def reportLostQ (s : State) : State :=
  let l := s.evr.lostQ
  placeOwn 0x0F02 (w l.count) 0 (BitVec.setWidth 32 l.first) (modEvr (fun v => { v with lostQ := ⟨0, 0⟩, lostDue := false }) s)

/-- One record assembled; the intake then takes the head of the queue (R332). -/
def intake (s : State) : State :=
  match s.evr.cur with
  | none => s
  | some t =>
    let s := accept t (modEvr (fun v => { v with cur := none }) s)
    let s := if s.evr.lostDue then reportLostQ s else s
    match s.evr.queue with
    | [] => s
    | e :: q => modEvr (fun v => { v with
        cur := some (stamp e s), queue := q, lostDue := q.isEmpty && v.lostQ.count != 0 }) s

/-- INTAKE. -/
def execIntake (s : State) : Host.Outcome State Fault Refusal := act intake s

/-- Everything the intake holds is placed: 16 waiting entries and the one being assembled. -/
def drainIntake (s : State) : State := (List.range 17).foldl (fun s _ => intake s) s

/-! ### The service (R336) -/

/-- The service writes pending records now. -/
def writesNow (s : State) : Bool :=
  !s.upd.recovery && (match s.evr.pending with
    | [] => false
    | p :: _ => !evrBuffered s || s.evr.draining || decide (1024 ≤ s.evr.pending.length)
        || decide (p.since + evrBufS s * cycSec ≤ opTime s))

/-- The oldest pending record goes to the ring, then TOTAL advances; losses of cause 1 are reported once there is room. -/
def ringWrite (s : State) : State :=
  match s.evr.pending with
  | [] => s
  | p :: t =>
    let n := evrTotalN s
    let s := ringPut ringTOTAL (n + 1) (nvPut (recAt s n) (wordsBytes p.record.words.toList) s)
    let s := modEvr (fun v => { v with pending := t, draining := evrBuffered s && !t.isEmpty }) s
    let l := s.evr.lostB
    if l.count ≠ 0 ∧ t.length < 1776 then
      pend (ownRec 0x0F02 (w l.count) 1 (BitVec.setWidth 32 l.first) true s) (modEvr (fun v => { v with lostB := ⟨0, 0⟩ }) s)
    else s

/-- RING_WRITE. -/
def execRingWrite (s : State) : Host.Outcome State Fault Refusal := act (fun s => whenever (writesNow s) ringWrite s) s

/-- Multiples of 1,000 / RATE ms that operating time has passed. -/
def tokenIndex (s : State) : Nat := opTime s * evrRateOf s / cycSec

/-- TOKEN_ADD. -/
def execTokenAdd (s : State) : Host.Outcome State Fault Refusal :=
  act (fun s => whenever (decide (s.evr.lastToken < tokenIndex s)) (fun s =>
    let top := evrBurst s
    modEvr (fun v => { v with
      lastToken := v.lastToken + 1
      buckets := v.buckets.map fun b => if b.tokens < top then { b with tokens := b.tokens + 1 } else b }) s) s) s

/-- One SUPPRESSED for each class that held records back in a second that has ended (R334). -/
def suppressed (s : State) : State :=
  forAll (where_ 16 fun c => let b := vget State.bucket0 s.evr.buckets c
      b.held != 0 && decide (b.sec < s.clk.opSec)) (fun c s =>
    let b := vget State.bucket0 s.evr.buckets c
    placeOwn 0x0F01 (w c) (w b.held) (BitVec.setWidth 32 b.first)
      (modEvr (fun v => { v with buckets := vset v.buckets c { b with held := 0, first := 0 } }) s)) s

/-- SUPPRESSED. -/
def execSuppressed (s : State) : Host.Outcome State Fault Refusal := act suppressed s

/-! ### Reading (R338) -/

/-- The natural number that a 32-bit record number stands for, if it is readable. -/
def readableN (n : Word) (s : State) : Option Nat :=
  let next := evrNextN s
  let back := (w next - n).toNat
  if back = 0 ∨ next < back ∨ next - back < evrOldestN s then none else some (next - back)

/-- The window for a cursor: its status and words, with what reading the store reports. -/
def evrShow (n : Word) (s : State) : EvrWin × State :=
  match readableN n s with
  | none => (⟨n, 0b10000#5, Vector.replicate 8 0⟩, s)
  | some m =>
    match s.evr.pending[m - evrTotalN s]? with
    | some p => if evrTotalN s ≤ m then (⟨n, 0b00011#5, p.record.words⟩, s) else ring m
    | none => ring m
where
  /-- From the ring. -/
  ring (m : Nat) : EvrWin × State :=
    let r := nvRec s (recAt s m)
    let ue := nvUnc s (recAt s m) 32
    let bad := !checkOk r
    let s := nvDecode (recAt s m) 32 s
    (⟨n, putBit (putBit 1#5 2 bad) 3 ue, r.words⟩, if bad || ue then evrEvt 3 s else s)

/-- A session's cursor is set. -/
def cursorOp (sid : Nat) (n : Word) : RegOp := fun s =>
  let x := evrShow n s
  (.ok, modSession sid (fun ss => { ss with win := x.1 }) x.2)

/-- A session's cursor. -/
def cursorOf (sid : Nat) (s : State) : Word :=
  match session sid s with
  | some ss => ss.win.cursor
  | none => 0

/-- EVR_CTL.NEXT and PREV. -/
def nextOp (sid : Nat) : RegOp := fun s => cursorOp sid (cursorOf sid s + 1) s
def prevOp (sid : Nat) : RegOp := fun s => cursorOp sid (cursorOf sid s - 1) s

/-- NEXT. -/
def execNext (sid : Fin 4) (s : State) : Host.Outcome State Fault Refusal := act (hostDo sid.val roleOBSERVER (nextOp sid.val)) s

/-- PREV. -/
def execPrev (sid : Fin 4) (s : State) : Host.Outcome State Fault Refusal := act (hostDo sid.val roleOBSERVER (prevOp sid.val)) s

/-- CURSOR_WRITE. -/
def execCursorWrite (sid : Fin 4) (n : Word) (s : State) : Host.Outcome State Fault Refusal :=
  act (hostDo sid.val roleOBSERVER (cursorOp sid.val n)) s

/-! ### Clearing (R340) -/

/-- The CLEARED record is placed and its number becomes BASE. -/
def clearEvr (hidden reason oldSize : Nat) (s : State) : State :=
  let n := evrNextN s
  pend (ownRec 0x0F03 (w hidden) (w reason) (w oldSize) false s) (recordPut recRECORDER 0 (modEvr (fun v => { v with base := w n }) s))

/-- EVR_CTL.CLEAR with its KEY. -/
def clearedOp : RegOp := fun s =>
  if 1792 ≤ s.evr.pending.length then (.busy, s) else (.ok, clearEvr (evrNextN s - evrOldestN s) 0 (evrSize s) s)

/-- CLEARED. -/
def execCleared (sid : Fin 4) (s : State) : Host.Outcome State Fault Refusal := act (hostDo sid.val roleENGINEER clearedOp) s

/-- EVR_CTL.WRITE_NOW. -/
def writeNowOp : RegOp := always fun s => modEvr (fun v => { v with draining := evrBuffered s && !v.pending.isEmpty }) s

/-- WRITE_NOW. -/
def execWriteNow (sid : Fin 4) (s : State) : Host.Outcome State Fault Refusal := act (hostDo sid.val roleOPERATOR writeNowOp) s

/-! ### Flush and start-up -/

/-- Pending records into RFLUSH, from slot 0 (R337). -/
def flushRecords (s : State) : State :=
  s.evr.pending.zipIdx.foldl (fun s x => nvPut (nvRFLUSH + 32 * x.2) (wordsBytes x.1.record.words.toList) s) s

/-- A slot of RFLUSH takes part in the restore. -/
def slotTakes (s : State) (i : Nat) : Bool :=
  let a := nvRFLUSH + 32 * i
  !nvUnc s a 32 && checkOk (nvRec s a) && (nvRec s a).words[3] == powerCycles s - 1

/-- A record with FLUSHED set. -/
def flagFlushed (r : Rec) : Rec := sealRec (r.words.set 0 (r.words[0] ||| 0x20000000))

/-- Copying of slot `i` on, at most `n` slots (R337 step 2), the first `skip` of which had reached the ring: the counts
copied and skipped so far are carried along. -/
def restoreSlots (skip : Nat) : Nat → Nat → Nat → Nat → State → Nat × Nat × State
  | 0, _, copied, skipped, s => (copied, skipped, s)
  | n + 1, i, copied, skipped, s =>
    let s := nvDecode (nvRFLUSH + 32 * i) 32 s
    if !slotTakes s i then (copied, skipped, s)
    else if i < skip then restoreSlots skip n (i + 1) copied (skipped + 1) s
    else
      let m := evrTotalN s
      restoreSlots skip n (i + 1) (copied + 1) skipped
        (ringPut ringTOTAL (m + 1)
          (nvPut (recAt s m) (wordsBytes (flagFlushed (nvRec s (nvRFLUSH + 32 * i))).words.toList) s))

/-- Slots whose numbers, from N0 on, lie below TOTAL. -/
def slotsInRing (n0 : Word) (total : Nat) : Nat :=
  let d := (w total - n0).toNat
  if d < 2 ^ 31 then d else 0

/-- The recorder at start-up (R337, R341): `marker` gives N0 and the slot count of a valid marker. -/
def evrRestore (marker : Option (Word × Nat)) (s : State) : State :=
  let total := evrTotalN s
  let want : Fin 4 := ⟨field (reg 0xD0000 s) 0 2 % 4, Nat.mod_lt _ (by decide)⟩
  let s := match s.evr.size with
    | none => recordPut recRECORDER 0 (modEvr (fun v => { v with size := some want }) s)
    | some old =>
      if old = want then s
      else clearEvr (evrNextN s - evrOldestN s) 1 (sizeOf old.val) (modEvr (fun v => { v with size := some want }) s)
  let s := (List.range s.evr.pending.length).foldl (fun s _ => ringWrite s) s
  let (copied, skipped, s) := match marker with
    | some (n0, cnt) => restoreSlots (slotsInRing n0 total) (min cnt 1792) 0 0 0 s
    | none => restoreSlots 0 1792 0 0 0 s
  if copied + skipped = 0 then s
  else evrEvt 4 (note 0x0F04 srcEVR (w copied) (w skipped) (powerCycles s - 1) s)

end Sys2Proof.Machine
end

