-- ==== Sys2Proof/Machine/TeRows.lean ====
section
/-! DEFINITION. The host windows (R16) and the transfer engine (R179 to R183). -/
namespace Sys2Proof.Machine

/-! ### Windows (R16) -/

/-- The memory windows. -/
inductive Win where
  | shared | prog | nvs | nor
  deriving DecidableEq, Repr

/-- Window and offset of a host address. -/
def winOf (a : Nat) : Option (Win × Nat) :=
  if 0x10000000 ≤ a ∧ a < 0x10000000 + sharedSize then some (.shared, a - 0x10000000)
  else if 0x20000000 ≤ a ∧ a < 0x20400000 then some (.prog, a - 0x20000000)
  else if 0x30000000 ≤ a ∧ a < 0x30200000 then some (.nvs, a - 0x30000000)
  else if 0x40000000 ≤ a ∧ a < 0x44000000 then some (.nor, a - 0x40000000)
  else none

/-- Size of a window. -/
def Win.size : Win → Nat
  | .shared => sharedSize | .prog => 0x400000 | .nvs => 0x200000 | .nor => 0x4000000

/-- The window that holds a whole range. -/
def winRange (a len : Nat) : Option (Win × Nat) :=
  match winOf a with
  | some (x, o) => if o + len ≤ x.size then some (x, o) else none
  | none => none

/-- Bytes of the NOR window: bank and slot contents, and the entries of the armature cache (R168, R378). -/
def norRead (s : State) (a : Nat) : Byte :=
  if 0x3800000 ≤ a ∧ a < 0x3C00000 then
    match vget none s.plr.cache ((a - 0x3800000) / 0x200000) with
    | some arm => Config.cacheByte arm.hash ((a - 0x3800000) % 0x200000)
    | none => 0xFF
  else sget norDefault s.upd.nor a

/-- Bytes of a window. -/
def winBytes (s : State) (x : Win) (o len : Nat) : List Byte :=
  match x with
  | .shared => sgets zeroByte s.mem.shared o len
  | .prog => sgets zeroByte s.ln.prog o len
  | .nvs => sgets zeroByte s.nvs.mem o len
  | .nor => (List.range len).map fun i => norRead s (o + i)

/-- Reading from the parameter store decodes its groups (R313). -/
def winRead (x : Win) (o len : Nat) (s : State) : List Byte × State :=
  let s' := if x = .nvs then nvDecode o len s else s
  (winBytes s x o len, s')

/-! ### Descriptors (R179, R180) -/

/-- A descriptor's source and destination in use: COPY both, FILL the destination, CRC the source. -/
def usesSrc (d : TeSlot) : Bool := d.op == 0 || d.op == 2
def usesDst (d : TeSlot) : Bool := d.op == 0 || d.op == 1

/-- Some byte of a range of the lane program window lies in an active half. -/
def touchesActive (s : State) (o len : Nat) : Bool :=
  len != 0 && (List.range (len / 0x20000 + 2)).any fun i =>
    let h := o / 0x20000 + i
    decide (h * 0x20000 < o + len) && inActiveHalf s (h * 0x20000)

/-- The destination is permitted now (R178, R17, R180). -/
def dstPermitted (s : State) (x : Win) (o len : Nat) : Bool :=
  match x with
  | .shared => inTransfer s o len
  | .prog => !touchesActive s o len && s.plr.state != .placing && s.plr.state != .armed
  | _ => false

/-- The checks of R180, in the order of its table, without the last. -/
def teCheck (s : State) (d : TeSlot) : Res :=
  let src := winRange d.src d.len
  let dst := winRange d.dst d.len
  if (usesSrc d && src.isNone) || (usesDst d && dst.isNone) then .badSpace
  else if d.len < 4 ∨ 0x100000 < d.len ∨ d.len % 4 ≠ 0 ∨ (usesSrc d && d.src % 4 != 0) ∨ (usesDst d && d.dst % 4 != 0) then
    .badLen
  else match dst with
    | some (x, o) =>
      if d.op = 3 then .badOp
      else if !usesDst d then .ok
      else if x = .nvs ∨ x = .nor then .badOp
      else if dstPermitted s x o d.len ∨ d.firmware then .ok
      else .denied
    | none => if d.op = 3 then .badOp else .ok

/-- A slot of the engine, and one changed. -/
def teSlot (s : State) (i : Nat) : TeSlot := vget State.te0 s.mem.te i
def modTe (i : Nat) (f : TeSlot → TeSlot) (s : State) : State := { s with mem := { s.mem with te := vmod s.mem.te i f } }

/-- Descriptors in flight of an origin: queued or running. -/
def inFlight (s : State) (fw : Bool) : Nat :=
  (s.mem.te.toList.filter fun d => d.firmware == fw && (d.state == .queued || d.state == .running)).length

/-- The lowest slot at or above the one after the last assigned that is not in flight, wrapping at 256. -/
def nextSlot (s : State) : Option Nat :=
  let from_ := match s.mem.lastSlot with
    | some n => n + 1
    | none => 0
  ((List.range 256).map fun i => (from_ + i) % 256).find? fun i =>
    let d := teSlot s i
    d.state != .queued && d.state != .running

/-- The 32 bytes of a descriptor. DESIGN CHOICE (log 62): its staging registers in their order, ORIGIN, and zeros. -/
def descBytes (d : TeSlot) : List Byte :=
  wordsBytes [w d.op ||| (d.tag.setWidth 32 <<< 16), w d.src, w d.dst, w d.len, d.val, bitWord d.firmware, 0, 0]

/-- A descriptor with the CRC-16 that the module adds (R179). -/
def withCrc (d : TeSlot) : TeSlot := { d with crc := crc16 (descBytes d) }

/-- The CRC-16 of a descriptor holds. -/
def crcHolds (d : TeSlot) : Bool := d.crc == crc16 (descBytes d)

/-- The descriptor that a session has staged. -/
def staged (sid : Nat) (s : State) : TeSlot :=
  let c := sesReg sid 0x40100 s
  withCrc ⟨.queued, field c 0 2, false, BitVec.ofNat 16 (field c 16 16), (sesReg sid 0x40104 s).toNat,
    (sesReg sid 0x40108 s).toNat, (sesReg sid 0x4010C s).toNat, sesReg sid 0x40110 s, 0, 0⟩

/-- A descriptor of the firmware channel that has run: `len` bytes copied from `src` to `dst`. Without a free slot nothing
shows. DESIGN CHOICE (log 62): its TAG is free. -/
def firmwareRan (src dst len : Nat) (s : State) : State :=
  match nextSlot s with
  | none => s
  | some i =>
    let d := withCrc ⟨.done, 0, true, BitVec.ofNat 16 (Config.choice 38 s.clk.cyc), src, dst, len, 0, w len, 0⟩
    { s with mem := { s.mem with te := vset s.mem.te i d, lastSlot := some i } }

/-- MEM_TE_CMD.SUBMIT (R180). -/
def submitOp (sid : Nat) : RegOp := fun s =>
  let d := staged sid s
  match teCheck s d with
  | .ok =>
    if 192 ≤ inFlight s false then (.busy, s)
    else match nextSlot s with
      | none => (.busy, s)
      | some i => (.ok, { s with mem := { s.mem with
          te := vset s.mem.te i d, hostQ := s.mem.hostQ ++ [i], lastSlot := some i
          teLast := vset s.mem.teLast sid i } })
  | r => (r, s)

/-- SUBMIT. -/
def execSubmit (sid : Fin 4) (s : State) : Host.Outcome State Fault Refusal :=
  act (hostDo sid.val roleENGINEER (submitOp sid.val)) s

/-- MEM_TE_CMD.ABORT (R182). -/
def teAbortOp (i : Nat) : RegOp := fun s =>
  let d := teSlot s i
  if d.firmware then (.denied, s)
  else match d.state with
    | .free => (.denied, s)
    | .queued =>
      (.ok, modTe i (fun d => { d with state := .aborted })
        { s with mem := { s.mem with hostQ := s.mem.hostQ.filter fun j => j != i } })
    | .running => (.late, s)
    | .done => (.late, s)
    | .refused => (.late, s)
    | .aborted => (resFree 31 s, s)
    | .notRun => (resFree 31 s, s)

/-- ABORT. -/
def execAbort (sid : Fin 4) (slot : Fin 256) (s : State) : Host.Outcome State Fault Refusal :=
  act (hostDo sid.val roleENGINEER (teAbortOp slot.val)) s

/-! ### The channels (R181) -/

/-- Queue and running slot of a channel. -/
def chanQ (fw : Bool) (s : State) : List Nat := if fw then s.mem.fwQ else s.mem.hostQ
def chanRun (fw : Bool) (s : State) : Option Nat := if fw then s.mem.fwRun else s.mem.hostRun
def setChan (fw : Bool) (q : List Nat) (r : Option Nat) (s : State) : State :=
  if fw then { s with mem := { s.mem with fwQ := q, fwRun := r } } else { s with mem := { s.mem with hostQ := q, hostRun := r } }

/-- The channel takes the front of its queue: the commit point of the descriptor. -/
def teTake (fw : Bool) (s : State) : State :=
  match chanQ fw s with
  | [] => s
  | i :: q =>
    let d := teSlot s i
    if !crcHolds d then
      moduleDoubt causeControl 0x3001 srcMEM (w i) (bitWord fw) 0 s
    else if teCheck s d ≠ .ok then modTe i (fun d => { d with state := .refused }) (setChan fw q none s)
    else modTe i (fun d => { d with state := .running }) (setChan fw q (some i) s)

/-- DESCRIPTOR_TAKE: a channel runs one descriptor at a time; none after a doubt. -/
def execDescriptorTake (fw : Bool) (s : State) : Host.Outcome State Fault Refusal :=
  act (fun s => whenever ((chanRun fw s).isNone && !s.mem.halted) (teTake fw) s) s

/-- Write bytes at a destination. -/
def dstPut (x : Win) (o : Nat) (bs : List Byte) (s : State) : State :=
  match x with
  | .shared => shPut o bs s
  | .prog => maquettePut o bs s
  | _ => s

/-- Lines of 32 bytes in ascending address order of the source; the first and the last may be parts of one. -/
def teCopyLines : Nat → Win → Nat → Win → Nat → Nat → State → State
  | 0, _, _, _, _, _, s => s
  | n + 1, x, a, y, b, len, s =>
    if len = 0 then s
    else
      let k := min len (32 - a % 32)
      let (bs, s) := winRead x a k s
      teCopyLines n x (a + k) y (b + k) (len - k) (dstPut y b bs s)

/-- A slot is done with its result. -/
def teDone (fw : Bool) (i : Nat) (r : Word) (s : State) : State :=
  modTe i (fun d => { d with state := .done, result := r }) (setChan fw (chanQ fw s) none s)

/-- What a channel does with the descriptor it runs, when it is of operation `op`. -/
def teRun (fw : Bool) (op : Nat) (f : TeSlot → State → Word × State) (s : State) : State :=
  match chanRun fw s with
  | none => s
  | some i =>
    let d := teSlot s i
    if d.op = op then
      let (r, s) := f d s
      teDone fw i r s
    else s

/-- COPY: the result is the bytes written. -/
def teCopyEff (d : TeSlot) (s : State) : Word × State :=
  match winOf d.src, winOf d.dst with
  | some (x, a), some (y, b) => (w d.len, teCopyLines (d.len / 32 + 2) x a y b d.len s)
  | _, _ => (0, s)

/-- TE_COPY. -/
def execTeCopy (fw : Bool) (s : State) : Host.Outcome State Fault Refusal := act (teRun fw 0 teCopyEff) s

/-- FILL. -/
def teFillEff (d : TeSlot) (s : State) : Word × State :=
  match winOf d.dst with
  | some (y, b) => (w d.len, dstPut y b (wordsBytes (List.replicate (d.len / 4) d.val)) s)
  | none => (0, s)

/-- TE_FILL. -/
def execTeFill (fw : Bool) (s : State) : Host.Outcome State Fault Refusal := act (teRun fw 1 teFillEff) s

/-- CRC: CRC-32C of the source range. -/
def teCrcEff (d : TeSlot) (s : State) : Word × State :=
  match winOf d.src with
  | some (x, a) => let (bs, s) := winRead x a d.len s; (crc32c bs, s)
  | none => (0, s)

/-- TE_CRC. -/
def execTeCrc (fw : Bool) (s : State) : Host.Outcome State Fault Refusal := act (teRun fw 2 teCrcEff) s

end Sys2Proof.Machine
end

