-- ==== Sys2Proof/Machine/NvsRows.lean ====
section
/-! DEFINITION. The parameter store: the journal (R318, R419), retained variables (R323), OP_SECONDS (R321), locks
(R322), and the flushes (R26, R324, R325). -/
namespace Sys2Proof.Machine

/-! ### The journal -/

/-- RIDs of records that belong to the firmware: energy save 0, retained variables 1, program slot roles 2, customer
chisel entries 3. -/
def ridOf (i : Nat) : Nat := recRid i

/-- Places of the retained record. -/
def retainPlaces : List Nat := [nvRETAIN, nvRETAIN + 0x10000]

/-- Which copy of the retained record is written next, and its SEQ (R317). -/
def nextRetain (s : State) : Nat × Word := nextCopy 0x10000 (ridOf 1) retainPlaces s

/-- Actions of an operation of a kind: RIDs with the copy written (R318, R419). -/
def journalActs (kind : Nat) (chisel : Bool) (s : State) : List Nat :=
  let act (i copy : Nat) : Nat := ridOf i + copy * 65536
  (if kind = 1 then [act recROLES (nextRecord recROLES s).1, act 1 (nextRetain s).1] else [])
  ++ (if chisel then [act recCHISEL (nextRecord recCHISEL s).1] else [])

/-- Bytes of an entry. -/
def journalBytes (jseq : Word) (state kind : Nat) (acts : List Nat) : List Byte :=
  let g0 := leBytes 4 0x4A4E4C01 ++ wordBytes jseq
  let g2 := leBytes 8 (acts.length + kind * 256)
  let as := acts.flatMap (leBytes 8)
  g0 ++ leBytes 8 state ++ g2 ++ as ++ leBytes 8 (crc32c (g0 ++ g2 ++ as)).toNat

/-- The retained variables of the running program, in ascending VID. -/
def retainedVars (s : State) : List VarInfo :=
  ((runVars s).filter fun v => v.flags.testBit 0).mergeSort fun a b => decide (a.vid ≤ b.vid)

/-- Payload of the retained record (R323). -/
def retainPayload (s : State) : List Byte :=
  let vs := retainedVars s
  leBytes 4 vs.length ++ vs.flatMap fun v =>
    leBytes 4 v.vid ++ leBytes 4 v.size ++ leBytes 1 v.typ ++ [0] ++ leBytes 2 v.ttag ++ sgets zeroByte s.mem.shared v.base v.size

/-- Write the retained record. -/
def putRetain (jseq : Word) (s : State) : State :=
  let n := nextRetain s
  nvPut (retainPlaces.getD n.1 0) (copyBytes (ridOf 1) jseq n.2 (retainPayload s)) s

/-- The slot roles of a swap are settled (R165): the former running slot holds nothing staged, unless an image has been
loaded into it since. -/
def slotRoles (s : State) : State :=
  if s.plr.state = .empty then
    { s with plr := { s.plr with slotId := vset s.plr.slotId (stagedSlot s).toNat none } }
  else s

/-- The copies of an operation are written. -/
def journalCopies (op : JOp) (s : State) : State :=
  let s := if op.kind = 1 then slotRoles (putRetain op.jseq (recordPut recROLES op.jseq s)) else s
  if op.chisel then recordPut recCHISEL op.jseq s else s

/-- The journal operation in progress writes its copies and reaches its commit point (R318). -/
def journalCommit (s : State) : State :=
  match s.nvs.jop with
  | none => s
  | some op =>
    let s := journalCopies op s
    nvPut (nvJOURNAL + 8) (leBytes 8 2)
      { s with
        nvs := { s.nvs with jop := none } }

/-- JOURNAL_COMMIT. -/
def execJournalCommit (s : State) : Host.Outcome State Fault Refusal := act journalCommit s

/-- An operation opens: one runs at a time, so an earlier one first reaches its commit point. -/
def journalOpen (kind : Nat) (chisel : Bool) (s : State) : State :=
  let s := journalCommit s
  let j := s.nvs.jseq + 1
  let acts := journalActs kind chisel s
  modNvs (fun v => { v with jseq := j, jop := some ⟨j, BitVec.ofNat 8 kind, chisel⟩ })
    (nvPut nvJOURNAL (journalBytes j 1 kind acts) s)

/-! ### Periodic saves -/

/-- RET_S of NVS_CFG. -/
def retSecs (s : State) : Nat := min 3600 (field (reg 0xC000C s) 0 12)

/-- Each retained variable is copied by the firmware channel into the copy at `a`, after its 12-byte entry (R323). -/
def retainRan (a : Nat) : List VarInfo → Nat → State → State
  | [], _, s => s
  | v :: t, o, s =>
    retainRan a t (o + 12 + v.size) (firmwareRan (0x10000000 + v.base) (0x30000000 + a + o + 12) v.size s)

/-- The periodic save (R323). DESIGN CHOICE (log 62): one descriptor for each variable. -/
def retainSave (s : State) : State :=
  let a := retainPlaces.getD (nextRetain s).1 0
  modNvs (fun v => { v with retSec := s.clk.opSec }) (retainRan a (retainedVars s) 20 (putRetain 0 s))

/-- RETAIN_SAVE: every RET_S seconds while frames run (R323). -/
def execRetainSave (s : State) : Host.Outcome State Fault Refusal :=
  act (fun s => whenever (running s && retSecs s != 0 && decide (s.nvs.retSec + retSecs s ≤ s.clk.opSec))
    retainSave s) s

/-- OP_SECONDS stored. -/
def opStore (s : State) : State :=
  modNvs (fun v => { v with opStoreSec := s.clk.opSec }) (ringPut ringOPSEC s.clk.opSec s)

/-- OP_SECONDS_STORE: every 60 s (R321). -/
def execOpSecondsStore (s : State) : Host.Outcome State Fault Refusal :=
  act (fun s => whenever (decide (s.nvs.opStoreSec + 60 ≤ s.clk.opSec)) opStore s) s

/-! ### Locks and counters -/

/-- NVS_LOCK_CMD with its key (R322). -/
def lockOp : RegOp := fun s =>
  let p := field (reg 0xC0040 s) 0 8
  if (64 ≤ p ∧ p < 128) ∨ 192 ≤ p then (.ok, modNvs (fun v => { v with locked := setBit v.locked p }) s)
  else (.denied, s)

/-- LOCK. -/
def execLockPage (sid : Fin 4) (s : State) : Host.Outcome State Fault Refusal :=
  act (hostDo sid.val rolePROVISIONER lockOp) s

/-- A read of NVS_CNT_LO latches the high half. -/
def nvsCntLoOp (sid : Nat) (s : State) : Word × State :=
  let v := counter s (field (sesReg sid 0xC0030 s) 0 3)
  (w v, modNvs (fun n => { n with cntShadow := w (v / 2 ^ 32) }) s)

/-- NVS_CNT_LO_READ. -/
def execNvsCntLoRead (sid : Fin 4) (s : State) : Host.Outcome State Fault Refusal :=
  act (hostReadDo sid.val (nvsCntLoOp sid.val)) s

/-! ### Flushes (R324, R325) -/

/-- Part 1: an open operation whose copies are all written is committed; otherwise its entry stays OPEN. -/
def flushJournal (s : State) : State :=
  match s.nvs.jop with
  | none => s
  | some op => if Config.choice 22 op.jseq.toNat % 2 = 1 then journalCommit s else s

/-- Part 2: the energy state at t_d into EFLUSH, with SEQ one above the current save's. -/
def flushEnergy (s : State) : State := putSave 4 (s.eq.atDoubt.getD (saveOf s 0)) (nextSave s).2 s

/-- Part 5: OP_SECONDS, then the marker. -/
def flushMarker (parts : Nat) (s : State) : State :=
  let s := opStore s
  nvPut nvMARKER (markerBytes parts (counter s ringPOWER) s.sys.firstCause s.sys.doubtFrame (w (evrTotalN s))
    s.evr.pending.length) s

/-- The flush of a power failure writes the retained variables, unless no frame has run. -/
def flushRetains (s : State) : Bool := s.sys.flush == .powerFail && !s.sys.doubtBeforeFirst

/-- Part `i` of a flush, of the five of R324. -/
def flushPart (i : Nat) (s : State) : State :=
  match i with
  | 0 => flushJournal s
  | 1 => flushEnergy s
  | 2 => if flushRetains s then putRetain 0 s else s
  | 3 => flushRecords s
  | _ => flushMarker (if flushRetains s then 0b1111 else 0b1011) s

/-- The first `n` parts of a flush in their order, the recorder's entries first placed (R25 step 5). -/
def flushUpTo (n : Nat) (s : State) : State := forAll (List.range n) flushPart (drainIntake s)

/-- A flush completes. -/
def flushAll (s : State) : State :=
  let s := flushUpTo 5 s
  { s with sys := { s.sys with flushed := true, flushedCyc := s.clk.cyc, flush := .none } }

/-! ### A flush cut short (R315, R326) -/

/-- How far a flush had come when power failed: the parts completed, the groups of the next part that had been written, by
offset, and those being written that now read as uncorrectable. -/
structure PowerCut where
  parts : Nat
  written : List Nat
  torn : List Nat
  deriving DecidableEq, Repr

/-- The cut of a power failure, which nothing tells beforehand: free values. -/
def cutOf (s : State) : PowerCut :=
  ⟨Config.cutParts s.fresh, Config.cutWritten s.fresh, (Config.cutTorn s.fresh).eraseDups⟩

/-- The eight bytes of a group are the same in two stores. -/
def groupSame (s t : State) (g : Nat) : Bool := nvBytes s g 8 == nvBytes t g 8

/-- The groups of the page of `g` below it: the store writes a page in ascending order (R314). -/
def groupsBelow (g : Nat) : List Nat := (List.range (g / 8 % 8)).map fun i => g / 64 * 64 + 8 * i

/-- Whether a part writes a group and can have reached it: every group below it in its page has been written or keeps its
bytes. -/
def groupReached (cut : PowerCut) (s t : State) (g : Nat) : Bool :=
  g % 8 == 0 && !groupSame s t g && (groupsBelow g).all fun b => groupSame s t b || cut.written.contains b

/-- What the store `s` reads after power failed while the part that leads to `t` was being written: groups written read
new, groups not begun old, those that were being written as uncorrectable. -/
def tornPart (cut : PowerCut) (s t : State) : State :=
  let s' := forAll (cut.written.filter (groupReached cut s t)) (fun g x => nvPut g (nvBytes t g 8) x) s
  forAll (cut.torn.filter fun g => groupReached cut s t g && !cut.written.contains g) (fun g x =>
    modNvs (fun v => { v with unc := g :: v.unc })
      (nvPut g ((List.range 8).map fun i => Config.tornByte s.fresh (g + i)) x)) { s' with fresh := s'.fresh + 1 }

/-- The store as part `n` of a flush finds it: the copies of a journal operation that part 1 commits are written before
the flush, so the group of STATE alone is left. -/
def flushBefore (n : Nat) (s : State) : State :=
  if n = 0 then nvPut (nvJOURNAL + 8) (nvBytes s (nvJOURNAL + 8) 8) (flushPart 0 s) else s

/-- Power fails before the marker: the parts completed stand, and the next is left as the cut says. -/
def flushCut (cut : PowerCut) (s : State) : State :=
  let n := min 4 cut.parts
  let s := flushUpTo n s
  tornPart cut (flushBefore n s) (flushPart n s)

end Sys2Proof.Machine
end

