-- ==== Sys2Proof/Machine/FrameRows.lean ====
section
/-! DEFINITION. The frame scheduler (R31 to R50): the tick and its actions, commit points, the compute window, the guard. -/
namespace Sys2Proof.Machine

/-- Change the FRM block; set a bit of FRM_EVT. -/
def modFrm (f : Frm → Frm) (s : State) : State := { s with frm := f s.frm }
def frmEvt (n : Nat) (s : State) : State := modFrm (fun f => { f with evt := setBit f.evt n }) s

/-! ### The event word at a freeze (R36, R39) -/

/-- The assertions before the 10 ns step of the tick of frame `k`, with what the cut-off of its sample count asserts; the
assertions of that step stay latched for the next frame. -/
def cutEvents (k : Nat) (s : State) : BitVec 128 × State :=
  let inStep := s.frm.evwStepAt == tickStep s
  let s1 := cutoffAtTick k (modFrm (fun f => { f with
    evwNext := if inStep then f.evwNext else f.evwNext ||| f.evwStep, evwStep := 0, evwStepAt := tickStep s }) s)
  let hostIn := s.frm.hostStepAt == tickStep s
  let host := if hostIn then s.frm.hostEvt else s.frm.hostEvt ||| s.frm.hostStep
  (s1.frm.evwNext ||| s1.frm.evwStep ||| (BitVec.setWidth 128 host <<< 64),
   modFrm (fun f => { f with
     evwNext := 0, evwStep := if inStep then s.frm.evwStep else 0
     hostEvt := 0, hostStep := if hostIn then f.hostStep else 0, hostStepAt := tickStep s }) s1)

/-! ### The end of a frame -/

/-- Largest TICKPH of a frame-end signal in the frame that ends (R45). -/
def frameUse (s : State) : Nat := (s.lanes.toList.map fun ln => ln.frameEnd.getD 0).foldl max 0

/-- WARN_PCT of the window, in hundredths of a lane cycle. -/
def warnLimit (s : State) : Nat := min 100 (field (reg 0x10028 s) 0 7) * (guardCyc s - windowStart)

/-- A frame ran short (R45). -/
def frameWarn (s : State) : State :=
  if warnLimit s < (frameUse s - windowStart) * 100 then frmEvt 0 (noteU Config.warnCode srcFRM s) else s

/-- LOG entries that a lane dropped in frame `k`, which ends (R114). -/
def logDropNote (k l : Nat) (s : State) : State :=
  let n := (vget State.lane0 s.lanes l).logDrops
  if n = 0 then s else note 0x1010 (BitVec.ofNat 8 l) (w l) (w n) (w k) s

/-- A lane's figures of the frame that ends. -/
def laneEnd (ln : Lane) : Lane :=
  { ln with
    endLast := ln.frameEnd.getD 0, slotsLast := ln.slotsCur, stallLast := ln.stallCur
    stallMax := max ln.stallMax ln.stallCur, slotsCur := 0, stallCur := 0, stallFrom := none
    frameEnd := none, logs := 0, logDrops := 0 }

/-- The figures of frame `k`, which ends: FRM_USE, the lanes, the banks. Its entries come with the tick that ends it. -/
def frameStats (k : Nat) (s : State) : State :=
  let u := frameUse s
  let s := forAll (List.range 16) (logDropNote k) (frameWarn s)
  let s := modFrm (fun f => { f with useLast := u, useMax := max f.useMax u }) s
  { modLanes (fun _ => laneEnd) s with
    mem := { s.mem with banks := s.mem.banks.map fun b => { b with grantsLast := b.grantsCur, grantsCur := 0 } } }

/-- The buffer words that a class has written go into the output image. -/
def mergeClass (cls : Nat) (done : List Nat) (s : State) : State :=
  let b := areaBase s (classArea cls) + 4 * (classIn s cls).length
  done.foldl (fun s n => match (classOut s cls)[n]? with
    | some i => shPutW (areaBase s 1 + 4 * i) (shWord s (b + 4 * n)) s
    | none => s) s

/-- Class buffers are merged at the end of a cycle's last frame (R42). -/
def mergeBuffers (s : State) : State :=
  let s := if progM s ≠ 0 ∧ midPh s + 1 = progM s then
      modFrm (fun f => { f with midDone := [] }) (mergeClass 1 s.frm.midDone s) else s
  if progS s ≠ 0 ∧ slowPh s + 1 = progS s then
    modFrm (fun f => { f with slowDone := [] }) (mergeClass 2 s.frm.slowDone s) else s

/-! ### The checks of a tick (R18, R32, R49, R164) -/

/-- Every access of lane `l` that is queued takes place, in order, and its slot holds the data. -/
def finishReqs (l : Nat) (s : State) : State :=
  let done (slot : Nat) (d : Word) (s : State) : State :=
    { s with lanes := vmod s.lanes l fun ln => { ln with
        reqs := ln.reqs.tail, slots := vmod ln.slots slot fun q => { q with data := d, outstanding := false, granted := none } } }
  (vget State.lane0 s.lanes l).reqs.foldl (fun s r => match r.op with
    | .load slot n q => done slot (loaded q (shRead s r.addr n)) s
    | .store slot n v =>
      let s := markClass r.addr (shPut r.addr (leBytes n v.toNat) s)
      done slot v { s with ln := { s.ln with posts := s.ln.posts.map (storeGranted l s.clk.cyc) } }) s

/-- A granted access returns. -/
def finishSlot (q : RetSlot) : RetSlot :=
  match q.granted with
  | some (_, d) => { q with data := d, outstanding := false, granted := none }
  | none => q

/-- The save of a preempted lane is over by the next tick: accesses for which no grant was issued complete (R43, R85). -/
def finishSaves (s : State) : State :=
  forAll (where_ 16 fun l => (vget State.lane0 s.lanes l).saving) (fun l s =>
    let s := finishReqs l s
    { s with lanes := vmod s.lanes l fun ln => saveLane { ln with slots := ln.slots.map finishSlot } }) s

/-- Frame k begins. -/
def newFrame (s : State) : State :=
  { modFrm (fun f => { f with k := f.k + 1, ticks := f.ticks + 1, tickCyc := s.clk.cyc }) s with
    clk := { s.clk with tickph := 0 } }

/-- Host base address of the block of a settings group (R47). -/
def groupBase (g : Nat) : Nat := [blkNE, blkEQ, blkFIO, blkCAN, blkLN].getD g 0

/-- SOURCE of a block of registers by its base. -/
def blockSource (base : Nat) : BitVec 8 :=
  match base / 0x10000 with
  | 1 => srcFRM | 2 => 0 | 3 => srcPLR | 4 => srcMEM | 5 => srcNE | 6 => srcTIM | 7 => srcRTC | 8 => srcEQ
  | 9 => srcFIO | 10 => BitVec.ofNat 8 (0x19 + base % 0x10000 / 0x4000) | 11 => srcHSB | 12 => srcNVS | 13 => srcEVR
  | 14 => srcKEY | 15 => srcUPD | 16 => srcHL | _ => srcSYS

/-- Base of the block that a register belongs to. -/
def regBlock (a : Nat) : Nat := if a / 0x10000 = 10 then a / 0x4000 * 0x4000 else a / 0x10000 * 0x10000

/-- A register whose parity fails is a CONTROL_CHECK at its use (R18, R23). -/
def parityDoubt (a : Nat) (s : State) : State :=
  let blk := regBlock a
  moduleDoubt causeControl 0x0011 (blockSource blk) (w blk) (w (a - blk)) 0 s

/-- Blocks whose settings every frame uses: FRM, NE, TIM, EQ, FIO, CAN, HSB. -/
def frameBlocks : List Nat := [1, 5, 6, 8, 9, 10, 11]

/-- Settings used in the frame whose parity fails. -/
def checkRegs (s : State) : State :=
  forAll (s.sys.badRegs.filter fun a => frameBlocks.contains (a / 0x10000)) parityDoubt s

/-- The interval that ends at T_k is outside its band. -/
def checkInterval (bad : Bool) (cycles : Nat) (s : State) : State :=
  if bad then moduleDoubt causeClock 0x5032 srcTIM (w (cycles * 5 / 2)) 0 0 s else s

/-- Staged groups whose block CRC fails at the commit point. -/
def checkStaged (k : Nat) (s : State) : State :=
  if s.frm.commitArmed && s.frm.commitF == k + 1 then
    forAll (where_ 5 fun g => s.frm.commitGroups.getLsbD g && s.sys.badStaged.getLsbD g)
      (fun g s => moduleDoubt causeControl 0x0011 srcFRM (w (groupBase g)) 0xFFFFFFFF 0 s) s
  else s

/-- The maquette's armature hash at the commit point of a swap. -/
def checkHash (k : Nat) (s : State) : State :=
  if s.plr.swapF = some (k + 1) ∧ ¬ s.plr.maqHashOk then
    moduleDoubt causeControl 0x1014 srcPLR 1 (un 0x1014 1 s) (un 0x1014 2 s) s
  else s

/-- Chisel entries as they are installed at T_k. -/
def checkChisel (k : Nat) (s : State) : State :=
  let bad (i : Nat) : Bool :=
    let e := stagedEntry s (0xF0 + i)
    e.sealed_ && !entryIntact (0xF0 + i) e
  if s.frm.commitArmed && s.frm.committed && s.frm.commitF == k && s.frm.commitGroups.getLsbD 4 then
    match (where_ 16 bad).head? with
    | some i => laneFault 0 ⟨0x100C, w (0xF0 + i), none⟩ 0 false s
    | none => s
  else s

/-- The network engine takes its descriptors for the frame; one that fails its CRC-16 is NE_DESC_CHECK (R18, R23). -/
def checkNeDesc (s : State) : State :=
  match s.ne.badDesc with
  | some i => moduleDoubt causeControl 0x4050 srcNE (w i) 0 0 s
  | none => s

/-- Everything that is checked at T_k before its actions. -/
def tickChecks (bad : Bool) (cycles k : Nat) (s : State) : State :=
  checkNeDesc (checkChisel k (checkHash k (checkStaged k (checkRegs (checkInterval bad cycles s)))))

/-! ### Commits and swaps at T_F (R47, R50, R143, R165) -/

/-- The CHISEL group applies: an unsealed entry is installed as an empty one (R138). -/
def chiselApply (s : State) : State :=
  { s with ln := { s.ln with active := vmap s.ln.staged fun i e => installed (0xF0 + i) e, badCopies := [] } }

/-- One group applies. -/
def applyGroup (k g : Nat) (s : State) : State :=
  match g with
  | 0 => neCommit k s
  | 1 => eqCommit k s
  | 2 => fioCommit s
  | 3 => canApply s
  | _ => chiselApply s

/-- A commit applies at this tick; a swap does. -/
def commitNow (k : Nat) (s : State) : Bool := s.frm.commitArmed && s.frm.committed && s.frm.commitF == k
def swapNow (k : Nat) (s : State) : Bool := s.plr.swapF == some k && s.plr.swapDone

/-- The armed commit applies. -/
def commitApply (k : Nat) (s : State) : State :=
  let gs := where_ 5 fun g => s.frm.commitGroups.getLsbD g
  frmEvt 1 (modFrm (fun f => { f with commitArmed := false, committed := false }) (forAll gs (applyGroup k) s))

/-- Value of an edge cell. -/
def edgeCell (s : State) (e : EdgeInfo) : Bool := (vget State.lane0 s.lanes e.lane).edges.getLsbD e.cell

/-- The edge memory under a new edge map (R98). -/
def carryEdges (old new : List EdgeInfo) (s : State) : State :=
  let value (e : EdgeInfo) : Bool :=
    match old.find? fun o => o.id == e.id with
    | some o => edgeCell s o
    | none => e.init
  let lane (l : Nat) : BitVec 4096 :=
    (new.filter fun e => e.lane == l && value e).foldl (fun v e => setBit v e.cell) 0
  modLanes (fun l ln => { ln with edges := lane l }) s

/-- A baton set to 0: posts that have not yet counted are discarded with it (R124). -/
def batonReset (n : Nat) (s : State) : State :=
  { s with ln := { s.ln with
      batons := vset s.ln.batons n 0
      posts := s.ln.posts.filter fun p => p.baton ≠ n || decide (s.clk.cyc ≤ p.at_) } }

/-- Class of a baton in the running program; 4 for one that it does not declare. -/
def batonClass (s : State) (n : Nat) : Nat :=
  match s.plr.run with
  | some a => ((a.batons.find? fun b => b.1 == n).map (·.2)).getD 4
  | none => 4

/-- The armed swap applies. -/
def swapApply (k : Nat) (s : State) : State :=
  match s.plr.maq with
  | none => s
  | some a =>
    let oldId : Word := match s.plr.run with
      | some o => o.imageId
      | none => 0
    let oldEdges := match s.plr.run with
      | some o => o.edges
      | none => []
    let new := !s.plr.runSlot
    let s := carryEdges oldEdges a.edges s
    let s := { s with
      ln := { s.ln with half := ~~~s.ln.half }
      plr := { s.plr with
        state := .empty, run := some a, maq := none, runSlot := new, runRefused := false, swapF := none
        swapDone := false, cache := vset s.plr.cache new.toNat (some a) }
      frm := { s.frm with k0 := k, midDone := [], slowDone := [] } }
    let s := modLanes (fun _ ln => { ln with bgSaved := none, bgDsp := 0, bgPos := 0 }) s
    let s := forAll (where_ 256 fun n => 3 ≤ batonClass s n) batonReset s
    frmEvt 2 (note 0x2010 srcPLR oldId a.imageId (w k) s)

/-- Step 3 of R35: everything armed for frame k; the event bits 49 and 50 of frame k. -/
def applyAll (k : Nat) (s : State) : BitVec 128 × State :=
  let c := commitNow k s
  let x := swapNow k s
  let chisel := c && s.frm.commitGroups.getLsbD 4
  let s := if x || chisel then journalCommit s else s
  let s := if c then commitApply k s else s
  let s := if x then swapApply k s else s
  let s := if x then journalOpen 1 chisel s else if chisel then journalOpen 2 true s else s
  ((if c then 1#128 <<< 49 else 0) ||| (if x then 1#128 <<< 50 else 0), s)

/-! ### Commit points (R49, R144, R164, R306) -/

/-- The chisel table and the program that would be in force from k + 1 disagree (R144). -/
def chiselDisagrees (chisel swap : Bool) (s : State) : Bool :=
  let id := if chisel then stagedId s else activeId s
  let named := if swap then s.plr.maq.map (·.chiselId) else runNames s
  match named with
  | some n => (chisel || swap) && n != id
  | none => false

/-- CHISEL_HOLD: neither the swap nor the CHISEL group applies. -/
def chiselHold (f : Nat) (swap : Bool) (s : State) : State :=
  let s := note 0x1012 srcFRM (activeId s) (stagedId s) (w f) s
  let s := if swap then { s with plr := { s.plr with state := .placed, swapF := none } } else s
  if s.frm.commitArmed && s.frm.commitF == f then
    modFrm (fun m =>
      let g := clrBit m.commitGroups 4
      { m with commitGroups := g, commitArmed := g != 0, committed := g != 0 }) s
  else s

/-- T_k as the commit point of what is armed for k + 1, with the verdict that the pair exchanges. -/
def commitPoint (k : Nat) (s : State) : State :=
  let c := s.frm.commitArmed && s.frm.commitF == k + 1
  let x := s.plr.swapF == some (k + 1)
  if !c && !x then modHsb (fun h => { h with ownVerdict := none }) s
  else if chiselDisagrees (c && s.frm.commitGroups.getLsbD 4) x s then
    modHsb (fun h => { h with ownVerdict := some false }) (chiselHold (k + 1) x s)
  else
    let s := if c then modFrm (fun f => { f with committed := true }) s else s
    let s := if x then { s with plr := { s.plr with swapDone := true } } else s
    modHsb (fun h => { h with ownVerdict := some true }) s

/-! ### The tick -/

/-- TTICK and its flags, realignment (R224), smpSynch for the frame (R198). -/
def tickTime (k : Nat) (s : State) : State :=
  let was := s.tim.realign
  let s := realignNote was (realignJudge k s)
  modFrm (fun f => { f with ttick := ntCap s, ttFlags := timeFlags s, sync := smpSynch s }) s

/-- A pending step of the time, realignment judged on the stepped time, and the target of the next tick (R213, R224). -/
def tickAim (k : Nat) (s : State) : State :=
  let s := if s.tim.stepPend.isSome then cyclesRebase (stepApply s) else s
  let s := realignNote s.tim.realign (realignJudge k s)
  modTim (fun t => { t with target := nextTarget s k }) s

/-- A tick of a halted module: frame numbering and time go on; sampled values go on with invalid quality (R25). -/
def haltedTick (k : Nat) (s : State) : State :=
  let sync := s.frm.sync
  let s := { s with ne := { s.ne with sent := [] }, hsb := { s.hsb with sent := [] } }
  tickAim k (tickTime k (neDoubtTick k sync s))

/-- Lanes at T_k (R76). -/
def lanesAtTick (s : State) : State :=
  modLanes (fun l ln => { ln with
    mode := if schedule s l = [] then .idle else .wait, wait := if schedule s l = [] then .none else .window
    mac := none, schedPos := 0 }) s

/-- The freeze of frame k (R35 step 4). -/
def freezeFrame (k : Nat) (evw : BitVec 128) (s : State) : State :=
  lanesAtTick (judgeKeyWords (freeze k (modFrm (fun f => { f with
    evw := evw, assembled := false, windowOpen := false, guardDone := false }) s)))

/-- The commit points, and what goes out on the sync links from T_k. -/
def tickPair (k : Nat) (s : State) : State := gsNewEnds (beaconSend k (hsbSends k (commitPoint k (handoverPoint k s))))

/-- Steps 1 to 3 of R35 for frame k, of a running module, after the end of frame k − 1. -/
def release (k : Nat) (s : State) : State :=
  let sync := s.frm.sync
  let s := { s with ne := { s.ne with sent := [] } }
  let s := neRelease k sync (canRelease (fioRelease (imgOutWord s 0) s))
  let s := if hsbEn s then modHsb (fun h => { h with ownOut := some (ownSet s (k - 1)) }) s else s
  eqTick (hbToggle s)

/-- The actions of T_k (R35). -/
def tickActions (k : Nat) (evw : BitVec 128) (s : State) : State :=
  let (bits, s) := applyAll k (release k (hsbTick k s))
  tickPair k (tickAim k (freezeFrame k (evw ||| bits) (tickTime k s)))

/-- TICK: the interval and the commit points are checked first; a doubt in the cycle of T_k suppresses it (R28). -/
def tick (s : State) : State :=
  let bad := intervalBad s
  let cycles := s.clk.cyc - s.frm.tickCyc
  let k := s.frm.k + 1
  if running s then
    let ended := frameStats (k - 1) (newFrame (mergeBuffers (finishSaves s)))
    let s1 := tickChecks bad cycles k (newFrame s)
    if running s1 then
      let (evw, s2) := cutEvents k ended
      tickActions k evw s2
    else haltedTick k s1
  else haltedTick k (newFrame s)

/-- TICK (R35). -/
def execTick (s : State) : Host.Outcome State Fault Refusal :=
  act (fun s => whenever (s.frm.ticks ≠ 0 && s.frm.state != .starting && tickDue s) tick s) s

/-! ### The first tick (R34, R38, R225) -/

/-- Start-up has nothing left to wait for. -/
def firstTickDue (s : State) : Bool :=
  let wait := field (reg 0x60004 s) 8 8
  s.frm.state == .starting && !s.sys.latched && !s.sys.retired && !s.upd.recovery && s.clk.cyc % 4 == 0
    && (wait == 0 || s.tim.state == .locked || decide (wait * cycSec ≤ s.tim.sinceTest + s.clk.cyc))

/-- ENERGY_PAUSE: metering goes on after it had stopped (R256). -/
def energyPause (s : State) : State :=
  match s.persist.eqStopAt with
  | none => s
  | some c =>
    let ms := ((s.rtc.count + 2 ^ 48 - c) % 2 ^ 48) * 1000 / 32768
    note 0x6011 srcEQ (w ms) (eqPoint s 0).kept.seq (powerCycles s)
      { s with persist := { s.persist with eqStopAt := none } }

/-- The first frame. -/
def firstTick (s : State) : State :=
  let k := s.clk.nt * rate s / ntSec
  let s := { modFrm (fun f => { f with
      k := k, k0 := k, ticks := 1, tickCyc := s.clk.cyc, state := .running }) s with
    clk := { s.clk with tickph := 0 } }
  let ms := min 65535 (s.upd.bootMs + s.clk.cyc / cycMs)
  let s := note 0xD001 srcUPD (bitWord s.upd.running) (vget ⟨.empty, [], 0, 0⟩ s.upd.banks s.upd.running.toNat).version
    (w ms) (modUpd (fun u => { u with bootMs := ms }) s)
  let s := roleTo (if hsbEn s then .syncing else .alone) k s
  let (evw, s) := cutEvents k s
  let s := energyPause (eqBegin k (hbToggle (fioRelease 0 s)))
  tickPair k (tickAim k (freezeFrame k evw (tickTime k s)))

/-- FIRST_TICK (R225). -/
def execFirstTick (s : State) : Host.Outcome State Fault Refusal :=
  act (fun s => whenever (firstTickDue s) firstTick s) s

/-! ### Assembly (R37, R42) -/

/-- The class image of a class, in the first frame of its cycle. -/
def classImage (cls : Nat) (s : State) : State :=
  let b := areaBase s (classArea cls)
  (classIn s cls).zipIdx.foldl (fun s x => shPutW (b + 4 * x.2) (sget zeroWord s.ne.frozen x.1) s) s

/-- Input assembly of the frame is complete. -/
def assemble (s : State) : State :=
  let s := writeImage s
  let s := if progM s ≠ 0 ∧ midPh s = 0 then classImage 1 s else s
  let s := if progS s ≠ 0 ∧ slowPh s = 0 then classImage 2 s else s
  modFrm (fun f => { f with assembled := true }) s

/-- ASSEMBLY_COMPLETE (R37): of a mirrored frame, once its image has been judged (R297). -/
def execAssemblyComplete (s : State) : Host.Outcome State Fault Refusal :=
  act (fun s => whenever (running s && !s.frm.assembled && (!mirrored s || s.hsb.imageJudged)) assemble s) s

/-! ### The compute window (R74, R76, R124) -/

/-- A lane's ports, slots and stacks of scheduled work cleared; its queued accesses land nowhere. -/
def clearLane (ln : Lane) : Lane :=
  { ln with
    v := Vector.replicate 64 0, p := 1, units := Vector.replicate 15 State.ports0, acc := 0, trap := 0
    repCount := 0, repSrc := 0, repDst := 0, repStride := 0, repElem := 0, repVal := 0, repMask := 0, repProc := 0
    repRun := .none, slots := Vector.replicate 20 State.slot0
    reqs := ln.reqs.map fun r => match r.op with
      | .load _ n e => { r with op := .load 20 n e }
      | .store _ n v => { r with op := .store 20 n v }
    inflight := [], step := 0, divBusy := 0, fpuBusy := 0, crdBusy := 0, dsp := 0, rstack := [], mac := none, schedPos := 0 }

/-- A lane starts its schedule, BACKGROUND, or nothing. -/
def startLane (s : State) (l : Nat) (ln : Lane) : Lane :=
  let ln := clearLane ln
  match schedule s l with
  | p :: _ => startOrWait s p 0 ln
  | [] =>
    if ln.bgSaved.isSome || !(background s l).isEmpty then enterBg s l ln else { ln with mode := .idle, wait := .none }

/-- Batons whose class begins a cycle in this frame. -/
def batonsDue (s : State) : List Nat :=
  where_ 256 fun n =>
    let c := batonClass s n
    c == 0 || (c == 1 && midPh s == 0) || (c == 2 && slowPh s == 0)

/-- The compute window opens. -/
def windowOpens (s : State) : State :=
  let s := forAll (batonsDue s) batonReset s
  modFrm (fun f => { f with windowOpen := true }) (modLanes (startLane s) s)

/-- The timetable entry that a lane uses when the window opens. -/
def entryFirst (s : State) (l : Nat) : Option Placed :=
  match schedule s l with
  | p :: _ => some p
  | [] => if (vget State.lane0 s.lanes l).bgSaved.isSome then none else (background s l).head?

/-- TICKPH = 2,400: late assembly and a bad timetable entry stop the frame (R18, R37). -/
def computeWindow (s : State) : State :=
  if !s.frm.assembled then
    moduleDoubt causeOverrun 0x1013 srcFRM (kLow s) 0 0 (modFrm (fun f => { f with ovrClass := 3 }) s)
  else
    let bad := where_ 16 fun l => (entryFirst s l |>.bind (entryBad s l)).isSome
    match bad with
    | [] => windowOpens s
    | ls => forAll ls (fun l s => entryDoubt l (entryFirst s l) s) s

/-- COMPUTE_WINDOW_OPEN (R35 step 5, R37, R74). -/
def execComputeWindowOpen (s : State) : Host.Outcome State Fault Refusal :=
  act (fun s => whenever (running s && s.clk.tickph == windowStart && !s.frm.windowOpen) computeWindow s) s

/-! ### The guard (R43, R44, R85) -/

/-- The lane runs BACKGROUND, or waits in it. -/
def inBackground (ln : Lane) : Bool := ln.mode == .bg || (ln.mode == .wait && ln.cls == 3)

/-- BACKGROUND of lane `l` is preempted (R43): operations in flight complete, and its accesses go on (R85). -/
def preempt (l : Nat) (s : State) : State :=
  modFrm (fun f => { f with bgPreempt := f.bgPreempt + 1 })
    { s with lanes := vmod s.lanes l fun ln => saveIfDone { finishOps ln with saving := true } }

/-- The trap of an operation that completes at the preemption (R84, R85). DESIGN CHOICE (log 62): it is raised in the
guard cycle, at the lane's next bundle. -/
def preemptTrap (l : Fin 16) (old : State) (s : State) : State :=
  let ln := old.lanes[l.val]
  if inBackground ln then
    match firstTrap ln.trap ln.inflight with
    | some f => laneFault l f ln.pc false s
    | none => s
  else s

/-- Lanes with scheduled work that have not signalled frame-end. -/
def lateLanes (s : State) : List Nat :=
  where_ 16 fun l => schedule s l ≠ [] ∧ (vget State.lane0 s.lanes l).frameEnd.isNone

/-- The highest class among the unfinished work. -/
def lateClass (s : State) (ls : List Nat) : Nat :=
  ((ls.flatMap fun l => (schedule s l).drop (vget State.lane0 s.lanes l).schedPos).map (·.cls)).foldl max 0

/-- FRAME_OVERRUN (R44). -/
def overrun (ls : List Nat) (s : State) : State :=
  let mask : BitVec 16 := BitVec.ofNat 16 ((ls.map fun l => 2 ^ l).sum)
  let c := lateClass s ls
  let s := forAll ls (fun l s =>
    let ln := vget State.lane0 s.lanes l
    { s with ln := { s.ln with fault := latchFault (activeHalf s l) l ⟨0x1001, w c, none⟩ ln.lastPc ln.lastMacro s } }) s
  moduleDoubt causeOverrun 0x1001 srcFRM (BitVec.setWidth 32 mask) (w c) (w (guardCyc s))
    (modFrm (fun f => { f with ovrLanes := mask, ovrClass := c }) s)

/-- TICKPH = GUARD_CYC. -/
def guard (s : State) : State :=
  let old := s
  let s := modFrm (fun f => { f with guardDone := true }) s
  let s := forAll (where_ 16 fun l => inBackground (vget State.lane0 s.lanes l)) preempt s
  let s := (List.finRange 16).foldl (fun s l => preemptTrap l old s) s
  if lateLanes s = [] then s else overrun (lateLanes s) s

/-- The frame still runs in this cycle, or a doubt of this very cycle stopped it (R46). -/
def frameRuns (s : State) : Bool :=
  running s || (s.sys.latched && s.clk.cyc == s.sys.doubtCyc && !booting s)

/-- GUARD (R43, R44). -/
def execGuard (s : State) : Host.Outcome State Fault Refusal :=
  act (fun s => whenever (frameRuns s && s.clk.tickph == guardCyc s && s.frm.windowOpen && !s.frm.guardDone) guard s) s

/-! ### Plinth mode, watchdog, scrubber, reset (R18, R25 to R30) -/

/-- The flush ends: the marker is written, plinth mode is entered, publication stops. -/
def plinth (s : State) : State :=
  let s := pubStop (flushAll s)
  { s with sys := { s.sys with plinth := true } }

/-- FLUSH_COMPLETE (R25 step 6, R324). -/
def execFlushComplete (s : State) : Host.Outcome State Fault Refusal :=
  act (fun s => whenever (s.sys.flush ≠ .none) plinth s) s

/-- The management core restarts (R29): its sessions and reservations are gone; the manual names no reason. -/
def mgmtRestart (s : State) : State :=
  let s := forAll (List.range 4) (fun sid s => closeSession sid (Config.choice 32 s.clk.cyc) s) s
  modHl (fun h => { h with hellos := Vector.replicate 4 none, owed := none })
    { s with sys := { s.sys with mgmtRestarted := true } }

/-- The hardware watchdog expires. -/
def watchdog (s : State) : State :=
  let was := inPlinth s
  let s := moduleDoubt causeWatchdog 0x0030 srcSYS 0 0 0 s
  if was then s else mgmtRestart s

/-- WATCHDOG (R29). -/
def execWatchdog (s : State) : Host.Outcome State Fault Refusal := act watchdog s

/-- BLOCK_CRC_SCRUB (R18): every block whose CRC fails is a CONFIG_CHECK. -/
def execBlockCrcScrub (s : State) : Host.Outcome State Fault Refusal :=
  act (fun s => forAll s.sys.badBlocks
    (fun b s => moduleDoubt causeControl 0x0011 (blockSource b) (w b) 0xFFFFFFFF 0 s) s) s

/-- MGMT_SRAM_UE (R18, R23). -/
def execMgmtSramUe (addr : Word) (secure : Bool) (s : State) : Host.Outcome State Fault Refusal :=
  act (moduleDoubt causeControl 0x0012 srcSYS addr (bitWord secure) 0) s

/-- SYS_RESET with its key (R30): the doubt first, the reset after the flush. -/
def hostResetOp (sid : Nat) : RegOp := always fun s =>
  let s := moduleDoubt causeHostReset 0x0031 srcSYS (w sid) (w (sesRole sid s)) 0 s
  { s with sys := { s.sys with resetCommanded := true } }

/-- HOST_RESET. -/
def execHostReset (sid : Fin 4) (s : State) : Host.Outcome State Fault Refusal :=
  act (hostDo sid.val roleENGINEER (hostResetOp sid.val)) s

end Sys2Proof.Machine
end

