-- ==== Sys2Proof/Machine/Rtc.lean ====
section
/-! DEFINITION. The backup domain (R226 to R233): counter, views, freeze, shift, alarm, tamper inputs, epoch record. -/
namespace Sys2Proof.Machine

/-- Change the backup domain; set a bit of RTC_EVT. -/
def modRtc (f : Rtc → Rtc) (s : State) : State := { s with rtc := f s.rtc }
def rtcEvt (n : Nat) (s : State) : State := modRtc (fun r => { r with evt := setBit r.evt n }) s

/-! ### Epoch record (R228) -/

/-- The first word of an epoch record. -/
def epochMagic : Word := 0x45500001

/-- CRC-32C over words 0 to 2. -/
def epochCrc (a b c : Word) : Word := crc32c (wordsBytes [a, b, c])

/-- The record's E, if the words hold one. -/
def epochOf (bkp : Vector Word 16) : Option Nat :=
  let a := bkp[0]
  let b := bkp[1]
  let c := bkp[2]
  if a = epochMagic ∧ c.toNat < 2 ^ 16 ∧ bkp[3] = epochCrc a b c then some (b.toNat + c.toNat * 2 ^ 32) else none

/-- Write a record. -/
def putEpoch (e : Nat) (r : Rtc) : Rtc :=
  let b := w e
  let c := w (e / 2 ^ 32 % 2 ^ 16)
  { r with bkp := (((r.bkp.set 0 epochMagic).set 1 b).set 2 c).set 3 (epochCrc epochMagic b c) }

/-- A valid record is held. -/
def epochValid (r : Rtc) : Bool := (epochOf r.bkp).isSome

/-- Network time in ticks of the backup counter. -/
def ntTicks (s : State) : Nat := s.clk.nt * 32768 / ntSec

/-- Host address of RTC_SHIFT. -/
def aRTC_SHIFT : Nat := 0x70010

/-- A GO is on its way to the domain. -/
def goOnWay (r : Rtc) : Bool := r.writes.any fun x => x.reg == aRTC_SHIFT && x.value.getLsbD 16

/-- Arm a firmware shift by `d` ticks, where none is pending or on its way. -/
def fwShift (d : Int) (r : Rtc) : Rtc :=
  if d = 0 ∨ r.shift.isSome ∨ goOnWay r then r else { r with shift := some d, shiftAt := r.xtal }

/-- The once-per-second comparison in LOCKED (R228). -/
def epochCheck (s : State) : State :=
  let r := s.rtc
  let rest := ntTicks s - r.count
  let fresh (r : Rtc) : Rtc := fwShift (Int.ofNat (rest % 32768)) (putEpoch (rest / 32768) r)
  let r' := match epochOf r.bkp with
    | some e =>
      let d : Int := Int.ofNat (ntTicks s) - Int.ofNat (e * 32768 + r.count)
      if d.natAbs ≤ 32767 then fwShift d r else fresh r
    | none => { fresh r with view := false }
  modTim (fun t => { t with epochSec := some (nowSec s) }) { s with rtc := r' }

/-- EPOCH_CHECK. -/
def execEpochCheck (s : State) : Host.Outcome State Fault Refusal :=
  act (fun s => whenever (s.tim.state == .locked && s.tim.epochSec != some (nowSec s)) epochCheck s) s

/-! ### Reading the counter (R227, R229) -/

/-- The NORMAL view is in use. -/
def rtcNormal (r : Rtc) : Bool := epochValid r && !r.view && !r.test

/-- Low and high word of a count by the view. -/
def rtcLo (r : Rtc) (c : Nat) : Word := if rtcNormal r then w c else w (c / 32768)
def rtcHi (r : Rtc) (c : Nat) : Nat := if rtcNormal r then c / 2 ^ 32 % 2 ^ 16 else c % 32768 * 2

/-- A read of RTC_TICK_LO freezes the counter and advances GEN. -/
def rtcTickLoOp (s : State) : Word × State :=
  let r := s.rtc
  let g := (r.gen + 1) % 256
  (rtcLo r r.count, { s with rtc := { r with gen := g, shadow := some (r.count, g) } })

/-- RTC_TICK_LO_READ, by the host or by the management core. -/
def execRtcTickLoRead (_host : Bool) (s : State) : Host.Outcome State Fault Refusal :=
  act (fun s => (rtcTickLoOp s).2) s

/-- A read of RTC_TICK_HI releases the freeze; with none it reads a value that R229 does not give. -/
def rtcTickHiOp (s : State) : Word × State :=
  let r := s.rtc
  match r.shadow with
  | some (c, g) => (w (rtcHi r c) ||| at_ g 16, { s with rtc := { r with shadow := none } })
  | none => ((drawFree s).1 &&& 0xFFFFFF, (drawFree s).2)

/-- RTC_TICK_HI_READ. -/
def execRtcTickHiRead (_host : Bool) (s : State) : Host.Outcome State Fault Refusal :=
  act (fun s => (rtcTickHiOp s).2) s

/-! ### Shift and alarm at a tick (R230, R231) -/

/-- The alarm fires at a count: FIRE, ALARM, and LATE past its value (R231). With main power present its event source
asserts; without, it waits for the next start-up. -/
def fireAt (count value : Nat) (s : State) : State :=
  let s := rtcEvt 0 (modRtc (fun r => { r with alarm := none, fire := count }) s)
  let s := if value < count then rtcEvt 1 s else s
  if s.clk.power then assertEvw 45 s else modRtc (fun r => { r with alarmOff := true }) s

/-- The pending shift at a second boundary, whose tick the counter has already taken. -/
def shiftApply (d : Int) (s : State) : State :=
  let c := s.rtc.count
  let s := modRtc (fun r => { r with shift := none }) s
  let dest := Int.ofNat c + d
  if dest < 0 then rtcEvt 4 s
  else
    let s := match s.rtc.alarm with
      | some a => if d < 0 ∧ a ≤ c then fireAt c a s else s
      | none => s
    let n := dest.toNat % 2 ^ 48
    let s := rtcEvt 3 (modRtc (fun r => { r with count := n }) s)
    let s := match s.rtc.alarm with
      | some a => if a ≤ n then fireAt n a s else s
      | none => s
    if s.clk.power then note1 0x5023 srcRTC (BitVec.ofInt 32 d) s else s

/-- A shift is due: its second boundary is the present tick, and it was armed before it. -/
def shiftDue (r : Rtc) : Bool := r.shift.isSome && decide (r.count % 32768 = 0) && decide (r.shiftAt < r.xtal)

/-- The alarm is due: at a tick after its arming the count has reached it. -/
def alarmDue (r : Rtc) : Bool :=
  (match r.alarm with
    | some a => decide (a ≤ r.count)
    | none => false) && decide (r.alarmAt < r.xtal)

/-- The due shift is applied. -/
def shiftNow (s : State) : State :=
  match s.rtc.shift with
  | some d => if shiftDue s.rtc then shiftApply d s else s
  | none => s

/-- The due alarm fires. -/
def alarmNow (s : State) : State :=
  match s.rtc.alarm with
  | some a => if alarmDue s.rtc then fireAt s.rtc.count a s else s
  | none => s

/-- What the present tick still owes comes before a write, a command or a sample of the same tick (R232). -/
def tickFirst (s : State) : State := alarmNow (shiftNow s)

/-! ### Writes to the domain (R232) -/

/-- A write to a register of the domain is under way. -/
def domBusy (s : State) (a : Nat) : Bool := s.rtc.writes.any fun x => x.reg == a

/-- Start a write. -/
def domWrite (a : Nat) (v : Word) (s : State) : State :=
  modRtc (fun r => { r with writes := r.writes ++ [⟨a, v, r.xtal⟩] }) s

/-- A write to a domain register, answered with BUSY while one to it is under way. -/
def domWriteOp (a : Nat) (v : Word) : RegOp := fun s => if domBusy s a then (.busy, s) else (.ok, domWrite a v s)

/-- Host addresses of the domain's registers. -/
def aRTC_CTL : Nat := 0x7000C
def aRTC_ALARM_LO : Nat := 0x70014
def aRTC_ALARM_HI : Nat := 0x70018
def aRTC_EVT : Nat := 0x70024
def aRTC_TAMP_CFG : Nat := 0x70030
def aRTC_BKP : Nat := 0x70080

/-- A write reaches its register. -/
def domApply (x : DomWrite) (r : Rtc) : Rtc :=
  let v := x.value
  let n := field v 0 15
  let d : Int := if v.getLsbD 15 then -Int.ofNat n else Int.ofNat n
  if x.reg = aRTC_CTL then { r with view := v.getLsbD 0, test := v.getLsbD 1 }
  else if x.reg = aRTC_SHIFT then
    { r with
      shiftAmt := n, shiftSub := v.getLsbD 15
      shift := if v.getLsbD 16 && n != 0 then some d else r.shift
      shiftAt := if v.getLsbD 16 && n != 0 then r.xtal else r.shiftAt }
  else if x.reg = aRTC_ALARM_LO then { r with alarmReg := r.alarmReg / 2 ^ 32 * 2 ^ 32 + v.toNat }
  else if x.reg = aRTC_ALARM_HI then
    let a := field v 0 16 * 2 ^ 32 + r.alarmReg % 2 ^ 32
    { r with alarmReg := a, alarm := if v.getLsbD 31 then some a else r.alarm
             alarmAt := if v.getLsbD 31 then r.xtal else r.alarmAt }
  else if x.reg = aRTC_EVT then { r with evt := r.evt &&& ~~~(BitVec.setWidth 5 v) }
  else if x.reg = aRTC_TAMP_CFG then { r with tampCfg := BitVec.setWidth 7 v &&& 0b1110111#7 }
  else if aRTC_BKP ≤ x.reg ∧ x.reg < aRTC_BKP + 64 then { r with bkp := vset r.bkp ((x.reg - aRTC_BKP) / 4) v }
  else r

/-- The oldest write to a register takes effect. -/
def domDone (a : Nat) (r : Rtc) : Rtc :=
  match r.writes.find? fun x => x.reg == a with
  | some x => { domApply x r with writes := r.writes.erase x }
  | none => r

/-- DOMAIN_WRITE_DONE. -/
def execDomainWriteDone (reg : Nat) (s : State) : Host.Outcome State Fault Refusal :=
  domainAct (fun s => modRtc (domDone reg) (tickFirst s)) s

/-! ### Shift (R230) -/

/-- RTC_SHIFT with GO: BUSY while a shift is pending; AMOUNT 0 makes GO ignored. -/
def shiftGoOp (amount : BitVec 15) (sub : Bool) : RegOp := fun s =>
  let s := tickFirst s
  if (s.rtc.shift.isSome || goOnWay s.rtc) && amount != 0 then (.busy, s)
  else domWriteOp aRTC_SHIFT (BitVec.setWidth 32 amount ||| (bitWord sub <<< 15) ||| (bitWord (amount != 0) <<< 16)) s

/-- SHIFT_GO. -/
def execShiftGo (sid : Fin 4) (amount : BitVec 15) (sub : Bool) (s : State) : Host.Outcome State Fault Refusal :=
  act (hostDo sid.val roleENGINEER (shiftGoOp amount sub)) s

/-- RTC_SHIFT with CANCEL and its fields: BUSY while a write to the register is under way; before the boundary it disarms
the shift; at or after it is LATE. -/
def shiftCancelOp (fields : Word) : RegOp := fun s =>
  let s := tickFirst s
  if domBusy s aRTC_SHIFT then (.busy, s)
  else if s.rtc.shift.isSome then
    domWriteOp aRTC_SHIFT (fields &&& 0xFFFF) (modRtc (fun r => { r with shift := none }) s)
  else (.late, s)

/-- SHIFT_CANCEL: AMOUNT and SUB stay as they are. -/
def execShiftCancel (sid : Fin 4) (s : State) : Host.Outcome State Fault Refusal :=
  act (hostDo sid.val roleENGINEER
    (shiftCancelOp (w s.rtc.shiftAmt ||| (bitWord s.rtc.shiftSub <<< 15)))) s

/-- SHIFT_APPLY: at the tick at which count[14:0] becomes 0. -/
def execShiftApply (s : State) : Host.Outcome State Fault Refusal := domainAct shiftNow s

/-! ### Alarm (R231) -/

/-- RTC_ALARM_HI with ARM. -/
def alarmArmOp (hi : BitVec 16) : RegOp := domWriteOp aRTC_ALARM_HI (BitVec.setWidth 32 hi ||| 0x80000000)

/-- ALARM_ARM. -/
def execAlarmArm (sid : Fin 4) (hi : BitVec 16) (s : State) : Host.Outcome State Fault Refusal :=
  act (hostDo sid.val roleENGINEER (alarmArmOp hi)) s

/-- ALARM_FIRE: at a tick after arming, the count has reached the alarm; a shift of the tick comes first. -/
def execAlarmFire (s : State) : Host.Outcome State Fault Refusal := domainAct tickFirst s

/-- DOMAIN_RESET: the supply of the domain, its cell, has fallen below 1.6 V while main power is absent (R226). -/
def execDomainReset (s : State) : Host.Outcome State Fault Refusal :=
  domainAct (fun s => whenever (!s.clk.power) (modRtc fun _ => { State.rtc0 with cellLow := true, lostOff := true }) s) s

/-! ### Tamper inputs (R233) -/

/-- A tamper input, changed. -/
def modTamp (n : Nat) (f : Tamper → Tamper) (s : State) : State := modRtc (fun r => { r with tamp := vmod r.tamp n f }) s

/-- The active level of an input at a sample: open with POL 0, closed with POL 1. -/
def tampActive (r : Rtc) (n : Nat) (closed : BitVec 3) : Bool :=
  if r.tampCfg.getLsbD (4 + n) then closed.getLsbD n else !closed.getLsbD n

/-- One enabled input sampled: two consecutive samples at the active level latch it. -/
def tampSample (closed : BitVec 3) (n : Nat) (s : State) : State :=
  let r := s.rtc
  let t := vget State.tamper0 r.tamp n
  if !r.tampCfg.getLsbD n then modTamp n (fun t => { t with prev := false, active := false }) s
  else
    let a := tampActive r n closed
    let s := modTamp n (fun t => { t with prev := a, active := a }) s
    if a && t.prev && !t.latched then
      let s := modTamp n (fun t => { t with latched := true, count := r.count, offpwr := !s.clk.power, acted := false }) s
      if s.clk.power then assertEvw 46 s else s
    else s

/-- The inputs sampled, after the shift of the same tick (R232). -/
def tampAll (closed : BitVec 3) (s : State) : State :=
  forAll (List.range 3) (tampSample closed) (modRtc (fun r => { r with tampAt := r.xtal }) (tickFirst s))

/-- TAMPER_SAMPLE: every 32 ticks. DESIGN CHOICE (log 63): the cell's level (below 2.0 V, R226) comes with the levels of the
inputs. -/
def execTamperSample (x : TampLevels) (s : State) : Host.Outcome State Fault Refusal :=
  domainAct (fun s => whenever (decide (s.rtc.tampAt + 32 ≤ s.rtc.xtal))
    (fun s => tampAll x.closed (modRtc (fun r => { r with cellLow := x.cellLow }) s)) s) s

/-! ### The domain over many ticks (R226) -/

/-- Ticks to the next event of the domain: a write that completes, a shift's boundary, the alarm, a sample. After two
samples at the same levels a third changes nothing. -/
def rtcNext (samples : Nat) (r : Rtc) : Nat :=
  let w_ := (r.writes.map fun x => x.since + 2 - r.xtal).foldl min (2 ^ 48)
  let b := if r.shift.isSome then 32768 - r.count % 32768 else 2 ^ 48
  let a := match r.alarm with
    | some x => x - r.count
    | none => 2 ^ 48
  let t := if 2 ≤ samples then 2 ^ 48 else r.tampAt + 32 - r.xtal
  max 1 (min (min w_ b) (min a t))

/-- One tick event: shift and alarm first, then the writes of two ticks ago, then the sample. -/
def rtcEvent (closed : BitVec 3) (s : State) : State :=
  let s := tickFirst s
  let s := (s.rtc.writes.filter fun x => decide (x.since + 2 ≤ s.rtc.xtal)).foldl (fun s x => modRtc (domDone x.reg) s) s
  if s.rtc.tampAt + 32 ≤ s.rtc.xtal then tampAll closed s else s

/-- `n` ticks of the domain at constant levels of the tamper inputs, event by event; `fuel` bounds the events. -/
def rtcRun (closed : BitVec 3) (fuel n : Nat) (s : State) : State :=
  go fuel n 0 s
where
  /-- `n` ticks are left, and `k` samples have been taken. -/
  go : Nat → Nat → Nat → State → State
    | 0, n, k, s => pass n k s
    | fuel + 1, n, k, s =>
      let d := rtcNext k s.rtc
      if n < d then pass n k s
      else
        let x := pass d k s
        let y := rtcEvent closed x
        go fuel (n - d) (if y.rtc.tampAt = x.rtc.tampAt then k else k + 1) y
  /-- Ticks without an event; samples that change nothing go on every 32 ticks. -/
  pass (d k : Nat) (s : State) : State :=
    modRtc (fun r => { r with
      count := (r.count + d) % 2 ^ 48, xtal := r.xtal + d
      tampAt := if k < 2 then r.tampAt else r.tampAt + (r.xtal + d - r.tampAt) / 32 * 32 }) s

/-! ### Start-up -/

/-- Network time at start-up, and VIEW (R228): from a valid record unless CELL_LOST is set. -/
def epochStart (s : State) : State :=
  match epochOf s.rtc.bkp with
  | some e =>
    if s.rtc.evt.getLsbD 2 then { s with clk := { s.clk with nt := State.ntStart } }
    else { s with clk := { s.clk with nt := e * ntSec + s.rtc.count * (ntSec / 32768) }, rtc := { s.rtc with view := false } }
  | none => { s with clk := { s.clk with nt := State.ntStart } }

end Sys2Proof.Machine
end

