-- ==== Sys2Proof/Machine/KeyRows.lean ====
section
/-! DEFINITION. The key engine (R343 to R359): slots, writing and erasing, host operations, random words, the life cycle
and tamper. -/
namespace Sys2Proof.Machine

/-- Set a bit of KEY_EVT. -/
def keyEvt (n : Nat) (s : State) : State := modKey (fun k => { k with evt := setBit k.evt n }) s

/-- A slot, changed. -/
def modSlot (i : Nat) (f : KeySlot → KeySlot) (s : State) : State :=
  modKey (fun k => { k with slots := vmod k.slots i f }) s

/-! ### Slot states (R344) -/

/-- TYPE of an attribute word. -/
def attrType (a : Word) : Nat := field a 0 4

/-- Attribute bits: WORLD, ZEROIZE, TLOCK, EXPORT. -/
def bitWORLD : Nat := 15
def bitZEROIZE : Nat := 20
def bitTLOCK : Nat := 21
def bitEXPORT : Nat := 22

/-- A tamper latch that the key engine has acted on is still set. -/
def tampHeld (s : State) : Bool := s.rtc.tamp.toList.any fun t => t.latched && t.acted

/-- The state that a check of a slot finds. -/
def slotJudge (held : Bool) (i : Nat) (k : KeySlot) : SlotState :=
  if k.ue || k.integ != State.keyIntegrity i k.material k.attr || 4 < attrType k.attr then .bad
  else if attrType k.attr = 0 then .empty
  else if held && k.attr.getLsbD bitTLOCK then .locked
  else .valid

/-- A slot is found BAD: NOTE 0xB001, KEY_EVT.BAD; sessions it authenticated close. -/
def foundBad (i : Nat) (s : State) : State :=
  let k := keySlot s i
  closeUnfit (keyEvt 0 (note 0xB001 srcKEY (w i) k.attr 0 (modSlot i (fun k => { k with state := .bad }) s)))

/-- A slot is checked again. -/
def recheck (i : Nat) (s : State) : State :=
  let st := slotJudge (tampHeld s) i (keySlot s i)
  if st = .bad then foundBad i s else modSlot i (fun k => { k with state := st }) s

/-- KEY_BAD: at a use, a slot's integrity word no longer holds. -/
def execKeyBad (slot : Fin 64) (s : State) : Host.Outcome State Fault Refusal :=
  act (fun s =>
    let k := keySlot s slot.val
    whenever (k.state == .valid || k.state == .locked)
      (fun s => foundBad slot.val
        (modSlot slot.val (fun k => { k with integ := ~~~(State.keyIntegrity slot.val k.material k.attr) }) s)) s) s

/-! ### Writing and erasing (R346, R347) -/

/-- Material of a slot: the bytes beyond LEN are 0 (R343). -/
def trimMaterial (len : Nat) (m : Vector Byte 32) : Vector Byte 32 := vmap m fun i b => if i < len then b else 0

/-- A slot as written with material and attribute word. -/
def slotWith (i : Nat) (m : Vector Byte 32) (a : Word) (held : Bool) : KeySlot :=
  let m := trimMaterial (attrLen a) m
  let k : KeySlot := ⟨m, a, State.keyIntegrity i m a, false, .empty⟩
  { k with state := slotJudge held i k }

/-- An EMPTY slot. -/
def eraseSlot (i : Nat) (s : State) : State :=
  modKey (fun k => { k with slots := vset k.slots i (State.key0 i) }) s

/-- LEN suits TYPE (R345). -/
def lenOk (a : Word) : Bool :=
  let n := attrLen a
  match attrType a with
  | 0 => n == 0
  | 1 => n == 16
  | 2 => n == 32
  | 3 => decide (16 ≤ n ∧ n ≤ 32)
  | 4 => n == 32
  | _ => false

/-- The checks of R346, in order. -/
def keyCheck (sid : Nat) (erase : Bool) (s : State) : Res :=
  let k := keySlot s (field (sesReg sid 0xE0010 s) 0 6)
  let a := s.key.wrAttr
  let lc := lifecycle s
  if sesRole sid s < rolePROVISIONER then .denied
  else if lc ≠ 1 ∧ lc ≠ 2 then .denied
  else if k.state = .locked ∨ (lc = 2 ∧ (k.attr.getLsbD bitWORLD || (!erase && a.getLsbD bitWORLD))) then .denied
  else if !erase && (!lenOk a || a &&& 0xFF800000 != 0) then .badOp
  else if !erase && ((a.getLsbD bitWORLD && a &&& 0x6C00 != 0) || (a.getLsbD bitEXPORT && attrType a != 4)) then .denied
  else if s.key.wr.isSome then .busy
  else .later

/-- The 32 staged material bytes. -/
def stagedMaterial (s : State) : Vector Byte 32 :=
  Vector.ofFn fun i => BitVec.ofNat 8 ((vget 0 s.key.wrData (i.val / 4)).toNat >>> (8 * (i.val % 4)))

/-- The staging registers cleared, as every command leaves them. -/
def clearStaging (s : State) : State := modKey (fun k => { k with wrAttr := 0, wrData := Vector.replicate 8 0 }) s

/-- Step 1 of R347: TYPE 0xF and integrity word 0; the slot is BAD. -/
def keyStart (slot : Nat) (a : Word) (m : Vector Byte 32) (s : State) : State :=
  let k := keySlot s slot
  modSlot slot (fun k => { k with attr := 0xF, integ := 0, ue := false, state := .bad })
    (modKey (fun e => { e with wr := some ⟨slot, k.attr, k.state, a, m, s.clk.cyc⟩ }) s)

/-- KEY_CMD.WRITE or ERASE; it is answered after step 3. -/
def keyCmdOp (sid : Nat) (erase : Bool) : RegOp := fun s =>
  let r := keyCheck sid erase s
  let slot := field (sesReg sid 0xE0010 s) 0 6
  let s' := if r = .later then
      keyStart slot (if erase then 0 else s.key.wrAttr) (if erase then Vector.replicate 32 0 else stagedMaterial s) s
    else s
  (r, clearStaging s')

/-- KEY_WRITE. -/
def execKeyWrite (sid : Fin 4) (s : State) : Host.Outcome State Fault Refusal :=
  act (hostDo sid.val roleOBSERVER (keyCmdOp sid.val false)) s

/-- KEY_ERASE. -/
def execKeyErase (sid : Fin 4) (s : State) : Host.Outcome State Fault Refusal :=
  act (hostDo sid.val roleOBSERVER (keyCmdOp sid.val true)) s

/-- KEY_SLOT_STS.STATE. -/
def SlotState.code : SlotState → Nat
  | .empty => 0 | .valid => 1 | .locked => 2 | .bad => 3

/-- RETIRED keeps no slot of types 1 to 3 (R354). -/
def retireErase (s : State) : State :=
  forAll (where_ 64 fun i => decide (1 ≤ attrType (keySlot s i).attr ∧ attrType (keySlot s i).attr ≤ 3)) eraseSlot s

/-- Step 3, the commit point: NOTE 0xB002, the answer, and the sessions that the slot authenticates are judged. -/
def keyWritten (s : State) : State :=
  match s.key.wr with
  | none => s
  | some x =>
    let s := modKey (fun k => { k with
      wr := none, slots := vset k.slots x.slot (slotWith x.slot x.material x.newAttr (tampHeld s)) }) s
    let s := note 0xB002 srcKEY (w x.slot) x.newAttr (w x.oldState.code) s
    let s := if lifecycle s = 3 then retireErase s else s
    closeUnfit (answerOwed .ok s)

/-- KEY_WRITTEN. -/
def execKeyWritten (s : State) : Host.Outcome State Fault Refusal := act keyWritten s

/-! ### Host operations (R349, R351) -/

/-- KEY_OP_CTL.OP, SLOT, KEY_OP_ADDR and LEN. -/
def opCode (s : State) : Nat := field (reg 0xE0200 s) 0 2
def opSlot (s : State) : Nat := field (reg 0xE0200 s) 8 6
def opAddr (s : State) : Nat := field (reg 0xE0204 s) 0 25
def opLen (s : State) : Nat := field (reg 0xE0208 s) 0 25

/-- Slot types of an operation. -/
def opTypes : Nat → List Nat
  | 1 => [3]
  | 2 => [1, 2]
  | 3 => [4]
  | _ => []

/-- LEN in the range of an operation. -/
def opLenOk (op len : Nat) : Bool :=
  match op with
  | 2 => decide (12 ≤ len ∧ len ≤ 0x100000)
  | 3 => len == 160
  | _ => decide (len ≤ 0x100000)

/-- KEY_OP_CMD.GO. -/
def keyGoOp : RegOp := fun s =>
  let op := opCode s
  if s.key.op.isSome then (.busy, s)
  else if !opLenOk op (opLen s) then (.badLen, s)
  else if !inTransfer s (opAddr s) (opLen s) then (.denied, s)
  else if op ≠ 0 ∧ !keyServes s (opSlot s) useHOST (opTypes op) then
    (.denied, modKey (fun k => { k with opState := .refused }) s)
  else
    (.ok, modKey (fun k => { k with
      opState := .running, opRes := Vector.replicate 8 0
      op := some ⟨op, opSlot s, opAddr s, opLen s, s.clk.cyc⟩ }) s)

/-- SHA_256: GO with OP 0. -/
def execSha256 (sid : Fin 4) (s : State) : Host.Outcome State Fault Refusal :=
  act (fun s => whenever (opCode s == 0) (hostDo sid.val roleOBSERVER keyGoOp) s) s

/-- HMAC: GO with OP 1. -/
def execHmac (sid : Fin 4) (s : State) : Host.Outcome State Fault Refusal :=
  act (fun s => whenever (opCode s == 1) (hostDo sid.val roleOBSERVER keyGoOp) s) s

/-- GMAC: GO with OP 2. -/
def execGmac (sid : Fin 4) (s : State) : Host.Outcome State Fault Refusal :=
  act (fun s => whenever (opCode s == 2) (hostDo sid.val roleOBSERVER keyGoOp) s) s

/-- ECDSA: GO with OP 3. -/
def execEcdsa (sid : Fin 4) (s : State) : Host.Outcome State Fault Refusal :=
  act (fun s => whenever (opCode s == 3) (hostDo sid.val roleOBSERVER keyGoOp) s) s

/-- ECDSA: the public key must hash to the slot's material, then the signature is verified over the hash. -/
def ecdsaResult (s : State) (slot : Nat) (src : List Byte) : Bool :=
  let part (i : Nat) : List Byte := (src.drop (32 * i)).take 32
  sha256 (part 1 ++ part 2) == (keySlot s slot).material.toList
  && ecdsaOk (beNat (part 0)) (beNat (part 1)) (beNat (part 2)) (beNat (part 3)) (beNat (part 4))

/-- Result words of an operation on its source, in byte order. -/
def opResult (s : State) (o : KeyOp) : List Word :=
  let src := sgets zeroByte s.mem.shared o.addr o.len
  match o.op with
  | 0 => bytesWords 8 (sha256 src)
  | 1 => bytesWords 8 (hmac256 (slotKey s o.slot) src)
  | 2 => bytesWords 4 (gmacTag (slotKey s o.slot) (src.take 12) (src.drop 12))
  | _ => [bitWord (ecdsaResult s o.slot src)]

/-- OP_DONE: the engine hands over the result. -/
def execOpDone (s : State) : Host.Outcome State Fault Refusal :=
  act (fun s => match s.key.op with
    | none => s
    | some o =>
      let r := opResult s o
      keyEvt 3 (modKey (fun k => { k with
        op := none, opState := .done, opRes := Vector.ofFn fun i => r.getD i.val 0 }) s)) s

/-! ### Random words (R350) -/

/-- A random word; 0 while the generator is stopped. -/
def drawRng (s : State) : Word × State :=
  if s.key.rngOk then
    (Config.rng s.fresh, modKey (fun k => { k with rngCount := k.rngCount + 1 }) { s with fresh := s.fresh + 1 })
  else (0, s)

/-- KEY_RNG_READ. -/
def execKeyRngRead (sid : Fin 4) (s : State) : Host.Outcome State Fault Refusal := act (hostReadDo sid.val drawRng) s

/-- RESEED: after every 2^20 requests. -/
def execReseed (s : State) : Host.Outcome State Fault Refusal :=
  act (fun s => whenever (decide (2 ^ 20 ≤ s.key.rngCount)) (modKey fun k => { k with rngCount := 0 }) s) s

/-- RNG_FAIL: the generator stops until reset. -/
def execRngFail (test : Word) (s : State) : Host.Outcome State Fault Refusal :=
  act (fun s => whenever s.key.rngOk
    (fun s => note 0xB030 srcKEY test 0 0 (modKey (fun k => { k with rngOk := false }) s)) s) s

/-! ### Life cycle (R352 to R354) -/

/-- A VALID slot of a type with given attribute bits. -/
def haveSlot (s : State) (type : Nat) (bits : Word) : Bool :=
  s.key.slots.toList.any fun k => k.state == .valid && attrType k.attr == type && k.attr &&& bits == bits

/-- The slots without which FIELD is refused. -/
def fieldReady (s : State) : Bool := haveSlot s 4 0x49000 && haveSlot s 3 0x42000

/-- Bytes of a life-cycle page. -/
def lcPage (old slot : Nat) (s : State) : List Byte :=
  let ws : List Word := [0x4C435047, w old, powerCycles s, opSeconds s, w slot] ++ List.replicate 10 0
  wordsBytes (ws ++ [crc32c (wordsBytes ws)])

/-- KEY_LC_CMD.GO. -/
def lcOp (sid : Nat) (target : Nat) : RegOp := fun s =>
  let old := lifecycle s
  if old = 3 ∨ target ≠ old + 1 ∨ (target = 2 ∧ !fieldReady s) then (.denied, s)
  else
    let s := nvPut ((128 + target) * 64) (lcPage old (sesSlot sid s) s) s
    let s := modNvs (fun v => { v with locked := setBit v.locked (128 + target) }) s
    let s := note2 0xB020 srcKEY (w old) (w target) (keyEvt 2 s)
    (.ok, closeUnfit (if target = 3 then retireErase s else s))

/-- LC_CHANGE. -/
def execLcChange (sid : Fin 4) (target : BitVec 2) (s : State) : Host.Outcome State Fault Refusal :=
  act (hostDo sid.val rolePROVISIONER (lcOp sid.val target.toNat)) s

/-! ### Tamper (R355 to R358) -/

/-- Operations under way are aborted (R357). -/
def abortOps (s : State) : State :=
  let s := match s.key.op with
    | none => s
    | some o => keyEvt 3 (note 0xB031 srcKEY (w o.op) (w o.slot) 0
        (modKey (fun k => { k with op := none, opState := .aborted }) s))
  let s := if s.upd.sess = .verifying then modUpd (fun u => { u with sess := .downloaded }) s else s
  match s.key.wr with
  | none => s
  | some x =>
    let s := modKey (fun k => { k with wr := none }) s
    let s := if x.oldAttr.getLsbD bitZEROIZE || x.newAttr.getLsbD bitZEROIZE then eraseSlot x.slot s else s
    answerOwed (resFree 30 s) s

/-- What the key engine does to the slots: ZEROIZE slots are erased, TLOCK slots that a check does not find BAD or EMPTY
read LOCKED. -/
def tamperSlots (s : State) : State :=
  let s := forAll (where_ 64 fun i => (keySlot s i).attr.getLsbD bitZEROIZE) eraseSlot s
  modKey (fun k => { k with slots := vmap k.slots fun _ x =>
    if x.state = .valid ∧ x.attr.getLsbD bitTLOCK then { x with state := .locked } else x }) s

/-- The record of a latched input. -/
def tamperRecord (n : Nat) (s : State) : State :=
  let t := vget State.tamper0 s.rtc.tamp n
  raiseEntry ⟨0xB010, srcKEY, .local_, t.offpwr, w n, w t.count, w (t.count / 2 ^ 32), s.clk.cyc⟩ s

/-- Inputs whose latch has not been acted on. -/
def tampNew (s : State) : List Nat :=
  where_ 3 fun n => let t := vget State.tamper0 s.rtc.tamp n; t.latched && !t.acted

/-- R355 for every latch not yet acted on. -/
def tamperAct (s : State) : State :=
  let ns := tampNew s
  if ns = [] then s
  else
    let s := { s with rtc := { s.rtc with tamp := s.rtc.tamp.map fun t => { t with acted := t.acted || t.latched } } }
    closeUnfit (forAll ns tamperRecord (keyEvt 1 (tamperSlots (abortOps s))))

/-- TAMPER. -/
def execTamper (s : State) : Host.Outcome State Fault Refusal := act tamperAct s

/-- One selected input cleared, if its level is inactive. -/
def tamperClear1 (slot n : Nat) (s : State) : State :=
  let t := vget State.tamper0 s.rtc.tamp n
  if t.latched && !t.active then
    note2 0xB011 srcKEY (w n) (w slot)
      { s with rtc := { s.rtc with tamp := vmod s.rtc.tamp n fun t => { t with latched := false, acted := false } } }
  else s

/-- KEY_TAMP_CMD (R358). -/
def tamperClearOp (sid : Nat) (mask : BitVec 3) : RegOp := fun s =>
  let lc := lifecycle s
  if lc ≠ 1 ∧ lc ≠ 2 then (.denied, s)
  else
    let s := forAll (where_ 3 fun n => mask.getLsbD n) (tamperClear1 (sesSlot sid s)) (tamperAct s)
    if s.rtc.tamp.toList.any (·.latched) then (.ok, s)
    else (.ok, forAll (where_ 64 fun i => (keySlot s i).state == .locked) recheck s)

/-- TAMPER_CLEAR. -/
def execTamperClear (sid : Fin 4) (mask : BitVec 3) (s : State) : Host.Outcome State Fault Refusal :=
  act (hostDo sid.val rolePROVISIONER (tamperClearOp sid.val mask)) s

end Sys2Proof.Machine
end

