-- ==== Sys2Proof/Machine/UpdRows.lean ====
section
/-! DEFINITION. Update sessions (R386 to R391, R394, R395), what a firmware bank must show to be verified (R379, R382,
R388, R390), and the trial (R392, R393). -/
namespace Sys2Proof.Machine

/-! ### Manifests (R379) -/

/-- First byte of a bank in NOR (R378). -/
def bankBase (b : Nat) : Nat := b * 0x1800000

/-- Bytes of NOR. -/
def norBytes (s : State) (a n : Nat) : List Byte := sgets norDefault s.upd.nor a n

/-- A little-endian number of `n` bytes in a list of bytes. -/
def fieldLe (bs : List Byte) (off n : Nat) : Nat := leNat ((bs.drop off).take n)

/-- Every byte of a range of a list is 0. -/
def allZero (bs : List Byte) (off n : Nat) : Bool := ((bs.drop off).take n).all (· == 0)

/-- Length of a manifest. -/
def manLen : Nat := 4096

/-- A part entry: ID, offset and length of the part, and its hash. -/
structure PartEntry where
  id : Nat
  ver : Word
  off : Nat
  len : Nat
  hash : List Byte
  deriving DecidableEq, Repr

/-- The six part entries of a manifest, in their order. -/
def manParts (m : List Byte) : List PartEntry :=
  (List.range 6).map fun i =>
    let e := 0x20 + 64 * i
    ⟨fieldLe m e 1, BitVec.ofNat 32 (fieldLe m (e + 4) 4), fieldLe m (e + 8) 4, fieldLe m (e + 12) 4, (m.drop (e + 32)).take 32⟩

/-- VERSION, TOTAL_LEN and SIGNER. -/
def manVersion (m : List Byte) : Word := BitVec.ofNat 32 (fieldLe m 8 4)
def manTotal (m : List Byte) : Nat := fieldLe m 12 4
def manSigner (m : List Byte) : Nat := fieldLe m 16 1

/-- Reserved bytes are 0. -/
def manReservedOk (m : List Byte) : Bool :=
  allZero m 0x12 14 && allZero m 0x1A0 3488 && allZero m 0xFC0 64
  && (List.range 6).all fun i => allZero m (0x20 + 64 * i + 1) 3 && allZero m (0x20 + 64 * i + 16) 16

/-- Two parts share no byte. -/
def partsApart (p q : PartEntry) : Bool := decide (p.off + p.len ≤ q.off ∨ q.off + q.len ≤ p.off)

/-- Offsets and lengths of the parts suit the image. -/
def partsOk (m : List Byte) : Bool :=
  let ps := manParts m
  ps.all (fun p => p.off % 4096 == 0 && decide (0x1000 ≤ p.off ∧ p.off + p.len ≤ manTotal m))
  && ps.zipIdx.all fun p => ps.zipIdx.all fun q => p.2 == q.2 || partsApart p.1 q.1

/-- The signer's slot suits (R382) and holds the hash of the manifest's public key. -/
def signerOk (s : State) (m : List Byte) : Bool :=
  let k := manSigner m
  decide (k < 64) && keyServes s k useSECURE [4] && (keySlot s k).attr.getLsbD bitWORLD
  && sha256 ((m.drop 0xF40).take 64) == (keySlot s k).material.toList

/-- The signature over bytes 0x000 to 0xF7F holds under the manifest's key. -/
def signatureOk (m : List Byte) : Bool :=
  let n (off : Nat) : Nat := beNat ((m.drop off).take 32)
  ecdsaOk (beNat (sha256 (m.take 0xF80))) (n 0xF40) (n 0xF60) (n 0xF80) (n 0xFA0)

/-- The first check of R388 that a manifest fails. -/
def manifestCheck (s : State) (m : List Byte) : Option Nat :=
  if fieldLe m 0 4 ≠ 0x4D514D46 then some 1
  else if fieldLe m 4 2 ≠ 0x2419 then some 2
  else if fieldLe m 6 2 ≠ 1 ∨ !manReservedOk m then some 3
  else if manTotal m < manLen ∨ 0x1800000 < manTotal m ∨ !partsOk m then some 4
  else if fieldLe m 0x11 1 ≠ 6 ∨ !(List.range 6).all (fun i => ((manParts m).filter (·.id == i + 1)).length == 1) then some 5
  else if !signerOk s m then some 6
  else none

/-- The part of an ID whose hash does not hold in a bank. -/
def partFails (s : State) (b : Nat) (m : List Byte) (id : Nat) : Bool :=
  (manParts m).all fun p => p.id != id || sha256 (norBytes s (bankBase b + p.off) p.len) != p.hash

/-- What a bank that has been programmed fails with: a part ID, in ID order, then 0x10 for the signature (R390). -/
def bankFails (s : State) (b : Nat) : Option Nat :=
  let m := norBytes s (bankBase b) manLen
  match ((List.range 6).map (· + 1)).find? (partFails s b m) with
  | some id => some id
  | none => if signerOk s m && signatureOk m then none else some 0x10

/-! ### The shape of an update command (R387) -/

/-- Another session holds the lock. -/
def lockedOut (sid : Nat) (s : State) : Bool :=
  match s.upd.holder with
  | some h => h.val != sid
  | none => false

/-- A request of the lock's holder to the UPD block starts its 60 s afresh. -/
def updTouch (sid : Nat) (s : State) : State :=
  if s.upd.holder.map (·.val) = some sid then modUpd (fun u => { u with lastReq := s.clk.cyc }) s else s

/-- A write to an UPD register: BUSY for every session but the holder. -/
def updGuard (sid : Nat) (op : RegOp) : RegOp := fun s =>
  if lockedOut sid s then (.busy, s) else op (updTouch sid s)

/-- An update command row. -/
def updDo (sid : Nat) (op : RegOp) (s : State) : State := hostDoUpd sid roleENGINEER (updGuard sid op) s

/-- UPD_SRC, UPD_LEN and UPD_OFF of a session. -/
def updSrc (sid : Nat) (s : State) : Nat := (sesReg sid 0xF0020 s).toNat
def updLen (sid : Nat) (s : State) : Nat := (sesReg sid 0xF0024 s).toNat
def updOff (sid : Nat) (s : State) : Nat := (sesReg sid 0xF0028 s).toNat

/-- A bank's entry. -/
def bankOf (s : State) (b : Nat) : FwBank := vget ⟨.empty, [], 0, 0⟩ s.upd.banks b

/-- Bytes written to NOR; every 64 KiB sector whose first byte is written is erased before (R389). -/
def norWrite (a : Nat) (bs : List Byte) (s : State) : State :=
  let first := (a + 0xFFFF) / 0x10000
  let last := (a + bs.length + 0xFFFF) / 0x10000
  let s := forAll ((List.range (last - first)).map (· + first)) (fun k s =>
    modUpd (fun u => { u with nor := sputs norDefault (k * 0x10000) (List.replicate 0x10000 0xFF) u.nor }) s) s
  modUpd (fun u => { u with nor := sputs norDefault a bs u.nor }) s

/-- The first NOTE of an accepted OPEN is written and the lock is taken, with the next offset given. -/
def takeLock (sid : Nat) (m : List Byte) (nextOff : Nat) (s : State) : State :=
  let total := manTotal m
  note 0xD020 srcUPD (manVersion m) (BitVec.ofNat 32 (leNat ((sha256 m).take 4))) (w sid)
    (modUpd (fun u => { u with
      holder := some (Fin.ofNat 4 sid), lastReq := s.clk.cyc, total := total, nextOff := nextOff
      sess := if nextOff < total then .downloading else .downloaded }) s)

/-- An accepted manifest (R389): a new image, a resumed one, or a complete one. -/
def openBank (sid : Nat) (m : List Byte) (s : State) : State :=
  let b := updBank s
  let k := bankOf s b
  let h := sha256 m
  let total := manTotal m
  let full : BankState := if manLen < total then .partial_ else .complete
  if k.state = .empty ∨ k.hash ≠ h then
    takeLock sid m manLen (norWrite (bankBase b) m (modBank b (fun _ => ⟨full, h, manVersion m, manLen⟩) s))
  else if k.state = .partial_ then takeLock sid m (k.reached / 0x10000 * 0x10000) s
  else takeLock sid m total s

/-- UPD_CMD.OPEN (R387, R388). -/
def updOpenOp (sid : Nat) : RegOp := fun s =>
  let src := updSrc sid s
  if lifecycle s = 3 ∨ s.upd.trial ∨ s.upd.pending ∨ s.upd.sess ≠ .idle then (.denied, s)
  else if updLen sid s ≠ manLen then (.badLen, s)
  else if !inTransfer s src manLen then (.denied, s)
  else
    let m := sgets zeroByte s.mem.shared src manLen
    match manifestCheck s m with
    | some c => (.denied, note 0xD021 srcUPD (w c) (w sid) 0 (modUpd (fun u => { u with result := BitVec.ofNat 8 c }) s))
    | none => (.ok, openBank sid m s)

/-- UPD_OPEN. -/
def execUpdOpen (sid : Fin 4) (s : State) : Host.Outcome State Fault Refusal := act (updDo sid.val (updOpenOp sid.val)) s

/-- A chunk is written, read back, and the offset reached recorded. -/
def chunkWrite (off len src : Nat) (s : State) : State :=
  let b := updBank s
  let s := norWrite (bankBase b + off) (sgets zeroByte s.mem.shared src len) s
  let next := off + len
  if next < s.upd.total then modUpd (fun u => { u with nextOff := next }) (modBank b (fun k => { k with reached := next }) s)
  else modUpd (fun u => { u with nextOff := next, sess := .downloaded })
    (modBank b (fun k => { k with reached := next, state := .complete }) s)

/-- UPD_CMD.CHUNK (R389). -/
def chunkOp (sid : Nat) : RegOp := fun s =>
  let off := updOff sid s
  let len := updLen sid s
  if s.upd.sess ≠ .downloading then (.denied, s)
  else if len < 4 ∨ 0x100000 < len ∨ len % 4 ≠ 0 then (.badLen, s)
  else if off ≠ s.upd.nextOff then (.denied, s)
  else if s.upd.total < off + len then (.badLen, s)
  else if !inTransfer s (updSrc sid s) len then (.denied, s)
  else (.ok, chunkWrite off len (updSrc sid s) s)

/-- CHUNK. -/
def execChunk (sid : Fin 4) (s : State) : Host.Outcome State Fault Refusal := act (updDo sid.val (chunkOp sid.val)) s

/-! ### Verification (R390) -/

/-- UPD_CMD.VERIFY. -/
def verifyOp : RegOp := fun s =>
  if s.upd.sess = .downloaded then (.ok, modUpd (fun u => { u with sess := .verifying, verifyFrom := s.clk.cyc }) s)
  else (.denied, s)

/-- VERIFY. -/
def execVerify (sid : Fin 4) (s : State) : Host.Outcome State Fault Refusal := act (updDo sid.val verifyOp) s

/-- The verdict on the bank: VERIFIED, or EMPTY with the session back in IDLE. -/
def verdict (s : State) : State :=
  let b := updBank s
  match bankFails s b with
  | none =>
    note 0xD023 srcUPD (bankOf s b).version (w b) 0
      (modUpd (fun u => { u with sess := .verified, evt := setBit u.evt 0 }) (modBank b (fun k => { k with state := .verified }) s))
  | some c =>
    note 0xD024 srcUPD (w c) (w b) 0
      (modUpd (fun u => { u with sess := .idle, holder := none, evt := setBit u.evt 1, result := BitVec.ofNat 8 c })
        (modBank b (fun _ => ⟨.empty, [], 0, 0⟩) s))

/-- VERIFIED. -/
def execVerified (s : State) : Host.Outcome State Fault Refusal :=
  act (fun s => whenever (s.upd.sess == .verifying) verdict s) s

/-! ### Activation (R391) -/

/-- What ACTIVATE writes: PENDING; in ROM recovery ACTIVE at once, with TRIAL (R385). -/
def activateRecord (u : Upd) (boots : Nat) : Upd :=
  if u.recovery then
    { u with activeBank := !u.activeBank, prevBank := u.activeBank, trial := true, expired := false, tbase := boots }
  else { u with pending := true }

/-- UPD_CMD.ACTIVATE. -/
def activateOp : RegOp := fun s =>
  if s.upd.sess ≠ .verified then (.denied, s)
  else
    let b := updBank s
    let s := modRecord (fun u => activateRecord u (counter s ringTRIAL)) s
    let s := modUpd (fun u => { u with sess := .idle, holder := none }) (ringInc ringUPD s)
    (.ok, note 0xD025 srcUPD (bankOf s b).version (w b) (w (counter s ringUPD)) s)

/-- ACTIVATE. -/
def execActivate (sid : Fin 4) (s : State) : Host.Outcome State Fault Refusal := act (updDo sid.val activateOp) s

/-- UPD_CMD.ABORT (R387): LATE once ACTIVATE has committed. -/
def updAbortOp (sid : Nat) : RegOp := fun s =>
  if s.upd.holder.map (·.val) = some sid then (.ok, updRelease s)
  else if s.upd.pending ∨ (s.upd.recovery ∧ s.upd.trial) then (.late, s)
  else (.denied, s)

/-- UPD_ABORT. -/
def execUpdAbort (sid : Fin 4) (s : State) : Host.Outcome State Fault Refusal := act (updDo sid.val (updAbortOp sid.val)) s

/-- UPD_CMD.DEACTIVATE. -/
def deactivateOp : RegOp := fun s =>
  if s.upd.pending ∧ s.upd.holder = none then
    (.ok, note 0xD026 srcUPD (bankOf s (updBank s)).version (w (updBank s)) 0 (modRecord (fun u => { u with pending := false }) s))
  else (.denied, s)

/-- DEACTIVATE. -/
def execDeactivate (sid : Fin 4) (s : State) : Host.Outcome State Fault Refusal := act (updDo sid.val deactivateOp) s

/-! ### The trial (R393) -/

/-- VERSION of the ACTIVE bank. -/
def activeVersion (s : State) : Word := (bankOf s s.upd.activeBank.toNat).version

/-- UPD_CMD.CONFIRM. -/
def confirmOp : RegOp := fun s =>
  if !s.upd.trial then (.denied, s)
  else if s.upd.expired then (.late, s)
  else (.ok, note 0xD027 srcUPD (activeVersion s) (w s.upd.trialN) (w (s.clk.opSec - s.upd.tstart))
    (modRecord (fun u => { u with trial := false }) s))

/-- CONFIRM. -/
def execConfirm (sid : Fin 4) (s : State) : Host.Outcome State Fault Refusal := act (updDo sid.val confirmOp) s

/-- UPD_LAPSE: 60 s without a request of the holder to the UPD block (R387). -/
def execUpdLapse (s : State) : Host.Outcome State Fault Refusal :=
  act (fun s => match s.upd.holder with
    | some h => whenever (decide (s.upd.lastReq + 60 * cycSec ≤ s.clk.cyc)) (updLapse h.val) s
    | none => s) s

/-- The trial runs. -/
def trialRuns (s : State) : Bool := s.upd.trial && !s.upd.expired && !s.upd.recovery

/-- TRIAL_EXPIRED: 600 s after TSTART. -/
def execTrialExpired (s : State) : Host.Outcome State Fault Refusal :=
  act (fun s => whenever (trialRuns s && decide (s.upd.tstart + 600 ≤ s.clk.opSec))
    (fun s => note 0xD028 srcUPD (activeVersion s) (w s.upd.trialN) 0
      (modRecord (fun u => { u with expired := true, evt := setBit u.evt 3 }) s)) s) s

end Sys2Proof.Machine
end

