-- ==== Sys2Proof/Machine/Boot.lean ====
section
/-! DEFINITION. Start-up (R381 to R384): the journal (R319), the marker (R325), the bank that boots (R382, R392, R393), the
key slots, the restores (R167, R255, R337), the program (R168), and the state that a module reset leaves. -/
namespace Sys2Proof.Machine

/-! ### The journal at power-up (R319) -/

/-- Words of the entry: magic, NACT and KIND; its end. -/
def jNact (s : State) : Nat := nvNat s (nvJOURNAL + 16) 1
def jKind (s : State) : Nat := nvNat s (nvJOURNAL + 17) 1
def jEnd (s : State) : Nat := nvJOURNAL + 24 + 8 * jNact s

/-- The entry can be read: magic and CRC hold, and no group but that of STATE is uncorrectable. -/
def journalOk (s : State) : Bool :=
  let n := jNact s
  decide (n ≤ 100) && nvNat s nvJOURNAL 4 == 0x4A4E4C01 && !nvUnc s nvJOURNAL 8 && !nvUnc s (nvJOURNAL + 16) (16 + 8 * n)
  && nvNat s (jEnd s) 4 == (crc32c (nvBytes s nvJOURNAL 8 ++ nvBytes s (nvJOURNAL + 16) (8 + 8 * n))).toNat

/-- The larger of `m` and the largest JSEQ of an intact copy of a record. -/
def largestIn (s : State) (rid size : Nat) (places : List Nat) (m : Word) : Word :=
  places.foldl (fun m a =>
    let j := BitVec.ofNat 32 (nvNat s (a + 12) 4)
    if copyIntact s a size rid ∧ m < j then j else m) m

/-- The largest JSEQ of an intact copy of a record that an operation can write. -/
def largestJseq (s : State) : Word :=
  recKinds.foldl (fun m k => largestIn s (recRid k) (recLen k + 20) (recPlaces k) m)
    (largestIn s (ridOf 1) 0x10000 retainPlaces 0)

/-- Actions of the entry. -/
def jActions (s : State) : List Nat := (List.range (jNact s)).map fun i => nvNat s (nvJOURNAL + 24 + 8 * i) 8

/-- Place and size of the copy that an action lists, if it is of a record of PROG_SWAP or CHISEL (R419). -/
def listedPlace (a : Nat) : Option (Nat × Nat) :=
  let copy := a / 65536 % 2
  if a % 65536 = ridOf 1 then some (retainPlaces.getD copy 0, 0x10000)
  else ([recROLES, recCHISEL].find? fun k => recRid k == a % 65536).map fun k => ((recPlaces k).getD copy 0, recLen k + 20)

/-- Places of the copies that the entry lists. -/
def listedPlaces (s : State) : List Nat := (jActions s).filterMap fun a => (listedPlace a).map (·.1)

/-- An OPEN operation is rolled back: its copies become invalid. -/
def journalRollback (s : State) : State :=
  let s := (listedPlaces s).foldl (fun s a => nvPut a (List.replicate 8 0) s) s
  modNvs (fun v => { v with jop := none, jrnl := 2 }) (nvPut (nvJOURNAL + 8) (leBytes 8 3) s)

/-- The entry rebuilt. -/
def journalRebuild (s : State) : State :=
  let j := largestJseq s + 1
  modNvs (fun v => { v with jseq := j, jop := none, jrnl := 3 }) (nvPut nvJOURNAL (journalBytes j 3 0 []) s)

/-- Every listed copy is intact with the JSEQ of the entry (R318, R319): the operation under way has written all of them,
or else each copy is judged as it stands, and one of the firmware's own operations is open. -/
def copiesDone (s : State) : Bool :=
  match s.nvs.jop with
  | some op => Config.choice 22 op.jseq.toNat % 2 == 1
  | none => (jActions s).all fun a =>
    match listedPlace a with
    | some (p, size) => copyIntact s p size (a % 65536) && BitVec.ofNat 32 (nvNat s (p + 12) 4) == s.nvs.jseq
    | none => Config.choice 22 s.nvs.jseq.toNat % 2 == 1

/-- The journal is settled; what was done, with the kind of operation. -/
def settleJournal (s : State) : State :=
  let s := modNvs (fun v => { v with jrnl := 0 }) s
  if !journalOk s then
    if nvBlank s nvJOURNAL 0x400 ∧ largestJseq s = 0 then modNvs (fun v => { v with jop := none, jseq := 0 }) s
    else journalRebuild s
  else
    let j := BitVec.ofNat 32 (nvNat s (nvJOURNAL + 4) 4)
    let s := modNvs (fun v => { v with jseq := j }) s
    let unread := nvUnc s (nvJOURNAL + 8) 8
    if !unread ∧ journalState s ≠ 1 then modNvs (fun v => { v with jop := none }) s
    else if !unread ∧ copiesDone s then
      modNvs (fun v => { v with jrnl := 1 }) (if s.nvs.jop.isSome then journalCommit s else nvPut (nvJOURNAL + 8) (leBytes 8 2) s)
    else journalRollback s

/-- The NOTE of a settled journal: its code follows NVS_STS.JRNL. -/
def journalNote (s : State) : State :=
  match s.nvs.jrnl with
  | 0 => s
  | 3 => note2 0xA022 srcNVS s.nvs.jseq 0 s
  | n => note2 (BitVec.ofNat 16 (0xA01F + n)) srcNVS s.nvs.jseq (w (jKind s)) s

/-! ### The marker (R325) -/

/-- The marker is read into NVS_FLUSH and made unusable; N0 and the slot count of a valid one. -/
def readMarker (s : State) : Option (Word × Nat) × State :=
  let ok := markerOk s
  let n (o k : Nat) : Nat := nvNat s (nvMARKER + o) k
  let complete := ok && n 8 8 == counter s ringPOWER
  let got := if ok then some (w (n 24 4), n 28 2) else none
  let s' := modNvs (fun v => { v with
    flushOk := complete
    flushParts := if complete then BitVec.ofNat 4 (n 4 4) else 0
    flushCause := if complete then BitVec.ofNat 16 (n 16 4) else 0
    flushFrame := if complete then w (n 20 4) else 0 }) s
  (got, if ok then nvPut nvMARKER (List.replicate 8 0) s' else s')

/-! ### Entries of the steps before the recorder runs -/

/-- A step of start-up: the entries that it raises wait, stamped, until the recorder runs (R337, R356). -/
def parked (f : State → State) (x : List Taken × State) : List Taken × State :=
  let s := f x.2
  (x.1 ++ s.evr.cur.toList ++ s.evr.queue.map (fun e => stamp e s), modEvr (fun v => { v with cur := none, queue := [] }) s)

/-- A step for each number of a list. -/
def parkedAll (is : List Nat) (f : Nat → State → State) (x : List Taken × State) : List Taken × State :=
  is.foldl (fun x i => parked (f i) x) x

/-- The entries that waited are taken, in order. -/
def unpark (ts : List Taken) (s : State) : State := ts.foldl (fun s t => accept t s) s

/-! ### Tamper latches (R356) -/

/-- At power-good every latched input is acted on; after another reset those not yet acted on. -/
def bootTamper (powerGood : Bool) (s : State) : State :=
  tamperAct { s with rtc := { s.rtc with tamp := s.rtc.tamp.map fun t => { t with acted := t.acted && !powerGood } } }

/-- An alarm that fired while main power was absent is reported (R231). -/
def alarmNote (s : State) : State :=
  if s.rtc.alarmOff then
    raiseEntry ⟨0x5020, srcRTC, .note, true, un 0x5020 0 s, un 0x5020 1 s, un 0x5020 2 s, s.clk.cyc⟩
      { s with rtc := { s.rtc with alarmOff := false } }
  else s

/-- A reset of the backup domain is reported (R226). -/
def lostNote (s : State) : State :=
  if s.rtc.lostOff then
    raiseEntry ⟨0x5021, srcRTC, .note, true, un 0x5021 0 s, un 0x5021 1 s, un 0x5021 2 s, s.clk.cyc⟩
      { s with rtc := { s.rtc with lostOff := false } }
  else s

/-! ### The bank that boots (R382, R392, R393) -/

/-- What a bank fails with at this start-up; the bank as shipped shows only what its flash shows. -/
def bankVerdict (r : ResetIn) (s : State) (b : Nat) : Option Nat :=
  match vget none r.bankFail b with
  | some c => some c
  | none => if b = 0 ∧ s.upd.nor.all (fun x => decide (0x1800000 ≤ x.1)) then none else bankFails s b

/-- A pending activation becomes a trial (R392). -/
def takePending (s : State) : State :=
  if s.upd.pending then
    modRecord (fun u => { u with
      activeBank := !u.activeBank, prevBank := u.activeBank, trial := true, pending := false, expired := false
      tbase := counter s ringTRIAL }) s
  else s

/-- A rollback with its reason (R393). -/
def rollback (reason : Nat) (s : State) : State :=
  let old := s.upd.activeBank
  note 0xD003 srcBOOT (bitWord old) (bitWord s.upd.prevBank) (w reason)
    (modRecord (fun u => { u with
      activeBank := u.prevBank, trial := false, expired := false, rolledBack := true, trialN := 0 }) s)

/-- One start-up with TRIAL set (R393). -/
def trialStart (s : State) : State :=
  if !s.upd.trial then s
  else
    let s := ringInc ringTRIAL s
    let n := counter s ringTRIAL - s.upd.tbase
    if 3 < n ∨ s.upd.expired then rollback (if s.upd.expired then 1 else 0) s
    else
      note 0xD002 srcBOOT (w n) (bitWord s.upd.activeBank) (w s.upd.tbase)
        (modUpd (fun u => { u with trialN := n })
          (if n = 1 then modRecord (fun u => { u with tstart := s.clk.opSec }) s else s))

/-- No bank verifies: ROM recovery (R385). -/
def romRecovery (r : ResetIn) (s : State) : State :=
  let f (b : Nat) : Word := w ((bankVerdict r s b).getD 0)
  note 0xD005 srcBOOT (f 0) (f 1) 0
    { modUpd (fun u => { u with recovery := true }) s with sys := { s.sys with plinth := true } }

/-- The bank is selected. -/
def selectBank (r : ResetIn) (s : State) : State :=
  let b := s.upd.activeBank
  let other := !b
  match bankVerdict r s b.toNat with
  | none => modUpd (fun u => { u with running := b }) s
  | some c =>
    if s.upd.trial then
      let s := rollback 2 s
      if (bankVerdict r s s.upd.activeBank.toNat).isNone then modUpd (fun u => { u with running := u.activeBank }) s
      else romRecovery r s
    else if (bankOf s other.toNat).state = .verified ∧ (bankVerdict r s other.toNat).isNone then
      note 0xD004 srcBOOT (bitWord b) (bitWord other) (w c)
        (modUpd (fun u => { u with running := other, fallback := true }) (modRecord (fun u => { u with activeBank := other }) s))
    else romRecovery r s

/-- The running bank is bank 0 as the factory programmed it. -/
def shippedRuns (s : State) : Bool := !s.upd.running && s.upd.nor.all fun x => decide (0x1800000 ≤ x.1)

/-- The entry of a part in the manifest of the running bank. -/
def runningPart (s : State) (id : Nat) : Option PartEntry :=
  (manParts (norBytes s (bankBase s.upd.running.toNat) manLen)).find? fun p => p.id == id

/-- Versions of the running parts (UPD_PART_VER_n). -/
def partVersions (s : State) : Vector Word 6 :=
  Vector.ofFn fun i =>
    if shippedRuns s then Config.partVersion i.val else ((runningPart s (i.val + 1)).map (·.ver)).getD 0

/-- SHA-256 of the running LANE part, from which the chisel table is built (R136, R381 step 4). -/
def lanePart (s : State) : List Byte :=
  if shippedRuns s then Config.shippedLane else ((runningPart s 5).map (·.hash)).getD []

/-- The parts of the running bank are loaded. -/
def loadParts (s : State) : State :=
  modUpd (fun u => { u with partVer := partVersions s }) { s with ln := { s.ln with lanePart := lanePart s } }

/-! ### The state after reset -/

/-- A register's value is kept in the parameter store. -/
def storedRow (a : Nat) : Bool :=
  match regRow a with
  | some r => r.kind != .plain && r.kind != .session
  | none => false

/-- A register is staged. -/
def stagedRow (a : Nat) : Bool :=
  match regRow a with
  | some ⟨_, _, _, _, _, .staged _⟩ => true
  | _ => false

/-- The stored settings, as their record says: registers, and the staged settings of network and metering. -/
def settingsValue (s : State) : List (Nat × Word) × List (Nat × Word) × List (Nat × Word) :=
  match recordValue recSETTINGS s with
  | some (.settings regs ne eq) => (regs.filter fun x => storedRow x.1, ne, eq)
  | _ => ([], State.ne0.stg, State.eq0.stg)

/-- The control record (R380), the program slot roles, the customer chisel entries and what the recorder keeps, as their
records say. -/
def controlValue (s : State) : ControlRec :=
  match recordValue recUPDATE s with
  | some (.control c) => c
  | _ => controlRec State.upd0
def rolesValue (s : State) : Bool :=
  match recordValue recROLES s with
  | some (.roles b) => b
  | _ => false
def chiselValue (s : State) : Vector ChiselEntry 16 :=
  match recordValue recCHISEL s with
  | some (.chisel t) => t
  | _ => State.customer0
def recorderValue (s : State) : Option (Fin 4) × Word :=
  match recordValue recRECORDER s with
  | some (.recorder size base) => (size, base)
  | _ => (State.evr0.size, State.evr0.base)

/-- The firmware banks with the control record put back. -/
def updOf (c : ControlRec) (u : Upd) : Upd :=
  { u with
    activeBank := c.activeBank, prevBank := c.prevBank, banks := c.banks, pending := c.pending, trial := c.trial
    expired := c.expired, tbase := c.tbase, tstart := c.tstart }

/-- Groups of the store that this start-up finds with an error (R313). -/
def nvFound (r : ResetIn) (s : State) : State :=
  modNvs (fun v => { v with
    unc := v.unc ++ r.nvUnc.filter (fun g => !v.unc.contains g)
    ceGroups := v.ceGroups ++ r.nvCe.filter (fun g => !v.ceGroups.contains g) }) s

/-- What outlives a module reset, beside everything at its reset value. -/
def bootBase (r : ResetIn) (s : State) : State :=
  let (kept, neStg, eqStg) := settingsValue s
  let table := chiselValue s
  let kept1 := recorderValue s
  let stored := max (-500000) (min 500000 (Config.storedFreq s.fresh))
  { State.reset with
    pending := s.pending
    clk := ⟨0, 0, counter s ringOPSEC, 0, State.ntStart, true⟩
    rtc := s.rtc
    nvs := { s.nvs with evt := 0, ceCnt := 0, ueAddr := 0, cntShadow := 0 }
    evr := { State.evr0 with size := kept1.1, base := kept1.2 }
    key := { State.keys0 with slots := s.key.slots }
    upd := { updOf (controlValue s) s.upd with
      running := false, fallback := false, rolledBack := false, recovery := false, sess := .idle, holder := none
      lastReq := 0, verifyFrom := 0, evt := 0, bootMs := 0, trialN := 0, result := 0, nextOff := 0, total := 0
      stestPass := 0, stestFail := 0, stestSkip := 0, stestArg := 0 }
    plr := { State.plr0 with runSlot := rolesValue s, slotId := s.plr.slotId, cache := s.plr.cache, loadHashOk := s.plr.loadHashOk }
    ln := { State.ln0 with active := table, staged := table }
    ne := { State.ne0 with stg := neStg, act := neStg, pub := neStg }
    eq := { State.eq0 with stg := eqStg, act := eqStg, was := eqStg }
    fio := { State.fio0 with
      igSup := s.fio.igSup
      outs := vmap State.fio0.outs fun n x => if r.stestSkip.getLsbD (n / 8) then { x with code := 6 } else x
      og := vmap State.fio0.og fun g x => { x with supply := !r.stestSkip.getLsbD g } }
    tim := { State.tim0 with freq := stored, stored := stored }
    persist := s.persist
    tap := s.tap
    regs := kept
    act := kept.filter fun x => stagedRow x.1
    fresh := s.fresh + 1 }

/-- A pair with its mode and interfaces as NE_PAIR_n_CFG gives them (R184). -/
def pairAtReset (x : Word) (p : Pair) : Pair :=
  { p with
    mode := if field x 0 2 = 3 then 0 else field x 0 2
    ifA := field x 2 2
    ifB := field x 4 2
    aneg := x.getLsbD 6 }

/-- The tag that HL_VLAN asks for. -/
def vlanOf (x : Word) : Option (BitVec 12 × BitVec 3) :=
  if x.getLsbD 15 then some (x.extractLsb' 0 12, x.extractLsb' 12 3) else none

/-- Settings read at module reset: frames, ports, controllers, the host link, the recorder. -/
def readSettings (s : State) : State :=
  let c := reg 0x10000 s
  let rc := field c 0 3
  let hl := reg 0x100004 s
  { s with
    frm := { s.frm with rate := if rc < 6 then rc else 1, hm1 := field c 8 5 }
    ne := { s.ne with pairs := vmap s.ne.pairs fun n p => pairAtReset (reg (0x50010 + 4 * n) s) p }
    can := ⟨vmap s.can.ctl fun n _ =>
      canStart (reg (canReg n 0) s) (reg (canReg n 4) s) (reg (canReg n 8) s)⟩
    hl := { s.hl with
      udpEn := hl.getLsbD 0 && reg 0x100008 s != 0, udpPair := hl.getLsbD 1, udpPort := BitVec.ofNat 16 (field hl 16 16)
      ip := reg 0x100008 s, vlan := vlanOf (reg 0x10000C s) }
    hsb := { s.hsb with cfg := reg 0xB0000 s, bcnDmac := (reg 0xB0030 s).toNat + field (reg 0xB0034 s) 0 16 * 2 ^ 32 }
    evr := { s.evr with
      buckets := s.evr.buckets.map fun b => { b with tokens := evrBurst s }, lastToken := tokenIndex s } }

/-- Enabled subscriptions leave OFF (R196, R203). -/
def startStreams (s : State) : State :=
  let s := forAll (where_ 24 fun i => neEn s kSVSUB i) (fun i s => drainIntake (svLost i s)) s
  forAll (where_ 256 fun i => neEn s kGSSUB i) gsWait s

/-! ### Restoring energy (R255) and retained variables (R167) -/

/-- SAVE_S. -/
def saveSecs (s : State) : Nat := max 1 (min 3600 (field (reg 0x80008 s) 0 12))

/-- The gap bound of a point for a gap of `t` ms. -/
def gapBound (s : State) (p t : Nat) : Nat :=
  (ptSceil s.eq.act p * (t : Rat) / 3600000 / (10 : Rat) ^ ptQexp s.eq.act p).ceil.toNat

/-- A save is taken over; both snapshot buffers show it. -/
def takeSave (x : EqSave) (s : State) : State :=
  modEq (fun e => { e with
    saveSeq := x.seq
    points := vmap e.points fun p pt => { pt with kept := vget State.kept0 x.points p }
    gens := vmap e.gens fun g gen =>
      let y := vget (0, []) x.gens g
      { gen with count := y.1, backlog := y.2 } }) s

/-- Both snapshot buffers of every point take the registers as they stand. -/
def fillSnaps (s : State) : State :=
  modEq (fun e => { e with points := vmap e.points fun p pt =>
    let ws := snapWords (ptEn e.act p) pt
    { pt with snapA := ws, snapB := ws } }) s

/-- GAP with its bound on every enabled point, and ENERGY_GAP. -/
def energyGap (seq : Word) (s : State) : State :=
  let t := saveSecs s * 1000 + 10
  let ps := enabledPoints s
  note 0x6010 srcEQ (w ps.length) (w t) seq
    (modEq (fun e => { e with
      gapSts := true, gapMs := w t
      points := vmap e.points fun p pt => if ptEn e.act p then
        { pt with kept := { pt.kept with gap := true, gapBound := BitVec.ofNat 64 (gapBound s p t) } } else pt }) s)

/-- The energy state at start-up. -/
def restoreEnergy (s : State) : State :=
  let places := (List.range 5).map savePlace
  let s := recordBad energyRid 0x3000 places (readCopies 0x3000 places s)
  if s.nvs.flushOk ∧ s.nvs.flushParts.getLsbD 1 ∧ copyValid s nvEFLUSH 0x3000 energyRid then
    match vget none s.persist.saves 4 with
    | some x => fillSnaps (takeSave x s)
    | none => s
  else if places.all (fun a => nvBlank s a 0x3000) then s
  else match (curSave s).bind (fun i => vget none s.persist.saves i) with
    | some x => fillSnaps (energyGap x.seq (takeSave x s))
    | none => fillSnaps (energyGap (un 0x6010 2 s) s)

/-- Entries of the retained record's payload: VID, SIZE, TYPE, TTAG and value. -/
def retainEntries : Nat → List Byte → List (Nat × Nat × Nat × Nat × List Byte)
  | 0, _ => []
  | n + 1, bs =>
    let size := fieldLe bs 4 4
    (fieldLe bs 0 4, size, fieldLe bs 8 1, fieldLe bs 10 2, (bs.drop 12).take size) :: retainEntries n (bs.drop (12 + size))

/-- Retained variables take their stored values. -/
def restoreRetained (s : State) : State :=
  let s := recordBad (ridOf 1) 0x10000 retainPlaces (readCopies 0x10000 retainPlaces s)
  match newestCopy s 0x10000 (ridOf 1) retainPlaces with
  | none => s
  | some i =>
    let p := copyPayload s (retainPlaces.getD i 0)
    let es := retainEntries (fieldLe p 0 4) (p.drop 4)
    (retainedVars s).foldl (fun s v =>
      match es.find? fun e => e.1 == v.vid && e.2.1 == v.size && e.2.2.1 == v.typ && e.2.2.2.1 == v.ttag with
      | some e => shPut v.base e.2.2.2.2 s
      | none => s) s

/-! ### The program (R168) -/

/-- The key of a cached armature is that of the current inputs, and its hash holds. -/
def cacheFits (s : State) (bs : List Byte) (a : Armature) : Bool :=
  a.digest == bs.drop (bs.length - 32) && a.mgmtVer == s.upd.partVer[1] && a.laneVer == s.upd.partVer[4]
  && a.rate == s.frm.rate && a.hm1 == s.frm.hm1 && a.margin == marginOf s && a.keyChisel == activeId s && armHash a == a.hash

/-- The placed segments of an armature, for relocating its image. -/
def placedOf (im : Img) (a : Armature) : List Plc :=
  a.placed.filterMap fun p => (im.segs.find? fun sg => sg.segId == p.segId).map fun sg =>
    ⟨sg, p.lane, p.share, p.first, p.fin, p.start, p.deadlines⟩

/-- A program runs with its armature: code in the active halves, initial values, edge cells (R167, R98). -/
def startProgram (bs : List Byte) (code : List (Nat × Nat × Nat)) (a : Armature) (s : State) : State :=
  let s := code.foldl (fun s x =>
    let o := bundleAddr (activeHalf s x.1) x.1 x.2.1
    { s with ln := { s.ln with prog := sputs zeroByte o (leBytes 32 x.2.2) s.ln.prog } }) s
  carryEdges [] a.edges (putInits bs [] a.vars { s with plr := { s.plr with run := some a } })

/-- The hash of the armature is checked as it is loaded (R18, R23). -/
def checkLoad (s : State) : State :=
  if s.plr.run.isSome && !s.plr.loadHashOk then
    moduleDoubt causeControl 0x1014 srcPLR 0 (un 0x1014 1 s) (un 0x1014 2 s) s
  else s

/-- The stored program is refused: the empty program runs. -/
def refuseProgram (id : Word) (code item : Nat) (s : State) : State :=
  note 0x2012 srcPLR id (w code) (w item)
    { s with plr := { s.plr with runRefused := true, run := none } }

/-- The running program at start-up. -/
def loadProgram (s : State) : State :=
  let k := s.plr.runSlot
  match vget none s.plr.slotId k.toNat with
  | none => s
  | some id =>
    let bs := slotBytes s k
    let im := readImg bs
    match (vget none s.plr.cache k.toNat).filter (cacheFits s bs) with
    | some a =>
      match placedCode im a.areas a.edges (placedOf im a) with
      | .ok code => startProgram bs code a { s with plr := { s.plr with cacheHit := true } }
      | .error _ => startProgram bs [] a { s with plr := { s.plr with cacheHit := true } }
    | none =>
      match loadTail bs s.frm.rate with
      | some c => refuseProgram id c 0 s
      | none =>
        let i := placeInput im none s
        let p := placeImage im i
        let ms := Config.placeMs s.fresh
        let s := { s with fresh := s.fresh + 1, plr := { s.plr with report := reportOf im i ms p } }
        match p with
        | .error r => refuseProgram id r.code r.item s
        | .ok o => match o.refusedBy with
          | some r => refuseProgram id r.code r.item s
          | none => startProgram bs o.code o.arm
              { s with plr := { s.plr with cache := vset s.plr.cache k.toNat (some o.arm) } }

/-- The placer's state after reset (R162, R169). -/
def placerStart (s : State) : State :=
  let staged := (vget none s.plr.slotId (stagedSlot s).toNat).isSome
  { s with plr := { s.plr with state := if staged then .loaded else .empty } }

/-! ### Self-test (R383, R384) -/

/-- The self-test's result, with a NOTE for each output group whose readback check was skipped. -/
def selfTest (r : ResetIn) (s : State) : State :=
  let failed := (r.stestFail.map (·.1)).getD 0
  let ran5 := failed = 0 ∨ 5 ≤ failed
  let skip : BitVec 2 := if ran5 then r.stestSkip else 0
  let s := modUpd (fun u => { u with
    stestPass := BitVec.ofNat 6 (if failed = 0 then 63 else 2 ^ (failed - 1) - 1), stestFail := failed, stestSkip := skip
    stestArg := (r.stestFail.map (·.2)).getD 0 }) s
  forAll (where_ 2 fun g => skip.getLsbD g) (fun g => note 0xD018 srcUPD (w g) 0 0) s

/-- A failed step is a MODULE doubt; a trial has expired with it. -/
def selfTestFail (r : ResetIn) (s : State) : State :=
  match r.stestFail with
  | none => s
  | some (step, arg) =>
    let s := moduleDoubt causeSelfTest (BitVec.ofNat 16 (0xD010 + step)) srcUPD (w step) arg 0 s
    if s.upd.trial then modRecord (fun u => { u with expired := true, evt := setBit u.evt 3 }) s else s

/-- Start-up takes its time, in which the backup domain runs on (R226, R233). -/
def bootTime (r : ResetIn) (s : State) : State :=
  let c := r.bootMs * cycMs
  let f := s.rtc.frac + c * 32768
  rtcRun r.tampClosed 16 (f / cycSec) { s with
    clk := { s.clk with opSec := s.clk.opSec + c / cycSec, opCyc := c % cycSec }
    rtc := { s.rtc with frac := f % cycSec }
    tim := { s.tim with sinceTest := (r.bootMs - r.stestMs) * cycMs } }

/-! ### The whole start-up -/

/-- Step 1, up to the state after reset: the store is read. The marker's numbers go with it, and the groups of journal and
marker that were read with an error. -/
def bootStore (r : ResetIn) (s : State) : Option (Word × Nat) × List Nat × List Nat × State :=
  let read (gs : List Nat) : List Nat := groupsIn nvJOURNAL (32 + 8 * min 100 (jNact s)) gs ++ groupsIn nvMARKER 64 gs
  let x := readMarker (settleJournal (nvFound r s))
  let found := (nvFound r s).nvs
  (x.1, read found.ceGroups, read found.unc, bootBase r x.2)

/-- The rest of steps 1 to 3. -/
def bootSteps (r : ResetIn) (powerGood : Bool) (ce unc : List Nat) (s : State) : List Taken × State :=
  let ue (s : State) : State := modKey (fun k => { k with
    slots := vmap k.slots fun i x => if r.keyUe.any (·.val == i) then { x with ue := true } else x }) s
  let x := parked ringsScan (parked (nvReport ce unc) ([], s))
  let x := parked (ringInc ringPOWER) x
  let x := parked journalNote x
  let x := parked lostNote (parked alarmNote (parked (bootTamper powerGood) x))
  let x := parked (fun s => if lifecycle s = 3 then retireErase s else s) x
  let x := parked trialStart (parked takePending (parked (recordJudge recUPDATE) x))
  let x := parked (selectBank r) x
  let x := parkedAll (List.range 64) recheck (parked ue x)
  let x := parked loadParts x
  if x.2.upd.recovery then x
  else parkedAll [recCHISEL, recSETTINGS, recRECORDER, recROLES] recordJudge (parked (selfTest r) x)

/-- Steps 4 and 5, of a module that boots. -/
def bootRestore (r : ResetIn) (marker : Option (Word × Nat)) (ts : List Taken) (s : State) : State :=
  let s := drainIntake (unpark ts (evrRestore marker (readSettings s)))
  let s := drainIntake (restoreEnergy s)
  let s := startStreams (drainIntake (loadProgram s))
  let s := placerStart (drainIntake (restoreRetained s))
  let s := if lifecycle s = 3 then { s with sys := { s.sys with retired := true } } else s
  drainIntake (selfTestFail r (checkLoad s))

/-- The start-up of a module reset. -/
def boot (r : ResetIn) (s : State) : State :=
  let good := !s.clk.power
  let (marker, ce, unc, base) := bootStore r s
  let x := bootSteps r good ce unc base
  let s := if x.2.upd.recovery then drainIntake (unpark x.1 x.2) else bootRestore r marker x.1 x.2
  let s := cyclesRebase (epochStart (bootTime r s))
  settle (modNvs (fun v => { v with retSec := s.clk.opSec, opStoreSec := s.clk.opSec })
    (modUpd (fun u => { u with bootMs := if s.sys.latched then 0 else r.bootMs })
      { s with att := ⟨0, Vector.replicate 4 0, 0x0008#16⟩ }))

/-- A reset is due: power has come back, or SYS_RESET waits for its flush, which has ended (R30). -/
def resetDue (s : State) : Bool := !s.clk.power || (s.sys.resetCommanded && s.sys.flush == .none)

/-- MODULE_RESET (R381). -/
def execModuleReset (r : ResetIn) (s : State) : Host.Outcome State Fault Refusal :=
  .next (if resetDue s then boot r s else s)

end Sys2Proof.Machine
end

