-- ==== Sys2Proof/Machine/ChiselRows.lean ====
section
/-! DEFINITION. The commands on the staged chisel table (R136 to R142). -/
namespace Sys2Proof.Machine

/-- Register addresses of the chisel registers. -/
def aCHISEL_SEL : Nat := 0x21008

/-- The selected entry of a session, and whether it looks at the active table. -/
def chiselEntrySel (sid : Nat) (s : State) : Nat := field (sesReg sid aCHISEL_SEL s) 0 8
def chiselSide (sid : Nat) (s : State) : Bool := (sesReg sid aCHISEL_SEL s).getLsbD 8

/-- R142: a write to a vendor entry or through the active side is DENIED; one while a commit of the group is armed is
BUSY. DESIGN CHOICE (log 62): where both hold, DENIED is the answer. -/
def chiselGated (sid : Nat) (op : RegOp) : RegOp := fun s =>
  if chiselEntrySel sid s < 0xF0 ∨ chiselSide sid s then (.denied, s)
  else if s.frm.commitArmed ∧ s.frm.commitGroups.getLsbD 4 then (.busy, s)
  else op s

/-- A write that R142 lets through. -/
def chiselGate (sid : Nat) (op : State → State) : RegOp := chiselGated sid (always op)

/-- Change the selected staged entry. -/
def modStaged (sid : Nat) (f : Nat → ChiselEntry → ChiselEntry) (s : State) : State :=
  let o := chiselEntrySel sid s
  { s with ln := { s.ln with staged := vmod s.ln.staged (o - 0xF0) (f o) } }

/-- LN_CHISEL_CMD.SEAL (R138). -/
def sealOp (sid : Nat) : RegOp := chiselGate sid fun s =>
  let c := sealCode (stagedEntry s (chiselEntrySel sid s))
  let s := { s with ln := { s.ln with sealErr := c } }
  if c = 0 then modStaged sid sealEntry s else modStaged sid (fun _ e => { e with sealed_ := false }) s

/-- LN_CHISEL_CMD.CLEAR (R137). -/
def chiselClearOp (sid : Nat) : RegOp := chiselGate sid (modStaged sid fun o _ => State.chiselEmpty o)

/-- LN_CHISEL_CMD.COPY (R136). -/
def chiselCopyOp (sid : Nat) : RegOp := chiselGate sid fun s => { s with ln := { s.ln with staged := s.ln.active } }

/-- A write to LN_CHISEL_HDR (register 0) or to LN_CHISEL_WIN_n (register n + 1) clears SEALED (R138, R142). -/
def chiselWriteOp (sid reg : Nat) (x : Word) : RegOp := chiselGate sid (modStaged sid fun _ e =>
  if reg = 0 then { e with len := field x 0 4, npar := field x 4 3, sealed_ := false }
  else { e with words := vset e.words (reg - 1) x, sealed_ := false })

/-- LN_CTL.CLR_MAX. -/
def lnClrMaxOp : RegOp := always fun s => modLanes (fun _ ln => { ln with stallMax := 0 }) s

/-- SEAL (R138). -/
def execSeal (sid : Fin 4) (s : State) : Host.Outcome State Fault Refusal :=
  act (hostDo sid.val roleENGINEER (sealOp sid.val)) s

/-- CHISEL_CLEAR (R137). -/
def execChiselClear (sid : Fin 4) (s : State) : Host.Outcome State Fault Refusal :=
  act (hostDo sid.val roleENGINEER (chiselClearOp sid.val)) s

/-- CHISEL_COPY (R136). -/
def execChiselCopy (sid : Fin 4) (s : State) : Host.Outcome State Fault Refusal :=
  act (hostDo sid.val roleENGINEER (chiselCopyOp sid.val)) s

/-- CHISEL_WRITE (R142). -/
def execChiselWrite (sid : Fin 4) (reg : Nat) (value : Word) (s : State) : Host.Outcome State Fault Refusal :=
  act (hostDo sid.val roleENGINEER (chiselWriteOp sid.val reg value)) s

/-- LN_CLR_MAX (R76). -/
def execLnClrMax (sid : Fin 4) (s : State) : Host.Outcome State Fault Refusal :=
  act (hostDo sid.val roleOPERATOR lnClrMaxOp) s

end Sys2Proof.Machine
end

