-- ==== Sys2Proof/Machine/Ptp.lean ====
section
/-! DEFINITION. IEEE 1588 on the ports (R216 to R220): checks, the choice of master, measurement, sending. -/
namespace Sys2Proof.Machine

/-- PTP state of a port, and changed. -/
def ptpPort (s : State) (p : Nat) : PtpPort := vget State.ptp0 s.tim.ports p
def modPtp (p : Nat) (f : PtpPort → PtpPort) (s : State) : State := modTim (fun t => { t with ports := vmod t.ports p f }) s

/-- PTP runs on a port (TIM_PTP_PORTS, R185). -/
def ptpOn (s : State) (p : Nat) : Bool := (reg 0x60034 s).getLsbD p && !spdErr (nePairOf s (pairOf p))

/-- Fields of TIM_PTP_CFG. -/
def ptpDomain (s : State) : Nat := field (reg 0x60030 s) 0 8
def slaveOnly (s : State) : Bool := (reg 0x60030 s).getLsbD 24
def twoStepTx (s : State) : Bool := (reg 0x60030 s).getLsbD 25

/-- Latencies of a port in ns (R219). -/
def latRx (s : State) (p : Nat) : Int := Int.ofNat (field (reg (0x60080 + 4 * p) s) 0 16)
def latTx (s : State) (p : Nat) : Int := Int.ofNat (field (reg (0x60080 + 4 * p) s) 16 16)

/-- Count of a port: 0 accepted, 1 to 7 the drops of R220. -/
def ptpCount (p n : Nat) (s : State) : State := modTim (fun t => { t with cnt := vmod t.cnt p fun c => vmod c n (· + 1) }) s

/-- A bad message: counted and noted (R220). -/
def ptpDrop (p code : Nat) (s : State) : State :=
  rlNote (p * 16 + code) 0x5010 (fun n => note 0x5010 srcTIM (w p) (w code) n) (timEvt 5 (ptpCount p code s))

/-! ### The best master (R216, R217) -/

/-- The own clock's identity: the MAC address with FF-FE in its middle. -/
def ownClockId : BitVec 64 :=
  BitVec.ofNat 64 (Config.baseMac.toNat / 2 ^ 24 * 2 ^ 40 + 0xFFFE * 2 ^ 24 + Config.baseMac.toNat % 2 ^ 24)

/-- clockClass that a master-capable module announces (R216). -/
def ownClass (s : State) : Nat :=
  if s.tim.state = .locked ∧ 2 ≤ s.tim.src then 6
  else if s.tim.state = .holdover ∧ 2 ≤ s.tim.lockSrc then 7 else 248

/-- The own clock as a data set. -/
def ownClock (s : State) : PtpClock :=
  ⟨field (reg 0x60030 s) 8 8, ownClass s, 0xFE, 0xFFFF, field (reg 0x60030 s) 16 8, ownClockId, 0, 0⟩

/-- The data set of a clock as a list compared from the left, smaller being better. -/
def clockKey (c : PtpClock) : List Nat := [c.pri1, c.cls, c.accuracy, c.variance, c.pri2, c.id.toNat, c.steps]

/-- Comparison from the left. -/
def lexLt : List Nat → List Nat → Bool
  | a :: s, b :: t => if a < b then true else if b < a then false else lexLt s t
  | _, _ => false

/-- One clock is better than another. -/
def betterClock (a b : PtpClock) : Bool := lexLt (clockKey a) (clockKey b)

/-- The clock announced on a port; a LAN whose Sync is missing stands back while the other LAN has a clock (R217). -/
def portClock (s : State) (p : Nat) : Option PtpClock :=
  let x := ptpPort s p
  if x.syncLost && (ptpPort s (p / 2 * 2 + (p + 1) % 2)).best.isSome then none else x.best

/-- The best port among those with a clock; the lower port wins a tie. -/
def bestPort (s : State) : Option (Fin 12) :=
  (List.finRange 12).foldl (fun m p => match portClock s p.val with
    | none => m
    | some c => match m with
      | none => some p
      | some q => match (ptpPort s q.val).best with
        | some d => if betterClock c d then some p else m
        | none => some p) none

/-- Three announce intervals have passed since a port's last Announce, or since start-up (R216). -/
def annSilent (s : State) (p : Nat) : Bool := decide ((ptpPort s p).annAt + 3 * (ptpPort s p).annInt ≤ s.clk.cyc)

/-- The BMCA (R216): the slave port, and whether the module is master. -/
def bmca (s : State) : State :=
  let own := ownClock s
  match bestPort s with
  | none => modTim (fun t => { t with
      slave := none
      ports := vmap t.ports fun p x => { x with master := !slaveOnly s && ptpOn s p && (x.master || annSilent s p) } }) s
  | some p =>
    let c := (ptpPort s p.val).best.getD own
    if !slaveOnly s ∧ betterClock own c then
      modTim (fun t => { t with
        slave := none, ports := vmap t.ports fun q x => { x with master := ptpOn s q } }) s
    else modTim (fun t => { t with slave := some p, ports := t.ports.map fun x => { x with master := false } }) s

/-- The slave port's clock and its sender. -/
def gmClock (s : State) : Option PtpClock := s.tim.slave.bind fun p => (ptpPort s p.val).best
def gmSender (s : State) : Option (BitVec 64) := s.tim.slave.map fun p => (ptpPort s p.val).sender

/-! ### Reception -/

/-- Network time in ns. -/
def ntNsNow (s : State) : Int := Int.ofNat (ntCap s / ntNs)

/-- The interval of a message in lane cycles, from 1/16 s to 4 s (R216). -/
def msgInterval (m : PtpMsg) : Nat :=
  let k := (max (-4) (min 2 m.logInt) + 4).toNat
  cycSec / 16 * 2 ^ k

/-- A Sync comes from the selected master, or on the other LAN of the slave's PRP pair from that LAN's (R217, R220). -/
def syncKnown (s : State) (p : Nat) (source : BitVec 64) : Bool :=
  gmSender s == some source
  || (s.tim.slave.any (fun q => pairOf q.val == pairOf p && q.val != p) && (nePairOf s (pairOf p)).mode == 1
      && (ptpPort s p).best.isSome && (ptpPort s p).sender == source)

/-- The drop code of a message, 0 for none (R220). -/
def ptpBad (s : State) (p : Nat) (m : PtpMsg) : Nat :=
  let x := ptpPort s p
  let fresh (c : Nat) : Bool := decide (s.clk.cyc ≤ c + cycSec)
  if !m.lengthOk then 1
  else if m.version ≠ 2 then 2
  else if m.domain ≠ ptpDomain s then 3
  else if m.kind = .delayReq ∨ m.kind = .delayResp ∨ m.sdo ≠ 0 then 4
  else if (m.kind = .followUp && !(x.sync.any fun y => y.1 == m.seq && y.2.1 == m.source && fresh y.2.2.2))
      || (m.kind = .pdelayRespFollowUp && !(x.pd.any fun y => y.1 == m.seq && y.2.1 == m.source && fresh y.2.2.2)) then 5
  else if m.kind = .sync && !syncKnown s p m.source then 6
  else if m.correction < 0 || 1000000000 < m.correction || (m.kind = .announce && decide (255 ≤ m.clock.steps)) then 7
  else 0

/-- A measurement on a port; the slave port's disciplines network time. -/
def ptpMeasure (p : Nat) (offset : Int) (s : State) : State :=
  let s := modPtp p (fun x => { x with offset := offset }) s
  if s.tim.slave.map (·.val) = some p then timMeasure 0 offset s else s

/-- The peer delay from a round trip and the responder's turnaround. -/
def setPdelay (p : Nat) (round turn : Int) (s : State) : State :=
  modPtp p (fun x => { x with pdelay := max 0 ((round - turn) / 2) }) s

/-- A message goes out on a port: an Announce with the own clock, a Follow_Up or one-step Sync with its time of sending, as
TIM_PTP_LAT_n corrects it (R219). -/
def ptpSend (p kind seq : Nat) (s : State) : State :=
  let precise := kind = 3 ∨ (kind = 0 ∧ !twoStepTx s)
  let m : TxMsg := .ptp kind seq (ptpDomain s) (if kind = 1 then some (ownClock s) else none)
    (if precise then some (ntNsNow s + latTx s p) else none)
  let n := pairOf p
  let f : TxFrame := ⟨ownMac s p, none, none, none, (frameCopies s n p m).filter (·.1 == p), none, m⟩
  let s := portInc p 1 { s with ne := { s.ne with sent := s.ne.sent ++ [f] } }
  modPair n (fun x => if x.mode = 0 then x else { x with seq := (x.seq + 1) % 65536 }) s

/-- An Announce (R216): the clock of its sender, and the choice of master again. -/
def ptpAnnounce (p : Nat) (m : PtpMsg) (s : State) : State :=
  let x := ptpPort s p
  let take := match x.best with
    | none => true
    | some c => x.sender == m.source || betterClock m.clock c
  let s := if take then modPtp p (fun x => { x with
      best := some { m.clock with heard := s.clk.cyc }, sender := m.source, annAt := s.clk.cyc, annInt := msgInterval m }) s
    else s
  let s := bmca s
  if gmSender s = some m.source then modTim (fun t => { t with ptpUtc := m.utcOffset }) s else s

/-- A message that passed the checks. -/
def ptpTake (p : Nat) (m : PtpMsg) (s : State) : State :=
  let x := ptpPort s p
  let rx := ntNsNow s - latRx s p
  let s := ptpCount p 0 s
  match m.kind with
  | .announce => ptpAnnounce p m s
  | .sync =>
    let s := modPtp p (fun x => { x with lastSync := s.clk.cyc, syncInt := msgInterval m, syncLost := false }) s
    if m.twoStep then modPtp p (fun x => { x with sync := some (m.seq, m.source, rx - m.correction, s.clk.cyc) }) s
    else ptpMeasure p (rx - m.time - m.correction - x.pdelay) s
  | .followUp =>
    match x.sync with
    | some y => ptpMeasure p (y.2.2.1 - m.time - m.correction - x.pdelay) (modPtp p (fun x => { x with sync := none }) s)
    | none => s
  | .pdelayReq =>
    let s := ptpSend p 4 m.seq s
    if twoStepTx s then ptpSend p 5 m.seq s else s
  | .pdelayResp =>
    if vget 0 x.seqTx 2 = (m.seq + 1) % 65536 then
      let round := Int.ofNat ((s.clk.cyc - vget 0 x.lastTx 2) * 5 / 2) - latRx s p - latTx s p - m.correction
      if m.twoStep then modPtp p (fun x => { x with pd := some (m.seq, m.source, round, s.clk.cyc) }) s
      else setPdelay p round m.time s
    else s
  | .pdelayRespFollowUp =>
    match x.pd with
    | some y => setPdelay p y.2.2.1 (m.time + m.correction) (modPtp p (fun x => { x with pd := none }) s)
    | none => s
  | .delayReq => s
  | .delayResp => s
  | .management => s

/-- A PTP message at a port: management is dropped uncounted (R216). -/
def ptpMessage (p : Nat) (m : PtpMsg) (s : State) : State :=
  if !ptpOn s p ∨ m.kind = .management then s
  else
    let c := ptpBad s p m
    if c ≠ 0 then ptpDrop p c s else ptpTake p m s

/-- PTP_MESSAGE. -/
def execPtpMessage (port : Fin 12) (m : PtpMsg) (s : State) : Host.Outcome State Fault Refusal :=
  act (fun s => ptpMessage port.val m (arrived port.val s)) s

/-! ### Sending, LAN switch, timeout -/

/-- An interval of 1 s ends: Sync (0), Announce (1) or Pdelay_Req (2). -/
def ptpTransmit (p kind : Nat) (s : State) : State :=
  let seq := vget 0 (ptpPort s p).seqTx kind
  let s := ptpSend p kind seq (modPtp p (fun x => { x with
    seqTx := vset x.seqTx kind ((seq + 1) % 65536), lastTx := vset x.lastTx kind s.clk.cyc }) s)
  if kind = 0 ∧ twoStepTx s then ptpSend p 3 seq s else s

/-- PTP_TRANSMIT: Sync and Announce of a master only. The choice of master is made anew at every announce interval, since
the own clock changes with the time state (R216). -/
def execPtpTransmit (port : Fin 12) (kind : Fin 3) (s : State) : Host.Outcome State Fault Refusal :=
  act (fun s =>
    let s := if kind.val = 1 then bmca s else s
    let x := ptpPort s port.val
    whenever (ptpOn s port.val && portLink s port.val && (kind.val == 2 || x.master)
      && decide (vget 0 x.lastTx kind.val + cycSec ≤ s.clk.cyc)) (ptpTransmit port.val kind.val) s) s

/-- The other port of a pair. -/
def otherPort (p : Fin 12) : Fin 12 := ⟨if p.val % 2 = 0 then p.val + 1 else p.val - 1, by have := p.isLt; split <;> omega⟩

/-- PTP_LAN_SWITCH: the LAN in use of a PRP pair has missed 3 Sync intervals (R217). -/
def execPtpLanSwitch (pair : Fin 6) (s : State) : Host.Outcome State Fault Refusal :=
  act (fun s => match s.tim.slave with
    | some p => whenever (pairOf p.val == pair.val && (nePairOf s pair.val).mode == 1
        && (ptpPort s (otherPort p).val).best.isSome
        && decide ((ptpPort s p.val).lastSync + 3 * (ptpPort s p.val).syncInt ≤ s.clk.cyc))
        (fun s => modTim (fun t => { t with slave := some (otherPort p), stepped := true, stepPend := none })
          (modPtp (otherPort p).val (fun x => { x with syncLost := false })
            (modPtp p.val (fun x => { x with syncLost := true }) s))) s
    | none => s) s

/-- ANNOUNCE_RECEIPT_TIMEOUT: three intervals without an Announce on the port (R216). A port that has heard none since
start-up may so become master. -/
def execAnnounceReceiptTimeout (port : Fin 12) (s : State) : Host.Outcome State Fault Refusal :=
  act (fun s => whenever (annSilent s port.val)
    (fun s => bmca (modPtp port.val (fun x => { x with best := none }) s)) s) s

/-! ### Transparent clock of an HSR pair (R218) -/

/-- A residence time in ns: measured, so a free value. -/
def residence (s : State) : Int := Int.ofNat (Config.residenceNs s.fresh)

/-- An event message forwarded (R218): residence time and peer delay go to its own correctionField, or in two-step mode to
the matching follow-up message. -/
def forwardEvent (p : Nat) (resp : Bool) (m : PtpMsg) (s : State) : Option Int × State :=
  let add := residence s + (ptpPort s p).pdelay
  let s := { s with fresh := s.fresh + 1 }
  if m.twoStep then
    (some m.correction, modPtp p (fun x => { x with
      fwd := (resp, m.source, m.seq, add) :: x.fwd.filter fun y => y.1 != resp || y.2.1 != m.source }) s)
  else (some (m.correction + add), s)

/-- A follow-up message forwarded: unchanged where its event message was not. -/
def forwardFollow (p : Nat) (resp : Bool) (m : PtpMsg) (s : State) : Option Int × State :=
  match (ptpPort s p).fwd.find? fun y => y.1 == resp && y.2.1 == m.source && y.2.2.1 == m.seq with
  | some y => (some (m.correction + y.2.2.2), modPtp p (fun x => { x with fwd := x.fwd.erase y }) s)
  | none => (some m.correction, s)

/-- correctionField of a PTP message forwarded from port `p`, and what is kept for its Follow_Up. -/
def ptpForward (p : Nat) (m : PtpMsg) (s : State) : Option Int × State :=
  match m.kind with
  | .sync => forwardEvent p false m s
  | .pdelayReq => forwardEvent p false { m with twoStep := false } s
  | .pdelayResp => forwardEvent p true m s
  | .delayReq => forwardEvent p false { m with twoStep := false } s
  | .followUp => forwardFollow p false m s
  | .pdelayRespFollowUp => forwardFollow p true m s
  | .announce => (some m.correction, s)
  | .delayResp => (some m.correction, s)
  | .management => (some m.correction, s)

end Sys2Proof.Machine
end

