-- ==== Sys2Proof/Machine/RegRead.lean ====
section
/-! DEFINITION. What a read of each register of the address map returns (R4 to R6, R15, R17, R366, R371), with the reads
that have an effect. -/
namespace Sys2Proof.Machine

/-! ### Tables of registers -/

/-- A run of `count` registers, `stride` apart from offset `base`, with their values. -/
structure ReadRow where
  base : Nat
  count : Nat
  stride : Nat
  value : Nat → Word

/-- One register, and a run of consecutive ones. -/
def r1 (off : Nat) (v : Word) : ReadRow := ⟨off, 1, 4, fun _ => v⟩
def rN (off count : Nat) (v : Nat → Word) : ReadRow := ⟨off, count, 4, v⟩

/-- Index of an offset in a run. -/
def runIdx (base count stride off : Nat) : Option Nat :=
  if base ≤ off ∧ off < base + count * stride ∧ (off - base) % stride = 0 then some ((off - base) / stride) else none

/-- The value that a table gives an offset. -/
def pick (off : Nat) : List ReadRow → Option Word
  | [] => none
  | r :: t => match runIdx r.base r.count r.stride off with
    | some n => some (r.value n)
    | none => pick off t

/-- A flag at a bit. -/
def flag (b : Bool) (i : Nat) : Word := bitWord b <<< i

/-- The number n of a word of a list. -/
def nth (ws : List Word) (n : Nat) : Word := ws.getD n 0

/-- A wider bit field. -/
def wide {n : Nat} (x : BitVec n) : Word := BitVec.setWidth 32 x

/-- A session's copy of a selection register. -/
def sel (sid a off n : Nat) (s : State) : Nat := field (sesReg sid a s) off n

/-! ### SYS, FRM -/

def readSYS (s : State) : List ReadRow :=
  [r1 0x00 (0x2419 ||| (wide Config.dieRev <<< 16) ||| flag Config.variant 24),
   r1 0x10 (wide s.sys.firstCause ||| flag s.sys.latched 16 ||| flag (s.sys.plinth || s.sys.retired) 17 ||| flag s.sys.flushed 18),
   r1 0x14 (wide s.sys.cause), r1 0x18 s.sys.doubtFrame, r1 0x1C s.sys.doubtPhase]

def FrmState.code : FrmState → Nat
  | .starting => 0 | .running => 1 | .halted => 2

/-- The running program has BACKGROUND segments. -/
def progBg (s : State) : Bool :=
  match s.plr.run with
  | some a => a.hasBg
  | none => false

def readFRM (s : State) : List ReadRow :=
  let f := s.frm
  [r1 0x04 (w f.state.code ||| at_ f.rate 2 ||| at_ f.hm1 8), r1 0x0C f.kShadow, r1 0x10 (w (guardCyc s)),
   r1 0x14 (w (progM s) ||| at_ (progS s) 8 ||| flag (progBg s) 21), r1 0x1C f.k0Shadow, r1 0x20 (w f.useLast),
   r1 0x24 (w f.useMax), r1 0x2C (wide f.evt),
   r1 0x3C (flag f.commitArmed 0 ||| flag f.committed 1 ||| flag f.lastLate 2 ||| flag s.plr.swapF.isSome 3),
   r1 0x40 (wide f.ovrLanes ||| at_ f.ovrClass 16), r1 0x44 f.bgPreempt, r1 0x4C (f.hostEvt ||| f.hostStep)]

/-! ### LN (R76, R77, R136 to R142) -/

def LaneMode.code : LaneMode → Nat
  | .idle => 0 | .wait => 1 | .sched => 2 | .bg => 3 | .done => 4 | .stopped => 5

/-- Registers of one lane, by word. -/
def laneReg (ln : Lane) (j : Nat) : Word :=
  match j with
  | 0 => w ln.mode.code ||| flag ln.stallFrom.isSome 3 ||| flag ln.bgSaved.isSome 4
  | 1 => w ln.lastPc
  | 2 => w ln.endLast
  | 3 => w ln.slotsLast
  | 4 => w ln.stallLast
  | 5 => w ln.stallMax
  | 6 => match ln.bgSaved with
    | some b => w b.pc
    | none => 0
  | _ => 0

/-- The entry that a session has selected. -/
def chiselShown (sid : Nat) (s : State) : ChiselEntry :=
  if chiselSide sid s then activeEntry s (chiselEntrySel sid s) else stagedEntry s (chiselEntrySel sid s)

def readLN (sid : Nat) (s : State) : List ReadRow :=
  let f := s.ln.fault
  let e := chiselShown sid s
  [r1 0x00 (1 ||| at_ 16 8 ||| at_ 8 16), r1 0x04 (wide s.ln.half),
   r1 0x10 (wide f.code ||| at_ f.lane 16 ||| flag f.multi 20 ||| flag f.valid 31),
   r1 0x14 (w f.pc ||| flag f.half 12 ||| at_ (f.slot.getD 0) 13 ||| flag f.slot.isSome 16 ||| flag f.mac 17),
   r1 0x18 (w f.phase), r1 0x1C (wide f.mask), r1 0x20 f.arg,
   rN 0x100 128 (fun n => laneReg (vget State.lane0 s.lanes (n / 8)) (n % 8)),
   r1 0x1000 (activeId s), r1 0x1004 (stagedId s),
   r1 0x1010 (w s.ln.sealErr ||| flag e.sealed_ 4 ||| flag (s.ln.staged.toList.any fun x => !x.sealed_) 5
     ||| flag (activeId s != stagedId s) 6),
   r1 0x1020 (w e.len ||| at_ e.npar 4 ||| flag e.sealed_ 16), r1 0x1024 (if e.sealed_ then e.integ else 0),
   rN 0x1100 64 (fun n => vget 0 e.words n)]

/-! ### PLR, MEM -/

/-- LOADING or PLACING. -/
def plrBusy (s : State) : Bool := s.plr.state == .loading || s.plr.state == .placing

/-- PLACED or ARMED. -/
def plrReady (s : State) : Bool := s.plr.state == .placed || s.plr.state == .armed

/-- Hash words of an armature. -/
def armWords (a : Option Armature) : List Word :=
  match a with
  | some a => a.hash
  | none => []

def readPLR (sid : Nat) (s : State) : List ReadRow :=
  let p := s.plr
  let runId : Word := match p.run with
    | some a => a.imageId
    | none => 0
  [r1 0x04 (w p.state.code ||| flag p.run.isSome 4 ||| flag p.runSlot 5 ||| flag p.cacheHit 6 ||| flag p.runRefused 7),
   r1 0x1C (wide p.result ||| flag (plrBusy s) 31),
   r1 0x20 (if plrBusy s then w (min 100 (Config.progress (s.clk.cyc - p.since))) else 0),
   r1 0x24 runId, r1 0x28 (stagedImageId s), rN 0x40 8 (nth (armWords p.run)),
   rN 0x60 8 (fun n => if plrReady s then nth (armWords p.maq) n else 0),
   rN 0xC0 16 (fun n => ((p.report.find? fun x => x.1 == 16 * sel sid 0x30080 0 3 s + n).map (·.2)).getD 0)]

/-- The area that a session has selected (MEM_MAP_SEL). -/
def areaShown (sid : Nat) (s : State) : Option Area :=
  let as := if sel sid 0x40010 17 1 s = 0 then mapAreas s else if plrReady s then maqAreas s else []
  findArea (sel sid 0x40010 0 17 s) as

def TeState.code : TeState → Nat
  | .free => 0 | .queued => 1 | .running => 2 | .done => 3 | .aborted => 4 | .notRun => 5 | .refused => 6

def readMEM (sid : Nat) (s : State) : List ReadRow :=
  let a := areaShown sid s
  let b := vget State.bank0 s.mem.banks (sel sid 0x40020 0 5 s)
  let d := teSlot s (sel sid 0x40130 0 8 s)
  [r1 0x00 (0x20 ||| at_ 0x13 8 ||| at_ 3 16 ||| at_ 6 20 ||| at_ 0x14 24),
   r1 0x14 (w ((a.map (·.base)).getD 0) ||| flag a.isSome 31), r1 0x18 (w ((a.map (·.len)).getD 0)),
   r1 0x1C ((a.map (·.vid)).getD 0), r1 0x24 (w b.grantsLast), r1 0x28 (w b.waitMax),
   r1 0x124 (w (vget 0 s.mem.teLast sid)),
   r1 0x128 (w (inFlight s false) ||| at_ (inFlight s true) 8 ||| flag s.mem.halted 16),
   r1 0x134 (w d.state.code ||| at_ d.op 3 ||| flag d.firmware 5 ||| (wide d.tag <<< 16)),
   r1 0x138 (if d.state = .done then d.result else 0)]

/-! ### NE -/

def SvState.code : SvState → Nat
  | .off => 0 | .lost => 1 | .run => 2
def PubState.code : PubState → Nat
  | .off => 0 | .run => 1 | .halted => 2 | .key => 3

/-- Status words of an object (NE_STS_WIN_n). -/
def neStatus (kind i : Nat) (s : State) : List Word :=
  match kind with
  | 0 => let v := svSub s i
    [w v.state.code ||| at_ v.mrun 8 ||| (wide v.lastDrop <<< 16)] ++ v.cnt.toList ++ [w v.lastSmp]
  | 1 => let g := gsSub s i
    [w g.state.code ||| (gsStatus g <<< 16), g.st, g.sq] ++ g.cnt.toList ++ [w g.tal]
  | 2 => let p := svPub s i
    [w p.state.code, p.sent, w p.lastSmp]
  | _ => let p := goPub s i
    [w p.state.code, p.st, p.sq, p.sent, if p.last.isSome then w (gpInterval s i p.nextN) else 0]

/-- KIND and INDEX of a session's object, and whether the active side is shown. -/
def neKind (sid : Nat) (s : State) : Nat := sel sid 0x50100 0 2 s
def neIndex (sid : Nat) (s : State) : Nat := sel sid 0x50100 8 8 s
def neSide (sid : Nat) (s : State) : Bool := (sesReg sid 0x50100 s).getLsbD 16

def readNE (sid : Nat) (s : State) : List ReadRow :=
  let k := neKind sid s
  let i := neIndex sid s
  let there := decide (i < neCount k)
  let port := sel sid 0x50050 0 4 s
  [r1 0x00 (0x18 ||| at_ 8 8 ||| at_ 0x40 16 ||| at_ 0xFF 24), r1 0x04 (w Config.baseMac.toNat),
   r1 0x08 (w (Config.baseMac.toNat / 2 ^ 32)), rN 0x30 6 (pairSts s), r1 0x48 (wide s.ne.evt),
   rN 0x60 8 (fun n => if port < 12 then vget 0 (vget (Vector.replicate 8 0) s.ne.portCnt port) n else 0),
   rN 0x200 64 (fun n => if !there then 0 else if neSide sid s then neAct s k i n else neStg s k i n),
   rN 0x300 16 (fun n => if there then nth (neStatus k i s) n else 0)]

/-! ### TIM, RTC -/

def TimState.code : TimState → Nat
  | .freerun => 0 | .acquiring => 1 | .locked => 2 | .holdover => 3

/-- IRIG reference markers have been seen within the last 2 s. -/
def irigPresent (s : State) : Bool :=
  match s.tim.irigCyc with
  | some c => decide (s.clk.cyc ≤ c + 2 * cycSec)
  | none => false

/-- A signed register, saturating. -/
def signedWord (x : Int) : Word := BitVec.ofInt 32 (sat32 x)

def readTIM (sid : Nat) (s : State) : List ReadRow :=
  let t := s.tim
  let port := sel sid 0x60050 0 4 s
  let gm := (gmClock s).map (·.id)
  [r1 0x00 (w t.state.code ||| at_ t.src 2 ||| flag t.holdLim 4 ||| flag t.realign 5 ||| flag t.everLocked 6
     ||| flag t.ptpUtc.isSome 7 ||| at_ (min 65535 (holdSeconds s)) 16),
   r1 0x10 (reg 0x60010 s ||| at_ (utcOfs s) 16), r1 0x18 (w t.nowShadow), r1 0x1C (w (t.nowShadow / 2 ^ 32)),
   r1 0x20 (signedWord t.offset), r1 0x24 (signedWord t.freq), r1 0x28 (signedWord t.tickErr),
   r1 0x38 (w (gm.getD 0).toNat), r1 0x3C (w ((gm.getD 0).toNat / 2 ^ 32)),
   r1 0x40 (match t.slave with
     | some p => w p.val ||| 0x10 ||| at_ (((gmClock s).map (·.steps)).getD 0) 16
     | none => 0),
   r1 0x70 ((wide t.irigSts &&& 0xFC) ||| flag (irigPresent s) 0 ||| flag (timSource s 1).valid 1),
   r1 0x74 (reg 0x60074 s), r1 0x78 (wide t.evt),
   rN 0x60 8 (fun n => vget 0 (vget (Vector.replicate 8 0) t.cnt port) n)]

def readRTC (s : State) : List ReadRow :=
  let r := s.rtc
  let t (n : Nat) : Tamper := vget State.tamper0 r.tamp n
  [r1 0x08 (w r.gen ||| flag (!rtcNormal r) 8 ||| flag r.cellLow 9 ||| flag s.clk.power 10 ||| flag r.shift.isSome 11
     ||| flag r.alarm.isSome 12 ||| flag (!r.writes.isEmpty) 13),
   r1 0x0C (flag r.view 0 ||| flag r.test 1), r1 0x10 (w r.shiftAmt ||| flag r.shiftSub 15),
   r1 0x14 (w r.alarmReg), r1 0x18 (w (r.alarmReg / 2 ^ 32)), r1 0x1C (w r.fire), r1 0x20 (w (r.fire / 2 ^ 32)),
   r1 0x24 (wide r.evt), r1 0x30 (wide r.tampCfg),
   rN 0x40 6 (fun n => if n % 2 = 0 then w (t (n / 2)).count
     else w ((t (n / 2)).count / 2 ^ 32) ||| flag (t (n / 2)).offpwr 30 ||| flag (t (n / 2)).latched 31),
   rN 0x80 16 (fun n => vget 0 r.bkp n)]

/-! ### EQ, FIO, CAN -/

def eqKind (sid : Nat) (s : State) : Nat := sel sid 0x80280 0 2 s
def eqIndex (sid : Nat) (s : State) : Nat := sel sid 0x80280 8 8 s
def eqSide (sid : Nat) (s : State) : Bool := (sesReg sid 0x80280 s).getLsbD 16

def readEQ (sid : Nat) (s : State) : List ReadRow :=
  let e := s.eq
  let p := sel sid 0x80020 8 7 s
  let snap := visibleSnap (eqPoint s p)
  let k := eqKind sid s
  let i := eqIndex sid s
  let first : Vector Word 8 := match e.queue with
    | x :: _ => x.words
    | [] => Vector.replicate 8 0
  [r1 0x00 (0x60 ||| at_ 0xC0 8 ||| at_ 0x10 16 ||| at_ 8 24),
   r1 0x04 (flag e.run 0 ||| flag e.gapSts 1 ||| at_ (enabledPoints s).length 8), r1 0x0C (wide e.evt),
   r1 0x20 (flag e.hold 0 ||| at_ p 8), r1 0x24 (nth snap 1), r1 0x28 e.snapOvr, r1 0x40 (w e.queue.length),
   r1 0x48 e.saveSeq, r1 0x4C e.gapMs, rN 0x100 64 (nth snap), rN 0x200 8 (fun n => vget 0 first n),
   rN 0x300 32 (fun n => if eqCount k ≤ i then 0 else eqWord (if eqSide sid s then e.act else e.stg) k i n)]

def readFIO (s : State) : List ReadRow :=
  [r1 0x00 (0x20 ||| at_ 0x10 8),
   r1 0x04 ((groupWord s &&& 0xFF) ||| (bitsWord 2 (fun g => (ogrp s g).hbOut) <<< 8)), r1 0x08 (wide s.fio.evt),
   r1 0x10 (bitsWord 32 fun n => inPresent s n), r1 0x14 (bitsWord 16 (outOn s) ||| (bitsWord 16 (outRb s) <<< 16)),
   rN 0xC0 32 (fun n => (fin_ s n).stamp), rN 0x180 16 (fun n => w (fout s n).code ||| at_ (fout s n).retries 16)]

/-- Registers of one controller. -/
def readCANn (n : Nat) (s : State) : List ReadRow :=
  let c := canCtl s n
  [r1 0x00 (reg (canReg n 0) s ||| flag ((reg (canReg n 8) s).getLsbD 28) 4),
   r1 0x0C (w c.state.code ||| flag c.btErr 3 ||| flag c.refLost 4 ||| at_ (min 511 c.tec) 8 ||| at_ (min 255 c.recv) 17),
   r1 0x10 (wide c.evt), rN 0x20 8 (fun k => vget 0 c.cnt k)]

/-! ### HSB, NVS, EVR -/

def readHSB (s : State) : List ReadRow :=
  let h := s.hsb
  [r1 0x04 (nth (hsbWords s) 0 ||| flag (h.xferFrom.isSome || (h.role == .active && h.peerRole == some .syncing)) 11 ||| at_ h.refuse 12 ||| flag h.handover.isSome 16),
   r1 0x08 (wide h.evt), r1 0x20 h.divFrame, r1 0x24 h.divWord, r1 0x28 h.divOwn, r1 0x2C h.divPeer,
   rN 0x40 8 (fun n => vget 0 h.cnt n)]

def readNVS (sid : Nat) (s : State) : List ReadRow :=
  let v := s.nvs
  let ses := session sid s
  [r1 0x00 (0x8000 ||| at_ 8 16),
   r1 0x04 (w v.jrnl ||| flag v.flushOk 2 ||| flag (v.jop.isSome || s.sys.flush != .none) 3), r1 0x08 (wide v.evt),
   r1 0x10 (w ((ses.map (·.lastWrCount)).getD 0) ||| at_ ((ses.map (·.lastWrPage)).getD 0) 16), r1 0x14 v.ceCnt,
   r1 0x18 (w v.ueAddr), r1 0x1C v.jseq,
   r1 0x20 (wide v.flushParts ||| flag v.flushOk 4 ||| (wide v.flushCause <<< 16)), r1 0x24 v.flushFrame,
   r1 0x38 v.cntShadow, r1 0x3C (ringOf s (sel sid 0xC0030 0 3 s)).seq,
   rN 0x80 8 (fun n => BitVec.setWidth 32 (v.locked >>> (32 * n)))]

/-- A session's recorder window. -/
def evrWin (sid : Nat) (s : State) : EvrWin :=
  match session sid s with
  | some ss => ss.win
  | none => ⟨0, 0, Vector.replicate 8 0⟩

def readEVR (sid : Nat) (s : State) : List ReadRow :=
  let v := s.evr
  let x := evrWin sid s
  [r1 0x08 (w (evrCode s) ||| flag (evrBuffered s) 2 ||| at_ v.pending.length 3 ||| at_ v.queue.length 16),
   r1 0x0C (wide v.evt), r1 0x10 (w (evrNextN s)), r1 0x14 (w (evrTotalN s)), r1 0x18 (w (evrOldestN s)), r1 0x1C v.lost,
   r1 0x20 x.cursor, r1 0x28 (wide x.sts), rN 0x40 8 (fun n => vget 0 x.words n)]

/-! ### KEY, UPD, HL -/

/-- Slots in a state. -/
def slotsIn (st : SlotState) (s : State) : List Nat := where_ 64 fun i => (keySlot s i).state == st

/-- Material words of a slot. -/
def materialWord (k : KeySlot) (n : Nat) : Word := BitVec.ofNat 32 (leNat ((k.material.toList.drop (4 * n)).take 4))

def OpState.code : OpState → Nat
  | .idle => 0 | .running => 1 | .done => 2 | .aborted => 3 | .refused => 4

def readKEY (sid : Nat) (s : State) : List ReadRow :=
  let k := keySlot s (sel sid 0xE0010 0 6 s)
  let e := s.key
  [r1 0x00 (w (lifecycle s) ||| (bitsWord 3 (fun n => (vget State.tamper0 s.rtc.tamp n).latched) <<< 4) ||| flag e.rngOk 7
     ||| at_ (slotsIn .bad s).length 8 ||| at_ (slotsIn .locked s).length 16 ||| flag e.wr.isSome 24),
   r1 0x04 (wide e.evt), rN 0x08 2 (fun h => bitsWord 32 fun b => (keySlot s (32 * h + b)).state == .bad),
   r1 0x14 (w k.state.code ||| flag k.ue 2), r1 0x18 (if k.state = .bad then 0 else k.attr),
   rN 0x80 8 (fun n => if k.state = .valid ∧ k.attr.getLsbD bitEXPORT then materialWord k n else 0),
   r1 0x210 (w e.opState.code), rN 0x220 8 (fun n => if e.opState = .done then vget 0 e.opRes n else 0)]

def BankState.code : BankState → Nat
  | .empty => 0 | .partial_ => 1 | .complete => 2 | .verified => 3

def readUPD (s : State) : List ReadRow :=
  let u := s.upd
  [r1 0x00 (2 ||| at_ 6 4 ||| at_ 1 8),
   r1 0x04 (flag u.running 0 ||| flag u.pending 1 ||| flag u.trial 2 ||| flag u.expired 3 ||| flag u.fallback 4
     ||| flag u.rolledBack 5 ||| flag u.recovery 6 ||| flag u.holder.isSome 7 ||| at_ u.sess.code 8
     ||| at_ ((u.holder.map (·.val)).getD 0) 14 ||| at_ (bankOf s 0).state.code 16 ||| at_ (bankOf s 1).state.code 18),
   r1 0x08 (wide u.evt), r1 0x0C ((if booting s then 0 else w u.bootMs) ||| at_ u.trialN 16),
   r1 0x10 (wide u.stestPass ||| at_ u.stestFail 8 ||| (wide u.stestSkip <<< 11)), r1 0x14 u.stestArg,
   r1 0x30 (wide u.result), r1 0x34 (w u.nextOff), r1 0x38 (w u.total),
   r1 0x3C (if u.sess = .verifying then w (min 100 (Config.progress (s.clk.cyc - u.verifyFrom))) else 0),
   rN 0x40 2 (fun b => if (bankOf s b).state = .empty then 0 else (bankOf s b).version),
   r1 0x50 (if trialRuns s then w (600 - (s.clk.opSec - u.tstart)) else 0), rN 0x80 6 (fun n => vget 0 u.partVer n)]

/-- HL_SESS_n. -/
def sessWord (s : State) (n : Nat) : Word :=
  match session n s with
  | none => 0
  | some ss =>
    let udp := match ss.ep with
      | .hp => false
      | .udp _ _ => true
    1 ||| at_ ss.role.val 1 ||| flag udp 3 ||| at_ (sesSlot n s) 4 ||| at_ (min 65535 ((s.clk.cyc - ss.lastExec) / cycSec)) 16

/-- HL_SESS_IP_n. -/
def sessIp (s : State) (n : Nat) : Word :=
  match session n s with
  | some ⟨.udp ip _, _, _, _, _, _, _, _, _, _⟩ => ip
  | _ => 0

def readHL (s : State) : List ReadRow :=
  let h := s.hl
  [r1 0x00 (1 ||| at_ 4 8),
   r1 0x10 (bitsWord 4 (fun n => (session n s).isSome) ||| flag (bootstrapOpen s) 4
     ||| flag (h.eps.any fun e => throttled e.ep s) 5),
   r1 0x14 (wide h.evt), r1 0x18 h.violCnt, r1 0x1C s.att.agen, rN 0x40 4 (sessWord s), rN 0x50 4 (sessIp s)]

/-! ### The address map -/

/-- Rows of the block at a number (bits 20:16 of the address) that do not simply hold a written value. -/
def readRows (sid blk off : Nat) (s : State) : List ReadRow :=
  match blk with
  | 0 => readSYS s
  | 1 => readFRM s
  | 2 => readLN sid s
  | 3 => readPLR sid s
  | 4 => readMEM sid s
  | 5 => readNE sid s
  | 6 => readTIM sid s
  | 7 => readRTC s
  | 8 => readEQ sid s
  | 9 => readFIO s
  | 10 => readCANn (off / 0x4000) s
  | 11 => readHSB s
  | 12 => readNVS sid s
  | 13 => readEVR sid s
  | 14 => readKEY sid s
  | 15 => readUPD s
  | 16 => readHL s
  | _ => []

/-- FIO_VIEW and CAN_n_VIEW select the active copies of staged registers (R47). -/
def viewActive (sid a : Nat) (s : State) : Bool :=
  if a / 0x10000 = 9 then (sesReg sid 0x9000C s).getLsbD 0
  else a / 0x10000 = 10 && (sesReg sid (0xA0040 + a % 0x10000 / 0x4000 * 0x4000) s).getLsbD 0

/-- A register that holds a written value, as a session reads it. -/
def heldValue (sid a : Nat) (s : State) : Word :=
  match regRow a with
  | none => 0
  | some r => match r.kind with
    | .session => sesReg sid a s
    | .staged _ => if viewActive sid a s then regAct a s else reg a s
    | _ => reg a s

/-- Value of the register at a host address; an offset that holds none reads 0 (R17). -/
def regValue (sid a : Nat) (s : State) : Word :=
  let off := if a / 0x10000 = 10 then a % 0x4000 else a % 0x10000
  match pick off (readRows sid (a / 0x10000) (a % 0x10000) s) with
  | some v => v
  | none => heldValue sid a s

/-- HL_ATTN_ROSE: the mask of the reading session, cleared by the read (R373). -/
def attnRoseOp (sid : Nat) (s : State) : Word × State :=
  let s := settle s
  (wide (vget 0 s.att.rose sid), { s with att := { s.att with rose := vset s.att.rose sid 0 } })

/-- A read whose register is latched, frozen, drawn or cleared by it. -/
def readEffect (sid a : Nat) : Option (State → Word × State) :=
  match a with
  | 0x10008 => some frameLoOp
  | 0x10018 => some k0LoOp
  | 0x60014 => some timNowOp
  | 0x70000 => some rtcTickLoOp
  | 0x70004 => some rtcTickHiOp
  | 0xC0034 => some (nvsCntLoOp sid)
  | 0xE0300 => some drawRng
  | 0x100020 => some (attnRoseOp sid)
  | _ => none

/-- A register whose parity fails is a CONTROL_CHECK (R18). -/
def parityCheck (a : Nat) (s : State) : State :=
  if s.sys.badRegs.contains a then parityDoubt a s else s

/-- A write to a block uses its other registers. -/
def blockParity (a : Nat) (s : State) : State :=
  forAll (s.sys.badRegs.filter fun r => r ≠ a && regBlock r == regBlock a) parityDoubt s

/-- A read of one register by a session. -/
def regRead (sid a : Nat) (s : State) : Word × State :=
  let s := parityCheck a s
  match readEffect sid a with
  | some f => f s
  | none => (regValue sid a s, s)

end Sys2Proof.Machine
end

