-- ==== Sys2Proof/Machine/RegWrite.lean ====
section
/-! DEFINITION. What a write to each register of the address map does, and the lowest role that may make it (R5, R6, R17,
R47, R48, R370, R371). -/
namespace Sys2Proof.Machine

/-! ### Shapes of a write -/

/-- Command bits of one word, acted on in bit order; the first answer that is not success ends them. -/
def inOrder : List (Bool × RegOp) → RegOp
  | [] => fun s => (.ok, s)
  | (c, op) :: t => fun s =>
    if c then
      match op s with
      | (.ok, s') => inOrder t s'
      | r => r
    else inOrder t s

/-- A write that is ignored. -/
def ignored : RegOp := fun s => (.ok, s)

/-- A command acts only with its key; any other value makes the write ignored. -/
def keyed (key : Nat) (v : Word) (op : RegOp) : RegOp := if field v 16 16 = key then op else ignored

/-- Command bits of which one at most may be set; more are BAD_OP. -/
def oneOf (cmds : List (Bool × RegOp)) : RegOp :=
  if 1 < (cmds.filter (·.1)).length then fun s => (.badOp, s) else inOrder cmds

/-- A commit that includes a group is armed (R48). -/
def groupArmed (g : Nat) (s : State) : Bool := s.frm.commitArmed && s.frm.commitGroups.getLsbD g

/-- The register's parity is whole again once it is written (R18). -/
def freshParity (a : Nat) (s : State) : State :=
  if s.sys.badRegs.contains a then { s with sys := { s.sys with badRegs := s.sys.badRegs.filter (· ≠ a) } } else s

/-- Fields whose values outside their range are clamped: low bit, width, least and largest value (TIM_PPSO.WIDTH,
EQ_CFG.SAVE_S, EVR_CFG.BUF_S, CAN_n_TM_CYC.CYC_US). -/
def clampField (a : Nat) : Option (Nat × Nat × Nat × Nat) :=
  if a = 0x60074 then some (2, 10, 1, 500)
  else if a = 0x80008 then some (0, 12, 1, 3600)
  else if a = 0xD0000 then some (8, 6, 1, 60)
  else if a / 0x10000 = 10 ∧ a % 0x4000 = 0x4C then some (0, 20, 250, 1000000)
  else none

/-- A word with its clamped field in range. -/
def clamped (a : Nat) (x : Word) : Word :=
  match clampField a with
  | none => x
  | some (i, n, lo, hi) => (x &&& ~~~w ((2 ^ n - 1) * 2 ^ i)) ||| w (max lo (min hi (field x i n)) * 2 ^ i)

/-- A setting that the parameter store keeps is written, and its record updated. -/
def keepReg (a : Nat) (x : Word) (s : State) : State := recordPut recSETTINGS 0 (setReg a x s)

/-- A write to a register that holds what is written: the bits of its fields, in its own copy. -/
def heldWrite (sid a : Nat) (v : Word) : RegOp := fun s =>
  match regRow a with
  | none => (.ok, s)
  | some r =>
    let x := clamped a (v &&& w r.mask)
    match r.kind with
    | .session => (.ok, setSesReg sid a x s)
    | .staged g => if groupArmed g s then (.busy, s) else (.ok, freshParity a (keepReg a x s))
    | .stored => (.ok, freshParity a (keepReg a x s))
    | .plain => (.ok, freshParity a (setReg a x s))

/-- Bits cleared where a 1 is written (W1C). -/
def w1c {n : Nat} (e : BitVec n) (v : Word) : BitVec n := e &&& ~~~(BitVec.setWidth n v)

/-! ### Commands of the blocks -/

/-- FRM_COMMIT_CTL: GROUPS, ARM, CANCEL. -/
def commitCtlOp (v : Word) : RegOp :=
  inOrder [(v.getLsbD 8, commitArmOp (BitVec.setWidth 5 v)), (v.getLsbD 9, commitCancelOp),
    (!v.getLsbD 8, always (setReg 0x10038 (v &&& 0x1F)))]

/-- PLR_CMD. -/
def plrCmdOp (v : Word) : RegOp :=
  oneOf [(v.getLsbD 0, loadOp), (v.getLsbD 1, placeOp), (v.getLsbD 2, swapOp), (v.getLsbD 3, swapCancelOp),
    (v.getLsbD 4, discardOp), (v.getLsbD 5, uncacheOp)]

/-- EQ_CMD. -/
def eqCmdOp (v : Word) : RegOp :=
  let p := field v 8 7
  eqCmdGate (BitVec.ofNat 7 p) (BitVec.ofNat 3 (field v 16 3))
    (oneOf [(v.getLsbD 0, pointClearOp p), (v.getLsbD 1, wrapClrOp p), (v.getLsbD 2, presetOp p (field v 16 3))])

/-- RTC_SHIFT: AMOUNT and SUB are written with either command; CANCEL is taken and GO with it is not. -/
def rtcShiftOp (v : Word) : RegOp :=
  let amount : BitVec 15 := BitVec.setWidth 15 v
  if v.getLsbD 17 then shiftCancelOp (v &&& 0xFFFF)
  else if v.getLsbD 16 then shiftGoOp amount (v.getLsbD 15)
  else domWriteOp aRTC_SHIFT (v &&& 0xFFFF)

/-- EVR_CTL. -/
def evrCtlOp (sid : Nat) (v : Word) : RegOp :=
  oneOf [(v.getLsbD 0, nextOp sid), (v.getLsbD 1, prevOp sid), (v.getLsbD 2, keyed 0x434C v clearedOp),
    (v.getLsbD 3, writeNowOp)]

/-- KEY_CMD. -/
def keyCommandOp (sid : Nat) (v : Word) : RegOp :=
  keyed 0x4B59 v (if v.getLsbD 0 && v.getLsbD 1 then fun s => (.badOp, clearStaging s)
    else oneOf [(v.getLsbD 0, keyCmdOp sid false), (v.getLsbD 1, keyCmdOp sid true)])

/-- UPD_CMD. -/
def updCmdOp (sid : Nat) (v : Word) : RegOp :=
  keyed 0x5544 v (oneOf [(v.getLsbD 0, updOpenOp sid), (v.getLsbD 1, chunkOp sid), (v.getLsbD 2, verifyOp),
    (v.getLsbD 3, activateOp), (v.getLsbD 4, updAbortOp sid), (v.getLsbD 5, deactivateOp), (v.getLsbD 6, confirmOp)])

/-- HL_CMD.CLOSE: a closed SID is ignored. -/
def hlCloseOp (target : Nat) : RegOp := always (closeSession target 3)

/-- EQ_SNAP_CTL: POINT is the session's, HOLD the module's. -/
def snapCtlOp (sid : Nat) (v : Word) : RegOp :=
  inOrder [(true, heldWrite sid 0x80020 v), (true, snapHoldOp (v.getLsbD 0))]

/-! ### Configuration windows -/

/-- Bits of the staged words of a network object (NE_CFG_WIN); reserved words and bits hold nothing. -/
def neMask (kind n : Nat) : Nat :=
  let sub := kind = kSVSUB ∨ kind = kGSSUB
  let goose := kind = kGSSUB ∨ kind = kGOPUB
  if n = 0 then 0x4FF + (if sub then 0x300 else 0) + (if kind = kSVPUB then 0x70000 else 0)
  else if n = 1 then (if kind = kSVSUB then 0xFFFFF else if kind = kGOPUB then 0x3FFFFFF else 0)
  else if n = 2 then (if sub then 0xFFFFFFF else 0x7FFFFFFF)
  else if n = 3 ∨ n = 5 ∨ (16 ≤ n ∧ n < 32) then 0xFFFFFFFF
  else if n = 4 then 0xFFFF
  else if n = 6 then (if sub then 0x7F3F else 0x3F)
  else if n = 7 then (if goose then 0x3F else 0)
  else if n < 12 then (if goose then 0xFFFFFFFF else 0)
  else if 32 ≤ n ∧ kind = kGOPUB then 0xFFFFFFFF
  else 0

/-- NE_CFG_WIN_n. -/
def neWinOp (sid n : Nat) (v : Word) : RegOp := fun s =>
  let k := neKind sid s
  let i := neIndex sid s
  let pair := field v 1 3
  if groupArmed 0 s then (.busy, s)
  else if neSide sid s ∨ neCount k ≤ i then (.ok, s)
  else if n = 0 ∧ field v 5 2 = 3 then (.badOp, s)
  else if n = 0 ∧ (k = kSVSUB ∨ k = kSVPUB) ∧ (pair = 4 ∨ pair = 5) then (.denied, s)
  else (.ok, recordPut recSETTINGS 0
    { s with ne := { s.ne with stg := sput zeroWord (neKey k i n) (v &&& w (neMask k n)) s.ne.stg } })

/-- Bits of the staged words of a metering object (EQ_CFG_WIN). -/
def eqMask (kind n : Nat) : Nat :=
  match kind with
  | 0 => ([0x7, 0xFFFFFF, 0xFFFFFF, 0xF, 0xFFFF, 0xFFFFFFFF] : List Nat).getD n 0
  | 1 =>
    if n = 0 then 0x73 else if 2 ≤ n ∧ n < 10 then 0xFFFF else if n < 28 then 0xFFFFFFFF else 0
  | 2 => ([0x77F01, 0xFFFFFFFF, 0xFFFF] : List Nat).getD n 0
  | _ => ([0xF01] : List Nat).getD n 0

/-- A write that would change the phase count, the channels or QEXP of a point (R236). -/
def eqFixed (i n : Nat) (v : Word) (s : State) : Bool :=
  (n == 0 && field v 1 2 != field (eqWord s.eq.stg kPOINT i 0) 1 2) || n == 1 || n == 2 || n == 3

/-- EQ_CFG_WIN_n. -/
def eqWinOp (sid n : Nat) (v : Word) : RegOp := fun s =>
  let k := eqKind sid s
  let i := eqIndex sid s
  if groupArmed 1 s then (.busy, s)
  else if eqSide sid s ∨ eqCount k ≤ i then (.ok, s)
  else if k = kPOINT ∧ ptEn s.eq.act i ∧ eqFixed i n v s then (.denied, s)
  else (.ok, recordPut recSETTINGS 0
    (modEq (fun e => { e with stg := sput eqDefault (neKey k i n) (v &&& w (eqMask k n)) e.stg }) s))

/-! ### Registers with rules of their own -/

/-- Writes in SYS to NE; `none` leaves the write to the register that holds it. -/
def writeA (sid a : Nat) (v : Word) : Option RegOp :=
  match a with
  | 0x00020 => some (keyed 0x9A3E v (inOrder [(v.getLsbD 0, hostResetOp sid)]))
  | 0x1002C => some (always fun s => { s with frm := { s.frm with evt := w1c s.frm.evt v } })
  | 0x10030 => some fun s => if s.frm.commitArmed then (.busy, s) else heldWrite sid a v s
  | 0x10034 => some fun s => if s.frm.commitArmed then (.busy, s) else heldWrite sid a v s
  | 0x10038 => some (commitCtlOp v)
  | 0x10048 => some (inOrder [(v.getLsbD 0, frmClrMaxOp)])
  | 0x1004C => some (hostEventOp v)
  | 0x20030 => some (inOrder [(v.getLsbD 0, lnClrMaxOp)])
  | 0x2100C => some (chiselGated sid
      (oneOf [(v.getLsbD 0, sealOp sid), (v.getLsbD 1, chiselClearOp sid), (v.getLsbD 2, chiselCopyOp sid)]))
  | 0x21020 => some (chiselWriteOp sid 0 v)
  | 0x30000 => some (if 5 ≤ field v 0 5 ∧ field v 0 5 ≤ 30 then heldWrite sid a v else ignored)
  | 0x30010 => some (plrCmdOp v)
  | 0x30014 => some fun s => if s.plr.state = .armed then (.busy, s) else heldWrite sid a v s
  | 0x30018 => some fun s => if s.plr.state = .armed then (.busy, s) else heldWrite sid a v s
  | 0x4002C => some (inOrder [(v.getLsbD 0, memClrMaxOp)])
  | 0x40120 => some (oneOf [(v.getLsbD 0, submitOp sid), (v.getLsbD 1, teAbortOp (field v 8 8))])
  | 0x50048 => some (always fun s => { s with ne := { s.ne with evt := w1c s.ne.evt v } })
  | 0x5004C => some (inOrder [(v.getLsbD 0, neClrCntOp)])
  | _ =>
    match runIdx 0x21100 64 4 a with
    | some n => some (chiselWriteOp sid (n + 1) v)
    | none => (runIdx 0x50200 64 4 a).map fun n => neWinOp sid n v

/-- Writes in TIM, RTC, EQ, FIO and CAN. -/
def writeB (sid a : Nat) (v : Word) : Option RegOp :=
  match a with
  | 0x60004 => some fun s => let (r, s) := heldWrite sid a v s; (r, timReselect s)
  | 0x60078 => some (always fun s => { s with tim := { s.tim with evt := w1c s.tim.evt v } })
  | 0x7000C => some (domWriteOp a (v &&& 0x3))
  | 0x70010 => some (rtcShiftOp v)
  | 0x70014 => some (domWriteOp a v)
  | 0x70018 => some (domWriteOp a (v &&& 0x8000FFFF))
  | 0x70024 => some (domWriteOp a (v &&& 0x1F))
  | 0x70030 => some (domWriteOp a (v &&& 0x77))
  | 0x8000C => some (always fun s => modEq (fun e => { e with evt := w1c e.evt v }) s)
  | 0x80010 => some (eqCmdOp v)
  | 0x80020 => some (snapCtlOp sid v)
  | 0x80044 => some (inOrder [(v.getLsbD 0, pqPopOp)])
  | 0x90008 => some (always fun s => { s with fio := { s.fio with evt := w1c s.fio.evt v } })
  | _ =>
    match runIdx aRTC_BKP 16 4 a with
    | some n => some (if n < 6 then fun s => (.denied, s) else domWriteOp a v)
    | none =>
      match runIdx 0x80300 32 4 a with
      | some n => some (eqWinOp sid n v)
      | none =>
        if a / 0x10000 = 10 then
          let n := a % 0x10000 / 0x4000
          match a % 0x4000 with
          | 0x10 => some (always (modCan n fun c => { c with evt := w1c c.evt v }))
          | 0x14 => some (inOrder [(v.getLsbD 0, recoverOp n), (v.getLsbD 1, canClrCntOp n)])
          | _ => none
        else none

/-- Writes in HSB to HL. -/
def writeC (sid a : Nat) (v : Word) : Option RegOp :=
  match a with
  | 0xB0008 => some (always fun s => modHsb (fun h => { h with evt := w1c h.evt v }) s)
  | 0xB000C => some (oneOf [(v.getLsbD 0, handoverOp), (v.getLsbD 1, handoverCancelOp), (v.getLsbD 2, hsbClrCntOp)])
  | 0xB0010 => some fun s => if s.hsb.handover.isSome then (.busy, s) else heldWrite sid a v s
  | 0xB0014 => some fun s => if s.hsb.handover.isSome then (.busy, s) else heldWrite sid a v s
  | 0xC0008 => some (always fun s => modNvs (fun n => { n with evt := w1c n.evt v }) s)
  | 0xC0044 => some (keyed 0x4C4B v (inOrder [(v.getLsbD 0, lockOp)]))
  | 0xD000C => some (always fun s => modEvr (fun e => { e with evt := w1c e.evt v }) s)
  | 0xD0020 => some (cursorOp sid v)
  | 0xD0024 => some (evrCtlOp sid v)
  | 0xE0004 => some (always fun s => modKey (fun k => { k with evt := w1c k.evt v }) s)
  | 0xE0020 => some (always (modKey fun k => { k with wrAttr := v }))
  | 0xE0060 => some (keyCommandOp sid v)
  | 0xE0100 => some (keyed 0x4C43 v (inOrder [(v.getLsbD 8, lcOp sid (field v 0 2))]))
  | 0xE0104 => some (keyed 0x5443 v (tamperClearOp sid (BitVec.setWidth 3 v)))
  | 0xE020C => some (inOrder [(v.getLsbD 0, keyGoOp)])
  | 0xF0008 => some (updGuard sid (always (modUpd fun u => { u with evt := w1c u.evt v })))
  | 0xF002C => some (updGuard sid (updCmdOp sid v))
  | 0x100014 => some (always (modHl fun h => { h with evt := w1c h.evt v }))
  | 0x100024 => some (inOrder [(v.getLsbD 0, hlCloseOp (field v 4 2))])
  | _ =>
    match runIdx 0xE0040 8 4 a with
    | some n => some (always (modKey fun k => { k with wrData := vset k.wrData n v }))
    | none =>
      match runIdx 0x100080 4 4 a with
      | some _ => some fun s => let (r, s) := heldWrite sid a v s; (r, closeUnfit s)
      | none => if a / 0x10000 = 15 then some (updGuard sid (heldWrite sid a v)) else none

/-- The rules of its own that a register has. -/
def ownRule (sid a : Nat) (v : Word) : Option RegOp :=
  if a < 0x60000 then writeA sid a v else if a < 0xB0000 then writeB sid a v else writeC sid a v

/-! ### Roles (R370) -/

/-- An offset holds a register. -/
def holdsReg (sid a : Nat) (v : Word) (s : State) : Bool :=
  let off := a % 0x10000
  let off := if a / 0x10000 = 10 then off % 0x4000 else off
  (regRow a).isSome || (readEffect sid a).isSome || (ownRule sid a v).isSome
    || (pick off (readRows sid (a / 0x10000) (a % 0x10000) s)).isSome

/-- Lowest role for registers that R370 names one by one; `none` where its blocks decide. -/
def namedRole (a : Nat) (v : Word) (s : State) : Option Nat :=
  match a with
  | 0x20 => some roleENGINEER
  | 0x1002C => some roleOPERATOR | 0x10048 => some roleOPERATOR | 0x1004C => some roleOPERATOR
  | 0x20030 => some roleOPERATOR
  | 0x2100C => some roleENGINEER | 0x21020 => some roleENGINEER
  | 0x4002C => some roleOPERATOR
  | 0x50048 => some roleOPERATOR | 0x5004C => some roleOPERATOR
  | 0x60078 => some roleOPERATOR
  | 0x7000C => some roleENGINEER | 0x70010 => some roleENGINEER | 0x70014 => some roleENGINEER
  | 0x70018 => some roleENGINEER | 0x70024 => some roleOPERATOR
  | 0x70030 => some (Config.choice 33 0 % 5)
  | 0x8000C => some roleOPERATOR | 0x80044 => some roleOPERATOR
  | 0x80010 => some (if v.getLsbD 1 && !v.getLsbD 0 && !v.getLsbD 2 then roleOPERATOR else roleENGINEER)
  | 0x80020 => some (if v.getLsbD 0 = s.eq.hold then roleOBSERVER else roleOPERATOR)
  | 0x90008 => some roleOPERATOR
  | 0xB0008 => some roleOPERATOR | 0xB000C => some roleOPERATOR
  | 0xC0008 => some roleOPERATOR | 0xC000C => some roleENGINEER
  | 0xC0040 => some rolePROVISIONER | 0xC0044 => some rolePROVISIONER
  | 0xD0000 => some roleENGINEER | 0xD0004 => some roleENGINEER
  | 0xD000C => some roleOPERATOR | 0xD0020 => some roleOBSERVER
  | 0xD0024 => some (if v.getLsbD 2 then roleENGINEER else if v.getLsbD 3 then roleOPERATOR else roleOBSERVER)
  | 0xE0004 => some roleOPERATOR | 0xE0020 => some rolePROVISIONER
  | 0xE0060 => some (if field v 16 16 = 0x4B59 ∧ v.getLsbD 0 ≠ v.getLsbD 1 then roleOBSERVER else rolePROVISIONER)
  | 0xE0100 => some rolePROVISIONER | 0xE0104 => some rolePROVISIONER
  | 0xE0200 => some roleOBSERVER | 0xE0204 => some roleOBSERVER | 0xE0208 => some roleOBSERVER
  | 0xE020C => some roleOBSERVER
  | 0xF0008 => some roleOPERATOR
  | 0x100004 => some roleENGINEER | 0x100008 => some roleENGINEER | 0x10000C => some roleENGINEER
  | 0x100014 => some roleOPERATOR | 0x100024 => some roleENGINEER
  | _ =>
    if (runIdx 0x21100 64 4 a).isSome || (runIdx aRTC_BKP 16 4 a).isSome then some roleENGINEER
    else if (runIdx 0xE0040 8 4 a).isSome || (runIdx 0x100080 4 4 a).isSome then some rolePROVISIONER
    else if a / 0x10000 = 10 ∧ (a % 0x4000 = 0x10 ∨ a % 0x4000 = 0x14) then some roleOPERATOR
    else none

/-- Blocks whose other registers R370 gives to ENGINEER: FRM, PLR, MEM, NE, TIM, EQ, FIO, CAN, HSB and UPD. -/
def engineerBlocks : List Nat := [1, 3, 4, 5, 6, 8, 9, 10, 11, 15]

/-- A register of which each session holds its own copy (R371). -/
def sessionHeld (a : Nat) : Bool :=
  match regRow a with
  | some r => r.kind == .session && decide (a / 0x10000 ≠ 15)
  | none => false

/-- The lowest role that may write a word to an address. An offset that holds no register has no lowest role (R17). -/
def regRole (sid a : Nat) (v : Word) (s : State) : Nat :=
  match namedRole a v s with
  | some r => r
  | none =>
    if sessionHeld a then roleOBSERVER
    else if engineerBlocks.contains (a / 0x10000) && holdsReg sid a v s then roleENGINEER
    else roleOBSERVER

/-- The register's own rule, once the role allows the write. -/
def regOwn (sid a : Nat) (v : Word) : RegOp := (ownRule sid a v).getD (heldWrite sid a v)

/-- A write of one word by a session: in ROM recovery only UPD registers are written (R385); then the role, then the
register's own rule. -/
def regWrite (sid a : Nat) (v : Word) : RegOp := fun s =>
  if sesRole sid s < regRole sid a v s ∨ !recoveryOk (decide (a / 0x10000 = 15)) s then (.denied, s)
  else regOwn sid a v (blockParity a s)

end Sys2Proof.Machine
end

