-- ==== Sys2Proof/Machine/HlRows.lean ====
section
/-! DEFINITION. The host link (R360 to R377): requests, the two spaces, sessions and authentication, the transports. -/
namespace Sys2Proof.Machine

/-! ### Spaces (R365, R366) -/

/-- What a request does once its session may execute it: the result, the bytes done, and the payload of the reply. -/
structure Done where
  res : Res
  len : Nat
  payload : List Byte
  state : State

/-- A request that is answered and does nothing. -/
def stopped (r : Res) (s : State) : Done := ⟨r, 0, [], s⟩

/-- LEN and alignment of a REG request, then its range within one block (R15). -/
def regShape (a len : Nat) : Res :=
  if a % 4 ≠ 0 ∨ len % 4 ≠ 0 ∨ len < 4 ∨ 256 < len then .badLen
  else if 0x110000 ≤ a ∨ a / 0x10000 ≠ (a + len - 1) / 0x10000 then .badSpace
  else .ok

/-- A request of the holder of the update lock to the UPD block (R387). -/
def touchBlock (sid a : Nat) (s : State) : State := if a / 0x10000 = 15 then updTouch sid s else s

/-- Words read in ascending order (R366). -/
def readWords (sid : Nat) : Nat → Nat → State → List Byte × State
  | 0, _, s => ([], s)
  | n + 1, a, s =>
    let (x, s) := regRead sid a s
    let (bs, s) := readWords sid n (a + 4) s
    (wordBytes x ++ bs, s)

/-- Words written in ascending order: the first answer that is not success ends the request (R366). An answer that
follows its command lets the next word be taken and is given at the end. -/
def writeWords (sid : Nat) : List Word → Nat → Nat → Bool → State → Done
  | [], _, done, owed, s => ⟨if owed then .later else .ok, done, [], s⟩
  | x :: t, a, done, owed, s =>
    match regWrite sid a x s with
    | (.ok, s') => writeWords sid t (a + 4) (done + 4) owed s'
    | (.later, s') => writeWords sid t (a + 4) (done + 4) true s'
    | (r, s') => ⟨r, done, [], s'⟩

/-- Windows whose ADDR and LEN must be aligned (R365). -/
def Win.aligned : Win → Bool
  | .shared => true | .prog => true | _ => false

/-- A range of a window: alignment first, then its end (R365, R17). -/
def memShape (a len : Nat) : Res :=
  match winOf a with
  | none => .badSpace
  | some (x, o) =>
    if x.aligned ∧ (a % 4 ≠ 0 ∨ len % 4 ≠ 0) then .badLen else if x.size < o + len then .badSpace else .ok

/-- READ. -/
def readOp (sid space a len : Nat) (s : State) : Done :=
  if space = 0 then
    match regShape a len with
    | .ok =>
      let (bs, s) := readWords sid (len / 4) a (touchBlock sid a s)
      ⟨.ok, len, bs, s⟩
    | r => stopped r s
  else
    match memShape a len, winOf a with
    | .ok, some (x, o) =>
      let (bs, s) := winRead x o len s
      ⟨.ok, len, bs, s⟩
    | r, _ => stopped r s

/-- Role that the regions of the parameter store ask of a writer; none writes the others (R312). -/
def regionRole (o : Nat) : Nat :=
  if 0x1E8000 ≤ o then roleENGINEER else if 192 * 64 ≤ o ∧ o < 0x4000 then rolePROVISIONER else 4

/-- A write to the parameter store: up to the end of its page (R314), refused by region and lock (R312, R322), held off by
a flush (R324). -/
def nvsWrite (sid o : Nat) (bs : List Byte) (s : State) : Done :=
  if sesRole sid s < regionRole o then stopped .denied s
  else if s.sys.flush ≠ .none then stopped .busy s
  else if o < 0x4000 ∧ s.nvs.locked.getLsbD (o / 64) then stopped .denied s
  else
    let n := min bs.length (64 - o % 64)
    let s := nvPut o (bs.take n) (nvMerge o n s)
    ⟨.ok, n, [], modSession sid (fun ss => { ss with lastWrCount := n, lastWrPage := o / 64 }) s⟩

/-- A write to shared memory, within the transfer and working area (R178). -/
def sharedWrite (o : Nat) (bs : List Byte) (s : State) : Done :=
  if inTransfer s o bs.length then ⟨.ok, bs.length, [], shPut o bs s⟩ else stopped .denied s

/-- A write to lane program memory (R16, R17, R163). -/
def progWrite (o : Nat) (bs : List Byte) (s : State) : Done :=
  if touchesActive s o bs.length then stopped .denied s
  else if s.plr.state = .placing ∨ s.plr.state = .armed then stopped .busy s
  else ⟨.ok, bs.length, [], if bs = [] then s else maquettePut o bs s⟩

/-- WRITE. -/
def writeOp (sid space a : Nat) (bs : List Byte) (s : State) : Done :=
  if space = 0 then
    match regShape a bs.length with
    | .ok => writeWords sid (bytesWords (bs.length / 4) bs) a 0 false s
    | r => stopped r s
  else
    match memShape a bs.length, winOf a with
    | .ok, some (x, o) =>
      if s.upd.recovery ∨ x = .nor then stopped .denied s
      else if x = .nvs then nvsWrite sid o bs s
      else if sesRole sid s < roleENGINEER then stopped .denied s
      else if x = .shared then sharedWrite o bs s
      else progWrite o bs s
    | r, _ => stopped r s

/-! ### Sessions (R367 to R369) -/

/-- A session opens: its own copies of registers at their reset values, NOTE 0xC001. -/
def openSession (sid : Nat) (ep : Endpoint) (role : Fin 4) (slot : Option (Fin 64)) (s : State) : State :=
  let win : EvrWin := ⟨w (evrOldestN s), 0, Vector.replicate 8 0⟩
  let ss : Session := ⟨ep, role, slot, none, none, s.clk.cyc, [], win, 0, 0⟩
  let n := match slot with
    | some k => k.val
    | none => 0x3F
  let s := { s with att := { s.att with rose := vset s.att.rose sid 0 } }
  note 0xC001 srcHL (w sid) (w role.val) (w n)
    (modHl (fun h => { h with sessions := vset h.sessions sid (some ss), hellos := vset h.hellos sid none }) s)

/-- Lane cycles for which a challenge waits for its AUTH. -/
def helloLife : Nat := 5 * cycSec

/-- SIDs that no session holds and no waiting challenge reserves. -/
def freeSids (s : State) : List Nat :=
  where_ 4 fun n => (session n s).isNone && match vget none s.hl.hellos n with
    | none => true
    | some h => decide (h.since + helloLife < s.clk.cyc)

/-- Four random words. -/
def challenge (s : State) : List Byte × State :=
  let (a, s) := drawRng s
  let (b, s) := drawRng s
  let (c, s) := drawRng s
  let (d, s) := drawRng s
  (wordsBytes [a, b, c, d], s)

/-- The answer to HELLO: SID, reserved bytes, challenge. -/
def helloReply (sid : Nat) (ch : List Byte) : List Byte := leBytes 4 sid ++ ch

/-- HELLO (R368, R369). Which of the free SIDs it takes is left open. -/
def helloOp (ep : Endpoint) (role : Fin 4) (slot : Fin 64) (s : State) : Done :=
  let free := freeSids s
  let sid := free.getD (Config.choice 37 s.clk.cyc % free.length) 0
  if free = [] then stopped .busy s
  else if ep = .hp ∧ role.val = rolePROVISIONER ∧ slot.val = 0x3F ∧ bootstrapOpen s then
    ⟨.ok, 20, helloReply sid (List.replicate 16 0), openSession sid ep role none s⟩
  else if !s.key.rngOk then stopped .denied s
  else
    let (ch, s) := challenge s
    ⟨.ok, 20, helloReply sid ch,
      modHl (fun h => { h with hellos := vset h.hellos sid (some ⟨ep, role, slot, ch, s.clk.cyc⟩) }) s⟩

/-- The tag that AUTH must carry. -/
def helloTag (sid : Nat) (h : Hello) (s : State) : List Byte :=
  hmac256 (slotKey s h.slot.val) (h.challenge ++ leBytes 1 h.role.val ++ leBytes 1 h.slot.val ++ leBytes 1 sid)

/-- The conditions of R368. -/
def authMatches (ep : Endpoint) (sid : Nat) (tag : List Byte) (h : Hello) (s : State) : Bool :=
  h.ep == ep && decide (s.clk.cyc ≤ h.since + helloLife) && slotAuthOk h.slot.val h.role.val s && tag == helloTag sid h s

/-- AUTH refused. -/
def authFail (ep : Endpoint) (slot role : Word) (s : State) : Done :=
  stopped .denied (note 0xC003 srcHL (epParam ep) slot role (modHl (fun h => { h with evt := setBit h.evt 1 }) s))

/-- AUTH (R368): a challenge serves one AUTH only. -/
def authOp (ep : Endpoint) (sid : Nat) (tag : List Byte) (s : State) : Done :=
  match vget none s.hl.hellos sid with
  | none => authFail ep (un 0xC003 1 s) (un 0xC003 2 s) s
  | some h =>
    let ok := authMatches ep sid tag h s
    let s := modHl (fun l => { l with hellos := vset l.hellos sid none }) s
    if ok then ⟨.ok, 0, [], openSession sid ep h.role (some h.slot) s⟩ else authFail ep (w h.slot.val) (w h.role.val) s

/-! ### Answering -/

/-- The boot ROM that the watchdog restarted answers the host only after its flush (R29). -/
def linkDeaf (s : State) : Bool := s.sys.mgmtRestarted && s.sys.flush != .none

/-- UDP is served: enabled at reset, with an address, and not in ROM recovery (R361, R385). -/
def udpOn (s : State) : Bool := s.hl.udpEn && s.hl.ip != 0 && !s.upd.recovery

/-- Requests of an endpoint arrive. -/
def epHeard (ep : Endpoint) (s : State) : Bool :=
  !linkDeaf s && match ep with
    | .hp => true
    | .udp _ _ => udpOn s

/-- Answer a request that no session executes. -/
def answerDone (ep : Endpoint) (seq : BitVec 16) (sid : BitVec 8) (d : Done) : State :=
  answerFree ep seq sid d.res d.payload d.state

/-- Answer a request that a session has executed. -/
def finishDone (sid : Nat) (ep : Endpoint) (seq : BitVec 16) (d : Done) : State :=
  finishRequest sid ep seq d.res d.len d.payload d.state

/-- A request of an open session, as one of its commands: not while it is throttled (R375), not while its previous one
executes (R365). -/
def sessionDo (sid : Nat) (op : State → Done) (s : State) : State :=
  match session sid s with
  | none => s
  | some ss =>
    if throttled ss.ep s then answerThrottled ss.ep (nextSeq ss) (BitVec.ofNat 8 sid) s
    else if sessionBusy sid s then answerBusy sid ss.ep (nextSeq ss) s
    else finishDone sid ss.ep (nextSeq ss) (op s)

/-- A request that needs no session, from an endpoint. -/
def freeDo (ep : Endpoint) (sid : BitVec 8) (op : State → Done) (s : State) : State :=
  if !epHeard ep s then s
  else if throttled ep s then answerThrottled ep 0 sid s
  else answerDone ep 0 sid (op s)

/-- NOP, and CLOSE. -/
def nopOp (s : State) : Done := ⟨.ok, 0, [], s⟩
def closeOp (sid : Nat) (s : State) : Done := ⟨.ok, 0, [], closeSession sid 0 s⟩

/-! ### Requests as they arrive (R360 to R364) -/

/-- The bytes from the first valid magic on. -/
def fromMagic : List Byte → Option (List Byte)
  | [] => none
  | b :: t => match t with
    | [] => none
    | c :: _ => if b = 0x5A ∧ c = 0x4F then some (b :: t) else fromMagic t

/-- A request header (R362). -/
structure Header where
  seq : BitVec 16
  op : Nat
  space : Nat
  flags : Nat
  addr : Nat
  len : Nat

/-- The header of a request; bytes that a short request lacks are open. -/
def reqHeader (bs : List Byte) (s : State) : Header :=
  let pad := (List.range 16).map fun i => BitVec.ofNat 8 (Config.choice 36 (s.clk.cyc * 16 + i))
  let h := bs ++ pad.drop bs.length
  let n (o k : Nat) : Nat := leNat ((h.drop o).take k)
  ⟨BitVec.ofNat 16 (n 2 2), n 4 1, n 5 1, n 6 2, n 8 4, n 12 4⟩

/-- SID of a request. -/
def Header.sid (h : Header) : Nat := h.flags % 8

/-- Operations with a payload (R362). -/
def Header.hasPayload (h : Header) : Bool := h.op == 0x02 || h.op == 0x11

/-- Size of a request (R374). -/
def sizeOk (h : Header) (bytes : Nat) : Bool :=
  decide (16 ≤ bytes) && decide (h.len ≤ 1024)
    && if h.hasPayload then decide (16 + h.len ≤ bytes) else decide (bytes ≤ 16)

/-- Operations of R365. -/
def opKnown (op : Nat) : Bool := [0x00, 0x01, 0x02, 0x10, 0x11, 0x12].contains op

/-- Unknown OP, an OP with the wrong SID kind, a reserved FLAGS bit (R374). -/
def opBad (h : Header) : Bool :=
  !opKnown h.op || decide (8 ≤ h.flags) || (h.op == 0x10 && h.sid != 7) || (h.sid != 7 && decide (3 < h.sid))

/-- What a session's request does. -/
def requestOp (h : Header) (payload : List Byte) (s : State) : Done :=
  if h.op = 0x00 then nopOp s
  else if h.op = 0x12 then closeOp h.sid s
  else if 1 < h.space then stopped .badSpace s
  else if h.op = 0x01 then readOp h.sid h.space h.addr h.len s
  else writeOp h.sid h.space h.addr payload s

/-- A request that names an open session, by its SEQ (R364). -/
def serveSession (h : Header) (ss : Session) (payload : List Byte) (ep : Endpoint) (s : State) : State :=
  let sid : BitVec 8 := BitVec.ofNat 8 h.sid
  let exec_ (s : State) : State := finishDone h.sid ep h.seq (requestOp h payload s)
  if ss.ep ≠ ep then answerDone ep h.seq sid (stopped .denied s)
  else if sessionBusy h.sid s then answerBusy h.sid ep h.seq s
  else match ss.lastSeq, ss.lastReply with
    | some q, some r =>
      if h.seq = q then
        let res := [Res.badMagic, .badLen, .badSpace, .badOp, .denied, .staleSeq].find? fun x => x.code == r.result
        let s := settle s
        sendReply ep { r with status := s.att.last, agen := s.att.agen } (match res with
          | some x => violation ep x s
          | none => s)
      else if 32767 < (h.seq - q).toNat then answerDone ep h.seq sid (stopped .staleSeq s)
      else exec_ s
    | _, _ => exec_ s

/-- A request with a valid header, by OP and SID. -/
def serve (h : Header) (payload : List Byte) (ep : Endpoint) (s : State) : State :=
  let sid : BitVec 8 := BitVec.ofNat 8 h.sid
  if h.op = 0x10 then
    answerDone ep h.seq sid (helloOp ep (Fin.ofNat 4 (h.addr % 4)) (Fin.ofNat 64 (h.addr / 256 % 64)) s)
  else if h.sid = 7 then answerDone ep h.seq sid (if h.op = 0x00 then nopOp s else stopped .denied s)
  else if h.op = 0x11 then answerDone ep h.seq sid (authOp ep h.sid payload s)
  else match session h.sid s with
    | some ss => serveSession h ss payload ep s
    | none => answerDone ep h.seq sid (if h.op = 0x00 then nopOp s else stopped .denied s)

/-- A request with its magic: size first, then OP, FLAGS and SID. -/
def requestIn (ep : Endpoint) (bs : List Byte) (s : State) : State :=
  let h := reqHeader bs s
  let sid : BitVec 8 := BitVec.ofNat 8 h.sid
  if throttled ep s then answerThrottled ep h.seq sid s
  else if !sizeOk h bs.length then answerDone ep h.seq sid (stopped .badLen s)
  else if opBad h then answerDone ep h.seq sid (stopped .badOp s)
  else serve h ((bs.drop 16).take h.len) ep s

/-- No magic: SEQ 0, and a SID that the manual leaves open. -/
def noMagic (ep : Endpoint) (s : State) : State :=
  let sid : BitVec 8 := BitVec.ofNat 8 (Config.choice 35 s.clk.cyc)
  if throttled ep s then answerThrottled ep 0 sid s else answerDone ep 0 sid (stopped .badMagic s)

/-- The 16 bytes and the payload of a reply (R363). -/
def replyBytes (r : Reply) : List Byte :=
  leBytes 2 0x4F5A ++ leBytes 2 r.seq.toNat ++ [r.result, r.sid] ++ leBytes 2 r.status.toNat ++ wordBytes r.agen
    ++ leBytes 4 r.len ++ r.payload

/-- A reply fetch: the ready byte, and the last reply on HP (R360). -/
def fetchReply (s : State) : State :=
  modHl (fun h => { h with hpOut := match h.hpReply with
    | some r => 1 :: replyBytes r
    | none => [0] }) s

/-- A transaction on HP by its type byte (R360); an ignored one counts in HL_VIOL_CNT. -/
def hpTransaction (bs : List Byte) (s : State) : State :=
  match bs with
  | [] => s
  | t :: bs =>
    if t = 0x02 then
      let s := modHl (fun h => { h with hpReply := none }) s
      match fromMagic bs with
      | some r => requestIn .hp r s
      | none => noMagic .hp s
    else if t = 0x03 then fetchReply s
    else modHl (fun h => { h with violCnt := h.violCnt + 1 }) s

/-- A datagram carries exactly one request, from its first byte (R361). -/
def datagram (ep : Endpoint) (bs : List Byte) (s : State) : State :=
  match bs with
  | b :: c :: _ => if b = 0x5A ∧ c = 0x4F then requestIn ep bs s else noMagic ep s
  | _ => noMagic ep s

/-- The MAC address that an endpoint's request comes from is kept for its reply (R361). -/
def macHeard (ep : Endpoint) (mac : BitVec 48) (s : State) : State :=
  modHl (fun h => { h with macs := (ep, mac) :: h.macs.filter fun x => x.1 != ep }) s

/-- What arrives on an endpoint. -/
def requestArrives (ep : Endpoint) (mac : BitVec 48) (bs : List Byte) (s : State) : State :=
  if !epHeard ep s then s
  else match ep with
    | .hp => hpTransaction bs s
    | .udp _ _ => datagram ep bs (macHeard ep mac s)

/-! ### Commands -/

/-- REQUEST (R360, R361). -/
def execRequest (c : Caller) (bytes : List Byte) (s : State) : Host.Outcome State Fault Refusal :=
  act (requestArrives c.ep c.mac bytes) s

/-- REPLY_FETCH (R360). -/
def execReplyFetch (s : State) : Host.Outcome State Fault Refusal := act (fun s => whenever (!linkDeaf s) fetchReply s) s

/-- NOP (R365). -/
def execNop (ep : Endpoint) (sid : Option (Fin 4)) (s : State) : Host.Outcome State Fault Refusal :=
  act (fun s => match sid with
    | none => freeDo ep 7 nopOp s
    | some n => match session n.val s with
      | some ss => if ss.ep = ep then sessionDo n.val nopOp s else freeDo ep (BitVec.ofNat 8 n.val) (stopped .denied) s
      | none => freeDo ep (BitVec.ofNat 8 n.val) nopOp s) s

/-- READ (R365, R366). -/
def execRead (sid : Fin 4) (space : Fin 2) (addr : Word) (len : Nat) (s : State) : Host.Outcome State Fault Refusal :=
  act (sessionDo sid.val fun s => if 1024 < len then stopped .badLen s else readOp sid.val space.val addr.toNat len s) s

/-- WRITE (R365, R366). -/
def execWrite (sid : Fin 4) (space : Fin 2) (addr : Word) (payload : List Byte) (s : State) :
    Host.Outcome State Fault Refusal :=
  act (sessionDo sid.val fun s =>
    if 1024 < payload.length then stopped .badLen s else writeOp sid.val space.val addr.toNat payload s) s

/-- HELLO (R368, R369). -/
def execHello (ep : Endpoint) (role : Fin 4) (slot : Fin 64) (s : State) : Host.Outcome State Fault Refusal :=
  act (freeDo ep 7 (helloOp ep role slot)) s

/-- AUTH (R368). -/
def execAuth (ep : Endpoint) (sid : Fin 4) (tag : List Byte) (s : State) : Host.Outcome State Fault Refusal :=
  act (freeDo ep (BitVec.ofNat 8 sid.val) (authOp ep sid.val tag)) s

/-- CLOSE (R367). -/
def execClose (sid : Fin 4) (s : State) : Host.Outcome State Fault Refusal := act (sessionDo sid.val (closeOp sid.val)) s

/-- HL_CMD_CLOSE (R367). -/
def execHlCmdClose (sid target : Fin 4) (s : State) : Host.Outcome State Fault Refusal :=
  act (hostDo sid.val roleENGINEER (hlCloseOp target.val)) s

/-- HL_CFG.IDLE_S; 0 acts as 1. -/
def idleSecs (s : State) : Nat := max 1 (field (reg 0x100004 s) 8 8)

/-- The idle time of a session has passed; a request under way holds it open (R376). -/
def idleDue (sid : Nat) (s : State) : Bool :=
  match session sid s with
  | some ss => !sessionBusy sid s && decide (ss.lastExec + idleSecs s * cycSec ≤ s.clk.cyc)
  | none => false

/-- IDLE_TIMEOUT (R367). -/
def execIdleTimeout (sid : Fin 4) (s : State) : Host.Outcome State Fault Refusal :=
  act (fun s => whenever (idleDue sid.val s) (closeSession sid.val 1) s) s

/-- THROTTLE_END (R375). -/
def execThrottleEnd (ep : Endpoint) (s : State) : Host.Outcome State Fault Refusal :=
  act (fun s =>
    let e := epFind ep s.hl.eps
    whenever (e.throttledTo.isSome && !throttled ep s)
      (modHl fun h => { h with eps := epPut { e with throttledTo := none } h.eps }) s) s

/-- ATTN_ROSE_READ (R373). -/
def execAttnRoseRead (sid : Fin 4) (s : State) : Host.Outcome State Fault Refusal :=
  act (hostReadDo sid.val (attnRoseOp sid.val)) s

/-- ARP_REQUEST (R361). -/
def execArpRequest (s : State) : Host.Outcome State Fault Refusal :=
  act (fun s => whenever (udpOn s) (modHl fun h => { h with arpSent := h.arpSent + 1 }) s) s

/-- ICMP_ECHO (R361). -/
def execIcmpEcho (s : State) : Host.Outcome State Fault Refusal :=
  act (fun s => whenever (udpOn s) (modHl fun h => { h with icmpSent := h.icmpSent + 1 }) s) s

end Sys2Proof.Machine
end

