-- ==== Sys2Proof/Machine/LaneStep.lean ====
section
/-! DEFINITION. What a lane does in its next lane cycle: a bundle, a template bundle, a setup step or an element of a
block operation (R130 to R135, R140). -/
namespace Sys2Proof.Machine

/-- A step that issues no bundle: due results appear, or trap; then the lane changes. -/
def quietStep (l : Fin 16) (pc : Nat) (f : Lane → Lane) (s : State) : State :=
  let old := s.lanes[l.val]
  let run := runningLane s old
  match dueTrap run with
  | some t => laneFault l t pc false s
  | none => modLane l (fun _ => settleStop s old (countStep s (f (endStall s (present run))))) s

/-! ### Bodies (R130, R131) -/

/-- Bundles of the active half from index `i` that are repeat-marked, at most `n`. -/
def bodyRun (s : State) (l : Nat) : Nat → Nat → List Nat
  | 0, _ => []
  | n + 1, i =>
    if i ≤ 4095 then (if fmtOf (fetch s l i) = 1 then i :: bodyRun s l n (i + 1) else []) else []

/-- A bundle holds a move to REP.count (R131). -/
def movesCount (b : Nat) : Bool := (movesOf b).any fun m => m.dst == 0x3C0

/-- The setup step of RUN triggered from bundle `p`. DESIGN CHOICE (log 62): it issues no bundle, so LN_FAULT_PC of
ILLEGAL_REPEAT is `p`. -/
def repSetup (l : Fin 16) (p : Nat) (s : State) : State :=
  let body := bodyRun s l.val 16 (p + 1)
  let n := body.length
  match body.find? (fetchBad s l.val) with
  | some i => laneFault l ⟨0x100C, w i, none⟩ i false s
  | none => match body.find? fun i => movesCount (fetch s l.val i) with
    | some i => laneFault l ⟨0x1008, w i, none⟩ p false s
    | none =>
      quietStep l p (fun ln =>
        if n = 0 ∨ ln.repCount = 0 then
          { ln with repRun := .none, repElem := ln.repElem &&& 0xF, pc := p + 1 + n }
        else
          { ln with repRun := .body (p + 1) n 0 false, pc := p + 1
                    repElem := repElemOp ln.repElem 1 (p + 1) (n - 1) }) s

/-! ### Block operations (R133, R134) -/

/-- Element size in bytes, spaces and operation of REP.elem (R129). -/
def elemSize (e : Word) : Nat := 2 ^ field e 0 2
def elemSrcShared (e : Word) : Bool := e.getLsbD 2
def elemDstShared (e : Word) : Bool := e.getLsbD 3
def elemOp (e : Word) : Nat := field e 24 4

/-- REP's first free return channel. -/
def freeChannel (ln : Lane) : Option Nat := [16, 17, 18, 19].find? fun k => !(vget State.slot0 ln.slots k).outstanding

/-- What an element step needs next. -/
inductive ElemNeed where
  | fault (arg : Word)
  | stall
  | read (ch : Nat) (dst : Bool)
  | ready (src dst : Word)
  deriving Repr

/-- An element of scratch. -/
def scrElem (ln : Lane) (a n : Nat) : Word := BitVec.ofNat 32 (leNat (sgets zeroByte ln.scratch a n))

/-- Judge the element under way: access rules first, then its reads in order (R134). DESIGN CHOICE (log 62): when both
its addresses break the rules, BANK_PROTECT reports REP.src. -/
def elemNeed (s : State) (l : Nat) (ln : Lane) (srcVal : Option Word) (out : Option (Nat × Bool)) : ElemNeed :=
  let e := ln.repElem
  let n := elemSize e
  let op := elemOp e
  let sa := ln.repSrc.toNat / n * n
  let da := ln.repDst.toNat / n * n
  let okAt (shared : Bool) (a : Nat) (write : Bool) : Bool := if shared then sharedOk s l a n write else localsOk a n
  let usesSrc := op != 5
  let readsDst := op == 3
  let writes := op == 2 || op == 5
  let start (dst : Bool) : ElemNeed :=
    match freeChannel ln with
    | some c => if ln.reqs.length < 16 then .read c dst else .stall
    | none => .stall
  let busy (c : Nat) : Bool := (vget State.slot0 ln.slots c).outstanding
  let data (c : Nat) : Word := (vget State.slot0 ln.slots c).data
  if usesSrc && !okAt (elemSrcShared e) sa false then .fault ln.repSrc
  else if (readsDst || writes) && !okAt (elemDstShared e) da writes then .fault ln.repDst
  else
    let src : Option Word :=
      if !usesSrc then some 0
      else if !elemSrcShared e then some (scrElem ln sa n)
      else match srcVal, out with
        | some v, _ => some v
        | none, some (c, false) => if busy c then none else some (data c)
        | none, _ => none
    match src with
    | none => if out.isSome then .stall else start false
    | some v =>
      if !readsDst then .ready v 0
      else if !elemDstShared e then .ready v (scrElem ln da n)
      else match out with
        | some (c, true) => if busy c then .stall else .ready v (data c)
        | _ => start true

/-- The end of a block operation: REP.q, the flags, and bundle P + 1 next (R133). -/
def finishBlock (p : Nat) (stop neg : Bool) (ln : Lane) : Lane :=
  let q := w ln.repProc
  startOp .rep 1 (res1 q (flagWord stop false (q == 0) neg false false false)) 0
    { ln with repRun := .none, repElem := ln.repElem &&& 0xF, pc := p + 1 }

/-- An element stops the operation. -/
def elemStops (ln : Lane) (src dst : Word) : Bool :=
  let mask := BitVec.ofNat 32 (2 ^ (8 * elemSize ln.repElem) - 1)
  let m := ln.repMask &&& mask
  match elemOp ln.repElem with
  | 3 => src != dst
  | 4 => (src &&& m) == (ln.repVal &&& m)
  | _ => false

/-- An element is processed: its write, the count, the addresses (R133). -/
def elemProcess (s : State) (p : Nat) (src : Word) (ln : Lane) : Lane :=
  let n := elemSize ln.repElem
  let op := elemOp ln.repElem
  let da := ln.repDst.toNat / n * n
  let v := if op = 5 then ln.repVal else src
  let ln :=
    if op = 2 ∨ op = 5 then
      if elemDstShared ln.repElem then
        match freeChannel ln with
        | some c => queueReq s c da (.store c n v) true ln
        | none => ln
      else { ln with scratch := sputs zeroByte da (leBytes n v.toNat) ln.scratch }
    else ln
  let ln := { ln with
    repCount := ln.repCount - 1
    repSrc := if op = 5 then ln.repSrc else ln.repSrc + ln.repStride
    repDst := if op = 4 then ln.repDst else ln.repDst + ln.repStride
    repProc := ln.repProc + 1
    repRun := .block p none none }
  if ln.repCount == (0 : Word) then finishBlock p false false ln else ln

/-- An element whose write finds all channels held, or the queue full, waits (R134). -/
def writeBlocked (ln : Lane) : Bool :=
  let op := elemOp ln.repElem
  (op == 2 || op == 5) && elemDstShared ln.repElem && ((freeChannel ln).isNone || decide (16 ≤ ln.reqs.length))

/-- The element step of a block operation triggered from bundle `p`. -/
def repElement (l : Fin 16) (p : Nat) (srcVal : Option Word) (out : Option (Nat × Bool)) (s : State) : State :=
  let old := s.lanes[l.val]
  let run := runningLane s old
  let hold (ln : Lane) : State := modLane l (fun _ => settleStop s old { beginStall s ln with lastIssue := some s.clk.cyc }) s
  match elemNeed s l.val run srcVal out with
  | .fault arg => laneFault l ⟨0x100B, arg, none⟩ p false s
  | .stall => hold run
  | .read c dst =>
    let n := elemSize run.repElem
    let a := (if dst then run.repDst else run.repSrc).toNat / n * n
    let keep : Option Word := if dst then
        (match srcVal, out with
         | some v, _ => some v
         | none, some (k, false) => some (vget State.slot0 run.slots k).data
         | none, _ => none)
      else none
    hold { queueReq s c a (.load c n false) false run with repRun := .block p keep (some (c, dst)) }
  | .ready src dst =>
    if elemStops run src dst then
      quietStep l p (finishBlock p true (elemOp run.repElem == 3 && decide (src.toNat < dst.toNat))) s
    else if writeBlocked run then hold { run with repRun := .block p (some src) none }
    else quietStep l p (elemProcess s p src) s

/-! ### Bundles -/

/-- A bundle's own form is illegal: reserved header bits, FMT 3, or the SRC form (R53, R56 to R58). -/
def illegalForm (b : Nat) : Bool := reservedOf b != 0 || fmtOf b == 3 || formBad b

/-- Template bundle of a macro expansion in progress. -/
def issueTemplate (l : Fin 16) (m : MacroRun) (s : State) : State :=
  let e := activeEntry s m.opcode
  let b := templateBundle e m.next
  issueMoves l ⟨m.call, headerOf b, occupied b, (movesOf b).map (substMv m.params), some { m with next := m.next + 1 },
    e.len, false⟩ (illegalForm b) s

/-- A macro call at bundle `p` (R139, R140). -/
def issueCall (l : Fin 16) (p b : Nat) (s : State) : State :=
  let run := present (runningLane s (s.lanes[l.val]))
  let opc := callOpc b
  let e := activeEntry s opc
  if !guardOk run.p (callG b) then
    quietStep l p (fun ln => { ln with pc := p + 1, lastPc := p, lastMacro := false }) s
  else if !entryIntact opc e || s.ln.badCopies.contains (l.val, opc) then laneFault l ⟨0x100C, w opc, none⟩ p false s
  else if e.len = 0 then laneFault l ⟨0x100D, w opc, none⟩ p false s
  else issueTemplate l ⟨opc, p, Vector.ofFn fun i => callPar b i.val, 0⟩ s

/-- The bundle at the program counter. DESIGN CHOICE (log 62): a fetch beyond bundle 4,095 has no header byte, and
LN_FAULT_ARG of its ILLEGAL_BUNDLE is 0. A bundle of FMT 3 has no moves (R58). -/
def issueBundle (l : Fin 16) (s : State) : State :=
  let ln := s.lanes[l.val]
  let p := ln.pc
  let b := fetch s l.val p
  let body := match ln.repRun with
    | .body _ _ _ _ => true
    | _ => false
  if 4095 < p then laneFault l ⟨0x1007, 0, none⟩ ln.lastPc false s
  else if fetchBad s l.val p then laneFault l ⟨0x100C, w p, none⟩ p false s
  else if fmtOf b = 2 then
    if reservedOf b ≠ 0 then laneFault l ⟨0x1007, w (headerOf b), none⟩ p false s else issueCall l p b s
  else issueMoves l ⟨p, headerOf b, occupied b, if fmtOf b = 3 then [] else movesOf b, none, 0, body⟩ (illegalForm b) s

/-- What lane `l` does next, if it may issue in this cycle. -/
def issueNext (l : Fin 16) (s : State) : State :=
  let run := runningLane s (s.lanes[l.val])
  if !canIssue s run then s
  else match run.repRun with
    | .setup p => repSetup l p s
    | .reload a n i brk => quietStep l run.pc (fun ln => { ln with repRun := .body a n i brk }) s
    | .block p v o => repElement l p v o s
    | _ => match run.mac with
      | some m => issueTemplate l m s
      | none => issueBundle l s

/-- Results that are due appear before the next bundle; a trap is the step's fault (R69, R84). -/
def resultsAppear (l : Fin 16) (s : State) : State :=
  let old := s.lanes[l.val]
  let run := runningLane s old
  if !canIssue s run || run.stallFrom.isSome || dueOf run = [] then s
  else if (dueTrap run).isSome then issueNext l s
  else modLane l (fun _ => settleStop s old (present run)) s

/-- A lane issues, at its program counter, a bundle of the one move `#t -> port`; inside a repeated body it stands for
the body's bundle there, as a BREAK does that ends the body (R130, R132). -/
def issueTrigger (l : Fin 16) (port : Nat) (t : Word) (s : State) : State :=
  let run := runningLane s (s.lanes[l.val])
  let issue (body : Bool) : State := issueMoves l ⟨run.pc, 0, 1, [⟨0, 0, port, .imm t⟩], none, 0, body⟩ false s
  if !canIssue s run || run.mac.isSome || decide (4095 < run.pc) then s
  else match run.repRun with
    | .none => issue false
    | .body _ _ _ _ => issue true
    | _ => s

end Sys2Proof.Machine
end

