-- ==== Sys2Proof/Machine/LaneRows.lean ====
section
/-! DEFINITION. The commands of the lanes: an issue step, results that appear, macro calls, each unit operation as a
bundle of the one move `#t -> port` that the lane issues at its program counter, and the waits that end (R52 to R135). -/
namespace Sys2Proof.Machine

/-- MOVE (R68): lane `l` takes its next step: the bundle at its program counter, or a step of an expansion, a repetition
or a block operation in progress. Of a preempted lane it is the element under way, after which the lane may be saved
(R135). -/
def execMove (l : Fin 16) (s : State) : Host.Outcome State Fault Refusal :=
  act (fun s => modLane l saveIfDone (issueNext l s)) s

/-- OP_RESULT (R69): the results that are due appear in the lane's ports. -/
def execOpResult (l : Fin 16) (s : State) : Host.Outcome State Fault Refusal := act (resultsAppear l) s

/-- The lane stands at a macro call, or inside its expansion. -/
def atCall (l : Fin 16) (s : State) : Bool :=
  let ln := runningLane s (s.lanes[l.val])
  match ln.repRun, ln.mac with
  | .none, some _ => true
  | .none, none => decide (ln.pc ≤ 4095) && fmtOf (fetch s l.val ln.pc) == 2
  | _, _ => false

/-- MACRO_CALL (R140): the lane issues the next template bundle of the macro call at its program counter. -/
def execMacroCall (l : Fin 16) (s : State) : Host.Outcome State Fault Refusal :=
  act (fun s => whenever (atCall l s) (issueNext l) s) s

/-! ### ALU (R87 to R89) -/

/-- ADD (R87): trigger 0x10 of ALU_n with T = `t`. -/
def execAdd (l : Fin 16) (alu : Fin 2) (t : Word) (s : State) : Host.Outcome State Fault Refusal :=
  act (issueTrigger l (0x080 + 0x40 * alu.val + 0x10) t) s

/-- ADDC (R87): trigger 0x11 of ALU_n with T = `t`. -/
def execAddc (l : Fin 16) (alu : Fin 2) (t : Word) (s : State) : Host.Outcome State Fault Refusal :=
  act (issueTrigger l (0x080 + 0x40 * alu.val + 0x11) t) s

/-- SUB (R87): trigger 0x12 of ALU_n with T = `t`. -/
def execSub (l : Fin 16) (alu : Fin 2) (t : Word) (s : State) : Host.Outcome State Fault Refusal :=
  act (issueTrigger l (0x080 + 0x40 * alu.val + 0x12) t) s

/-- SUBC (R87): trigger 0x13 of ALU_n with T = `t`. -/
def execSubc (l : Fin 16) (alu : Fin 2) (t : Word) (s : State) : Host.Outcome State Fault Refusal :=
  act (issueTrigger l (0x080 + 0x40 * alu.val + 0x13) t) s

/-- RSUB (R87): trigger 0x14 of ALU_n with T = `t`. -/
def execRsub (l : Fin 16) (alu : Fin 2) (t : Word) (s : State) : Host.Outcome State Fault Refusal :=
  act (issueTrigger l (0x080 + 0x40 * alu.val + 0x14) t) s

/-- AND (R87): trigger 0x15 of ALU_n with T = `t`. -/
def execAndOp (l : Fin 16) (alu : Fin 2) (t : Word) (s : State) : Host.Outcome State Fault Refusal :=
  act (issueTrigger l (0x080 + 0x40 * alu.val + 0x15) t) s

/-- OR (R87): trigger 0x16 of ALU_n with T = `t`. -/
def execOrOp (l : Fin 16) (alu : Fin 2) (t : Word) (s : State) : Host.Outcome State Fault Refusal :=
  act (issueTrigger l (0x080 + 0x40 * alu.val + 0x16) t) s

/-- XOR (R87): trigger 0x17 of ALU_n with T = `t`. -/
def execXorOp (l : Fin 16) (alu : Fin 2) (t : Word) (s : State) : Host.Outcome State Fault Refusal :=
  act (issueTrigger l (0x080 + 0x40 * alu.val + 0x17) t) s

/-- ANDN (R87): trigger 0x18 of ALU_n with T = `t`. -/
def execAndn (l : Fin 16) (alu : Fin 2) (t : Word) (s : State) : Host.Outcome State Fault Refusal :=
  act (issueTrigger l (0x080 + 0x40 * alu.val + 0x18) t) s

/-- NOT (R87): trigger 0x19 of ALU_n with T = `t`. -/
def execNotOp (l : Fin 16) (alu : Fin 2) (t : Word) (s : State) : Host.Outcome State Fault Refusal :=
  act (issueTrigger l (0x080 + 0x40 * alu.val + 0x19) t) s

/-- NEG (R88): trigger 0x1A of ALU_n with T = `t`. -/
def execNeg (l : Fin 16) (alu : Fin 2) (t : Word) (s : State) : Host.Outcome State Fault Refusal :=
  act (issueTrigger l (0x080 + 0x40 * alu.val + 0x1A) t) s

/-- ABS (R88): trigger 0x1B of ALU_n with T = `t`. -/
def execAbs (l : Fin 16) (alu : Fin 2) (t : Word) (s : State) : Host.Outcome State Fault Refusal :=
  act (issueTrigger l (0x080 + 0x40 * alu.val + 0x1B) t) s

/-- SHL (R89): trigger 0x1C of ALU_n with T = `t`. -/
def execShl (l : Fin 16) (alu : Fin 2) (t : Word) (s : State) : Host.Outcome State Fault Refusal :=
  act (issueTrigger l (0x080 + 0x40 * alu.val + 0x1C) t) s

/-- SHR (R89): trigger 0x1D of ALU_n with T = `t`. -/
def execShr (l : Fin 16) (alu : Fin 2) (t : Word) (s : State) : Host.Outcome State Fault Refusal :=
  act (issueTrigger l (0x080 + 0x40 * alu.val + 0x1D) t) s

/-- SAR (R89): trigger 0x1E of ALU_n with T = `t`. -/
def execSar (l : Fin 16) (alu : Fin 2) (t : Word) (s : State) : Host.Outcome State Fault Refusal :=
  act (issueTrigger l (0x080 + 0x40 * alu.val + 0x1E) t) s

/-- ROL (R89): trigger 0x1F of ALU_n with T = `t`. -/
def execRol (l : Fin 16) (alu : Fin 2) (t : Word) (s : State) : Host.Outcome State Fault Refusal :=
  act (issueTrigger l (0x080 + 0x40 * alu.val + 0x1F) t) s

/-- ROR (R89): trigger 0x20 of ALU_n with T = `t`. -/
def execRor (l : Fin 16) (alu : Fin 2) (t : Word) (s : State) : Host.Outcome State Fault Refusal :=
  act (issueTrigger l (0x080 + 0x40 * alu.val + 0x20) t) s

/-- MIN (R87): trigger 0x21 of ALU_n with T = `t`. -/
def execMinOp (l : Fin 16) (alu : Fin 2) (t : Word) (s : State) : Host.Outcome State Fault Refusal :=
  act (issueTrigger l (0x080 + 0x40 * alu.val + 0x21) t) s

/-- MAX (R87): trigger 0x22 of ALU_n with T = `t`. -/
def execMaxOp (l : Fin 16) (alu : Fin 2) (t : Word) (s : State) : Host.Outcome State Fault Refusal :=
  act (issueTrigger l (0x080 + 0x40 * alu.val + 0x22) t) s

/-- MINU (R87): trigger 0x23 of ALU_n with T = `t`. -/
def execMinu (l : Fin 16) (alu : Fin 2) (t : Word) (s : State) : Host.Outcome State Fault Refusal :=
  act (issueTrigger l (0x080 + 0x40 * alu.val + 0x23) t) s

/-- MAXU (R87): trigger 0x24 of ALU_n with T = `t`. -/
def execMaxu (l : Fin 16) (alu : Fin 2) (t : Word) (s : State) : Host.Outcome State Fault Refusal :=
  act (issueTrigger l (0x080 + 0x40 * alu.val + 0x24) t) s

/-- SEXT8 (R87): trigger 0x25 of ALU_n with T = `t`. -/
def execSext8 (l : Fin 16) (alu : Fin 2) (t : Word) (s : State) : Host.Outcome State Fault Refusal :=
  act (issueTrigger l (0x080 + 0x40 * alu.val + 0x25) t) s

/-- SEXT16 (R87): trigger 0x26 of ALU_n with T = `t`. -/
def execSext16 (l : Fin 16) (alu : Fin 2) (t : Word) (s : State) : Host.Outcome State Fault Refusal :=
  act (issueTrigger l (0x080 + 0x40 * alu.val + 0x26) t) s

/-- ZEXT8 (R87): trigger 0x27 of ALU_n with T = `t`. -/
def execZext8 (l : Fin 16) (alu : Fin 2) (t : Word) (s : State) : Host.Outcome State Fault Refusal :=
  act (issueTrigger l (0x080 + 0x40 * alu.val + 0x27) t) s

/-- ZEXT16 (R87): trigger 0x28 of ALU_n with T = `t`. -/
def execZext16 (l : Fin 16) (alu : Fin 2) (t : Word) (s : State) : Host.Outcome State Fault Refusal :=
  act (issueTrigger l (0x080 + 0x40 * alu.val + 0x28) t) s

/-- CLZ (R87): trigger 0x29 of ALU_n with T = `t`. -/
def execClz (l : Fin 16) (alu : Fin 2) (t : Word) (s : State) : Host.Outcome State Fault Refusal :=
  act (issueTrigger l (0x080 + 0x40 * alu.val + 0x29) t) s

/-- POPC (R87): trigger 0x2A of ALU_n with T = `t`. -/
def execPopc (l : Fin 16) (alu : Fin 2) (t : Word) (s : State) : Host.Outcome State Fault Refusal :=
  act (issueTrigger l (0x080 + 0x40 * alu.val + 0x2A) t) s

/-- BSWAP (R87): trigger 0x2B of ALU_n with T = `t`. -/
def execBswap (l : Fin 16) (alu : Fin 2) (t : Word) (s : State) : Host.Outcome State Fault Refusal :=
  act (issueTrigger l (0x080 + 0x40 * alu.val + 0x2B) t) s

/-- PASS (R87): trigger 0x2C of ALU_n with T = `t`. -/
def execPass (l : Fin 16) (alu : Fin 2) (t : Word) (s : State) : Host.Outcome State Fault Refusal :=
  act (issueTrigger l (0x080 + 0x40 * alu.val + 0x2C) t) s

/-! ### MUL (R90) -/

/-- MUL (R90): trigger 0x10 of MUL with T = `t`. -/
def execMul (l : Fin 16) (t : Word) (s : State) : Host.Outcome State Fault Refusal :=
  act (issueTrigger l 0x110 t) s

/-- MULU (R90): trigger 0x11 of MUL with T = `t`. -/
def execMulu (l : Fin 16) (t : Word) (s : State) : Host.Outcome State Fault Refusal :=
  act (issueTrigger l 0x111 t) s

/-- MULQ31 (R90): trigger 0x12 of MUL with T = `t`. -/
def execMulq31 (l : Fin 16) (t : Word) (s : State) : Host.Outcome State Fault Refusal :=
  act (issueTrigger l 0x112 t) s

/-- MAC (R90): trigger 0x13 of MUL with T = `t`. -/
def execMac (l : Fin 16) (t : Word) (s : State) : Host.Outcome State Fault Refusal :=
  act (issueTrigger l 0x113 t) s

/-- ACCSET (R90): trigger 0x14 of MUL with T = `t`. -/
def execAccset (l : Fin 16) (t : Word) (s : State) : Host.Outcome State Fault Refusal :=
  act (issueTrigger l 0x114 t) s

/-! ### DIV (R91, R92) -/

/-- DIV (R91): trigger 0x10 of DIV with T = `t`. -/
def execDiv (l : Fin 16) (t : Word) (s : State) : Host.Outcome State Fault Refusal :=
  act (issueTrigger l 0x150 t) s

/-- DIVU (R91): trigger 0x11 of DIV with T = `t`. -/
def execDivu (l : Fin 16) (t : Word) (s : State) : Host.Outcome State Fault Refusal :=
  act (issueTrigger l 0x151 t) s

/-- DIVL (R91): trigger 0x12 of DIV with T = `t`. -/
def execDivl (l : Fin 16) (t : Word) (s : State) : Host.Outcome State Fault Refusal :=
  act (issueTrigger l 0x152 t) s

/-- DIVLU (R91): trigger 0x13 of DIV with T = `t`. -/
def execDivlu (l : Fin 16) (t : Word) (s : State) : Host.Outcome State Fault Refusal :=
  act (issueTrigger l 0x153 t) s

/-! ### BCD (R93 to R96) -/

/-- BADD (R93): trigger 0x10 of BCD with T = `t`. -/
def execBadd (l : Fin 16) (t : Word) (s : State) : Host.Outcome State Fault Refusal :=
  act (issueTrigger l 0x190 t) s

/-- BADDC (R93): trigger 0x11 of BCD with T = `t`. -/
def execBaddc (l : Fin 16) (t : Word) (s : State) : Host.Outcome State Fault Refusal :=
  act (issueTrigger l 0x191 t) s

/-- BSUB (R93): trigger 0x12 of BCD with T = `t`. -/
def execBsub (l : Fin 16) (t : Word) (s : State) : Host.Outcome State Fault Refusal :=
  act (issueTrigger l 0x192 t) s

/-- BSUBC (R93): trigger 0x13 of BCD with T = `t`. -/
def execBsubc (l : Fin 16) (t : Word) (s : State) : Host.Outcome State Fault Refusal :=
  act (issueTrigger l 0x193 t) s

/-- BDADJ (R93): trigger 0x14 of BCD with T = `t`. -/
def execBdadj (l : Fin 16) (t : Word) (s : State) : Host.Outcome State Fault Refusal :=
  act (issueTrigger l 0x194 t) s

/-- B2BIN (R93): trigger 0x15 of BCD with T = `t`. -/
def execB2bin (l : Fin 16) (t : Word) (s : State) : Host.Outcome State Fault Refusal :=
  act (issueTrigger l 0x195 t) s

/-- BIN2B (R93): trigger 0x16 of BCD with T = `t`. -/
def execBin2b (l : Fin 16) (t : Word) (s : State) : Host.Outcome State Fault Refusal :=
  act (issueTrigger l 0x196 t) s

/-- DATE2DAY (R95): trigger 0x17 of BCD with T = `t`. -/
def execDate2day (l : Fin 16) (t : Word) (s : State) : Host.Outcome State Fault Refusal :=
  act (issueTrigger l 0x197 t) s

/-- DAY2DATE (R95): trigger 0x18 of BCD with T = `t`. -/
def execDay2date (l : Fin 16) (t : Word) (s : State) : Host.Outcome State Fault Refusal :=
  act (issueTrigger l 0x198 t) s

/-- TIME2SEC (R95): trigger 0x19 of BCD with T = `t`. -/
def execTime2sec (l : Fin 16) (t : Word) (s : State) : Host.Outcome State Fault Refusal :=
  act (issueTrigger l 0x199 t) s

/-- SEC2TIME (R95): trigger 0x1A of BCD with T = `t`. -/
def execSec2time (l : Fin 16) (t : Word) (s : State) : Host.Outcome State Fault Refusal :=
  act (issueTrigger l 0x19A t) s

/-! ### BIT (R97, R98) -/

/-- SET (R97): trigger 0x10 of BIT with T = `t`. -/
def execBset (l : Fin 16) (t : Word) (s : State) : Host.Outcome State Fault Refusal :=
  act (issueTrigger l 0x1D0 t) s

/-- RST (R97): trigger 0x11 of BIT with T = `t`. -/
def execBrst (l : Fin 16) (t : Word) (s : State) : Host.Outcome State Fault Refusal :=
  act (issueTrigger l 0x1D1 t) s

/-- TGL (R97): trigger 0x12 of BIT with T = `t`. -/
def execBtgl (l : Fin 16) (t : Word) (s : State) : Host.Outcome State Fault Refusal :=
  act (issueTrigger l 0x1D2 t) s

/-- TST (R97): trigger 0x13 of BIT with T = `t`. -/
def execBtst (l : Fin 16) (t : Word) (s : State) : Host.Outcome State Fault Refusal :=
  act (issueTrigger l 0x1D3 t) s

/-- EDGE (R97): trigger 0x14 of BIT with T = `t`. -/
def execEdge (l : Fin 16) (t : Word) (s : State) : Host.Outcome State Fault Refusal :=
  act (issueTrigger l 0x1D4 t) s

/-- EDGEW (R97): trigger 0x15 of BIT with T = `t`. -/
def execEdgew (l : Fin 16) (t : Word) (s : State) : Host.Outcome State Fault Refusal :=
  act (issueTrigger l 0x1D5 t) s

/-- PRIME (R97): trigger 0x16 of BIT with T = `t`. -/
def execPrime (l : Fin 16) (t : Word) (s : State) : Host.Outcome State Fault Refusal :=
  act (issueTrigger l 0x1D6 t) s

/-- PRIMEW (R97): trigger 0x17 of BIT with T = `t`. -/
def execPrimew (l : Fin 16) (t : Word) (s : State) : Host.Outcome State Fault Refusal :=
  act (issueTrigger l 0x1D7 t) s

/-! ### CMP (R99, R100) -/

/-- EQ (R99): trigger 0x10 of CMP with T = `t`. -/
def execCmpEq (l : Fin 16) (t : Word) (s : State) : Host.Outcome State Fault Refusal :=
  act (issueTrigger l 0x210 t) s

/-- NE (R99): trigger 0x11 of CMP with T = `t`. -/
def execCmpNe (l : Fin 16) (t : Word) (s : State) : Host.Outcome State Fault Refusal :=
  act (issueTrigger l 0x211 t) s

/-- LT (R99): trigger 0x12 of CMP with T = `t`. -/
def execCmpLt (l : Fin 16) (t : Word) (s : State) : Host.Outcome State Fault Refusal :=
  act (issueTrigger l 0x212 t) s

/-- LE (R99): trigger 0x13 of CMP with T = `t`. -/
def execCmpLe (l : Fin 16) (t : Word) (s : State) : Host.Outcome State Fault Refusal :=
  act (issueTrigger l 0x213 t) s

/-- GT (R99): trigger 0x14 of CMP with T = `t`. -/
def execCmpGt (l : Fin 16) (t : Word) (s : State) : Host.Outcome State Fault Refusal :=
  act (issueTrigger l 0x214 t) s

/-- GE (R99): trigger 0x15 of CMP with T = `t`. -/
def execCmpGe (l : Fin 16) (t : Word) (s : State) : Host.Outcome State Fault Refusal :=
  act (issueTrigger l 0x215 t) s

/-- LTU (R99): trigger 0x16 of CMP with T = `t`. -/
def execCmpLtu (l : Fin 16) (t : Word) (s : State) : Host.Outcome State Fault Refusal :=
  act (issueTrigger l 0x216 t) s

/-- LEU (R99): trigger 0x17 of CMP with T = `t`. -/
def execCmpLeu (l : Fin 16) (t : Word) (s : State) : Host.Outcome State Fault Refusal :=
  act (issueTrigger l 0x217 t) s

/-- GTU (R99): trigger 0x18 of CMP with T = `t`. -/
def execCmpGtu (l : Fin 16) (t : Word) (s : State) : Host.Outcome State Fault Refusal :=
  act (issueTrigger l 0x218 t) s

/-- GEU (R99): trigger 0x19 of CMP with T = `t`. -/
def execCmpGeu (l : Fin 16) (t : Word) (s : State) : Host.Outcome State Fault Refusal :=
  act (issueTrigger l 0x219 t) s

/-- TSTZ (R99): trigger 0x1A of CMP with T = `t`. -/
def execTstz (l : Fin 16) (t : Word) (s : State) : Host.Outcome State Fault Refusal :=
  act (issueTrigger l 0x21A t) s

/-- TSTNZ (R99): trigger 0x1B of CMP with T = `t`. -/
def execTstnz (l : Fin 16) (t : Word) (s : State) : Host.Outcome State Fault Refusal :=
  act (issueTrigger l 0x21B t) s

/-- FEQ (R99): trigger 0x1C of CMP with T = `t`. -/
def execFeq (l : Fin 16) (t : Word) (s : State) : Host.Outcome State Fault Refusal :=
  act (issueTrigger l 0x21C t) s

/-- FNE (R99): trigger 0x1D of CMP with T = `t`. -/
def execFne (l : Fin 16) (t : Word) (s : State) : Host.Outcome State Fault Refusal :=
  act (issueTrigger l 0x21D t) s

/-- FLT (R99): trigger 0x1E of CMP with T = `t`. -/
def execFlt (l : Fin 16) (t : Word) (s : State) : Host.Outcome State Fault Refusal :=
  act (issueTrigger l 0x21E t) s

/-- FLE (R99): trigger 0x1F of CMP with T = `t`. -/
def execFle (l : Fin 16) (t : Word) (s : State) : Host.Outcome State Fault Refusal :=
  act (issueTrigger l 0x21F t) s

/-- FGT (R99): trigger 0x20 of CMP with T = `t`. -/
def execFgt (l : Fin 16) (t : Word) (s : State) : Host.Outcome State Fault Refusal :=
  act (issueTrigger l 0x220 t) s

/-- FGE (R99): trigger 0x21 of CMP with T = `t`. -/
def execFge (l : Fin 16) (t : Word) (s : State) : Host.Outcome State Fault Refusal :=
  act (issueTrigger l 0x221 t) s

/-- FUN (R99): trigger 0x22 of CMP with T = `t`. -/
def execFun_ (l : Fin 16) (t : Word) (s : State) : Host.Outcome State Fault Refusal :=
  act (issueTrigger l 0x222 t) s

/-- INR (R99): trigger 0x23 of CMP with T = `t`. -/
def execInr (l : Fin 16) (t : Word) (s : State) : Host.Outcome State Fault Refusal :=
  act (issueTrigger l 0x223 t) s

/-- INRU (R99): trigger 0x24 of CMP with T = `t`. -/
def execInru (l : Fin 16) (t : Word) (s : State) : Host.Outcome State Fault Refusal :=
  act (issueTrigger l 0x224 t) s

/-! ### FPU (R101 to R103) -/

/-- FADD (R101): trigger 0x10 of FPU with T = `t`. -/
def execFadd (l : Fin 16) (t : Word) (s : State) : Host.Outcome State Fault Refusal :=
  act (issueTrigger l 0x250 t) s

/-- FSUB (R101): trigger 0x11 of FPU with T = `t`. -/
def execFsub (l : Fin 16) (t : Word) (s : State) : Host.Outcome State Fault Refusal :=
  act (issueTrigger l 0x251 t) s

/-- FMUL (R101): trigger 0x12 of FPU with T = `t`. -/
def execFmul (l : Fin 16) (t : Word) (s : State) : Host.Outcome State Fault Refusal :=
  act (issueTrigger l 0x252 t) s

/-- FMA (R101): trigger 0x13 of FPU with T = `t`. -/
def execFma (l : Fin 16) (t : Word) (s : State) : Host.Outcome State Fault Refusal :=
  act (issueTrigger l 0x253 t) s

/-- FMS (R101): trigger 0x14 of FPU with T = `t`. -/
def execFms (l : Fin 16) (t : Word) (s : State) : Host.Outcome State Fault Refusal :=
  act (issueTrigger l 0x254 t) s

/-- FDIV (R101): trigger 0x15 of FPU with T = `t`. -/
def execFdiv (l : Fin 16) (t : Word) (s : State) : Host.Outcome State Fault Refusal :=
  act (issueTrigger l 0x255 t) s

/-- FSQRT (R101): trigger 0x16 of FPU with T = `t`. -/
def execFsqrt (l : Fin 16) (t : Word) (s : State) : Host.Outcome State Fault Refusal :=
  act (issueTrigger l 0x256 t) s

/-- FNEG (R101): trigger 0x17 of FPU with T = `t`. -/
def execFneg (l : Fin 16) (t : Word) (s : State) : Host.Outcome State Fault Refusal :=
  act (issueTrigger l 0x257 t) s

/-- FABS (R101): trigger 0x18 of FPU with T = `t`. -/
def execFabs (l : Fin 16) (t : Word) (s : State) : Host.Outcome State Fault Refusal :=
  act (issueTrigger l 0x258 t) s

/-- FMIN (R101): trigger 0x19 of FPU with T = `t`. -/
def execFmin (l : Fin 16) (t : Word) (s : State) : Host.Outcome State Fault Refusal :=
  act (issueTrigger l 0x259 t) s

/-- FMAX (R101): trigger 0x1A of FPU with T = `t`. -/
def execFmax (l : Fin 16) (t : Word) (s : State) : Host.Outcome State Fault Refusal :=
  act (issueTrigger l 0x25A t) s

/-- I2F (R101): trigger 0x1B of FPU with T = `t`. -/
def execI2f (l : Fin 16) (t : Word) (s : State) : Host.Outcome State Fault Refusal :=
  act (issueTrigger l 0x25B t) s

/-- U2F (R101): trigger 0x1C of FPU with T = `t`. -/
def execU2f (l : Fin 16) (t : Word) (s : State) : Host.Outcome State Fault Refusal :=
  act (issueTrigger l 0x25C t) s

/-- F2I (R101): trigger 0x1D of FPU with T = `t`. -/
def execF2i (l : Fin 16) (t : Word) (s : State) : Host.Outcome State Fault Refusal :=
  act (issueTrigger l 0x25D t) s

/-- F2IT (R101): trigger 0x1E of FPU with T = `t`. -/
def execF2it (l : Fin 16) (t : Word) (s : State) : Host.Outcome State Fault Refusal :=
  act (issueTrigger l 0x25E t) s

/-- F2U (R101): trigger 0x1F of FPU with T = `t`. -/
def execF2u (l : Fin 16) (t : Word) (s : State) : Host.Outcome State Fault Refusal :=
  act (issueTrigger l 0x25F t) s

/-- FRND (R101): trigger 0x20 of FPU with T = `t`. -/
def execFrnd (l : Fin 16) (t : Word) (s : State) : Host.Outcome State Fault Refusal :=
  act (issueTrigger l 0x260 t) s

/-! ### CRD (R104) -/

/-- ATAN2 (R104): trigger 0x10 of CRD with T = `t`. -/
def execAtan2 (l : Fin 16) (t : Word) (s : State) : Host.Outcome State Fault Refusal :=
  act (issueTrigger l 0x290 t) s

/-- MAG (R104): trigger 0x11 of CRD with T = `t`. -/
def execMag (l : Fin 16) (t : Word) (s : State) : Host.Outcome State Fault Refusal :=
  act (issueTrigger l 0x291 t) s

/-- POLAR (R104): trigger 0x12 of CRD with T = `t`. -/
def execPolar (l : Fin 16) (t : Word) (s : State) : Host.Outcome State Fault Refusal :=
  act (issueTrigger l 0x292 t) s

/-- SINCOS (R104): trigger 0x13 of CRD with T = `t`. -/
def execSincos (l : Fin 16) (t : Word) (s : State) : Host.Outcome State Fault Refusal :=
  act (issueTrigger l 0x293 t) s

/-! ### LSU (R105 to R107) -/

/-- SLD (R105): trigger 0x10 of LSU with T = `t`. -/
def execSld (l : Fin 16) (t : Word) (s : State) : Host.Outcome State Fault Refusal :=
  act (issueTrigger l 0x2D0 t) s

/-- SLDH (R105): trigger 0x11 of LSU with T = `t`. -/
def execSldh (l : Fin 16) (t : Word) (s : State) : Host.Outcome State Fault Refusal :=
  act (issueTrigger l 0x2D1 t) s

/-- SLDB (R105): trigger 0x12 of LSU with T = `t`. -/
def execSldb (l : Fin 16) (t : Word) (s : State) : Host.Outcome State Fault Refusal :=
  act (issueTrigger l 0x2D2 t) s

/-- SST (R105): trigger 0x13 of LSU with T = `t`. -/
def execSst (l : Fin 16) (t : Word) (s : State) : Host.Outcome State Fault Refusal :=
  act (issueTrigger l 0x2D3 t) s

/-- SSTH (R105): trigger 0x14 of LSU with T = `t`. -/
def execSsth (l : Fin 16) (t : Word) (s : State) : Host.Outcome State Fault Refusal :=
  act (issueTrigger l 0x2D4 t) s

/-- SSTB (R105): trigger 0x15 of LSU with T = `t`. -/
def execSstb (l : Fin 16) (t : Word) (s : State) : Host.Outcome State Fault Refusal :=
  act (issueTrigger l 0x2D5 t) s

/-- LD (R105): trigger 0x18 of LSU with T = `t`. -/
def execLd (l : Fin 16) (t : Word) (s : State) : Host.Outcome State Fault Refusal :=
  act (issueTrigger l 0x2D8 t) s

/-- ST (R105): trigger 0x19 of LSU with T = `t`. -/
def execSt (l : Fin 16) (t : Word) (s : State) : Host.Outcome State Fault Refusal :=
  act (issueTrigger l 0x2D9 t) s

/-! ### IMG (R108 to R111) -/

/-- IN (R108): trigger 0x10 of IMG with T = `t`. -/
def execImgIn (l : Fin 16) (t : Word) (s : State) : Host.Outcome State Fault Refusal :=
  act (issueTrigger l 0x310 t) s

/-- OUT (R108): trigger 0x11 of IMG with T = `t`. -/
def execImgOut (l : Fin 16) (t : Word) (s : State) : Host.Outcome State Fault Refusal :=
  act (issueTrigger l 0x311 t) s

/-- HS (R108): trigger 0x12 of IMG with T = `t`. -/
def execHs (l : Fin 16) (t : Word) (s : State) : Host.Outcome State Fault Refusal :=
  act (issueTrigger l 0x312 t) s

/-- HQ (R108): trigger 0x13 of IMG with T = `t`. -/
def execHq (l : Fin 16) (t : Word) (s : State) : Host.Outcome State Fault Refusal :=
  act (issueTrigger l 0x313 t) s

/-! ### DSK (R112) -/

/-- PUSH (R112): trigger 0x10 of DSK with T = `t`. -/
def execPush (l : Fin 16) (t : Word) (s : State) : Host.Outcome State Fault Refusal :=
  act (issueTrigger l 0x350 t) s

/-- POP (R112): trigger 0x11 of DSK with T = `t`. -/
def execPop (l : Fin 16) (t : Word) (s : State) : Host.Outcome State Fault Refusal :=
  act (issueTrigger l 0x351 t) s

/-- PEEK (R112): trigger 0x12 of DSK with T = `t`. -/
def execPeek (l : Fin 16) (t : Word) (s : State) : Host.Outcome State Fault Refusal :=
  act (issueTrigger l 0x352 t) s

/-- DROP (R112): trigger 0x13 of DSK with T = `t`. -/
def execDrop (l : Fin 16) (t : Word) (s : State) : Host.Outcome State Fault Refusal :=
  act (issueTrigger l 0x353 t) s

/-- DEPTH (R112): trigger 0x14 of DSK with T = `t`. -/
def execDepth (l : Fin 16) (t : Word) (s : State) : Host.Outcome State Fault Refusal :=
  act (issueTrigger l 0x354 t) s

/-! ### SYS (R113, R114) -/

/-- EVW (R113): trigger 0x10 of SYS with T = `t`. -/
def execEvw (l : Fin 16) (t : Word) (s : State) : Host.Outcome State Fault Refusal :=
  act (issueTrigger l 0x3F0 t) s

/-- TTICK (R113): trigger 0x11 of SYS with T = `t`. -/
def execTtick (l : Fin 16) (t : Word) (s : State) : Host.Outcome State Fault Refusal :=
  act (issueTrigger l 0x3F1 t) s

/-- NOW (R113): trigger 0x12 of SYS with T = `t`. -/
def execNow (l : Fin 16) (t : Word) (s : State) : Host.Outcome State Fault Refusal :=
  act (issueTrigger l 0x3F2 t) s

/-- LOG (R114): trigger 0x13 of SYS with T = `t`. -/
def execLog (l : Fin 16) (t : Word) (s : State) : Host.Outcome State Fault Refusal :=
  act (issueTrigger l 0x3F3 t) s

/-! ### CTL (R116 to R121) -/

/-- JMP (R117): trigger 0x10 of CTL with T = `t`. -/
def execJmp (l : Fin 16) (t : Word) (s : State) : Host.Outcome State Fault Refusal :=
  act (issueTrigger l 0x390 t) s

/-- JMPR (R117): trigger 0x11 of CTL with T = `t`. -/
def execJmpr (l : Fin 16) (t : Word) (s : State) : Host.Outcome State Fault Refusal :=
  act (issueTrigger l 0x391 t) s

/-- CALL (R117): trigger 0x12 of CTL with T = `t`. -/
def execCall (l : Fin 16) (t : Word) (s : State) : Host.Outcome State Fault Refusal :=
  act (issueTrigger l 0x392 t) s

/-- RET (R117): trigger 0x13 of CTL with T = `t`. -/
def execRet (l : Fin 16) (t : Word) (s : State) : Host.Outcome State Fault Refusal :=
  act (issueTrigger l 0x393 t) s

/-- END (R119): trigger 0x14 of CTL with T = `t`. -/
def execEndSeg (l : Fin 16) (t : Word) (s : State) : Host.Outcome State Fault Refusal :=
  act (issueTrigger l 0x394 t) s

/-- WAIT (R121): trigger 0x15 of CTL with T = `t`. -/
def execWait (l : Fin 16) (t : Word) (s : State) : Host.Outcome State Fault Refusal :=
  act (issueTrigger l 0x395 t) s

/-- POST (R121): trigger 0x16 of CTL with T = `t`. -/
def execPost (l : Fin 16) (t : Word) (s : State) : Host.Outcome State Fault Refusal :=
  act (issueTrigger l 0x396 t) s

/-- TRYW (R121): trigger 0x17 of CTL with T = `t`. -/
def execTryw (l : Fin 16) (t : Word) (s : State) : Host.Outcome State Fault Refusal :=
  act (issueTrigger l 0x397 t) s

/-- RDEPTH (R116): trigger 0x18 of CTL with T = `t`. -/
def execRdepth (l : Fin 16) (t : Word) (s : State) : Host.Outcome State Fault Refusal :=
  act (issueTrigger l 0x398 t) s

/-! ### REP (R128 to R133) -/

/-- RUN (R130): trigger 0x10 of REP with T = `t`. -/
def execRun (l : Fin 16) (t : Word) (s : State) : Host.Outcome State Fault Refusal :=
  act (issueTrigger l 0x3D0 t) s

/-- COPY (R133): trigger 0x11 of REP with T = `t`. -/
def execCopy (l : Fin 16) (t : Word) (s : State) : Host.Outcome State Fault Refusal :=
  act (issueTrigger l 0x3D1 t) s

/-- MATCH (R133): trigger 0x12 of REP with T = `t`. -/
def execMatchRep (l : Fin 16) (t : Word) (s : State) : Host.Outcome State Fault Refusal :=
  act (issueTrigger l 0x3D2 t) s

/-- SEEK (R133): trigger 0x13 of REP with T = `t`. -/
def execSeek (l : Fin 16) (t : Word) (s : State) : Host.Outcome State Fault Refusal :=
  act (issueTrigger l 0x3D3 t) s

/-- FILL (R133): trigger 0x14 of REP with T = `t`. -/
def execFill (l : Fin 16) (t : Word) (s : State) : Host.Outcome State Fault Refusal :=
  act (issueTrigger l 0x3D4 t) s

/-- BREAK (R132): trigger 0x15 of REP with T = `t`. -/
def execBreakRep (l : Fin 16) (t : Word) (s : State) : Host.Outcome State Fault Refusal :=
  act (issueTrigger l 0x3D5 t) s

/-! ### Waits (R119, R121 to R125) -/

/-- The oldest post of a lane counts: on a count of 255 it stays there and NOTE 0x1011 is written (R121). -/
def countPost (p : HeldPost) (s : State) : State :=
  let n := vget 0 s.ln.batons p.baton
  let s := { s with ln := { s.ln with posts := s.ln.posts.erase p } }
  if n < 255 then { s with ln := { s.ln with batons := vset s.ln.batons p.baton (n + 1) } }
  else note 0x1011 (BitVec.ofNat 8 p.lane) (w p.lane) (w p.baton) (kLow s) s

/-- A held-back post whose time has come (R122). -/
def ripePost (l : Nat) (s : State) : Option HeldPost :=
  match s.ln.posts.find? fun p => p.lane == l with
  | some p => if p.stores = 0 ∧ p.base + 4 ≤ s.clk.cyc then some p else none
  | none => none

/-- BATON_COUNT (R122): the lane's oldest held-back POST counts for all lanes. -/
def execBatonCount (l : Fin 16) (s : State) : Host.Outcome State Fault Refusal :=
  act (fun s => match ripePost l.val s with
    | some p => countPost p s
    | none => s) s

/-- The baton that a lane waits on, with its deadline. -/
def waitsOn (ln : Lane) : Option (Nat × Option Nat) :=
  match ln.mode, ln.wait with
  | .wait, .baton n d => if ln.saving then none else some (n, d)
  | _, _ => none

/-- The state a lane leaves WAIT for. -/
def workMode (ln : Lane) : LaneMode := if ln.cls = 3 then .bg else .sched

/-- BATON_TAKE (R121, R123): a waiting lane takes its baton and issues its next bundle in the following lane cycle. -/
def execBatonTake (l : Fin 16) (s : State) : Host.Outcome State Fault Refusal :=
  act (fun s => match waitsOn (s.lanes[l.val]) with
    | some (n, d) =>
      if batonFree s l.val n then
        modLane l (fun ln => { ln with mode := workMode ln, wait := .none, lastIssue := some s.clk.cyc })
          (takeBaton l.val n false d s)
      else s
    | none => s) s

/-- BATON_TIMEOUT (R125): scheduled work still waits on its baton when TICKPH reaches the deadline. -/
def execBatonTimeout (l : Fin 16) (s : State) : Host.Outcome State Fault Refusal :=
  act (fun s =>
    let ln := runningLane s (s.lanes[l.val])
    match waitsOn ln with
    | some (n, some d) =>
      if d ≤ s.clk.tickph ∧ ¬ batonFree s l.val n then laneFault l ⟨0x100E, w n, none⟩ ln.lastPc ln.lastMacro s else s
    | _ => s) s

/-- SEGMENT_START (R119): TICKPH has reached the start time that the lane waits for. -/
def execSegmentStart (l : Fin 16) (s : State) : Host.Outcome State Fault Refusal :=
  act (fun s =>
    let ln := s.lanes[l.val]
    match ln.mode, ln.wait with
    | .wait, .start p =>
      if p ≤ s.clk.tickph then
        modLane l (fun ln => { ln with mode := .sched, wait := .none, lastIssue := some s.clk.cyc }) s
      else s
    | _, _ => s) s

end Sys2Proof.Machine
end

