-- ==== Sys2Proof/Machine/NePorts.lean ====
section
/-! DEFINITION. Ports: frames as they arrive, PRP and HSR, links (R184 to R189, R208). -/
namespace Sys2Proof.Machine

/-- A violation of a port, counted and noted (R208). -/
def portViol (port place : Nat) (code : BitVec 16) (s : State) : State :=
  neNote (0x10000000 + port) port code (neEvt 2 (portInc port place s))

/-- Place of a duplicate in a table: 400 ms after it was made an entry is forgotten (R189). -/
def dupFind (s : State) (tab : List (Nat × Nat × Nat)) (mac seq : Nat) : Bool :=
  tab.any fun e => e.1 == mac && e.2.1 == seq && decide (s.clk.cyc < e.2.2 + 400 * cycMs)

/-- A new entry: the oldest leaves a full table of 1,024. -/
def dupAdd (s : State) (tab : List (Nat × Nat × Nat)) (mac seq : Nat) : List (Nat × Nat × Nat) :=
  let tab := if 1024 ≤ tab.length then tab.drop 1 else tab
  tab ++ [(mac, seq, s.clk.cyc)]

/-- A frame addressed to a group, or to this module alone (R186). -/
def toGroup (f : EthFrame) : Bool := f.dstMac / 2 ^ 40 % 2 == 1
def toUs (s : State) (port : Nat) (f : EthFrame) : Bool := f.dstMac == ownMac s port

/-- What a delivered frame carries goes to its receiver, with the frame's destination; the module is no party to a frame
addressed to another station alone. -/
def deliver (port : Nat) (f : EthFrame) (s : State) : State :=
  match f.payload with
  | .sv m => svMessage port { m with dmac := f.dstMac } s
  | .goose m => gooseMessage port { m with dmac := f.dstMac } s
  | .ptp m => if toGroup f || toUs s port f then ptpMessage port m s else s
  | .supervision => s
  | .other => s

/-- Deliver the first copy and discard the second (R189). -/
def deliverOnce (port : Nat) (mac seq : Nat) (f : EthFrame) (s : State) : State :=
  let n := pairOf port
  if dupFind s (nePairOf s n).dups mac seq then portInc port 5 s
  else deliver port f (modPair n (fun p => { p with dups := dupAdd s p.dups mac seq }) s)

/-- The own supervision frame returned (RING_OK). -/
def ringReturn (port : Nat) (f : EthFrame) (s : State) : State :=
  if f.payload = .supervision then
    modPair (pairOf port) (fun p => if port % 2 = 0 then { p with supA := some s.clk.cyc } else { p with supB := some s.clk.cyc }) s
  else s

/-- A sound frame by the mode of its pair (R187, R188). -/
def frameByMode (port : Nat) (f : EthFrame) (s : State) : State :=
  match (nePairOf s (pairOf port)).mode, f.tag with
  | 1, .prp seq lanOk sizeOk =>
    if !sizeOk then deliver port f (portViol port 6 0x4030 s)
    else deliverOnce port f.srcMac seq f (if lanOk then s else portViol port 6 0x4030 s)
  | 2, .hsr seq ok =>
    if !ok then portViol port 6 0x4030 s
    else if f.srcMac = ownMac s port then ringReturn port f s
    else deliverOnce port f.srcMac seq f s
  | _, _ => deliver port f s

/-- A frame arrives at a port (R186, R208). -/
def portFrame (port : Nat) (f : EthFrame) (s : State) : State :=
  if !portLink s port ∨ spdErr (nePairOf s (pairOf port)) then s
  else
    let s := arrived port s
    if !f.fcsOk then portViol port 2 0x4031 s
    else if f.len < 64 ∨ 1528 < f.len then portViol port 3 0x4031 s
    else frameByMode port f s

/-- PORT_FRAME. -/
def execPortFrame (port : Fin 12) (f : EthFrame) (s : State) : Host.Outcome State Fault Refusal :=
  act (portFrame port.val f) s

/-! ### HSR ring forwarding (R188) -/

/-- correctionField of the forwarded frame, with what the transparent clock keeps. -/
def forwardBody (inPort : Nat) (f : EthFrame) (s : State) : Option Int × State :=
  match f.payload with
  | .ptp m => ptpForward inPort m s
  | _ => (none, s)

/-- A ring frame goes out on the other port, once in each direction. -/
def hsrForward (pair : Nat) (fromB : Bool) (f : EthFrame) (s : State) : State :=
  let inPort := 2 * pair + (if fromB then 1 else 0)
  let out := 2 * pair + (if fromB then 0 else 1)
  let p := nePairOf s pair
  match p.mode, f.tag with
  | 2, .hsr seq true =>
    let tab := if fromB then p.fwdBA else p.fwdAB
    if spdErr p || !portLink s inPort || !portLink s out || !f.fcsOk || decide (f.len < 64 ∨ 1528 < f.len)
        || toUs s inPort f || f.srcMac == ownMac s inPort || dupFind s tab f.srcMac seq then s
    else
      let (c, s) := forwardBody inPort f s
      let tab' := dupAdd s tab f.srcMac seq
      portInc out 1 (portInc out 7
        { s with ne := { s.ne with
            sent := s.ne.sent ++ [⟨f.srcMac, some f.dstMac, none, none, [(out, .hsr seq (Config.lsduSize (.forward c)))], none,
              .forward c⟩]
            pairs := vmod s.ne.pairs pair fun p => if fromB then { p with fwdBA := tab' } else { p with fwdAB := tab' } } })
  | _, _ => s

/-- HSR_FORWARD: it goes on after MODULE doubt and in plinth mode. -/
def execHsrForward (pair : Fin 6) (fromB : Bool) (f : EthFrame) (s : State) : Host.Outcome State Fault Refusal :=
  act (hsrForward pair.val fromB f) s

/-- A supervision frame is sent. -/
def supervision (n : Nat) (s : State) : State :=
  pairSend n 0 ⟨none, none, none, none⟩ .supervision
    (modPair n (fun p => { p with supSent := s.clk.cyc, supCount := p.supCount + 1 }) s)

/-- SUPERVISION_FRAME: of a PRP or HSR pair, every 2,000 ms (R187, R188). -/
def execSupervisionFrame (pair : Fin 6) (s : State) : Host.Outcome State Fault Refusal :=
  act (fun s => let p := nePairOf s pair.val
    whenever (p.mode != 0 && !spdErr p && (p.supCount == 0 || decide (p.supSent + 2000 * cycMs ≤ s.clk.cyc)))
      (supervision pair.val) s) s

/-- DUPLICATE_ENTRY_EXPIRY: entries of 400 ms are forgotten (R189). -/
def execDuplicateEntryExpiry (pair : Fin 6) (s : State) : Host.Outcome State Fault Refusal :=
  act (fun s =>
    let keep := List.filter fun e : Nat × Nat × Nat => decide (s.clk.cyc < e.2.2 + 400 * cycMs)
    modPair pair.val (fun p => { p with dups := keep p.dups, fwdAB := keep p.fwdAB, fwdBA := keep p.fwdBA }) s) s

/-! ### Links -/

/-- Interface of a port in force (NE_PAIR_n_CFG.IFA, IFB, read at module reset). -/
def portIf (s : State) (port : Nat) : Nat :=
  let p := nePairOf s (pairOf port)
  if port % 2 = 0 then p.ifA else p.ifB

/-- Speeds (1 10, 2 100, 3 1000 Mbit/s) at which a port's interface runs (R184): 1000BASE-X, 100BASE-FX, SGMII as the PHY
reports; a port that is off has no link. -/
def ifRuns (code speed : Nat) : Bool :=
  match code with
  | 0 => speed == 3
  | 1 => speed == 2
  | 2 => decide (1 ≤ speed ∧ speed ≤ 3)
  | _ => false

/-- A link changes state. -/
def linkChange (port : Nat) (up : Bool) (speed : Nat) (s : State) : State :=
  let spd := if up then speed else 0
  neEvt 3 (modPair (pairOf port) (fun p =>
    if port % 2 = 0 then { p with linkA := up, spdA := spd } else { p with linkB := up, spdB := spd }) s)

/-- Speed of a port. -/
def portSpeed (s : State) (port : Nat) : Nat :=
  let p := nePairOf s (pairOf port)
  if port % 2 = 0 then p.spdA else p.spdB

/-- LINK_CHANGE. -/
def execLinkChange (port : Fin 12) (up : Bool) (speed : Nat) (s : State) : Host.Outcome State Fault Refusal :=
  act (fun s => whenever ((up != portLink s port.val || (up && speed != portSpeed s port.val)) 
    && (!up || ifRuns (portIf s port.val) speed)) (linkChange port.val up speed) s) s

end Sys2Proof.Machine
end

