-- ==== Sys2Proof/Machine/PowerRows.lean ====
section
/-! DEFINITION. The supply (R22, R23, R400 to R402): PFW, internal rails, the reset after a supply returns, power loss. -/
namespace Sys2Proof.Machine

/-- PFW asserts: 0 for VIN, 1 for the internal 12 V bus. It stays asserted until module reset. -/
def pfwAssert (src : Nat) (s : State) : State :=
  moduleDoubt causeSupply 0x0020 srcSYS (w src) 0 0 { s with pwr := ⟨some src, s.clk.cyc⟩ }

/-- PFW_N on J3: low while PFW is asserted and before power-good (R401, R407). -/
def pfwN (s : State) : Bool := s.clk.power && s.pwr.pfw.isNone

/-- PFW (R401). -/
def execPfw (src : Fin 2) (s : State) : Host.Outcome State Fault Refusal :=
  act (fun s => whenever s.pwr.pfw.isNone (pfwAssert src.val) s) s

/-- SUPPLY_RAIL: an internal rail is out of range (R23). -/
def execSupplyRail (rail : Word) (s : State) : Host.Outcome State Fault Refusal :=
  act (moduleDoubt causeSupply 0x0021 srcSYS rail 0 0) s

/-- The power circuit may reset the module: PFW is asserted, the flush-complete marker is written, and VIN can have stayed
above 8.8 V for 100 ms since both. -/
def returnDue (s : State) : Bool :=
  s.clk.power && s.pwr.pfw.isSome && s.sys.flushed
  && decide (max s.sys.flushedCyc s.pwr.since + 100 * cycMs ≤ s.clk.cyc)

/-- SUPPLY_RETURN_RESET (R402). -/
def execSupplyReturnReset (r : ResetIn) (s : State) : Host.Outcome State Fault Refusal :=
  .next (if returnDue s then boot r s else s)

/-- The hold-up store can have run out: it lasts at least 8 ms after PFW (R401). -/
def holdUpOver (s : State) : Bool := s.pwr.pfw.isSome && decide (s.pwr.since + 8 * cycMs ≤ s.clk.cyc)

/-- Power is lost; a flush that has not written its marker is cut short. -/
def powerLost (s : State) : State :=
  let s := if s.sys.flush == .none then s else flushCut (cutOf s) s
  { s with clk := { s.clk with power := false } }

/-- POWER_DOWN: the hold-up store runs out (R402); the backup domain goes on alone (R226). -/
def execPowerDown (s : State) : Host.Outcome State Fault Refusal :=
  act (fun s => whenever (holdUpOver s) powerLost s) s

end Sys2Proof.Machine
end

