-- ==== Sys2Proof/Machine/Dispatch.lean ====
section
/-! DEFINITION. One arm per command of the opcode table. -/
namespace Sys2Proof.Machine

def exec (i : Instr) (s : State) : Host.Outcome State Fault Refusal :=
  match i with
  | .move l => Sys2Proof.Machine.execMove l s
  | .opResult l => Sys2Proof.Machine.execOpResult l s
  | .macroCall l => Sys2Proof.Machine.execMacroCall l s
  | .add l alu t => Sys2Proof.Machine.execAdd l alu t s
  | .addc l alu t => Sys2Proof.Machine.execAddc l alu t s
  | .sub l alu t => Sys2Proof.Machine.execSub l alu t s
  | .subc l alu t => Sys2Proof.Machine.execSubc l alu t s
  | .rsub l alu t => Sys2Proof.Machine.execRsub l alu t s
  | .andOp l alu t => Sys2Proof.Machine.execAndOp l alu t s
  | .orOp l alu t => Sys2Proof.Machine.execOrOp l alu t s
  | .xorOp l alu t => Sys2Proof.Machine.execXorOp l alu t s
  | .andn l alu t => Sys2Proof.Machine.execAndn l alu t s
  | .notOp l alu t => Sys2Proof.Machine.execNotOp l alu t s
  | .neg l alu t => Sys2Proof.Machine.execNeg l alu t s
  | .abs l alu t => Sys2Proof.Machine.execAbs l alu t s
  | .shl l alu t => Sys2Proof.Machine.execShl l alu t s
  | .shr l alu t => Sys2Proof.Machine.execShr l alu t s
  | .sar l alu t => Sys2Proof.Machine.execSar l alu t s
  | .rol l alu t => Sys2Proof.Machine.execRol l alu t s
  | .ror l alu t => Sys2Proof.Machine.execRor l alu t s
  | .minOp l alu t => Sys2Proof.Machine.execMinOp l alu t s
  | .maxOp l alu t => Sys2Proof.Machine.execMaxOp l alu t s
  | .minu l alu t => Sys2Proof.Machine.execMinu l alu t s
  | .maxu l alu t => Sys2Proof.Machine.execMaxu l alu t s
  | .sext8 l alu t => Sys2Proof.Machine.execSext8 l alu t s
  | .sext16 l alu t => Sys2Proof.Machine.execSext16 l alu t s
  | .zext8 l alu t => Sys2Proof.Machine.execZext8 l alu t s
  | .zext16 l alu t => Sys2Proof.Machine.execZext16 l alu t s
  | .clz l alu t => Sys2Proof.Machine.execClz l alu t s
  | .popc l alu t => Sys2Proof.Machine.execPopc l alu t s
  | .bswap l alu t => Sys2Proof.Machine.execBswap l alu t s
  | .pass l alu t => Sys2Proof.Machine.execPass l alu t s
  | .mul l t => Sys2Proof.Machine.execMul l t s
  | .mulu l t => Sys2Proof.Machine.execMulu l t s
  | .mulq31 l t => Sys2Proof.Machine.execMulq31 l t s
  | .mac l t => Sys2Proof.Machine.execMac l t s
  | .accset l t => Sys2Proof.Machine.execAccset l t s
  | .div l t => Sys2Proof.Machine.execDiv l t s
  | .divu l t => Sys2Proof.Machine.execDivu l t s
  | .divl l t => Sys2Proof.Machine.execDivl l t s
  | .divlu l t => Sys2Proof.Machine.execDivlu l t s
  | .badd l t => Sys2Proof.Machine.execBadd l t s
  | .baddc l t => Sys2Proof.Machine.execBaddc l t s
  | .bsub l t => Sys2Proof.Machine.execBsub l t s
  | .bsubc l t => Sys2Proof.Machine.execBsubc l t s
  | .bdadj l t => Sys2Proof.Machine.execBdadj l t s
  | .b2bin l t => Sys2Proof.Machine.execB2bin l t s
  | .bin2b l t => Sys2Proof.Machine.execBin2b l t s
  | .date2day l t => Sys2Proof.Machine.execDate2day l t s
  | .day2date l t => Sys2Proof.Machine.execDay2date l t s
  | .time2sec l t => Sys2Proof.Machine.execTime2sec l t s
  | .sec2time l t => Sys2Proof.Machine.execSec2time l t s
  | .bset l t => Sys2Proof.Machine.execBset l t s
  | .brst l t => Sys2Proof.Machine.execBrst l t s
  | .btgl l t => Sys2Proof.Machine.execBtgl l t s
  | .btst l t => Sys2Proof.Machine.execBtst l t s
  | .edge l t => Sys2Proof.Machine.execEdge l t s
  | .edgew l t => Sys2Proof.Machine.execEdgew l t s
  | .prime l t => Sys2Proof.Machine.execPrime l t s
  | .primew l t => Sys2Proof.Machine.execPrimew l t s
  | .cmpEq l t => Sys2Proof.Machine.execCmpEq l t s
  | .cmpNe l t => Sys2Proof.Machine.execCmpNe l t s
  | .cmpLt l t => Sys2Proof.Machine.execCmpLt l t s
  | .cmpLe l t => Sys2Proof.Machine.execCmpLe l t s
  | .cmpGt l t => Sys2Proof.Machine.execCmpGt l t s
  | .cmpGe l t => Sys2Proof.Machine.execCmpGe l t s
  | .cmpLtu l t => Sys2Proof.Machine.execCmpLtu l t s
  | .cmpLeu l t => Sys2Proof.Machine.execCmpLeu l t s
  | .cmpGtu l t => Sys2Proof.Machine.execCmpGtu l t s
  | .cmpGeu l t => Sys2Proof.Machine.execCmpGeu l t s
  | .tstz l t => Sys2Proof.Machine.execTstz l t s
  | .tstnz l t => Sys2Proof.Machine.execTstnz l t s
  | .feq l t => Sys2Proof.Machine.execFeq l t s
  | .fne l t => Sys2Proof.Machine.execFne l t s
  | .flt l t => Sys2Proof.Machine.execFlt l t s
  | .fle l t => Sys2Proof.Machine.execFle l t s
  | .fgt l t => Sys2Proof.Machine.execFgt l t s
  | .fge l t => Sys2Proof.Machine.execFge l t s
  | .fun_ l t => Sys2Proof.Machine.execFun_ l t s
  | .inr l t => Sys2Proof.Machine.execInr l t s
  | .inru l t => Sys2Proof.Machine.execInru l t s
  | .fadd l t => Sys2Proof.Machine.execFadd l t s
  | .fsub l t => Sys2Proof.Machine.execFsub l t s
  | .fmul l t => Sys2Proof.Machine.execFmul l t s
  | .fma l t => Sys2Proof.Machine.execFma l t s
  | .fms l t => Sys2Proof.Machine.execFms l t s
  | .fdiv l t => Sys2Proof.Machine.execFdiv l t s
  | .fsqrt l t => Sys2Proof.Machine.execFsqrt l t s
  | .fneg l t => Sys2Proof.Machine.execFneg l t s
  | .fabs l t => Sys2Proof.Machine.execFabs l t s
  | .fmin l t => Sys2Proof.Machine.execFmin l t s
  | .fmax l t => Sys2Proof.Machine.execFmax l t s
  | .i2f l t => Sys2Proof.Machine.execI2f l t s
  | .u2f l t => Sys2Proof.Machine.execU2f l t s
  | .f2i l t => Sys2Proof.Machine.execF2i l t s
  | .f2it l t => Sys2Proof.Machine.execF2it l t s
  | .f2u l t => Sys2Proof.Machine.execF2u l t s
  | .frnd l t => Sys2Proof.Machine.execFrnd l t s
  | .atan2 l t => Sys2Proof.Machine.execAtan2 l t s
  | .mag l t => Sys2Proof.Machine.execMag l t s
  | .polar l t => Sys2Proof.Machine.execPolar l t s
  | .sincos l t => Sys2Proof.Machine.execSincos l t s
  | .sld l t => Sys2Proof.Machine.execSld l t s
  | .sldh l t => Sys2Proof.Machine.execSldh l t s
  | .sldb l t => Sys2Proof.Machine.execSldb l t s
  | .sst l t => Sys2Proof.Machine.execSst l t s
  | .ssth l t => Sys2Proof.Machine.execSsth l t s
  | .sstb l t => Sys2Proof.Machine.execSstb l t s
  | .ld l t => Sys2Proof.Machine.execLd l t s
  | .st l t => Sys2Proof.Machine.execSt l t s
  | .imgIn l t => Sys2Proof.Machine.execImgIn l t s
  | .imgOut l t => Sys2Proof.Machine.execImgOut l t s
  | .hs l t => Sys2Proof.Machine.execHs l t s
  | .hq l t => Sys2Proof.Machine.execHq l t s
  | .push l t => Sys2Proof.Machine.execPush l t s
  | .pop l t => Sys2Proof.Machine.execPop l t s
  | .peek l t => Sys2Proof.Machine.execPeek l t s
  | .drop l t => Sys2Proof.Machine.execDrop l t s
  | .depth l t => Sys2Proof.Machine.execDepth l t s
  | .evw l t => Sys2Proof.Machine.execEvw l t s
  | .ttick l t => Sys2Proof.Machine.execTtick l t s
  | .now l t => Sys2Proof.Machine.execNow l t s
  | .log l t => Sys2Proof.Machine.execLog l t s
  | .jmp l t => Sys2Proof.Machine.execJmp l t s
  | .jmpr l t => Sys2Proof.Machine.execJmpr l t s
  | .call l t => Sys2Proof.Machine.execCall l t s
  | .ret l t => Sys2Proof.Machine.execRet l t s
  | .endSeg l t => Sys2Proof.Machine.execEndSeg l t s
  | .wait l t => Sys2Proof.Machine.execWait l t s
  | .post l t => Sys2Proof.Machine.execPost l t s
  | .tryw l t => Sys2Proof.Machine.execTryw l t s
  | .rdepth l t => Sys2Proof.Machine.execRdepth l t s
  | .batonCount l => Sys2Proof.Machine.execBatonCount l s
  | .batonTake l => Sys2Proof.Machine.execBatonTake l s
  | .batonTimeout l => Sys2Proof.Machine.execBatonTimeout l s
  | .segmentStart l => Sys2Proof.Machine.execSegmentStart l s
  | .run l t => Sys2Proof.Machine.execRun l t s
  | .copy l t => Sys2Proof.Machine.execCopy l t s
  | .matchRep l t => Sys2Proof.Machine.execMatchRep l t s
  | .seek l t => Sys2Proof.Machine.execSeek l t s
  | .fill l t => Sys2Proof.Machine.execFill l t s
  | .breakRep l t => Sys2Proof.Machine.execBreakRep l t s
  | .bankGrant b ne eq te mgmt => Sys2Proof.Machine.execBankGrant b ne eq te mgmt s
  | .loadReturn l slot => Sys2Proof.Machine.execLoadReturn l slot s
  | .tick => Sys2Proof.Machine.execTick s
  | .assemblyComplete => Sys2Proof.Machine.execAssemblyComplete s
  | .computeWindowOpen => Sys2Proof.Machine.execComputeWindowOpen s
  | .guard => Sys2Proof.Machine.execGuard s
  | .doubtGoose => Sys2Proof.Machine.execDoubtGoose s
  | .flushComplete => Sys2Proof.Machine.execFlushComplete s
  | .watchdog => Sys2Proof.Machine.execWatchdog s
  | .blockCrcScrub => Sys2Proof.Machine.execBlockCrcScrub s
  | .mgmtSramUe addr secure => Sys2Proof.Machine.execMgmtSramUe addr secure s
  | .hostReset sid => Sys2Proof.Machine.execHostReset sid s
  | .commitArm sid groups => Sys2Proof.Machine.execCommitArm sid groups s
  | .commitCancel sid => Sys2Proof.Machine.execCommitCancel sid s
  | .frmClrMax sid => Sys2Proof.Machine.execFrmClrMax sid s
  | .hostEvent sid mask => Sys2Proof.Machine.execHostEvent sid mask s
  | .frameLoRead sid => Sys2Proof.Machine.execFrameLoRead sid s
  | .k0LoRead sid => Sys2Proof.Machine.execK0LoRead sid s
  | .lnClrMax sid => Sys2Proof.Machine.execLnClrMax sid s
  | .seal sid => Sys2Proof.Machine.execSeal sid s
  | .chiselClear sid => Sys2Proof.Machine.execChiselClear sid s
  | .chiselCopy sid => Sys2Proof.Machine.execChiselCopy sid s
  | .chiselWrite sid reg value => Sys2Proof.Machine.execChiselWrite sid reg value s
  | .load sid => Sys2Proof.Machine.execLoad sid s
  | .loaded => Sys2Proof.Machine.execLoaded s
  | .place sid => Sys2Proof.Machine.execPlace sid s
  | .placed => Sys2Proof.Machine.execPlaced s
  | .swap sid => Sys2Proof.Machine.execSwap sid s
  | .swapCancel sid => Sys2Proof.Machine.execSwapCancel sid s
  | .discard sid => Sys2Proof.Machine.execDiscard sid s
  | .uncache sid => Sys2Proof.Machine.execUncache sid s
  | .maquetteWrite sid addr value => Sys2Proof.Machine.execMaquetteWrite sid addr value s
  | .submit sid => Sys2Proof.Machine.execSubmit sid s
  | .abort sid slot => Sys2Proof.Machine.execAbort sid slot s
  | .descriptorTake fw => Sys2Proof.Machine.execDescriptorTake fw s
  | .teCopy fw => Sys2Proof.Machine.execTeCopy fw s
  | .teFill fw => Sys2Proof.Machine.execTeFill fw s
  | .teCrc fw => Sys2Proof.Machine.execTeCrc fw s
  | .memClrMax sid => Sys2Proof.Machine.execMemClrMax sid s
  | .portFrame port f => Sys2Proof.Machine.execPortFrame port f s
  | .hsrForward pair fromB f => Sys2Proof.Machine.execHsrForward pair fromB f s
  | .supervisionFrame pair => Sys2Proof.Machine.execSupervisionFrame pair s
  | .duplicateEntryExpiry pair => Sys2Proof.Machine.execDuplicateEntryExpiry pair s
  | .linkChange port up speed => Sys2Proof.Machine.execLinkChange port up speed s
  | .svMessage port m => Sys2Proof.Machine.execSvMessage port m s
  | .cutoff => Sys2Proof.Machine.execCutoff s
  | .gooseMessage port m => Sys2Proof.Machine.execGooseMessage port m s
  | .gooseExpiry sub => Sys2Proof.Machine.execGooseExpiry sub s
  | .gooseRetransmit pub => Sys2Proof.Machine.execGooseRetransmit pub s
  | .neClrCnt sid => Sys2Proof.Machine.execNeClrCnt sid s
  | .ptpMessage port m => Sys2Proof.Machine.execPtpMessage port m s
  | .ptpTransmit port kind => Sys2Proof.Machine.execPtpTransmit port kind s
  | .ptpLanSwitch pair => Sys2Proof.Machine.execPtpLanSwitch pair s
  | .irigFrame f => Sys2Proof.Machine.execIrigFrame f s
  | .ppsIn widthNs => Sys2Proof.Machine.execPpsIn widthNs s
  | .sourceTimeout src => Sys2Proof.Machine.execSourceTimeout src s
  | .holdLimit => Sys2Proof.Machine.execHoldLimit s
  | .clockLoss c => Sys2Proof.Machine.execClockLoss c s
  | .ppsOut => Sys2Proof.Machine.execPpsOut s
  | .ppsPulseEnd => Sys2Proof.Machine.execPpsPulseEnd s
  | .firstTick => Sys2Proof.Machine.execFirstTick s
  | .epochCheck => Sys2Proof.Machine.execEpochCheck s
  | .timNowRead sid => Sys2Proof.Machine.execTimNowRead sid s
  | .rtcTickLoRead host => Sys2Proof.Machine.execRtcTickLoRead host s
  | .rtcTickHiRead host => Sys2Proof.Machine.execRtcTickHiRead host s
  | .shiftGo sid amount sub => Sys2Proof.Machine.execShiftGo sid amount sub s
  | .shiftCancel sid => Sys2Proof.Machine.execShiftCancel sid s
  | .shiftApply => Sys2Proof.Machine.execShiftApply s
  | .alarmArm sid hi => Sys2Proof.Machine.execAlarmArm sid hi s
  | .alarmFire => Sys2Proof.Machine.execAlarmFire s
  | .domainWriteDone reg => Sys2Proof.Machine.execDomainWriteDone reg s
  | .domainReset => Sys2Proof.Machine.execDomainReset s
  | .tamperSample x => Sys2Proof.Machine.execTamperSample x s
  | .tamper => Sys2Proof.Machine.execTamper s
  | .eqSample => Sys2Proof.Machine.execEqSample s
  | .freerunCycleEnd p => Sys2Proof.Machine.execFreerunCycleEnd p s
  | .latch p => Sys2Proof.Machine.execLatch p s
  | .pulseStart g => Sys2Proof.Machine.execPulseStart g s
  | .pulseEnd g => Sys2Proof.Machine.execPulseEnd g s
  | .energySave => Sys2Proof.Machine.execEnergySave s
  | .holdExpiry => Sys2Proof.Machine.execHoldExpiry s
  | .snapHold sid hold => Sys2Proof.Machine.execSnapHold sid hold s
  | .pointClear sid p => Sys2Proof.Machine.execPointClear sid p s
  | .wrapClr sid p => Sys2Proof.Machine.execWrapClr sid p s
  | .preset sid p reg => Sys2Proof.Machine.execPreset sid p reg s
  | .pqPop sid => Sys2Proof.Machine.execPqPop sid s
  | .acceptedTransition n level heldUs => Sys2Proof.Machine.execAcceptedTransition n level heldUs s
  | .wireBreak n microAmp => Sys2Proof.Machine.execWireBreak n microAmp s
  | .supplyLoss grp => Sys2Proof.Machine.execSupplyLoss grp s
  | .supplyRestore grp => Sys2Proof.Machine.execSupplyRestore grp s
  | .overcurrent n => Sys2Proof.Machine.execOvercurrent n s
  | .groupOverload g => Sys2Proof.Machine.execGroupOverload g s
  | .thermalShutdown n => Sys2Proof.Machine.execThermalShutdown n s
  | .outputRetry n => Sys2Proof.Machine.execOutputRetry n s
  | .outputDiag n rb => Sys2Proof.Machine.execOutputDiag n rb s
  | .diagClear n rb => Sys2Proof.Machine.execDiagClear n rb s
  | .monostableRunout g => Sys2Proof.Machine.execMonostableRunout g s
  | .canFrameReceived n r => Sys2Proof.Machine.execCanFrameReceived n r s
  | .txAttempt n => Sys2Proof.Machine.execTxAttempt n s
  | .txDone n => Sys2Proof.Machine.execTxDone n s
  | .canError n e => Sys2Proof.Machine.execCanError n e s
  | .integrationEnd n => Sys2Proof.Machine.execIntegrationEnd n s
  | .recover sid n => Sys2Proof.Machine.execRecover sid n s
  | .recoveryEnd n => Sys2Proof.Machine.execRecoveryEnd n s
  | .referenceDue n => Sys2Proof.Machine.execReferenceDue n s
  | .refLost n => Sys2Proof.Machine.execRefLost n s
  | .canClrCnt sid n => Sys2Proof.Machine.execCanClrCnt sid n s
  | .recordMsg h r => Sys2Proof.Machine.execRecordMsg h r s
  | .mirrorSv h stream j vals => Sys2Proof.Machine.execMirrorSv h stream j vals s
  | .mirrorGs h sub gen words => Sys2Proof.Machine.execMirrorGs h sub gen words s
  | .mirrorCan h ctl queue words => Sys2Proof.Machine.execMirrorCan h ctl queue words s
  | .meter h words => Sys2Proof.Machine.execMeter h words s
  | .outputMsg h k words pubs => Sys2Proof.Machine.execOutputMsg h k words pubs s
  | .doubtMsg h role code k => Sys2Proof.Machine.execDoubtMsg h role code k s
  | .beatMsg h b => Sys2Proof.Machine.execBeatMsg h b s
  | .xferMsg h m block last => Sys2Proof.Machine.execXferMsg h m block last s
  | .scanMsg h lo hi crcs => Sys2Proof.Machine.execScanMsg h lo hi crcs s
  | .controlMsg h c => Sys2Proof.Machine.execControlMsg h c s
  | .beacon pair mac role k => Sys2Proof.Machine.execBeacon pair mac role k s
  | .imageDeadline => Sys2Proof.Machine.execImageDeadline s
  | .compare => Sys2Proof.Machine.execCompare s
  | .seekTimeout => Sys2Proof.Machine.execSeekTimeout s
  | .transferComplete => Sys2Proof.Machine.execTransferComplete s
  | .handover sid => Sys2Proof.Machine.execHandover sid s
  | .handoverCancel sid => Sys2Proof.Machine.execHandoverCancel sid s
  | .hsbClrCnt sid => Sys2Proof.Machine.execHsbClrCnt sid s
  | .journalCommit => Sys2Proof.Machine.execJournalCommit s
  | .retainSave => Sys2Proof.Machine.execRetainSave s
  | .opSecondsStore => Sys2Proof.Machine.execOpSecondsStore s
  | .lockPage sid => Sys2Proof.Machine.execLockPage sid s
  | .nvsCntLoRead sid => Sys2Proof.Machine.execNvsCntLoRead sid s
  | .intake => Sys2Proof.Machine.execIntake s
  | .ringWrite => Sys2Proof.Machine.execRingWrite s
  | .tokenAdd => Sys2Proof.Machine.execTokenAdd s
  | .suppressed => Sys2Proof.Machine.execSuppressed s
  | .next sid => Sys2Proof.Machine.execNext sid s
  | .prev sid => Sys2Proof.Machine.execPrev sid s
  | .cursorWrite sid n => Sys2Proof.Machine.execCursorWrite sid n s
  | .cleared sid => Sys2Proof.Machine.execCleared sid s
  | .writeNow sid => Sys2Proof.Machine.execWriteNow sid s
  | .keyWrite sid => Sys2Proof.Machine.execKeyWrite sid s
  | .keyErase sid => Sys2Proof.Machine.execKeyErase sid s
  | .keyWritten => Sys2Proof.Machine.execKeyWritten s
  | .keyBad slot => Sys2Proof.Machine.execKeyBad slot s
  | .lcChange sid target => Sys2Proof.Machine.execLcChange sid target s
  | .tamperClear sid mask => Sys2Proof.Machine.execTamperClear sid mask s
  | .sha256 sid => Sys2Proof.Machine.execSha256 sid s
  | .hmac sid => Sys2Proof.Machine.execHmac sid s
  | .gmac sid => Sys2Proof.Machine.execGmac sid s
  | .ecdsa sid => Sys2Proof.Machine.execEcdsa sid s
  | .opDone => Sys2Proof.Machine.execOpDone s
  | .keyRngRead sid => Sys2Proof.Machine.execKeyRngRead sid s
  | .reseed => Sys2Proof.Machine.execReseed s
  | .rngFail test => Sys2Proof.Machine.execRngFail test s
  | .request c bytes => Sys2Proof.Machine.execRequest c bytes s
  | .replyFetch => Sys2Proof.Machine.execReplyFetch s
  | .nop ep sid => Sys2Proof.Machine.execNop ep sid s
  | .read sid space addr len => Sys2Proof.Machine.execRead sid space addr len s
  | .write sid space addr payload => Sys2Proof.Machine.execWrite sid space addr payload s
  | .hello ep role slot => Sys2Proof.Machine.execHello ep role slot s
  | .auth ep sid tag => Sys2Proof.Machine.execAuth ep sid tag s
  | .close sid => Sys2Proof.Machine.execClose sid s
  | .hlCmdClose sid target => Sys2Proof.Machine.execHlCmdClose sid target s
  | .idleTimeout sid => Sys2Proof.Machine.execIdleTimeout sid s
  | .throttleEnd ep => Sys2Proof.Machine.execThrottleEnd ep s
  | .attnRoseRead sid => Sys2Proof.Machine.execAttnRoseRead sid s
  | .arpRequest => Sys2Proof.Machine.execArpRequest s
  | .icmpEcho => Sys2Proof.Machine.execIcmpEcho s
  | .moduleReset r => Sys2Proof.Machine.execModuleReset r s
  | .updOpen sid => Sys2Proof.Machine.execUpdOpen sid s
  | .chunk sid => Sys2Proof.Machine.execChunk sid s
  | .verify sid => Sys2Proof.Machine.execVerify sid s
  | .verified => Sys2Proof.Machine.execVerified s
  | .activate sid => Sys2Proof.Machine.execActivate sid s
  | .updAbort sid => Sys2Proof.Machine.execUpdAbort sid s
  | .deactivate sid => Sys2Proof.Machine.execDeactivate sid s
  | .confirm sid => Sys2Proof.Machine.execConfirm sid s
  | .updLapse => Sys2Proof.Machine.execUpdLapse s
  | .trialExpired => Sys2Proof.Machine.execTrialExpired s
  | .pfw src => Sys2Proof.Machine.execPfw src s
  | .supplyRail rail => Sys2Proof.Machine.execSupplyRail rail s
  | .supplyReturnReset r => Sys2Proof.Machine.execSupplyReturnReset r s
  | .powerDown => Sys2Proof.Machine.execPowerDown s
  | .linkDown link => Sys2Proof.Machine.execLinkDown link s
  | .announceReceiptTimeout port => Sys2Proof.Machine.execAnnounceReceiptTimeout port s
  | .switchCooled n => Sys2Proof.Machine.execSwitchCooled n s
  | .lostArbitration n => Sys2Proof.Machine.execLostArbitration n s
  | .frameCommitPoint c => Sys2Proof.Machine.execFrameCommitPoint c s

end Sys2Proof.Machine
end

