-- ==== Sys2Proof/Machine/TestPort.lean ====
section
/-! DEFINITION. The test port and the service UART (R413). No row of the table drives the pins of either: TRST_N stays at
its pull-down, and no step changes the test port. -/
namespace Sys2Proof.Machine

/-- IDCODE: 0x1241_93C5, with DIEREV[3:0] in bits 31:28. -/
def tapIdcode : Word := (0x024193C5 : Word) ||| at_ (field (BitVec.setWidth 32 Config.dieRev) 0 4) 28

/-- Instructions that act in every life-cycle state. -/
def TapInstr.everywhere : TapInstr → Bool
  | .bypass => true
  | .idcode => true
  | .samplePreload => true
  | .other _ => false

/-- Every instruction acts in MANUFACTURE and PROVISION. -/
def tapOpen (s : State) : Bool := decide (lifecycle s ≤ 1)

/-- The instruction that acts when one is selected: in FIELD and RETIRED the others act as BYPASS. -/
def tapActing (i : TapInstr) (s : State) : TapInstr := if tapOpen s || i.everywhere then i else .bypass

/-- The instruction in force: TRST_N low holds the TAP in reset, where IDCODE is selected. -/
def tapInstr (s : State) : TapInstr := if s.tap.trstN then tapActing s.tap.ir s else .idcode

/-- What the data register of an instruction captures, where the manual gives it: IDCODE, and the single 0 of BYPASS. -/
def tapCapture : TapInstr → Option (List Bool)
  | .bypass => some [false]
  | .idcode => some ((List.range 32).map fun i => tapIdcode.getLsbD i)
  | .samplePreload => none
  | .other _ => none

/-- The levels of TRST_N and an instruction shifted in and updated. -/
def tapTrst (level : Bool) (s : State) : State :=
  { s with tap := { s.tap with trstN := level, ir := if level then s.tap.ir else .idcode } }
def tapUpdateIr (i : TapInstr) (s : State) : State :=
  if s.tap.trstN then { s with tap := { s.tap with ir := i } } else s

/-- Bytes received by the service UART: it carries vendor diagnostics only and accepts no command that changes state. -/
def uartReceive (_ : List Byte) (s : State) : State := s

end Sys2Proof.Machine
end

