-- ==== Sys2Proof/Safety.lean ====
section
/-! DEFINITION. What a safe step is, and the terms in which the statements speak of the lanes and of the host sessions:
when a lane stands ready to issue, the lane after a bundle of one move, when a session may write, and what its command
leaves. -/
namespace Sys2Proof.Safety

open Sys2Proof.Machine

/-- The outcome is a next state. -/
def answers (o : Host.Outcome State Fault Refusal) : Prop := ∃ t, o = .next t

/-- The step from a state answers a next state. -/
def safe (s : State) : Prop := answers (step s)

/-- Of a powered module, STATUS as last compared is STATUS as its sources stand (R372, R373). -/
abbrev statusCurrent (s : State) : Prop := s.clk.power = true → s.att.last = status s

/-! ### Lanes -/

/-- Lane `l` stands before its next bundle in scheduled work, or in BACKGROUND before the guard cycle: it has issued
nothing in this cycle, no repetition or expansion is under way, p0 reads 1 and no result that is due traps. -/
abbrev laneReady (l : Fin 16) (s : State) : Prop :=
  s.clk.power = true ∧ canIssue s s.lanes[l.val] = true ∧ (s.lanes[l.val]).repRun = .none ∧ (s.lanes[l.val]).mac = none
  ∧ (s.lanes[l.val]).pc ≤ 4095 ∧ (s.lanes[l.val]).p.getLsbD 0 = true ∧ dueTrap s.lanes[l.val] = none

/-- Lane `l` stands before bundle `pos` of the `len` bundles of a repeated body that begins at `first`, `brk` telling whether
a BREAK was triggered in this pass (R130, R132); else as in `laneReady`. -/
abbrev bodyReady (l : Fin 16) (first len pos : Nat) (brk : Bool) (s : State) : Prop :=
  s.clk.power = true ∧ canIssue s s.lanes[l.val] = true ∧ (s.lanes[l.val]).repRun = .body first len pos brk
  ∧ (s.lanes[l.val]).mac = none ∧ (s.lanes[l.val]).pc ≤ 4095 ∧ (s.lanes[l.val]).p.getLsbD 0 = true
  ∧ dueTrap s.lanes[l.val] = none

/-- The lane as it issues: the results that are due have appeared (R69). -/
def laneNow (l : Fin 16) (s : State) : Lane := present s.lanes[l.val]

/-- Ports of a unit of the lane, with due results. -/
def unitNow (l : Fin 16) (u : UnitId) (s : State) : UnitPorts := (laneNow l s).units[u.idx.val]

/-- The lane after a bundle of one move whose effect on it is `f`: one step and one slot more, and the next bundle at
`pc`. Whatever `f` leaves alone is unchanged. -/
def afterStep (s : State) (pc : Nat) (f : Lane → Lane) (ln : Lane) : Lane :=
  let a := f (endStall s (present ln))
  { a with pc := pc, lastPc := ln.pc, lastMacro := false, slotsCur := if a.cls = 3 then a.slotsCur else a.slotsCur + 1
           step := a.step + 1, lastIssue := some s.clk.cyc }

/-- The state after such a bundle: nothing outside the lane changes. -/
def laneStep (l : Fin 16) (f : Lane → Lane) (s : State) : State :=
  settle (modLane l (fun ln => afterStep s (ln.pc + 1) f ln) s)

/-- The same with a transfer to bundle `pc` (R117). -/
def laneJump (l : Fin 16) (pc : Nat) (f : Lane → Lane) (s : State) : State := settle (modLane l (afterStep s pc f) s)

/-- The unit of an ALU. -/
def aluUnit (n : Fin 2) : UnitId := if n.val = 0 then .alu0 else .alu1

/-- The operation `u` starts with a result that appears `lat` steps later; nothing else happens. -/
def starts (l : Fin 16) (u : UnitId) (lat : Nat) (r : OpRes) (s : State) : State := laneStep l (startOp u lat r 0) s

/-- A result with C and V given, and Z and N by R82. -/
def withCV (q : Word) (c v : Bool) : OpRes := ⟨q, 0, 0, flagWord c v (decide (q = 0)) (q.getLsbD 31) false false false, 0⟩

/-- Digit `i` of a packed decimal word, its value with every digit above 9 read as 9 (R94), whether some digit is no
decimal, and whether a word is the packed form of a number below 10^8 (R93). -/
def digit (x : Word) (i : Nat) : Nat := x.toNat / 16 ^ i % 16
def decimal (x : Word) : Nat := ((List.range 8).map fun i => min 9 (digit x i) * 10 ^ i).sum
abbrev nonDecimal (x : Word) : Prop := ∃ i < 8, 9 < digit x i
abbrev packs (q : Word) (n : Nat) : Prop := ∀ i < 8, digit q i = n / 10 ^ i % 10

/-- Length of a month of the calendar of R96, the dates of its range, and the days from 2000-01-01 to a date. -/
def monthLen (y m : Nat) : Nat :=
  [31, if y % 4 = 0 ∧ y ≠ 2100 then 29 else 28, 31, 30, 31, 30, 31, 31, 30, 31, 30, 31].getD (m - 1) 0
abbrev validDate (y m d : Nat) : Prop :=
  2000 ≤ y ∧ y ≤ 2199 ∧ 1 ≤ m ∧ m ≤ 12 ∧ 1 ≤ d ∧ d ≤ monthLen y m
def dayNumber (y m d : Nat) : Nat :=
  ((List.range (y - 2000)).map fun i => ((List.range 12).map fun j => monthLen (2000 + i) (j + 1)).sum).sum
  + ((List.range (m - 1)).map fun j => monthLen y (j + 1)).sum + (d - 1)

/-- Byte `i` of a word, and a word of a lane's scratch at a byte offset, little-endian (R105). -/
def byteOf (x : Word) (i : Nat) : Byte := BitVec.extractLsb' (8 * i) 8 x
def scratchByte (ln : Lane) (a : Nat) : Byte := sget zeroByte ln.scratch a
def scratchWord (ln : Lane) (a : Nat) : Word :=
  scratchByte ln (a + 3) ++ scratchByte ln (a + 2) ++ scratchByte ln (a + 1) ++ scratchByte ln a

/-- Memory `m'` is `m` with the `n` low bytes of `x` stored at `a`: the canonical form of the list is kept, and no other
byte changes. -/
def stored (m m' : List (Nat × Byte)) (a n : Nat) (x : Word) : Prop :=
  swf zeroByte m = true → swf zeroByte m' = true
    ∧ ∀ b, sget zeroByte m' b = if a ≤ b ∧ b < a + n then byteOf x (b - a) else sget zeroByte m b

/-- FRM_STATE once the module is in doubt: HALTED, and STARTING while there has been no tick (R25, R28). -/
def stateInDoubt (s : State) : FrmState := if s.frm.ticks = 0 then .starting else .halted

/-- A lane fault of R77 in the step at bundle `pc`: the module is in MODULE doubt from this cycle on, and the LN_FAULT
registers show the fault. -/
def laneFaults (l : Fin 16) (code : BitVec 16) (arg : Word) (pc : Nat) (s : State)
    (o : Host.Outcome State Fault Refusal) : Prop :=
  ∃ u, o = .next u ∧ u.sys.latched = true ∧ u.sys.firstCause = code ∧ u.sys.doubtCyc = s.clk.cyc ∧ u.frm.state = stateInDoubt s
    ∧ u.ln.fault.valid = true ∧ u.ln.fault.code = code ∧ u.ln.fault.lane = l.val ∧ u.ln.fault.arg = arg
    ∧ u.ln.fault.pc = pc ∧ u.sys.cause = s.sys.cause ||| (if code = 0x100C#16 then 4#10 else 1#10)
    ∧ ∀ i : Fin 16, (u.lanes[i.val]).mode = .stopped

/-- Lane `l` stands ready and the module is in no doubt and not in plinth mode. -/
abbrev laneSound (l : Fin 16) (s : State) : Prop :=
  laneReady l s ∧ s.sys.latched = false ∧ inPlinth s = false ∧ s.ln.fault.valid = false

/-- A lane is in WAIT on baton `n`, and its context is not being saved. -/
def waitsOnBaton (ln : Lane) (n : Nat) : Bool :=
  decide (ln.mode = .wait) && !ln.saving && match ln.wait with
    | .baton m _ => decide (m = n)
    | _ => false

/-- Takes of baton `n` in this cycle by lanes above `l`, whose claim comes after that of `l` (R123). -/
def takesAbove (l : Fin 16) (n : Nat) (s : State) : List BatonTake :=
  s.ln.takes.filter fun t => decide (t.baton = n) && decide (t.cyc = s.clk.cyc) && decide (l.val < t.lane)

/-- The lanes take a baton in ascending number, so it is available to lane `l` when its count, with what higher lanes have
taken in this very cycle, exceeds the number of lower lanes that wait on it (R123). -/
abbrev availableTo (l : Fin 16) (n : Nat) (s : State) : Prop :=
  (List.finRange 16).countP (fun i => decide (i < l) && waitsOnBaton s.lanes[i.val] n)
    < vget 0 s.ln.batons n + (takesAbove l n s).length

/-- Lane `l` takes baton `n`: its count falls by 1, and the take is kept for this cycle; when the count is 0, the highest
lane that took it in this cycle loses it: WAIT of that lane waits, and its TRYW presents 0. -/
def batonTaken (l : Fin 16) (n : Nat) (tryw : Bool) (d : Option Nat) (s s' : State) : Prop :=
  let now := s.ln.takes.filter fun t => decide (t.cyc = s.clk.cyc)
  let mine : BatonTake := ⟨l.val, n, s.clk.cyc, tryw, d⟩
  (0 < vget 0 s.ln.batons n →
    s' = { s with ln := { s.ln with batons := vset s.ln.batons n (vget 0 s.ln.batons n - 1), takes := mine :: now } })
  ∧ (vget 0 s.ln.batons n = 0 → ∃ t ∈ takesAbove l n s, (∀ t' ∈ takesAbove l n s, t'.lane ≤ t.lane)
      ∧ ∃ lanes, s' = { s with lanes := lanes, ln := { s.ln with takes := mine :: now.erase t } }
        ∧ ∀ i : Fin 16, (i.val ≠ t.lane → lanes[i.val] = s.lanes[i.val])
          ∧ (i.val = t.lane → t.tryw = false → (s.lanes[i.val]).mode ≠ .stopped →
              lanes[i.val] = { s.lanes[i.val] with mode := .wait, wait := .baton n t.deadline })
          ∧ (i.val = t.lane → t.tryw = true → lanes[i.val] = { s.lanes[i.val] with
              inflight := (s.lanes[i.val]).inflight.map fun r =>
                if r.unit = .ctl ∧ r.due = (s.lanes[i.val]).step then { r with q := 0 } else r }))

/-- Result and flags of the BCD unit: Z, DC and INV (R93). -/
def bcdWord (q q2 : Word) (dc inv : Bool) : OpRes := ⟨q, q2, 0, flagWord false false (decide (q = 0)) false false dc inv, 0⟩

/-- What CMP presents for a result bit: q, Z and INV (R99). -/
def cmpWord (r inv : Bool) : OpRes := ⟨bitWord r, 0, 0, flagWord false false (!r) false false false inv, 0⟩

/-! ### Host sessions -/

/-- Session `sid` is open as `ss` in a powered module, its endpoint is not throttled (R375) and no earlier request of it
still executes (R365): a request of it is judged now. -/
abbrev heard (sid : Fin 4) (ss : Session) (s : State) : Prop :=
  s.clk.power = true ∧ session sid.val s = some ss ∧ throttled ss.ep s = false ∧ sessionBusy sid.val s = false

/-- The session has at least a role, and the module is not in ROM recovery (R370, R385). -/
abbrev hostReady (sid : Fin 4) (role : Nat) (ss : Session) (s : State) : Prop :=
  heard sid ss s ∧ role ≤ ss.role.val ∧ s.upd.recovery = false

/-- A request of the session, whose effect leads to `s'`, is answered: STATUS follows the effect; the reply carries the
next SEQ, the result, STATUS and the attention generation as they now stand; it is stored with its SEQ, goes to the
session's endpoint, over UDP to the address of its last request (R361), and the idle time starts anew (R363, R364, R367,
R372). A reply that is a violation then counts as
one (R375). -/
def answered (sid : Fin 4) (ss : Session) (res : Res) (len : Nat) (payload : List Byte) (s' : State) : State :=
  let u := settle s'
  let rep : Reply := ⟨nextSeq ss, res.code, BitVec.ofNat 8 sid.val, u.att.last, u.att.agen, len, payload⟩
  let v := if res.violates then violation ss.ep res u else u
  settle { v with hl := { v.hl with
    sessions := vmod v.hl.sessions sid.val (Option.map fun x => { x with
      lastSeq := some (nextSeq ss), lastReply := some rep, lastExec := u.clk.cyc })
    lastOut := some (ss.ep, rep)
    lastTo := replyTo ss.ep v
    hpReply := match ss.ep with
      | .hp => some rep
      | .udp _ _ => v.hl.hpReply } }

/-- A request refused with a result that is a violation (R375): the state `s'` is answered so, with nothing done. -/
def turnedAway (sid : Fin 4) (ss : Session) (res : Res) (s' : State) : State := answered sid ss res 0 [] s'

/-- The commands that a session writes to a register, with the session and the lowest role (R370), and those it reads
with an effect (`none`: every session reads). -/
def hostCmd : Instr → Option (Fin 4 × Option Nat)
  | .hostReset n => some (n, some 2) | .commitArm n _ => some (n, some 2) | .commitCancel n => some (n, some 2)
  | .frmClrMax n => some (n, some 1) | .hostEvent n _ => some (n, some 1) | .lnClrMax n => some (n, some 1)
  | .frameLoRead n => some (n, none) | .k0LoRead n => some (n, none)
  | .seal n => some (n, some 2) | .chiselClear n => some (n, some 2) | .chiselCopy n => some (n, some 2)
  | .chiselWrite n _ _ => some (n, some 2) | .load n => some (n, some 2) | .place n => some (n, some 2)
  | .swap n => some (n, some 2) | .swapCancel n => some (n, some 2) | .discard n => some (n, some 2)
  | .uncache n => some (n, some 2) | .maquetteWrite n _ _ => some (n, some 2)
  | .submit n => some (n, some 2) | .abort n _ => some (n, some 2) | .memClrMax n => some (n, some 1)
  | .neClrCnt n => some (n, some 1) | .timNowRead n => some (n, none)
  | .shiftGo n _ _ => some (n, some 2) | .shiftCancel n => some (n, some 2) | .alarmArm n _ => some (n, some 2)
  | .snapHold n _ => some (n, some 1) | .pointClear n _ => some (n, some 2) | .wrapClr n _ => some (n, some 1)
  | .preset n _ _ => some (n, some 2) | .pqPop n => some (n, some 1)
  | .recover n _ => some (n, some 1) | .canClrCnt n _ => some (n, some 1)
  | .handover n => some (n, some 1) | .handoverCancel n => some (n, some 1) | .hsbClrCnt n => some (n, some 1)
  | .lockPage n => some (n, some 3) | .nvsCntLoRead n => some (n, none)
  | .next n => some (n, some 0) | .prev n => some (n, some 0) | .cursorWrite n _ => some (n, some 0)
  | .cleared n => some (n, some 2) | .writeNow n => some (n, some 1)
  | .keyWrite n => some (n, some 0) | .keyErase n => some (n, some 0) | .lcChange n _ => some (n, some 3)
  | .tamperClear n _ => some (n, some 3) | .keyRngRead n => some (n, none)
  | .hlCmdClose n _ => some (n, some 2) | .attnRoseRead n => some (n, none)
  | .updOpen n => some (n, some 2) | .chunk n => some (n, some 2) | .verify n => some (n, some 2)
  | .activate n => some (n, some 2) | .updAbort n => some (n, some 2) | .deactivate n => some (n, some 2)
  | .confirm n => some (n, some 2)
  | _ => none

/-- The commands that write the UPD block (R385). -/
def updCmd : Instr → Bool
  | .updOpen _ => true | .chunk _ => true | .verify _ => true | .activate _ => true | .updAbort _ => true
  | .deactivate _ => true | .confirm _ => true
  | _ => false

end Sys2Proof.Safety
end

