-- ==== Sys2Proof/Certificates/Slice0/Obligations.lean ====
section
/-! DEFINITION. The statements for the provers, one `Obligations` name each, in the order of the manual's chapters. -/
open Sys2Proof Sys2Proof.Machine Sys2Proof.Safety

/-- R87 with R82 and R88: the operations of an ALU. -/
def Obligations.AluOperations : Prop :=
  ∀ (l : Fin 16) (n : Fin 2) (t : Word) (s : State), laneReady l s →
    let o1 := (unitNow l (aluUnit n) s).o1
    let c := (unitNow l (aluUnit n) s).f.getLsbD 0
    let gives := fun (q : Word) (cf v : Bool) => Host.Outcome.next (starts l (aluUnit n) 1 (withCV q cf v) s)
    exec (.add l n t) s = gives (o1 + t) (BitVec.uaddOverflow o1 t) (BitVec.saddOverflow o1 t)
    ∧ exec (.addc l n t) s = gives (o1 + t + bitWord c) (decide (2 ^ 32 ≤ o1.toNat + t.toNat + c.toNat))
        (decide (o1.toInt + t.toInt + c.toNat ≠ (o1 + t + bitWord c).toInt))
    ∧ exec (.sub l n t) s = gives (o1 - t) (decide (o1 < t)) (BitVec.ssubOverflow o1 t)
    ∧ exec (.subc l n t) s = gives (o1 - t - bitWord c) (decide (o1.toNat < t.toNat + c.toNat))
        (decide (o1.toInt - t.toInt - c.toNat ≠ (o1 - t - bitWord c).toInt))
    ∧ exec (.rsub l n t) s = gives (t - o1) (decide (t < o1)) (BitVec.ssubOverflow t o1)
    ∧ exec (.andOp l n t) s = gives (o1 &&& t) false false
    ∧ exec (.orOp l n t) s = gives (o1 ||| t) false false
    ∧ exec (.xorOp l n t) s = gives (o1 ^^^ t) false false
    ∧ exec (.andn l n t) s = gives (o1 &&& ~~~t) false false
    ∧ exec (.notOp l n t) s = gives (~~~t) false false
    ∧ exec (.neg l n t) s = gives (-t) (decide (t ≠ 0)) (decide (t = 0x80000000#32))
    ∧ exec (.abs l n t) s = gives (if t.toInt < 0 then -t else t) false (decide (t = 0x80000000#32))
    ∧ exec (.minOp l n t) s = gives (if t.toInt < o1.toInt then t else o1) false false
    ∧ exec (.maxOp l n t) s = gives (if o1.toInt < t.toInt then t else o1) false false
    ∧ exec (.minu l n t) s = gives (if t < o1 then t else o1) false false
    ∧ exec (.maxu l n t) s = gives (if o1 < t then t else o1) false false
    ∧ exec (.sext8 l n t) s = gives (BitVec.signExtend 32 (BitVec.setWidth 8 t)) false false
    ∧ exec (.sext16 l n t) s = gives (BitVec.signExtend 32 (BitVec.setWidth 16 t)) false false
    ∧ exec (.zext8 l n t) s = gives (BitVec.setWidth 32 (BitVec.setWidth 8 t)) false false
    ∧ exec (.zext16 l n t) s = gives (BitVec.setWidth 32 (BitVec.setWidth 16 t)) false false
    ∧ exec (.clz l n t) s = gives (w (32 - Nat.size t.toNat)) false false
    ∧ exec (.popc l n t) s = gives (w ((List.range 32).countP fun i => t.getLsbD i)) false false
    ∧ exec (.bswap l n t) s = gives
        (t.extractLsb' 0 8 ++ t.extractLsb' 8 8 ++ t.extractLsb' 16 8 ++ t.extractLsb' 24 8 : BitVec 32) false false
    ∧ exec (.pass l n t) s = gives t false false

/-- R89: shifts and rotates, bit by bit. -/
def Obligations.ShiftsAndRotates : Prop :=
  ∀ (l : Fin 16) (a : Fin 2) (t : Word) (s : State), laneReady l s →
    let o1 := (unitNow l (aluUnit a) s).o1
    let n := (BitVec.setWidth 8 t).toNat
    let r := n % 32
    let gives := fun (i : Instr) (q : Word) (c : Bool) =>
      exec i s = Host.Outcome.next (starts l (aluUnit a) 1 (withCV q c false) s)
    ∃ qshl qshr qsar qrol qror : Word,
      (∀ i < 32, qshl.getLsbD i = (decide (n ≤ i) && o1.getLsbD (i - n)))
      ∧ (∀ i < 32, qshr.getLsbD i = o1.getLsbD (i + n))
      ∧ (∀ i < 32, qsar.getLsbD i = if i + n < 32 then o1.getLsbD (i + n) else o1.getLsbD 31)
      ∧ (∀ i < 32, qrol.getLsbD i = o1.getLsbD ((i + 32 - r) % 32))
      ∧ (∀ i < 32, qror.getLsbD i = o1.getLsbD ((i + r) % 32))
      ∧ gives (.shl l a t) qshl (decide (1 ≤ n ∧ n ≤ 32) && o1.getLsbD (32 - n))
      ∧ gives (.shr l a t) qshr (decide (1 ≤ n ∧ n ≤ 32) && o1.getLsbD (n - 1))
      ∧ gives (.sar l a t) qsar (decide (1 ≤ n ∧ n ≤ 32) && o1.getLsbD (n - 1))
      ∧ gives (.rol l a t) qrol (decide (r ≠ 0) && qrol.getLsbD 0)
      ∧ gives (.ror l a t) qror (decide (r ≠ 0) && qror.getLsbD 31)

/-- R90: products and the accumulator. -/
def Obligations.MulOperations : Prop :=
  ∀ (l : Fin 16) (t : Word) (s : State), laneReady l s →
    let o1 := (unitNow l .mul s).o1
    let acc := (s.lanes[l.val]).acc
    let sp := o1.toInt * t.toInt
    -- q2:q of a 64-bit value, with its Z and N, and ACC afterwards
    let gives := fun (x : BitVec 64) (v : Bool) (a : BitVec 64) => Host.Outcome.next (laneStep l (fun ln =>
      startOp .mul 3 ⟨x.setWidth 32, x.extractLsb' 32 32, 0, flagWord false v (decide (x = 0)) (x.getLsbD 63) false false false, 0⟩ 0
        { ln with acc := a }) s)
    exec (.mul l t) s = gives (BitVec.ofInt 64 sp) false acc
    ∧ exec (.mulu l t) s = gives (BitVec.ofNat 64 (o1.toNat * t.toNat)) false acc
    ∧ exec (.mulq31 l t) s = Host.Outcome.next (starts l .mul 3
        (if o1 = 0x80000000#32 ∧ t = 0x80000000#32 then withCV 0x7FFFFFFF#32 false true
         else withCV (BitVec.ofInt 32 ((sp + 2 ^ 30) / 2 ^ 31)) false false) s)
    ∧ exec (.mac l t) s = gives (acc + BitVec.ofInt 64 sp)
        (decide (acc.toInt + sp < -(2 ^ 63) ∨ 2 ^ 63 ≤ acc.toInt + sp)) (acc + BitVec.ofInt 64 sp)
    ∧ exec (.accset l t) s = gives (o1 ++ t) false (o1 ++ t)

/-- R91 and R92: quotients truncated toward zero. -/
def Obligations.Division : Prop :=
  ∀ (l : Fin 16) (t : Word) (s : State), laneReady l s →
    let o1 := (unitNow l .div s).o1
    let o2 := (unitNow l .div s).o2
    let gives := fun (i : Instr) (q q2 : Word) (f arg : Word) => exec i s = Host.Outcome.next (laneStep l (fun ln =>
      startOp .div 18 ⟨q, q2, 0, f, arg⟩ 0
        { ln with inflight := ln.inflight.filter (fun r => !(decide (r.unit = .div) && decide (r.due = ln.divBusy)))
                  divBusy := ln.step + 18 }) s)
    -- an operation on the exact dividend `n` and divisor `d`, with the least and the largest quotient in range
    let divides := fun (i : Instr) (n d lo hi : Int) =>
      if t = 0 then gives i 0 o1 (flagWord false false true false true false false) o1
      else ∃ q r : Int, n = q * d + r ∧ r.natAbs < d.natAbs ∧ (r = 0 ∨ (0 < r ↔ 0 < n))
        ∧ gives i (BitVec.ofInt 32 q) (BitVec.ofInt 32 r)
            (flagWord false (decide (q < lo ∨ hi < q)) (decide (BitVec.ofInt 32 q = 0#32)) ((BitVec.ofInt 32 q).getLsbD 31)
              false false false) 0
    divides (.div l t) o1.toInt t.toInt (-(2 ^ 31)) (2 ^ 31 - 1)
    ∧ divides (.divu l t) o1.toNat t.toNat 0 (2 ^ 32 - 1)
    ∧ divides (.divl l t) (o2 ++ o1).toInt t.toInt (-(2 ^ 31)) (2 ^ 31 - 1)
    ∧ divides (.divlu l t) (o2 ++ o1).toNat t.toNat 0 (2 ^ 32 - 1)

/-- R93 and R94: the digit operations. -/
def Obligations.DecimalArithmetic : Prop :=
  ∀ (l : Fin 16) (t : Word) (s : State), laneReady l s →
    let o1 := (unitNow l .bcd s).o1
    let dc := ((unitNow l .bcd s).f.getLsbD 5).toNat
    let gives := fun (i : Instr) (v : Nat) (q2 : Word) (dcOut : Prop) (inv : Prop) =>
      ∃ (q : Word) (d e : Bool), packs q v ∧ (d = true ↔ dcOut) ∧ (e = true ↔ inv)
        ∧ exec i s = Host.Outcome.next (starts l .bcd 1 (bcdWord q q2 d e) s)
    let raw := ((List.range 8).map fun i => digit t i * 10 ^ i).sum
    gives (.badd l t) (decimal o1 + decimal t) 0 (10 ^ 8 ≤ decimal o1 + decimal t) (nonDecimal o1 ∨ nonDecimal t)
    ∧ gives (.baddc l t) (decimal o1 + decimal t + dc) 0 (10 ^ 8 ≤ decimal o1 + decimal t + dc) (nonDecimal o1 ∨ nonDecimal t)
    ∧ gives (.bsub l t) (decimal o1 + 10 ^ 8 - decimal t) 0 (decimal o1 < decimal t) (nonDecimal o1 ∨ nonDecimal t)
    ∧ gives (.bsubc l t) (decimal o1 + 10 ^ 8 - decimal t - dc) 0 (decimal o1 < decimal t + dc) (nonDecimal o1 ∨ nonDecimal t)
    ∧ gives (.bdadj l t) raw 0 (10 ^ 8 ≤ raw) False
    ∧ (∃ e : Bool, (e = true ↔ nonDecimal t)
        ∧ exec (.b2bin l t) s = Host.Outcome.next (starts l .bcd 1 (bcdWord (w (decimal t)) 0 false e) s))
    ∧ gives (.bin2b l t) t.toNat (w (t.toNat / 10 ^ 8)) (10 ^ 8 ≤ t.toNat) False

/-- R95 and R96: dates and times of day. -/
def Obligations.CalendarConversion : Prop :=
  ∀ (l : Fin 16) (t : Word) (s : State), laneReady l s →
    let gives := fun (i : Instr) (r : OpRes) => exec i s = Host.Outcome.next (starts l .bcd 1 r s)
    let impossible := bcdWord 0 0 false true
    -- DATE2DAY
    (∀ y m d, validDate y m d → packs t (y * 10000 + m * 100 + d) →
      gives (.date2day l t) (bcdWord (w (dayNumber y m d)) 0 false false))
    ∧ ((¬ ∃ y m d, validDate y m d ∧ packs t (y * 10000 + m * 100 + d)) → gives (.date2day l t) impossible)
    -- DAY2DATE
    ∧ (t.toNat ≤ 73048 → ∃ y m d q, validDate y m d ∧ dayNumber y m d = t.toNat ∧ packs q (y * 10000 + m * 100 + d)
        ∧ gives (.day2date l t) (bcdWord q (w ((t.toNat + 5) % 7 + 1)) false false))
    ∧ (73048 < t.toNat → gives (.day2date l t) impossible)
    -- TIME2SEC
    ∧ (∀ h m c, h ≤ 23 → m ≤ 59 → c ≤ 59 → packs t (h * 10000 + m * 100 + c) →
        gives (.time2sec l t) (bcdWord (w (h * 3600 + m * 60 + c)) 0 false false))
    ∧ ((¬ ∃ h m c, h ≤ 23 ∧ m ≤ 59 ∧ c ≤ 59 ∧ packs t (h * 10000 + m * 100 + c)) → gives (.time2sec l t) impossible)
    -- SEC2TIME
    ∧ (∀ h m c, m ≤ 59 → c ≤ 59 → t.toNat = h * 3600 + m * 60 + c → h ≤ 23 →
        ∃ q, packs q (h * 10000 + m * 100 + c) ∧ gives (.sec2time l t) (bcdWord q 0 false false))
    ∧ (86399 < t.toNat → gives (.sec2time l t) impossible)

/-- R97: bits and edges. -/
def Obligations.BitOperations : Prop :=
  ∀ (l : Fin 16) (t : Word) (s : State), laneReady l s →
    let o1 := (unitNow l .bit s).o1
    let n := t.toNat % 32
    let b := o1.getLsbD n
    let c := t.toNat / 65536 % 4096
    let g := t.toNat % 128
    let e := (s.lanes[l.val]).edges
    let group : Word := BitVec.extractLsb' (32 * g) 32 e
    let gives := fun (i : Instr) (q q2 : Word) (z : Bool) (e' : BitVec 4096) => exec i s = Host.Outcome.next (laneStep l (fun ln =>
      startOp .bit 1 ⟨q, q2, 0, flagWord false false z (q.getLsbD 31) false false false, 0⟩ 0 { ln with edges := e' }) s)
    -- the edge memory with cell `c` set to `b`, or with group `g` set to `o1`
    ∃ eCell eGroup : BitVec 4096, ∃ qset qrst qtgl : Word,
      (∀ i < 4096, eCell.getLsbD i = if i = c then b else e.getLsbD i)
      ∧ (∀ i < 4096, eGroup.getLsbD i = if i / 32 = g then o1.getLsbD (i % 32) else e.getLsbD i)
      ∧ (∀ i < 32, qset.getLsbD i = (decide (i = n) || o1.getLsbD i))
      ∧ (∀ i < 32, qrst.getLsbD i = (!decide (i = n) && o1.getLsbD i))
      ∧ (∀ i < 32, qtgl.getLsbD i = (decide (i = n) != o1.getLsbD i))
      ∧ gives (.bset l t) qset 0 (decide (qset = 0)) e
      ∧ gives (.brst l t) qrst 0 (decide (qrst = 0)) e
      ∧ gives (.btgl l t) qtgl 0 (decide (qtgl = 0)) e
      ∧ gives (.btst l t) (bitWord b) 0 (!b) e
      ∧ gives (.edge l t) (bitWord (b && !e.getLsbD c)) (bitWord (!b && e.getLsbD c)) (decide (b = e.getLsbD c)) eCell
      ∧ gives (.edgew l t) (o1 &&& ~~~group) (group &&& ~~~o1) (decide (o1 = group)) eGroup
      ∧ gives (.prime l t) (bitWord b) 0 (!b) eCell
      ∧ gives (.primew l t) o1 0 (decide (o1 = 0)) eGroup

/-- The comparisons of R99. -/
def Obligations.Comparisons : Prop :=
  ∀ (l : Fin 16) (t : Word) (s : State), laneReady l s →
    let u := unitNow l .cmp s
    let o1 := u.o1
    let o2 := u.o2
    let gives := fun (i : Instr) (r : Prop) (inv : Bool) => ∃ b : Bool, (b = true ↔ r)
      ∧ exec i s = Host.Outcome.next (laneStep l (startOp .cmp 1 (cmpWord b inv) (u.o3.toNat % 32)) s)
    let nan := fIsNaN o1 || fIsNaN t
    let snan := fIsSNaN o1 || fIsSNaN t
    -- a total order of the words that are no NaN: magnitude with the sign, so that both zeros fall on 0
    let key := fun (x : Word) => if x.getLsbD 31 then -Int.ofNat (x.toNat % 2 ^ 31) else Int.ofNat (x.toNat % 2 ^ 31)
    gives (.cmpEq l t) (o1 = t) false
    ∧ gives (.cmpNe l t) (o1 ≠ t) false
    ∧ gives (.cmpLt l t) (o1.toInt < t.toInt) false
    ∧ gives (.cmpLe l t) (o1.toInt ≤ t.toInt) false
    ∧ gives (.cmpGt l t) (t.toInt < o1.toInt) false
    ∧ gives (.cmpGe l t) (t.toInt ≤ o1.toInt) false
    ∧ gives (.cmpLtu l t) (o1.toNat < t.toNat) false
    ∧ gives (.cmpLeu l t) (o1.toNat ≤ t.toNat) false
    ∧ gives (.cmpGtu l t) (t.toNat < o1.toNat) false
    ∧ gives (.cmpGeu l t) (t.toNat ≤ o1.toNat) false
    ∧ gives (.tstz l t) (o1 &&& t = 0) false
    ∧ gives (.tstnz l t) (o1 &&& t ≠ 0) false
    ∧ gives (.feq l t) (nan = false ∧ key o1 = key t) snan
    ∧ gives (.fne l t) (nan = true ∨ key o1 ≠ key t) snan
    ∧ gives (.flt l t) (nan = false ∧ key o1 < key t) nan
    ∧ gives (.fle l t) (nan = false ∧ key o1 ≤ key t) nan
    ∧ gives (.fgt l t) (nan = false ∧ key t < key o1) nan
    ∧ gives (.fge l t) (nan = false ∧ key t ≤ key o1) nan
    ∧ gives (.fun_ l t) (nan = true) snan
    ∧ gives (.inr l t) (o2.toInt ≤ o1.toInt ∧ o1.toInt ≤ t.toInt) false
    ∧ gives (.inru l t) (o2.toNat ≤ o1.toNat ∧ o1.toNat ≤ t.toNat) false

/-- FPU and CRD operations complete: latencies of R83. Special cases of R104. -/
def Obligations.FpuAndCrd : Prop :=
  (∀ (l : Fin 16) (t : Word) (s : State), laneReady l s →
    let a := unitNow l .fpu s
    let c := unitNow l .crd s
    let drop := fun (u : UnitId) (due : Nat) (rs : List InFlight) => rs.filter fun r => !(decide (r.unit = u) && decide (r.due = due))
    let fpu := fun (i : Instr) (op : Nat) => exec i s = Host.Outcome.next (laneStep l (fun ln =>
      startOp .fpu 4 (fpuOp op a.o1 a.o2 t) 0 { ln with inflight := drop .fpu ln.fpuBusy ln.inflight, fpuBusy := 0 }) s)
    let long := fun (i : Instr) (op : Nat) => exec i s = Host.Outcome.next (laneStep l (fun ln =>
      startOp .fpu 12 (fpuOp op a.o1 a.o2 t) 0
        { ln with inflight := drop .fpu ln.fpuBusy ln.inflight, fpuBusy := ln.step + 12 }) s)
    let crd := fun (i : Instr) (op : Nat) => exec i s = Host.Outcome.next (laneStep l (fun ln =>
      startOp .crd 24 (crdOp op c.o1 t) 0
        { ln with inflight := drop .crd ln.crdBusy ln.inflight, crdBusy := ln.step + 24 }) s)
    fpu (.fadd l t) 0x10 ∧ fpu (.fsub l t) 0x11 ∧ fpu (.fmul l t) 0x12 ∧ fpu (.fma l t) 0x13 ∧ fpu (.fms l t) 0x14
    ∧ long (.fdiv l t) 0x15 ∧ long (.fsqrt l t) 0x16 ∧ fpu (.fneg l t) 0x17 ∧ fpu (.fabs l t) 0x18
    ∧ fpu (.fmin l t) 0x19 ∧ fpu (.fmax l t) 0x1A ∧ fpu (.i2f l t) 0x1B ∧ fpu (.u2f l t) 0x1C ∧ fpu (.f2i l t) 0x1D
    ∧ fpu (.f2it l t) 0x1E ∧ fpu (.f2u l t) 0x1F ∧ fpu (.frnd l t) 0x20
    ∧ crd (.atan2 l t) 0x10 ∧ crd (.mag l t) 0x11 ∧ crd (.polar l t) 0x12 ∧ crd (.sincos l t) 0x13)
  ∧ (∀ (o1 t : Word),
    let op := fun k => crdOp k o1 t
    let nan : Word := 0x7FC00000#32
    ((fIsNaN o1 || fIsNaN t) = true →
      ((op 0x10).q = nan ∧ (op 0x10).q2 = 0 ∧ flagINV (op 0x10).f = true)
      ∧ ((op 0x11).q = nan ∧ (op 0x11).q2 = 0 ∧ flagINV (op 0x11).f = true)
      ∧ ((op 0x12).q = nan ∧ (op 0x12).q2 = nan ∧ flagINV (op 0x12).f = true))
    ∧ (fIsNaN o1 = false → fIsNaN t = false →
      (op 0x12).q = (op 0x11).q ∧ (op 0x12).q2 = (op 0x10).q ∧ (op 0x10).q2 = 0 ∧ (op 0x11).q2 = 0
      ∧ flagINV (op 0x10).f = false ∧ flagINV (op 0x11).f = false ∧ flagINV (op 0x12).f = false
      ∧ (fIsZero o1 = true → fIsZero t = true → fSign o1 = false → (op 0x10).q = t)
      ∧ (fIsZero o1 = true → fIsZero t = true → fSign o1 = true →
          (op 0x10).q = if fSign t then 0xC0490FDB#32 else 0x40490FDB#32)
      ∧ ((fIsInf o1 || fIsInf t) = true → (op 0x11).q = 0x7F800000#32))
    ∧ ((fIsNaN t || fIsInf t || decide (0x47800000 < t.toNat % 2 ^ 31)) = true →
        (op 0x13).q = nan ∧ (op 0x13).q2 = nan ∧ flagINV (op 0x13).f = true)
    ∧ (fIsNaN t = false → fIsInf t = false → t.toNat % 2 ^ 31 ≤ 0x47800000 → flagINV (op 0x13).f = false))

/-- Special cases of R102, over the operations that the FPU rows start. Integer conversions of R101 and R102, on the numeric value of T. -/
def Obligations.FpuResults : Prop :=
  (∀ (o1 o2 t : Word),
    let op := fun k => fpuOp k o1 o2 t
    let isNaN := fun (r : OpRes) (inv : Bool) => r.q = 0x7FC00000#32 ∧ r.f = flagWord false false false false false false inv
    let zeroX := fun (a b : Word) => (fIsZero a && fIsInf b) || (fIsInf a && fIsZero b)
    -- NaN operands
    ((fIsNaN o1 || fIsNaN t) = true →
      isNaN (op 0x10) (fIsSNaN o1 || fIsSNaN t) ∧ isNaN (op 0x11) (fIsSNaN o1 || fIsSNaN t)
      ∧ isNaN (op 0x12) (fIsSNaN o1 || fIsSNaN t) ∧ isNaN (op 0x15) (fIsSNaN o1 || fIsSNaN t))
    ∧ ((fIsNaN o1 || fIsNaN o2 || fIsNaN t) = true →
      isNaN (op 0x13) (fIsSNaN o1 || fIsSNaN o2 || fIsSNaN t || zeroX o1 o2)
      ∧ isNaN (op 0x14) (fIsSNaN o1 || fIsSNaN o2 || fIsSNaN t || zeroX o1 o2))
    ∧ (fIsNaN t = true → isNaN (op 0x16) (fIsSNaN t) ∧ isNaN (op 0x20) (fIsSNaN t)
      ∧ ∀ k ∈ [0x1D, 0x1E, 0x1F], (op k).q = 0 ∧ flagINV (op k).f = true ∧ flagC (op k).f = false)
    -- invalid operations
    ∧ (fIsInf o1 = true → fIsInf t = true →
        ((fSign o1 ≠ fSign t) → isNaN (op 0x10) true) ∧ ((fSign o1 = fSign t) → isNaN (op 0x11) true) ∧ isNaN (op 0x15) true)
    ∧ (zeroX o1 t = true → isNaN (op 0x12) true)
    ∧ (zeroX o1 o2 = true → fIsNaN t = false → isNaN (op 0x13) true ∧ isNaN (op 0x14) true)
    ∧ (fIsZero o1 = true → fIsZero t = true → isNaN (op 0x15) true)
    ∧ (fSign t = true → fIsNaN t = false → fIsZero t = false → isNaN (op 0x16) true)
    -- division by zero
    ∧ (fIsNaN o1 = false → fIsInf o1 = false → fIsZero o1 = false → fIsZero t = true →
        op 0x15 = ⟨if fSign o1 = fSign t then 0x7F800000#32 else 0xFF800000#32, 0, 0,
          flagWord false false false (decide (fSign o1 ≠ fSign t)) true false false, o1⟩)
    -- FNEG and FABS
    ∧ (∀ i < 32, (op 0x17).q.getLsbD i = (t.getLsbD i != decide (i = 31)) ∧ (op 0x18).q.getLsbD i = (t.getLsbD i && decide (i ≠ 31)))
    ∧ (op 0x17).f = flagWord false false (fIsZero t) (!fSign t) false false false
    ∧ (op 0x18).f = flagWord false false (fIsZero t) false false false false
    -- FMIN and FMAX with one NaN
    ∧ (∀ k ∈ [0x19, 0x1A], (fIsNaN o1 = true → fIsNaN t = false → (op k).q = t ∧ flagINV (op k).f = fIsSNaN o1)
        ∧ (fIsNaN o1 = false → fIsNaN t = true → (op k).q = o1 ∧ flagINV (op k).f = fIsSNaN t)
        ∧ (fIsNaN o1 = true → fIsNaN t = true → isNaN (op k) (fIsSNaN o1 || fIsSNaN t))))
  ∧ (∀ (o1 o2 t : Word), fIsNaN t = false → fIsInf t = false →
    -- T = m × 2^e
    ∀ (v : Rat), v = (if fSign t then -1 else 1) * (fSig t : Rat) * (2 : Rat) ^ (fEx t) →
    let result := fun (k : Nat) (lo hi : Int) (x : Int) => (fpuOp k o1 o2 t) =
      if x < lo then ⟨BitVec.ofInt 32 lo, 0, 0, flagWord false false (decide (BitVec.ofInt 32 lo = 0#32)) ((BitVec.ofInt 32 lo).getLsbD 31) false false true, 0⟩
      else if hi < x then ⟨BitVec.ofInt 32 hi, 0, 0, flagWord false false false ((BitVec.ofInt 32 hi).getLsbD 31) false false true, 0⟩
      else ⟨BitVec.ofInt 32 x, 0, 0, flagWord (decide ((x : Rat) ≠ v)) false (decide (BitVec.ofInt 32 x = 0#32)) ((BitVec.ofInt 32 x).getLsbD 31) false false false, 0⟩
    ∃ x y : Int,
      |2 * (v - x)| ≤ 1 ∧ (|2 * (v - x)| = 1 → 2 ∣ x)
      ∧ |(y : Rat)| ≤ |v| ∧ |v| < |(y : Rat)| + 1 ∧ 0 ≤ (y : Rat) * v
      ∧ result 0x1D (-(2 ^ 31)) (2 ^ 31 - 1) x
      ∧ result 0x1F 0 (2 ^ 32 - 1) x
      ∧ result 0x1E (-(2 ^ 31)) (2 ^ 31 - 1) y)

/-- R105 and R106, the scratch pipe. R105, R106, R71 and R73: the shared pipe. -/
def Obligations.LsuAccesses : Prop :=
  (∀ (l : Fin 16) (t : Word) (s : State), laneReady l s →
    let ln := s.lanes[l.val]
    let o1 := (unitNow l .lsu s).o1
    let a4 := t.toNat / 4 * 4
    let a2 := t.toNat / 2 * 2
    let a1 := t.toNat
    let loads := fun (i : Instr) (q : Word) => exec i s = Host.Outcome.next (starts l .lsu 2 ⟨q, 0, 0, 0, 0⟩ s)
    let stores := fun (i : Instr) (a n : Nat) => ∃ m, stored ln.scratch m a n o1
      ∧ exec i s = Host.Outcome.next (laneStep l (fun x => { x with scratch := m }) s)
    let locals := fun (a n : Nat) => 0x8400 ≤ a ∧ a + n ≤ 0x10000
    (locals a4 4 → loads (.sld l t) (scratchWord ln a4) ∧ stores (.sst l t) a4 4)
    ∧ (locals a2 2 → loads (.sldh l t) (0#16 ++ (scratchByte ln (a2 + 1) ++ scratchByte ln a2)) ∧ stores (.ssth l t) a2 2)
    ∧ (locals a1 1 → loads (.sldb l t) (0#24 ++ scratchByte ln a1) ∧ stores (.sstb l t) a1 1)
    ∧ (s.sys.latched = false → inPlinth s = false → s.ln.fault.valid = false →
        (¬ locals a4 4 → laneFaults l 0x100B t ln.pc s (exec (.sld l t) s) ∧ laneFaults l 0x100B t ln.pc s (exec (.sst l t) s))
        ∧ (¬ locals a2 2 → laneFaults l 0x100B t ln.pc s (exec (.sldh l t) s) ∧ laneFaults l 0x100B t ln.pc s (exec (.ssth l t) s))
        ∧ (¬ locals a1 1 → laneFaults l 0x100B t ln.pc s (exec (.sldb l t) s) ∧ laneFaults l 0x100B t ln.pc s (exec (.sstb l t) s))))
  ∧ (∀ (l : Fin 16) (t : Word) (s : State), laneReady l s →
    let ln := s.lanes[l.val]
    let u := unitNow l .lsu s
    let k : Fin 20 := ⟨u.o2.toNat % 16, by omega⟩
    let a := t.toNat / 4 * 4
    let queued := fun (op : SharedOp) (isStore : Bool) => Host.Outcome.next (laneStep l (fun x =>
      { x with reqs := x.reqs ++ [⟨a, op, s.clk.cyc + 1⟩]
               slots := x.slots.set k.val ⟨(x.slots[k.val]).data, true, none, isStore⟩ }) s)
    let granted := fun (write : Bool) => t.toNat ≤ 0x017FFFFF ∧ grantOk s l.val a 4 write = true
    ((ln.slots[k.val]).outstanding = false → ln.reqs.length < 16 →
      (granted false → exec (.ld l t) s = queued (.load k.val 4 false) false)
      ∧ (granted true → exec (.st l t) s = queued (.store k.val 4 u.o1) true))
    ∧ ((ln.slots[k.val]).outstanding = true →
        let waits := Host.Outcome.next (settle (modLane l (beginStall s) s))
        exec (.ld l t) s = waits ∧ exec (.st l t) s = waits)
    ∧ (s.sys.latched = false → inPlinth s = false → s.ln.fault.valid = false → (ln.slots[k.val]).outstanding = false → ln.reqs.length < 16 →
        (¬ granted false → laneFaults l 0x100B t ln.pc s (exec (.ld l t) s))
        ∧ (¬ granted true → laneFaults l 0x100B t ln.pc s (exec (.st l t) s))))

/-- R108, R109 and R111. -/
def Obligations.ImageAccesses : Prop :=
  ∀ (l : Fin 16) (t : Word) (s : State), laneReady l s →
    let ln := s.lanes[l.val]
    let u := unitNow l .img s
    let k : Fin 20 := ⟨u.o2.toNat % 16, by omega⟩
    let flags := fun (inv : Bool) (x : Lane) => startOp .img 1 ⟨0, 0, 0, flagWord false false false false false false inv, 0⟩ 0 x
    let free := (ln.slots[k.val]).outstanding = false ∧ ln.reqs.length < 16
    let queued := fun (a : Nat) (op : SharedOp) (isStore : Bool) => Host.Outcome.next (laneStep l (fun x => flags false
      { x with reqs := x.reqs ++ [⟨a, op, s.clk.cyc + 1⟩]
               slots := x.slots.set k.val ⟨(x.slots[k.val]).data, true, none, isStore⟩ }) s)
    let noRead := Host.Outcome.next (laneStep l (fun x => flags true
      { x with slots := x.slots.set k.val { x.slots[k.val] with data := 0 } }) s)
    let access := fun (op : Nat) => imgAccess s (laneNow l s) op t u.o3
    -- an access that resolves to a word
    (∀ a, free → (access 0x10 = .word a → exec (.imgIn l t) s = queued a (.load k.val 4 false) false)
      ∧ (access 0x11 = .word a → exec (.imgOut l t) s = queued a (.store k.val 4 u.o1) true)
      ∧ (access 0x12 = .word a → exec (.hs l t) s = queued a (.load k.val 4 false) false)
      ∧ (access 0x13 = .word a → exec (.hq l t) s = queued a (.load k.val 4 true) false))
    -- out of range
    ∧ (free → 65535 < t.toNat → exec (.imgIn l t) s = noRead)
    ∧ (free → 16383 < t.toNat → ln.cls ≠ 3 → exec (.imgOut l t) s = Host.Outcome.next (laneStep l (flags true) s))
    ∧ (free → 191 < t.toNat ∨ ageLimit s ln.cls < u.o3.toNat → exec (.hs l t) s = noRead)
    ∧ (free → 23 < t.toNat ∨ ageLimit s ln.cls < u.o3.toNat → exec (.hq l t) s = noRead)
    -- what a FAST segment reaches, and what is forbidden
    ∧ (ln.cls = 0 → t.toNat ≤ 65535 → declares s ln 0 t.toNat = true → access 0x10 = .word (areaBase s 0 + 4 * t.toNat))
    ∧ (ln.cls = 0 → t.toNat ≤ 16383 → declares s ln 1 t.toNat = true → access 0x11 = .word (areaBase s 1 + 4 * t.toNat))
    ∧ (s.sys.latched = false → inPlinth s = false → s.ln.fault.valid = false → free → ln.cls = 3 → laneFaults l 0x100B t ln.pc s (exec (.imgOut l t) s))
    ∧ (s.sys.latched = false → inPlinth s = false → s.ln.fault.valid = false → free → t.toNat ≤ 65535 → declares s ln 0 t.toNat = false →
        laneFaults l 0x100B t ln.pc s (exec (.imgIn l t) s))

/-- R112, with the stacks of R75 and the faults of R126. -/
def Obligations.DataStack : Prop :=
  ∀ (l : Fin 16) (t : Word) (s : State), laneReady l s →
    let ln := s.lanes[l.val]
    let bg := decide (ln.cls = 3)
    let d := if bg then ln.bgDsp else ln.dsp
    let base := if bg then 0x4000 else 0
    let depth := fun (x : Lane) (n : Nat) => if bg then { x with bgDsp := n } else { x with dsp := n }
    let top := fun (i : Nat) => scratchWord ln (base + 4 * (d - 1 - i))
    let gives := fun (i : Instr) (f : Lane → Lane) => exec i s = Host.Outcome.next (laneStep l f s)
    (d < 4096 → ∃ m, stored ln.scratch m (base + 4 * d) 4 t
      ∧ gives (.push l t) (fun x => depth { x with scratch := m } (d + 1)))
    ∧ (0 < d → gives (.pop l t) (fun x => startOp .dsk 2 ⟨top 0, 0, 0, 0, 0⟩ 0 (depth x (d - 1))))
    ∧ (t.toNat < d → gives (.peek l t) (fun x => startOp .dsk 2 ⟨top t.toNat, 0, 0, 0, 0⟩ 0 x))
    ∧ (t.toNat ≤ d → gives (.drop l t) (fun x => depth x (d - t.toNat)))
    ∧ gives (.depth l t) (fun x => startOp .dsk 2 ⟨w d, 0, 0, 0, 0⟩ 0 x)
    ∧ (s.sys.latched = false → inPlinth s = false → s.ln.fault.valid = false →
        (4096 ≤ d → laneFaults l 0x1002 4096 ln.pc s (exec (.push l t) s))
        ∧ (d = 0 → laneFaults l 0x1003 0 ln.pc s (exec (.pop l t) s))
        ∧ (d ≤ t.toNat → laneFaults l 0x1003 (w d) ln.pc s (exec (.peek l t) s))
        ∧ (d < t.toNat → laneFaults l 0x1003 (w d) ln.pc s (exec (.drop l t) s)))

/-- R113 and R114. -/
def Obligations.SysUnit : Prop :=
  ∀ (l : Fin 16) (t : Word) (s : State), laneReady l s →
    let ln := s.lanes[l.val]
    let u := unitNow l .sys s
    let time := fun (nt : Nat) (flags : BitVec 4) => (⟨w (nt % 10 ^ 19 / 10 ^ 10), w (nt / 10 ^ 19),
      w (nt / 10 ^ 19 / 2 ^ 32 % 2 ^ 16 + 2 ^ 16 * flags.toNat), 0, 0⟩ : OpRes)
    exec (.evw l t) s = .next (starts l .sys 1 ⟨BitVec.extractLsb' (32 * (t.toNat % 4)) 32 s.frm.evw, 0, 0, 0, 0⟩ s)
    ∧ exec (.ttick l t) s = .next (starts l .sys 1 (time s.frm.ttick s.frm.ttFlags) s)
    ∧ exec (.now l t) s = .next (starts l .sys 1 (time (s.clk.nt / (2 * 10 ^ 10) * (2 * 10 ^ 10)) (timeFlags s)) s)
    ∧ (ln.logs < 4 → exec (.log l t) s = .next (settle (note (BitVec.ofNat 16 (0xE000 + t.toNat % 4096))
        (BitVec.ofNat 8 l.val) u.o1 u.o2 u.o3
        (modLane l (fun x => afterStep s (x.pc + 1) (fun y => { y with logs := y.logs + 1 }) x) s))))
    ∧ (4 ≤ ln.logs → exec (.log l t) s = .next (laneStep l (fun x => { x with logDrops := x.logDrops + 1 }) s))

/-- R116, R117 and R126. R119 and R120. -/
def Obligations.ControlFlow : Prop :=
  (∀ (l : Fin 16) (t : Word) (s : State), laneReady l s →
    let ln := s.lanes[l.val]
    exec (.jmp l t) s = .next (laneJump l t.toNat id s)
    ∧ exec (.jmpr l t) s = .next (laneJump l ((ln.pc + t.toNat) % 2 ^ 32) id s)
    ∧ (ln.rstack.length < 64 → exec (.call l t) s = .next (laneJump l t.toNat
        (fun x => { x with rstack := ⟨ln.pc + 1, true⟩ :: ln.rstack }) s))
    ∧ (∀ e r, ln.rstack = e :: r → e.parityOk = true →
        exec (.ret l t) s = .next (laneJump l e.index (fun x => { x with rstack := r }) s))
    ∧ exec (.rdepth l t) s = .next (starts l .ctl 1 ⟨w ln.rstack.length, 0, 0, 0, 0⟩ s)
    ∧ (s.sys.latched = false → inPlinth s = false → s.ln.fault.valid = false →
        (64 ≤ ln.rstack.length → laneFaults l 0x1004 64 ln.pc s (exec (.call l t) s))
        ∧ (ln.rstack = [] → laneFaults l 0x1005 0 ln.pc s (exec (.ret l t) s))
        ∧ (∀ e r, ln.rstack = e :: r → e.parityOk = false →
            laneFaults l 0x100C (w ln.rstack.length) ln.pc s (exec (.ret l t) s))))
  ∧ (∀ (l : Fin 16) (t : Word) (s : State), laneReady l s →
    let ln := s.lanes[l.val]
    -- the timetable entry that the lane goes on to
    let entry : Option Placed := if ln.cls = 3 then (background s l.val)[ln.bgPos + 1]?
      else match (schedule s l.val)[ln.schedPos + 1]? with
        | some p => some p
        | none => if ln.bgSaved.isSome then none else (background s l.val).head?
    (∀ p e, entry = some p → entryBad s l.val p = some e → s.sys.latched = false → inPlinth s = false →
        ∃ u, exec (.endSeg l t) s = .next u ∧ u.sys.latched = true ∧ u.sys.firstCause = 0x1014#16)
    ∧ ((∀ p, entry = some p → entryBad s l.val p = none) →
    ∃ new : Lane, exec (.endSeg l t) s = .next (settle (modLane l (fun _ => new) s))
      ∧ (ln.bgSaved = none → new.rstack = [] ∧ new.lastPc = ln.pc) ∧ new.dsp = ln.dsp ∧ new.bgDsp = ln.bgDsp ∧ new.scratch = ln.scratch
      ∧ new.edges = ln.edges ∧ new.step = ln.step + 1
      ∧ (∀ p, ln.cls ≠ 3 → (schedule s l.val)[ln.schedPos + 1]? = some p →
          new.pc = p.first ∧ new.cls = p.cls ∧ new.segId = p.segId ∧ new.trap = w p.trap &&& 0x50#32
          ∧ new.schedPos = ln.schedPos + 1 ∧ new.frameEnd = ln.frameEnd
          ∧ (if s.clk.tickph < p.start then new.mode = .wait ∧ new.wait = .start p.start else new.mode = .sched))
      ∧ (ln.cls ≠ 3 → (schedule s l.val)[ln.schedPos + 1]? = none →
          new.frameEnd = (if s.clk.tickph < guardCyc s then some s.clk.tickph else ln.frameEnd)
          ∧ (ln.bgSaved = none → background s l.val = [] → new.mode = .done)
          ∧ (∀ p r, ln.bgSaved = none → background s l.val = p :: r → new.mode = .bg ∧ new.pc = p.first ∧ new.cls = p.cls))
      ∧ (ln.cls = 3 → (background s l.val)[ln.bgPos + 1]? = none → new.mode = .done)
      ∧ (∀ p, ln.cls = 3 → (background s l.val)[ln.bgPos + 1]? = some p → new.mode = .bg ∧ new.pc = p.first)))

/-- R121 to R123 and R125. R121 to R125 and R119: the events of waiting. -/
def Obligations.Batons : Prop :=
  (∀ (l : Fin 16) (t : Word) (s : State), laneReady l s →
    let ln := s.lanes[l.val]
    let n := t.toNat % 256
    let gives := fun (b : Word) (s' : State) => Host.Outcome.next (settle (modLane l (fun x =>
      afterStep s (x.pc + 1) (startOp .ctl 1 ⟨b, 0, 0, 0, 0⟩ 0) x) s'))
    (availableTo l n s → ∃ taken taken' : State,
        batonTaken l n false (deadlineOf s l.val ln ln.pc) s taken ∧ batonTaken l n true (deadlineOf s l.val ln ln.pc) s taken'
        ∧ exec (.wait l t) s = .next (settle (modLane l (fun x => afterStep s (x.pc + 1) id x) taken))
        ∧ exec (.tryw l t) s = gives 1 taken')
    ∧ (¬ availableTo l n s → exec (.tryw l t) s = gives 0 s
        ∧ ((∀ d, deadlineOf s l.val ln ln.pc = some d → s.clk.tickph < d) →
            exec (.wait l t) s = .next (laneStep l (fun x => { x with
              mode := .wait, wait := .baton n (deadlineOf s l.val ln ln.pc) }) s))
        ∧ (s.sys.latched = false → inPlinth s = false → s.ln.fault.valid = false → (∃ d, deadlineOf s l.val ln ln.pc = some d ∧ d ≤ s.clk.tickph) →
            laneFaults l 0x100E (w n) ln.pc s (exec (.wait l t) s)))
    ∧ (∃ stores, stores = (ln.reqs.filter fun r => match r.op with | .store _ _ _ => true | .load _ _ _ => false).length
        ∧ exec (.post l t) s = .next (settle (modLane l (fun x => afterStep s (x.pc + 1) id x)
            { s with ln := { s.ln with posts := s.ln.posts ++ [⟨l.val, n, s.clk.cyc, stores, s.clk.cyc⟩] } }))))
  ∧ (∀ (l : Fin 16) (s : State), s.clk.power = true →
    let ln := s.lanes[l.val]
    let run := fun (m : LaneMode) (s' : State) => settle (modLane l (fun x =>
      { x with mode := m, wait := .none, lastIssue := some s.clk.cyc }) s')
    (∀ p, s.ln.posts.find? (fun q => q.lane == l.val) = some p → p.stores = 0 → p.base + 4 ≤ s.clk.cyc →
      let count := vget 0 s.ln.batons p.baton
      let dropped := { s with ln := { s.ln with posts := s.ln.posts.erase p } }
      (count < 255 → exec (.batonCount l) s =
        .next (settle { dropped with ln := { dropped.ln with batons := vset s.ln.batons p.baton (count + 1) } }))
      ∧ (255 ≤ count → exec (.batonCount l) s =
        .next (settle (note 0x1011 (BitVec.ofNat 8 p.lane) (w p.lane) (w p.baton) (kLow s) dropped))))
    ∧ (∀ n d, ln.mode = .wait → ln.saving = false → ln.wait = .baton n d → availableTo l n s → ∃ taken : State,
        batonTaken l n false d s taken ∧ exec (.batonTake l) s = .next (run (if ln.cls = 3 then .bg else .sched) taken))
    ∧ (∀ n d, ln.mode = .wait → ln.saving = false → ln.wait = .baton n (some d) → d ≤ s.clk.tickph → ¬ availableTo l n s →
        s.sys.latched = false → inPlinth s = false → s.ln.fault.valid = false →
        laneFaults l 0x100E (w n) ln.lastPc s (exec (.batonTimeout l) s))
    ∧ (∀ p, ln.mode = .wait → ln.wait = .start p → p ≤ s.clk.tickph → exec (.segmentStart l) s = .next (run .sched s)))

/-- R128 to R133. -/
def Obligations.RepTriggers : Prop :=
  ∀ (l : Fin 16) (t : Word) (s : State),
    let ln := s.lanes[l.val]
    let p := ln.pc
    let bad := decide (ln.repElem.toNat % 4 = 3)
    -- REP.elem with SIZE, SRCSP and DSTSP kept
    let elem := fun (body op : Nat) => (ln.repElem &&& 0xF#32) ||| BitVec.ofNat 32 (body % 4096 * 256) ||| BitVec.ofNat 32 (op * 2 ^ 24)
    let block := fun (i : Instr) (op : Nat) =>
      (t ≠ 0 ∧ bad = false → exec i s = .next (laneJump l p (fun x =>
        { x with repCount := t, repProc := 0, repElem := elem 0 op, repRun := .block p none none }) s))
      ∧ (t = 0 ∨ bad = true → exec i s = .next (laneStep l (fun x =>
          startOp .rep 1 ⟨0, 0, 0, flagWord false false true false false false bad, 0⟩ 0 { x with repCount := t, repProc := 0 }) s))
    (laneReady l s →
      exec (.run l t) s = .next (laneStep l (fun x =>
          { x with repCount := t, repElem := elem (p + 1) 1, repRun := .setup p }) s)
      ∧ block (.copy l t) 2 ∧ block (.matchRep l t) 3 ∧ block (.seek l t) 4 ∧ block (.fill l t) 5
      ∧ exec (.breakRep l t) s = .next (laneStep l id s))
    ∧ ∀ (first len pos : Nat) (brk : Bool), bodyReady l first len pos brk s →
      (pos + 1 < len → exec (.breakRep l t) s = .next (laneJump l (first + pos + 1) (fun x =>
        { x with repRun := .body first len (pos + 1) true }) s))
      ∧ (len ≤ pos + 1 → exec (.breakRep l t) s = .next (laneJump l (first + len) (fun x =>
        { x with repRun := .none, repCount := ln.repCount - 1, repSrc := ln.repSrc + ln.repStride
                 repDst := ln.repDst + ln.repStride, repElem := ln.repElem &&& 0xF#32 }) s))

/-- R69, R99 and R100: results appear. R68: plain moves. -/
def Obligations.MovesAndResults : Prop :=
  (∀ (l : Fin 16) (s : State) (r : InFlight), s.clk.power = true →
    let ln := s.lanes[l.val]
    canIssue s ln = true → ln.stallFrom = none → dueTrap ln = none → ln.inflight.filter (fun x => decide (x.due ≤ ln.step)) = [r] →
    ∃ (units : Vector UnitPorts 15) (p : BitVec 8),
      exec (.opResult l) s = .next (settle (modLane l (fun x => { x with
        inflight := ln.inflight.filter fun y => decide (ln.step < y.due), units := units, p := p }) s))
      ∧ (∀ u : UnitId, u ≠ r.unit → units[u.idx.val] = ln.units[u.idx.val])
      ∧ (let a := units[r.unit.idx.val]
         let b := ln.units[r.unit.idx.val]
         a.o1 = b.o1 ∧ a.o2 = b.o2 ∧ a.o3 = b.o3
         ∧ (r.unit ≠ .img → a.q = r.q)
         ∧ (r.unit ∉ [UnitId.img, .lsu, .dsk, .ctl, .sys] → a.q2 = r.q2 ∧ a.f = r.f)
         ∧ (r.unit = .img → a.q = b.q ∧ a.f = r.f)
         ∧ (r.unit = .sys → a.q2 = r.q2 ∧ a.q3 = r.q3))
      ∧ (r.unit ≠ .cmp → p = ln.p)
      ∧ (r.unit = .cmp →
          let i := r.pred % 8
          let old := ln.p.getLsbD i
          let b := decide (r.q = 1)
          (∀ j < 8, j ≠ i ∨ i = 0 → p.getLsbD j = ln.p.getLsbD j)
          ∧ (i ≠ 0 → p.getLsbD i = [b, old && b, old || b, old].getD (r.pred / 8 % 4) old)))
  ∧ (∀ (l : Fin 16) (s : State) (b : Nat), laneReady l s →
    let ln := s.lanes[l.val]
    let now := laneNow l s
    b = fetch s l.val ln.pc → fetchBad s l.val ln.pc = false → headerOf b = 0 → formBad b = false →
    (∀ m ∈ movesOf b, m.dst < 64 ∧ ∀ p, m.src = .port p → p < 0x48) →
    let acts := (movesOf b).filter fun m => guardOk now.p m.g
    (∀ m ∈ acts, ∀ m' ∈ acts, m.dst = m'.dst → m = m') → acts.Nodup →
    ∃ v : Vector Word 64,
      exec (.move l) s = .next (settle (modLane l (fun x =>
        { afterStep s (x.pc + 1) (fun y => { y with v := v }) x with
          slotsCur := if x.cls = 3 then x.slotsCur else x.slotsCur + occupied b }) s))
      ∧ (∀ m ∈ acts, v[m.dst]? = some (match m.src with
          | .imm x => x
          | .port p => if p < 64 then vget 0 now.v p else bitWord (now.p.getLsbD (p - 64))))
      ∧ (∀ j : Fin 64, (∀ m ∈ acts, m.dst ≠ j.val) → v[j.val] = ln.v[j.val]))

/-- R139 and R140. -/
def Obligations.MacroCalls : Prop :=
  ∀ (l : Fin 16) (s : State) (b : Nat), laneReady l s →
    let ln := s.lanes[l.val]
    let opc := b % 256
    let e := activeEntry s opc
    let params := Vector.ofFn fun i : Fin 4 => b / 2 ^ (8 + 10 * i.val) % 1024
    let intact := entryIntact opc e && !s.ln.badCopies.contains (l.val, opc)
    b = fetch s l.val ln.pc → fetchBad s l.val ln.pc = false → headerOf b / 64 = 0 → headerOf b % 4 = 2 →
    let passes := guardOk (laneNow l s).p (b / 2 ^ 48 % 16)
    (passes = false → exec (.macroCall l) s = .next (settle (modLane l (fun x =>
        { endStall s (present x) with pc := x.pc + 1, lastPc := x.pc, lastMacro := false
                                      step := x.step + 1, lastIssue := some s.clk.cyc }) s)))
    ∧ (passes = true → intact = true → e.len ≠ 0 → ∃ is : Issue,
        exec (.macroCall l) s = .next (settle (issueMoves l is (illegalForm (templateBundle e 0)) s))
        ∧ is.pc = ln.pc ∧ is.body = false ∧ is.macLen = e.len ∧ is.mac = some ⟨opc, ln.pc, params, 1⟩
        ∧ is.moves = (movesOf (templateBundle e 0)).map (substMv params))
    ∧ (s.sys.latched = false → inPlinth s = false → s.ln.fault.valid = false → passes = true →
        (intact = false → laneFaults l 0x100C (w opc) ln.pc s (exec (.macroCall l) s))
        ∧ (intact = true → e.len = 0 → laneFaults l 0x100D (w opc) ln.pc s (exec (.macroCall l) s)))

/-- R370, R374, R375: requests that are not executed. -/
def Obligations.HostGate : Prop :=
  ∀ (i : Instr) (sid : Fin 4) (role : Option Nat) (s : State), hostCmd i = some (sid, role) →
    (s.clk.power = false → exec i s = .next s)
    ∧ (s.clk.power = true → session sid.val s = none → exec i s = .next (settle s))
    ∧ (∀ ss, s.clk.power = true → session sid.val s = some ss → throttled ss.ep s = true →
        ∃ h a, exec i s = .next { s with hl := h, att := a } ∧ h.sessions = s.hl.sessions ∧ h.violCnt = s.hl.violCnt)
    ∧ (∀ ss, s.clk.power = true → session sid.val s = some ss → throttled ss.ep s = false → sessionBusy sid.val s = true →
        ∃ h a r, exec i s = .next { s with hl := h, att := a } ∧ h.sessions = s.hl.sessions
          ∧ h.lastOut = some (ss.ep, r) ∧ r.result = 6 ∧ r.seq = nextSeq ss)
    ∧ (∀ ss n, role = some n → heard sid ss s → ss.role.val < n ∨ (s.upd.recovery = true ∧ updCmd i = false) →
        ∃ h a v l r, exec i s = .next { s with hl := h, att := a, evr := v, rl := l }
          ∧ h.violCnt = s.hl.violCnt + 1 ∧ h.evt.getLsbD 0 = true
          ∧ h.lastOut = some (ss.ep, r) ∧ r.result = 5 ∧ r.seq = nextSeq ss ∧ r.len = 0
          ∧ (vget none h.sessions sid.val).map (·.lastSeq) = some (some (nextSeq ss)))

/-- R34, R50, R210, R373 and the registers NVS_CNT_LO and KEY_RNG: reads with an effect. R39, and CLR_MAX and CLR_CNT of the registers. -/
def Obligations.LatchesAndClears : Prop :=
  (∀ (sid : Fin 4) (ss : Session) (s : State), heard sid ss s →
    let gives := fun (i : Instr) (x : Word) (t : State) => exec i s = .next (answered sid ss .ok 4 (wordBytes x) t)
    gives (.frameLoRead sid) (w s.frm.k) { s with frm := { s.frm with kShadow := w (s.frm.k / 2 ^ 32) } }
    ∧ gives (.k0LoRead sid) (w s.frm.k0) { s with frm := { s.frm with k0Shadow := w (s.frm.k0 / 2 ^ 32) } }
    ∧ gives (.timNowRead sid) (w (s.clk.nt % 10 ^ 19 / 10 ^ 10 / 2 * 2))
        { s with tim := { s.tim with nowShadow := s.clk.nt / 10 ^ 19 % 2 ^ 48 } }
    ∧ (let v := counter s ((sesReg sid.val 0xC0030 s).toNat % 8)
       gives (.nvsCntLoRead sid) (w v) { s with nvs := { s.nvs with cntShadow := w (v / 2 ^ 32) } })
    ∧ (s.att.last = status s → gives (.attnRoseRead sid) (BitVec.setWidth 32 s.att.rose[sid.val])
        { s with att := { s.att with rose := s.att.rose.set sid.val 0 } })
    ∧ (s.key.rngOk = true → gives (.keyRngRead sid) (Config.rng s.fresh)
        { s with key := { s.key with rngCount := s.key.rngCount + 1 }, fresh := s.fresh + 1 })
    ∧ (s.key.rngOk = false → gives (.keyRngRead sid) 0 s))
  ∧ (∀ (sid : Fin 4) (ss : Session) (s : State) (mask : Word) (n : Fin 4), hostReady sid 1 ss s →
    let gives := fun (i : Instr) (t : State) => exec i s = .next (answered sid ss .ok 4 [] t)
    gives (.frmClrMax sid) { s with frm := { s.frm with useMax := 0 } }
    ∧ gives (.lnClrMax sid) { s with lanes := s.lanes.map fun x => { x with stallMax := 0 } }
    ∧ gives (.memClrMax sid) { s with mem := { s.mem with banks := s.mem.banks.map fun b => { b with waitMax := 0 } } }
    ∧ gives (.hsbClrCnt sid) { s with hsb := { s.hsb with cnt := Vector.replicate 8 0 } }
    ∧ gives (.canClrCnt sid n) { s with can := ⟨s.can.ctl.set n.val { s.can.ctl[n.val] with cnt := Vector.replicate 8 0 }⟩ }
    ∧ gives (.neClrCnt sid) { s with
        ne := { s.ne with
          portCnt := Vector.replicate 12 (Vector.replicate 8 0)
          sv := s.ne.sv.map fun x => { x with cnt := Vector.replicate 9 0 }
          gs := s.ne.gs.map fun x => { x with cnt := Vector.replicate 7 0 }
          sp := s.ne.sp.map fun x => { x with sent := 0 }
          gp := s.ne.gp.map fun x => { x with sent := 0 } }
        tim := { s.tim with cnt := Vector.replicate 12 (Vector.replicate 8 0) } }
    ∧ (s.frm.hostStepAt = s.clk.cyc / 4 →
        gives (.hostEvent sid mask) { s with frm := { s.frm with hostStep := s.frm.hostStep ||| mask } })
    ∧ (s.frm.hostStepAt ≠ s.clk.cyc / 4 → gives (.hostEvent sid mask) { s with frm := { s.frm with
        hostEvt := s.frm.hostEvt ||| s.frm.hostStep, hostStep := mask, hostStepAt := s.clk.cyc / 4 } }))

/-- R48, R49, R144. -/
def Obligations.Commits : Prop :=
  ∀ (sid : Fin 4) (ss : Session) (g : BitVec 5) (s : State), hostReady sid 2 ss s → paired s = false →
    let f := (reg 0x10030 s).toNat + (reg 0x10034 s).toNat * 2 ^ 32
    let late := fun (b : Bool) => { s with frm := { s.frm with lastLate := b } }
    let arms := s.frm.ticks ≠ 0 ∧ s.frm.k + 2 ≤ f
    let agrees := g.getLsbD 4 = true → ∀ a, s.plr.run = some a → stagedId s = a.chiselId
      ∨ (s.plr.swapF = some f ∧ ∃ m, s.plr.maq = some m ∧ m.chiselId = stagedId s)
    (s.hsb.role ≠ .standby → s.frm.commitArmed = false → arms → agrees →
        exec (.commitArm sid g) s = .next (answered sid ss .ok 4 [] { setReg 0x10038 (BitVec.setWidth 32 g) s with
          frm := { s.frm with commitArmed := true, commitGroups := g, commitF := f, committed := false, lastLate := false } }))
    ∧ (s.hsb.role ≠ .standby → s.frm.commitArmed = true →
        exec (.commitArm sid g) s = .next (answered sid ss .busy 0 [] (late false)))
    ∧ (s.hsb.role ≠ .standby → s.frm.commitArmed = false → ¬ arms →
        exec (.commitArm sid g) s = .next (answered sid ss .late 0 [] (late true)))
    ∧ (s.hsb.role = .standby ∨ (s.frm.commitArmed = false ∧ arms ∧ ¬ agrees) →
        exec (.commitArm sid g) s = .next (turnedAway sid ss .denied (late false)))
    ∧ (s.frm.commitArmed = false → exec (.commitCancel sid) s = .next (answered sid ss .ok 4 [] (late false)))
    ∧ (s.frm.commitArmed = true → s.frm.k + 1 < s.frm.commitF →
        exec (.commitCancel sid) s = .next (answered sid ss .ok 4 [] { s with frm := { s.frm with
          commitArmed := false, committed := false, lastLate := false } }))
    ∧ (s.frm.commitArmed = true → s.frm.commitF ≤ s.frm.k + 1 →
        exec (.commitCancel sid) s = .next (answered sid ss .late 0 [] (late true)))

/-- R136 to R138 and R142. -/
def Obligations.ChiselCommands : Prop :=
  ∀ (sid : Fin 4) (ss : Session) (s : State) (r : Nat) (x : Word), hostReady sid 2 ss s →
    let sel := regSes 0x21008 ss
    let o := sel.toNat % 256
    let armed := s.frm.commitArmed && s.frm.commitGroups.getLsbD 4
    let all := [Instr.seal sid, .chiselClear sid, .chiselCopy sid, .chiselWrite sid r x]
    (∀ i : Fin 16, o = 0xF0 + i.val → sel.getLsbD 8 = false → armed = false →
      let e := s.ln.staged[i.val]
      let ends := fun (c : Instr) (f : ChiselEntry) (err : Nat) => exec c s = .next (answered sid ss .ok 4 []
        { s with ln := { s.ln with staged := s.ln.staged.set i.val f, sealErr := err } })
      ends (.chiselClear sid) (State.chiselEmpty o) s.ln.sealErr
      ∧ exec (.chiselCopy sid) s = .next (answered sid ss .ok 4 [] { s with ln := { s.ln with staged := s.ln.active } })
      ∧ (r = 0 → ends (.chiselWrite sid r x)
          { e with len := x.toNat % 16, npar := x.toNat / 16 % 8, sealed_ := false } s.ln.sealErr)
      ∧ (∀ n : Fin 64, r = n.val + 1 → ends (.chiselWrite sid r x)
          { e with words := e.words.set n.val x, sealed_ := false } s.ln.sealErr)
      ∧ (sealCode e = 0 → ends (.seal sid) (sealEntry o e) 0 ∧ (sealEntry o e).sealed_ = true)
      ∧ (sealCode e ≠ 0 → ends (.seal sid) { e with sealed_ := false } (sealCode e)))
    ∧ (o < 0xF0 ∨ sel.getLsbD 8 = true → ∀ c ∈ all, exec c s = .next (turnedAway sid ss .denied s))
    ∧ (0xF0 ≤ o → sel.getLsbD 8 = false → armed = true → ∀ c ∈ all, exec c s = .next (answered sid ss .busy 0 [] s))

/-- R162 to R164 and R168. -/
def Obligations.PlacerCommands : Prop :=
  ∀ (sid : Fin 4) (ss : Session) (s : State), hostReady sid 2 ss s → paired s = false →
    let st := s.plr.state
    let ok := fun (t : State) => Host.Outcome.next (answered sid ss .ok 4 [] t)
    let busy := Host.Outcome.next (answered sid ss .busy 0 [] s)
    let denied := Host.Outcome.next (turnedAway sid ss .denied s)
    let late := Host.Outcome.next (answered sid ss .late 0 [] s)
    let slot := if s.plr.runSlot then 0 else 1
    let base := if s.plr.runSlot then 0x3000000 else 0x3400000
    let emptied := fun (x : PlrState) => { s with
      upd := { s.upd with nor := sclear base (base + 0x400000) s.upd.nor }
      plr := { s.plr with slotId := vset s.plr.slotId slot none, maq := none, state := x } }
    let f := (reg 0x30014 s).toNat + (reg 0x30018 s).toNat * 2 ^ 32
    let cycle := if progS s ≠ 0 then progS s else progM s
    let fits := (cycle = 0 ∨ (s.frm.k0 ≤ f ∧ cycle ∣ f - s.frm.k0))
      ∧ ∃ a, s.plr.maq = some a ∧ (a.chiselId = activeId s ∨ a.chiselId = stagedId s)
    let soon := s.frm.ticks = 0 ∨ f < s.frm.k + 16
    let word := fun i => ((s.plr.report.find? fun x => x.1 == i).map (·.2)).getD 0
    -- LOAD
    (st ∈ [PlrState.empty, .loaded, .placed, .refused] →
      let bs := loadBytes s
      let hdr := (reg 0x30008 s).toNat + 0x38
      (∀ c, loadCheck bs (reg 0x3000C s).toNat s.frm.rate = some c →
        exec (.load sid) s = ok (note (BitVec.ofNat 16 c) srcPLR
          (if hdr + 4 ≤ 0x1800000 then w (leNat (sgets zeroByte s.mem.shared hdr 4)) else 0) (w (c - 0x2000)) 0
          { s with plr := { s.plr with result := BitVec.ofNat 16 c } }))
      ∧ (loadCheck bs (reg 0x3000C s).toNat s.frm.rate = none →
        exec (.load sid) s = ok { emptied .loading with plr := { (emptied .loading).plr with
          loadAddr := (reg 0x30008 s).toNat, loadLen := bs.length, since := s.clk.cyc } }))
    ∧ (st = .placing ∨ st = .armed → exec (.load sid) s = busy)
    ∧ (st = .loading → exec (.load sid) s = denied)
    -- PLACE
    ∧ (st ∈ [PlrState.loaded, .placed, .refused] → ∃ p : Plr, exec (.place sid) s = ok { s with plr := p, fresh := s.fresh + 1 }
        ∧ p.state = .placing ∧ p.since = s.clk.cyc ∧ p.report = s.plr.report ∧ p.run = s.plr.run ∧ p.slotId = s.plr.slotId)
    ∧ (st = .empty → exec (.place sid) s = denied)
    ∧ (st ∈ [PlrState.loading, .placing, .armed] → exec (.place sid) s = busy)
    -- SWAP and CANCEL
    ∧ (st = .placed → s.hsb.role ≠ .standby → ¬ soon → fits →
        exec (.swap sid) s = ok { s with plr := { s.plr with state := .armed, swapF := some f, swapDone := false } })
    ∧ (st = .placed → s.hsb.role ≠ .standby → soon → exec (.swap sid) s = late)
    ∧ (st ≠ .placed ∨ s.hsb.role = .standby ∨ (¬ soon ∧ ¬ fits) → exec (.swap sid) s = denied)
    ∧ (∀ g, s.plr.swapF = some g → s.frm.k + 1 < g → exec (.swapCancel sid) s =
        ok (note 0x2011 srcPLR (stagedImageId s) (word 2) (word 3) { s with plr := { s.plr with state := .placed, swapF := none } }))
    ∧ (∀ g, s.plr.swapF = some g → g ≤ s.frm.k + 1 → exec (.swapCancel sid) s = late)
    ∧ (s.plr.swapF = none → exec (.swapCancel sid) s = denied)
    -- DISCARD and UNCACHE
    ∧ (st ∈ [PlrState.loaded, .placed, .refused] → exec (.discard sid) s = ok (emptied .empty))
    ∧ (st = .armed → exec (.discard sid) s = busy)
    ∧ (st ∈ [PlrState.empty, .loading, .placing] → exec (.discard sid) s = denied)
    ∧ exec (.uncache sid) s = ok { s with plr := { s.plr with cache := vset s.plr.cache (if s.plr.runSlot then 1 else 0) none } }

/-- R60, R161 and R162. -/
def Obligations.PlacerEvents : Prop :=
  ∀ (sid : Fin 4) (ss : Session) (s : State),
    (∀ (a : Nat) (x : Word), hostReady sid 2 ss s → 0x20000000 ≤ a → a < 0x20400000 → a % 4 = 0 →
      let o := a - 0x20000000
      let active := decide (0x20000 ≤ o % 0x40000) == s.ln.half.getLsbD (o / 0x40000)
      (active = false → s.plr.state ≠ .placing → s.plr.state ≠ .armed → ∃ m, stored s.ln.prog m o 4 x
        ∧ exec (.maquetteWrite sid a x) s = .next (answered sid ss .ok 4 [] { s with
            ln := { s.ln with prog := m, badBundles := s.ln.badBundles.filter fun k => decide (k ≠ o / 32),
                              hostBundles := (s.ln.hostBundles.filter fun k => decide (k ≠ o / 32)) ++ [o / 32] }
            plr := if s.plr.state = .placed then { s.plr with state := .loaded, maq := none } else s.plr }))
      ∧ (active = true → exec (.maquetteWrite sid a x) s = .next (turnedAway sid ss .denied s))
      ∧ (active = false → s.plr.state = .placing ∨ s.plr.state = .armed →
          exec (.maquetteWrite sid a x) s = .next (answered sid ss .busy 0 [] s)))
    ∧ (s.clk.power = true →
        let slot := if s.plr.runSlot then 0 else 1
        let bs := sgets zeroByte s.mem.shared s.plr.loadAddr s.plr.loadLen
        let code := ((s.plr.nextReport.find? fun x => x.1 == 0).map (·.2)).getD 0
        let id := w (imgNat bs 0x38 4)
        (s.plr.state = .loading → exec .loaded s = .next (settle (note 0x2013 srcPLR id 0 0 { s with
            upd := { s.upd with nor := sputs norDefault (if s.plr.runSlot then 0x3000000 else 0x3400000) bs s.upd.nor }
            plr := { s.plr with state := .loaded, result := 0x2013
                                slotId := vset s.plr.slotId slot (some id) } })))
        ∧ (s.plr.state ≠ .loading → exec .loaded s = .next (settle s))
        ∧ (s.plr.state ≠ .placing → exec .placed s = .next (settle s))
        ∧ (s.plr.state = .placing → ∃ t, exec .placed s = .next t
            ∧ t.plr = { s.plr with
                state := if s.plr.maq = none then .refused else .placed
                maqHashOk := if s.plr.maq = none then s.plr.maqHashOk else true
                report := s.plr.nextReport, result := BitVec.setWidth 16 code, nextReport := [], nextCode := [] }
            ∧ t.ln.half = s.ln.half ∧ t.ln.active = s.ln.active ∧ t.ln.batons = s.ln.batons ∧ t.frm.k = s.frm.k
            ∧ (s.plr.maq = none → t.ln.prog = s.ln.prog ∧ t.mem = s.mem ∨ t.sys.latched = true)))

/-- R179, R180 and R182. -/
def Obligations.TransferCommands : Prop :=
  ∀ (sid : Fin 4) (ss : Session) (s : State) (n : Fin 256), hostReady sid 2 ss s →
    let d := staged sid.val s
    let x := s.mem.te[n.val]
    (∀ i, teCheck s d = .ok → inFlight s false < 192 → nextSlot s = some i →
        exec (.submit sid) s = .next (answered sid ss .ok 4 [] { s with mem := { s.mem with
          te := vset s.mem.te i d, hostQ := s.mem.hostQ ++ [i], lastSlot := some i, teLast := vset s.mem.teLast sid.val i } })
        ∧ i < 256 ∧ (vget State.te0 s.mem.te i).state ≠ .queued ∧ (vget State.te0 s.mem.te i).state ≠ .running)
    ∧ (teCheck s d = .ok → 192 ≤ inFlight s false ∨ nextSlot s = none →
        exec (.submit sid) s = .next (answered sid ss .busy 0 [] s))
    ∧ (∀ r, teCheck s d = r → r ∈ [Res.badSpace, .badLen, .badOp, .denied] →
        exec (.submit sid) s = .next (turnedAway sid ss r s))
    ∧ (d.op ≤ 2 → 4 ≤ d.len → d.len ≤ 0x100000 → d.len % 4 = 0 →
        (d.op ≠ 1 → 0x10000000 ≤ d.src ∧ d.src + d.len ≤ 0x11800000 ∧ d.src % 4 = 0) →
        (d.op ≠ 2 → 0x10000000 ≤ d.dst ∧ d.dst + d.len ≤ 0x11800000 ∧ d.dst % 4 = 0
          ∧ inTransfer s (d.dst - 0x10000000) d.len = true) → teCheck s d = .ok)
    ∧ (x.firmware = false → x.state = .queued → exec (.abort sid n) s = .next (answered sid ss .ok 4 [] { s with mem :=
        { s.mem with hostQ := s.mem.hostQ.filter fun j => j != n.val, te := s.mem.te.set n.val { x with state := .aborted } } }))
    ∧ (x.firmware = false → x.state ∈ [TeState.running, .done, .refused] →
        exec (.abort sid n) s = .next (answered sid ss .late 0 [] s))
    ∧ (x.firmware = true ∨ x.state = .free → exec (.abort sid n) s = .next (turnedAway sid ss .denied s))

/-- R179, R181 and R183. -/
def Obligations.TransferEngine : Prop :=
  ∀ (fw : Bool) (s : State), s.clk.power = true →
    let q := if fw then s.mem.fwQ else s.mem.hostQ
    let cur := if fw then s.mem.fwRun else s.mem.hostRun
    let chan := fun (q : List Nat) (r : Option Nat) => if fw then { s.mem with fwQ := q, fwRun := r }
      else { s.mem with hostQ := q, hostRun := r }
    (∀ (i : Fin 256) r, q = i.val :: r → cur = none → s.mem.halted = false →
      let d := s.mem.te[i.val]
      let takes := fun (x : TeState) (run : Option Nat) => exec (.descriptorTake fw) s = .next (settle { s with
        mem := { chan r run with te := s.mem.te.set i.val { d with state := x } } })
      (crcHolds d = true → teCheck s d = .ok → takes .running (some i.val))
      ∧ (crcHolds d = true → teCheck s d ≠ .ok → takes .refused none)
      ∧ (crcHolds d = false → s.sys.latched = false → inPlinth s = false → ∃ t, exec (.descriptorTake fw) s = .next t
          ∧ t.sys.latched = true ∧ t.sys.firstCause = 0x3001 ∧ t.sys.cause.getLsbD 2 = true ∧ t.sys.doubtCyc = s.clk.cyc))
    ∧ (q = [] ∨ cur ≠ none ∨ s.mem.halted = true → exec (.descriptorTake fw) s = .next (settle s))
    ∧ (∀ i : Fin 256, cur = some i.val →
      let d := s.mem.te[i.val]
      let ends := fun (c : Instr) (m : List (Nat × Byte)) (x : Word) => exec c s = .next (settle { s with mem :=
        { chan q none with shared := m, te := s.mem.te.set i.val { d with state := .done, result := x } } })
      let srcOk := 0x10000000 ≤ d.src ∧ d.src + d.len ≤ 0x11800000 ∧ 0 < d.len
      let dstOk := 0x10000000 ≤ d.dst ∧ d.dst + d.len ≤ 0x11800000 ∧ 0 < d.len
      let a := d.src - 0x10000000
      let b := d.dst - 0x10000000
      (d.op = 0 → srcOk → dstOk → (a + d.len ≤ b ∨ b + d.len ≤ a) → swf zeroByte s.mem.shared = true →
        ∃ m, ends (.teCopy fw) m (w d.len) ∧ swf zeroByte m = true
          ∧ ∀ j, sget zeroByte m j = if b ≤ j ∧ j < b + d.len then sget zeroByte s.mem.shared (a + (j - b))
              else sget zeroByte s.mem.shared j)
      ∧ (d.op = 1 → dstOk → d.len % 4 = 0 → swf zeroByte s.mem.shared = true →
        ∃ m, ends (.teFill fw) m (w d.len) ∧ swf zeroByte m = true
          ∧ ∀ j, sget zeroByte m j = if b ≤ j ∧ j < b + d.len then byteOf d.val ((j - b) % 4) else sget zeroByte s.mem.shared j)
      ∧ (d.op = 2 → srcOk → ends (.teCrc fw) s.mem.shared (crc32c (sgets zeroByte s.mem.shared a d.len))))

/-- R338 and R340. -/
def Obligations.RecorderCommands : Prop :=
  ∀ (sid : Fin 4) (ss : Session) (s : State) (n : Word),
    let shows := fun (sts : BitVec 5) (ws : Vector Word 8) => exec (.cursorWrite sid n) s = .next (answered sid ss .ok 4 []
      { s with hl := { s.hl with sessions := s.hl.sessions.set sid.val (some { ss with win := ⟨n, sts, ws⟩ }) } })
    (hostReady sid 0 ss s →
      (readableN n s = none → shows 0b10000#5 (Vector.replicate 8 0))
      ∧ (∀ j p, s.evr.pending.length ≤ 1792 → s.evr.pending[j]? = some p → n = w (evrTotalN s + j) →
          evrOldestN s ≤ evrTotalN s + j → shows 0b00011#5 p.record.words)
      ∧ (∀ m, readableN n s = some m → m < evrTotalN s → s.nvs.unc = [] → s.nvs.ceGroups = [] →
          checkOk (nvRec s (recAt s m)) = true → shows 0b00001#5 (nvRec s (recAt s m)).words)
      ∧ exec (.next sid) s = exec (.cursorWrite sid (ss.win.cursor + 1)) s
      ∧ exec (.prev sid) s = exec (.cursorWrite sid (ss.win.cursor - 1)) s)
    ∧ (hostReady sid 2 ss s → s.evr.pending.length < 1792 → swf zeroByte s.nvs.mem = true → ∃ (r : Rec) (t : State),
        exec (.cleared sid) s = .next (answered sid ss .ok 4 [] t) ∧ t = { s with
                   evr := t.evr, att := t.att, nvs := { s.nvs with mem := t.nvs.mem, unc := t.nvs.unc, ceGroups := t.nvs.ceGroups },
                   persist := { s.persist with
                     copies := vset s.persist.copies (recIndex recRECORDER (nextRecord recRECORDER s).1)
                       (some (.recorder s.evr.size (w (evrNextN s)))) } }
        ∧ (∀ a, a < 0x28000 ∨ 0xA8000 ≤ a → nvByte t a = nvByte s a)
        ∧ t.evr.base = w (evrNextN s) ∧ t.evr.pending = s.evr.pending ++ [⟨r, opTime s⟩]
        ∧ r.words[0].toNat % 2 ^ 16 = 0x0F03 ∧ r.words[5] = w (evrNextN s - evrOldestN s) ∧ r.words[6] = 0
        ∧ r.words[7] = w (evrSize s))
    ∧ (hostReady sid 2 ss s → 1792 ≤ s.evr.pending.length →
        exec (.cleared sid) s = .next (answered sid ss .busy 0 [] s))
    ∧ (hostReady sid 1 ss s → exec (.writeNow sid) s = .next (answered sid ss .ok 4 []
        { s with evr := { s.evr with draining := (reg 0xD0000 s).getLsbD 2 && !s.evr.pending.isEmpty } }))

/-- R331 to R336. -/
def Obligations.RecorderEvents : Prop :=
  ∀ (s : State), s.clk.power = true →
    let v := s.evr
    (v.cur = none → exec .intake s = .next (settle s))
    ∧ (∀ t, v.cur = some t → v.lostDue = false →
      let r := recOf t false
      let isModule := t.entry.sev = .module
      let room := if t.entry.sev = .module then 1792 else 1776
      let cls := t.entry.code.toNat / 4096
      let apart := evrCode s = 3 ∨ ∀ old, belowRec s = some old → foldsInto r old = false
      let leads := fun (p : List Pend) (lost : Word) => ∃ u, exec .intake s = .next u ∧ u.evr.pending = p ∧ u.evr.lost = lost
        ∧ u.evr.cur = v.queue.head?.map (fun e => stamp e s) ∧ u.evr.queue = v.queue.tail ∧ u.clk = s.clk ∧ u.lanes = s.lanes
      (apart → v.pending.length < room → evrCode s ≠ 3 ∨ isModule → leads (v.pending ++ [⟨r, opTime s⟩]) v.lost)
      ∧ (apart → v.pending.length < room → evrCode s = 3 → ¬ isModule → (vget State.bucket0 v.buckets cls).tokens ≠ 0 →
          leads (v.pending ++ [⟨r, opTime s⟩]) v.lost)
      ∧ (v.pending.length < room → evrCode s = 3 → ¬ isModule → (vget State.bucket0 v.buckets cls).tokens = 0 →
          leads v.pending v.lost)
      ∧ (apart → room ≤ v.pending.length → leads v.pending (v.lost + 1))
      ∧ (∀ p, evrCode s ≠ 3 → v.pending.getLast? = some p → foldsInto r p.record = true →
          leads (v.pending.dropLast ++ [⟨foldRec p.record, p.since⟩]) v.lost))
    ∧ (∀ p t, v.pending = p :: t → writesNow s = true → v.lostB.count = 0 → swf zeroByte s.nvs.mem = true →
        counter s 4 + 1 < 2 ^ 64 → ∃ u, exec .ringWrite s = .next u ∧ u.evr.pending = t ∧ counter u 4 = counter s 4 + 1
          ∧ u.lanes = s.lanes ∧ u.frm = s.frm
          ∧ ∀ j < 32, some (nvByte u (recAt s (counter s 4) + j)) = (wordsBytes p.record.words.toList)[j]?)
    ∧ (v.lastToken < tokenIndex s → exec .tokenAdd s = .next (settle { s with evr := { v with
        lastToken := v.lastToken + 1
        buckets := v.buckets.map fun b => { b with tokens := max b.tokens (min (b.tokens + 1) (evrBurst s)) } } }))
    ∧ (tokenIndex s ≤ v.lastToken → exec .tokenAdd s = .next (settle s))
    ∧ (∀ c : Fin 16, v.pending.length < 1776 → (v.buckets[c.val]).held ≠ 0 → (v.buckets[c.val]).sec < s.clk.opSec →
        (∀ d : Fin 16, d ≠ c → (v.buckets[d.val]).held = 0) → ∃ (r : Rec) (u : State), exec .suppressed s = .next u
          ∧ u.evr.buckets = v.buckets.set c.val { v.buckets[c.val] with held := 0, first := 0 }
          ∧ u.evr.pending = v.pending ++ [⟨r, opTime s⟩] ∧ r.words[0].toNat % 2 ^ 16 = 0x0F01
          ∧ r.words[5] = w c.val ∧ r.words[6] = w (v.buckets[c.val]).held
          ∧ r.words[7] = BitVec.setWidth 32 (v.buckets[c.val]).first)

/-- R317, R318, R321 to R323. -/
def Obligations.StoreEvents : Prop :=
  ∀ (sid : Fin 4) (ss : Session) (s : State),
    (hostReady sid 3 ss s →
      let p := (reg 0xC0040 s).toNat % 256
      ((64 ≤ p ∧ p < 128) ∨ 192 ≤ p → exec (.lockPage sid) s = .next (answered sid ss .ok 4 []
          { s with nvs := { s.nvs with locked := setBit s.nvs.locked p } }))
      ∧ (¬ ((64 ≤ p ∧ p < 128) ∨ 192 ≤ p) → exec (.lockPage sid) s = .next (turnedAway sid ss .denied s)))
    ∧ (s.clk.power = true →
      let old := if s.nvs.opStoreSec + 60 ≤ s.clk.opSec then true else false
      let ret := (reg 0xC000C s).toNat % 2 ^ 12
      let due := s.frm.state = .running ∧ ret ≠ 0 ∧ s.nvs.retSec + min 3600 ret ≤ s.clk.opSec
      let kept := nvPut (if (nextRetain s).1 = 0 then 0xB8000 else 0xC8000)
        (copyBytes (ridOf 1) 0 (nextRetain s).2 (retainPayload s)) s
      (s.nvs.jop = none → exec .journalCommit s = .next (settle s))
      ∧ (∀ op, s.nvs.jop = some op → op.kind ≠ 1 → swf zeroByte s.nvs.mem = true →
          let n := (nextRecord recCHISEL s).1
          let at_ := (recPlaces recCHISEL).getD n 0
          ∃ u, exec .journalCommit s = .next u ∧ u.nvs.jop = none ∧ u.nvs.jseq = s.nvs.jseq ∧ nvByte u 0x4008 = 2
            ∧ (op.chisel = true → u.persist = { s.persist with
                copies := vset s.persist.copies (recIndex recCHISEL n) (some (.chisel s.ln.active)) })
            ∧ (op.chisel = false → u.persist = s.persist)
            ∧ (∀ a, (a < 0x4008 ∨ 0x4010 ≤ a) → (op.chisel = false ∨ a < at_ ∨ at_ + recLen recCHISEL + 20 ≤ a) →
                nvByte u a = nvByte s a)
            ∧ u.plr = s.plr ∧ u.ln = s.ln)
      ∧ (due → ∃ (te : Vector TeSlot 256) (last : Option Nat), exec .retainSave s = .next (settle { kept with
            nvs := { kept.nvs with retSec := s.clk.opSec }, mem := { s.mem with te := te, lastSlot := last } })
          ∧ ∀ i : Fin 256, te[i.val] = s.mem.te[i.val]
              ∨ ((te[i.val]).firmware = true ∧ (te[i.val]).state = .done ∧ crcHolds te[i.val] = true))
      ∧ (¬ due → exec .retainSave s = .next (settle s))
      ∧ (old = true → s.clk.opSec < 2 ^ 64 → ∃ u, exec .opSecondsStore s = .next u ∧ counter u 1 = s.clk.opSec
          ∧ u.nvs.opStoreSec = s.clk.opSec ∧ (∀ r < 8, r ≠ 1 → counter u r = counter s r) ∧ u.frm = s.frm ∧ u.evr = s.evr)
      ∧ (old = false → exec .opSecondsStore s = .next (settle s)))

/-- R345 to R347. -/
def Obligations.KeyCommands : Prop :=
  ∀ (sid : Fin 4) (ss : Session) (s : State), hostReady sid 0 ss s →
    let slot := (sesReg sid.val 0xE0010 s).toNat % 64
    let k := keySlot s slot
    let lc := lifecycle s
    let a := s.key.wrAttr
    let t := a.toNat % 16
    let n := a.toNat / 16 % 64
    let clean := clearStaging s
    let denied := fun c => exec c s = .next (turnedAway sid ss .denied clean)
    let busy := fun c => exec c s = .next (answered sid ss .busy 0 [] clean)
    let may := ss.role.val = 3 ∧ (lc = 1 ∨ lc = 2) ∧ k.state ≠ .locked ∧ ¬ (lc = 2 ∧ k.attr.getLsbD 15 = true)
    let suits := ((t = 0 ∧ n = 0) ∨ (t = 1 ∧ n = 16) ∨ (t = 2 ∧ n = 32) ∨ (t = 3 ∧ 16 ≤ n ∧ n ≤ 32) ∨ (t = 4 ∧ n = 32))
      ∧ a &&& 0xFF800000 = 0
    let mixed := (a.getLsbD 15 = true ∧ a &&& 0x6C00 ≠ 0) ∨ (a.getLsbD 22 = true ∧ t ≠ 4)
    let takes := fun c (newAttr : Word) (m : Vector Byte 32) => ∃ u, exec c s = .next u
      ∧ u = { s with key := u.key, hl := u.hl, att := u.att }
      ∧ u.hl = { s.hl with owed := some ⟨ss.ep, sid, nextSeq ss, 4, true⟩ }
      ∧ u.key = { s.key with wrAttr := 0, wrData := Vector.replicate 8 0, slots := u.key.slots
                             wr := some ⟨slot, k.attr, k.state, newAttr, m, s.clk.cyc⟩ }
      ∧ ∀ i : Fin 64, u.key.slots[i.val] = if i.val = slot then ⟨k.material, 0xF, 0, false, .bad⟩ else s.key.slots[i.val]
    (¬ may → denied (.keyWrite sid) ∧ denied (.keyErase sid))
    ∧ (may → lc = 2 → a.getLsbD 15 = true → denied (.keyWrite sid))
    ∧ (may → ¬ (lc = 2 ∧ a.getLsbD 15 = true) → ¬ suits → exec (.keyWrite sid) s = .next (turnedAway sid ss .badOp clean))
    ∧ (may → ¬ (lc = 2 ∧ a.getLsbD 15 = true) → suits → mixed → denied (.keyWrite sid))
    ∧ (may → ¬ (lc = 2 ∧ a.getLsbD 15 = true) → suits → ¬ mixed →
        (s.key.wr ≠ none → busy (.keyWrite sid)) ∧ (s.key.wr = none → takes (.keyWrite sid) a (stagedMaterial s)))
    ∧ (may → (s.key.wr ≠ none → busy (.keyErase sid)) ∧ (s.key.wr = none → takes (.keyErase sid) 0 (Vector.replicate 32 0)))

/-- R344, R347 and R350. -/
def Obligations.KeyEvents : Prop :=
  ∀ (s : State), s.clk.power = true →
    (s.key.wr = none → exec .keyWritten s = .next (settle s))
    ∧ (∀ x, s.key.wr = some x → x.slot < 64 → x.newAttr.toNat % 16 ≤ 4 → lifecycle s ≠ 3 → ∃ u, exec .keyWritten s = .next u
        ∧ u.key.wr = none ∧ u.hl.owed = none ∧ u.lanes = s.lanes ∧ u.frm = s.frm ∧ u.nvs = s.nvs
        ∧ let n := x.newAttr.toNat / 16 % 64
          let m : Vector Byte 32 := Vector.ofFn fun i => if i.val < n then x.material[i] else 0
          let st : SlotState := if x.newAttr.toNat % 16 = 0 then .empty
            else if tampHeld s = true ∧ x.newAttr.getLsbD 21 = true then .locked else .valid
          ∀ i : Fin 64, u.key.slots[i.val] = if i.val = x.slot then
            ⟨m, x.newAttr, crc32c (m.toList ++ wordBytes x.newAttr ++ [BitVec.ofNat 8 x.slot]), false, st⟩ else s.key.slots[i.val])
    ∧ (∀ n : Fin 64,
        let k := s.key.slots[n.val]
        (k.state = .valid ∨ k.state = .locked → ∃ u, exec (.keyBad n) s = .next u ∧ u.key.evt = s.key.evt ||| 1
          ∧ (u.key.slots[n.val]).state = .bad ∧ (u.key.slots[n.val]).material = k.material
          ∧ (u.key.slots[n.val]).attr = k.attr ∧ (∀ i : Fin 64, i ≠ n → u.key.slots[i.val] = s.key.slots[i.val])
          ∧ (status u).getLsbD 10 = true ∧ u.lanes = s.lanes ∧ u.frm = s.frm)
        ∧ (k.state = .empty ∨ k.state = .bad → exec (.keyBad n) s = .next (settle s)))
    ∧ (2 ^ 20 ≤ s.key.rngCount → exec .reseed s = .next (settle { s with key := { s.key with rngCount := 0 } }))
    ∧ (s.key.rngCount < 2 ^ 20 → exec .reseed s = .next (settle s))
    ∧ (∀ t, s.key.rngOk = true → ∃ u, exec (.rngFail t) s = .next u ∧ u.key = { s.key with rngOk := false }
        ∧ u = { s with key := u.key, evr := u.evr, att := u.att })
    ∧ (∀ t, s.key.rngOk = false → exec (.rngFail t) s = .next (settle s))
    ∧ ∀ sid ss, heard sid ss s →
        (s.key.rngOk = true → exec (.keyRngRead sid) s = .next (answered sid ss .ok 4 (wordBytes (Config.rng s.fresh))
          { s with fresh := s.fresh + 1, key := { s.key with rngCount := s.key.rngCount + 1 } }))
        ∧ (s.key.rngOk = false → exec (.keyRngRead sid) s = .next (answered sid ss .ok 4 [0, 0, 0, 0] s))

/-- R349 and R351. -/
def Obligations.KeyOperations : Prop :=
  ∀ (sid : Fin 4) (ss : Session) (s : State),
    (hostReady sid 0 ss s → ∀ c code types, (c, code, types) ∈
        [(Instr.sha256 sid, 0, []), (Instr.hmac sid, 1, [3]), (Instr.gmac sid, 2, [1, 2]), (Instr.ecdsa sid, 3, [4])] →
      (reg 0xE0200 s).toNat % 4 = code →
      let slot := (reg 0xE0200 s).toNat / 256 % 64
      let a := (reg 0xE0204 s).toNat % 2 ^ 25
      let n := (reg 0xE0208 s).toNat % 2 ^ 25
      let fits := n ≤ 0x100000 ∧ (code = 2 → 12 ≤ n) ∧ (code = 3 → n = 160)
      let serves := code = 0 ∨ keyServes s slot useHOST types = true
      (s.key.op ≠ none → exec c s = .next (answered sid ss .busy 0 [] s))
      ∧ (s.key.op = none → ¬ fits → exec c s = .next (turnedAway sid ss .badLen s))
      ∧ (s.key.op = none → fits → inTransfer s a n = false → exec c s = .next (turnedAway sid ss .denied s))
      ∧ (s.key.op = none → fits → inTransfer s a n = true → ¬ serves →
          exec c s = .next (turnedAway sid ss .denied { s with key := { s.key with opState := .refused } }))
      ∧ (s.key.op = none → fits → inTransfer s a n = true → serves → exec c s = .next (answered sid ss .ok 4 []
          { s with key := { s.key with opState := .running, opRes := Vector.replicate 8 0
                                       op := some ⟨code, slot, a, n, s.clk.cyc⟩ } })))
    ∧ (s.clk.power = true →
      (s.key.op = none → exec .opDone s = .next (settle s))
      ∧ (∀ o, s.key.op = some o → o.op < 4 → ∃ u, exec .opDone s = .next u
          ∧ u = { s with key := { s.key with op := none, opState := .done, evt := s.key.evt ||| 8, opRes := u.key.opRes }
                         att := u.att }
          ∧ let src := sgets zeroByte s.mem.shared o.addr o.len
            let k := keySlot s o.slot
            let material := k.material.toList.take (k.attr.toNat / 16 % 64)
            let shows := fun (n : Nat) (bs : List Byte) =>
              (u.key.opRes.toList.flatMap wordBytes) = bs.take n ++ List.replicate (32 - n) 0
            (o.op = 0 → shows 32 (sha256 src)) ∧ (o.op = 1 → shows 32 (hmac256 material src))
            ∧ (o.op = 2 → shows 16 (gmacTag material (src.take 12) (src.drop 12)))
            ∧ (o.op = 3 → u.key.opRes[0] = if sha256 ((src.drop 32).take 64) = k.material.toList
                ∧ ecdsaOk (beNat (src.take 32)) (beNat ((src.drop 32).take 32)) (beNat ((src.drop 64).take 32))
                    (beNat ((src.drop 96).take 32)) (beNat ((src.drop 128).take 32)) = true then 1 else 0)))

/-- R352 to R354, and the life-cycle rule of the test port in R413. -/
def Obligations.LifeCycle : Prop :=
  (∀ (s : State), s.tap.trstN = true →
    (lifecycle s ≤ 1 ∨ s.tap.ir = .bypass ∨ s.tap.ir = .idcode ∨ s.tap.ir = .samplePreload → tapInstr s = s.tap.ir)
    ∧ (2 ≤ lifecycle s → (∃ n, s.tap.ir = .other n) → tapInstr s = .bypass))
  ∧ (∀ (s : State), s.tap.trstN = false → tapInstr s = .idcode)
  ∧ BitVec.extractLsb' 0 28 tapIdcode = 0x24193C5#28
  ∧ ∀ (sid : Fin 4) (ss : Session) (target : BitVec 2) (s : State), hostReady sid 3 ss s →
    let old := lifecycle s
    let ready := (∃ i : Fin 64, (s.key.slots[i.val]).state = .valid ∧ (s.key.slots[i.val]).attr.toNat % 16 = 4
        ∧ (s.key.slots[i.val]).attr &&& 0x49000 = 0x49000)
      ∧ ∃ i : Fin 64, (s.key.slots[i.val]).state = .valid ∧ (s.key.slots[i.val]).attr.toNat % 16 = 3
        ∧ (s.key.slots[i.val]).attr &&& 0x42000 = 0x42000
    let refused := old = 3 ∨ target.toNat ≠ old + 1 ∨ (target = 2 ∧ ¬ ready)
    (refused → exec (.lcChange sid target) s = .next (turnedAway sid ss .denied s))
    ∧ (¬ refused → swf zeroByte s.nvs.mem = true → ∃ u, exec (.lcChange sid target) s = .next u ∧ lifecycle u = target.toNat
        ∧ (let ws : List Word := [0x4C435047, w old, powerCycles s, opSeconds s, w (sesSlot sid.val s)] ++ List.replicate 10 0
           let page := wordsBytes (ws ++ [crc32c (wordsBytes ws)])
           let base := (128 + target.toNat) * 64
           (∀ i < 64, some (nvByte u (base + i)) = page[i]?)
           ∧ ∀ a, a < base ∨ base + 64 ≤ a → nvByte u a = nvByte s a)
        ∧ u.nvs.locked = s.nvs.locked ||| BitVec.twoPow 256 (128 + target.toNat)
        ∧ (target = 3 → ∀ i : Fin 64, let t := (u.key.slots[i.val]).attr.toNat % 16; ¬ (1 ≤ t ∧ t ≤ 3))
        ∧ (target ≠ 3 → u.key.slots = s.key.slots) ∧ u.lanes = s.lanes ∧ u.frm = s.frm)

/-- R355, R357 and R358. -/
def Obligations.Tamper : Prop :=
  ∀ (s : State),
    let fresh := ∃ n : Fin 3, (s.rtc.tamp[n.val]).latched = true ∧ (s.rtc.tamp[n.val]).acted = false
    (s.clk.power = true →
      (¬ fresh → exec .tamper s = .next (settle s))
      ∧ (fresh → ∃ u, exec .tamper s = .next u ∧ u.key.wr = none ∧ u.key.op = none ∧ u.lanes = s.lanes ∧ u.frm = s.frm
          ∧ (s.key.op ≠ none → u.key.opState = .aborted)
          ∧ (∀ n : Fin 3, u.rtc.tamp[n.val] = { s.rtc.tamp[n.val] with
              acted := (s.rtc.tamp[n.val]).acted || (s.rtc.tamp[n.val]).latched })
          ∧ (status u).getLsbD 9 = true
          ∧ ∀ i : Fin 64, (∀ x, s.key.wr = some x → x.slot ≠ i.val) →
              let k := s.key.slots[i.val]
              if k.attr.getLsbD 20 = true then u.key.slots[i.val] = State.key0 i.val
              else if k.attr.getLsbD 21 = true ∧ k.state = .valid then u.key.slots[i.val] = { k with state := .locked }
              else u.key.slots[i.val] = k))
    ∧ ∀ sid ss (mask : BitVec 3), hostReady sid 3 ss s →
        let ok := lifecycle s = 1 ∨ lifecycle s = 2
        (¬ ok → exec (.tamperClear sid mask) s = .next (turnedAway sid ss .denied s))
        ∧ (ok → ¬ fresh → ∃ u, exec (.tamperClear sid mask) s = .next u ∧ u.lanes = s.lanes ∧ u.frm = s.frm
            ∧ (∀ n : Fin 3, let t := s.rtc.tamp[n.val]
                u.rtc.tamp[n.val] = if mask.getLsbD n.val = true ∧ t.latched = true ∧ t.active = false
                  then { t with latched := false, acted := false } else t)
            ∧ ((∃ n : Fin 3, (u.rtc.tamp[n.val]).latched = true) → u.key.slots = s.key.slots)
            ∧ ((∀ n : Fin 3, (u.rtc.tamp[n.val]).latched = false) → ∀ i : Fin 64, (s.key.slots[i.val]).state = .locked →
                let st := (u.key.slots[i.val]).state
                st = .valid ∨ st = .bad ∨ st = .empty))

/-- R368 and R369. -/
def Obligations.SessionsOpen : Prop :=
  ∀ (ep : Endpoint) (s : State), s.clk.power = true → epHeard ep s = true → throttled ep s = false →
    let replies := fun (u : State) (res : Res) (sid : BitVec 8) (payload : List Byte) =>
      -- a reply that is a violation counts as one after it is built
      let at_ := if res.violates then (settle s).att else u.att
      u.hl.lastOut = some (ep, ⟨0, res.code, sid, at_.last, at_.agen, payload.length, payload⟩)
        ∧ u.lanes = s.lanes ∧ u.frm = s.frm
    let holds := fun (u : State) (sid : Fin 4) (role : Fin 4) (slot : Option (Fin 64)) =>
      (∃ ss, u.hl.sessions[sid.val] = some ss ∧ ss.ep = ep ∧ ss.role = role ∧ ss.slot = slot ∧ ss.lastSeq = none)
      ∧ (∀ n : Fin 4, n ≠ sid → u.hl.sessions[n.val] = s.hl.sessions[n.val]) ∧ u.hl.hellos[sid.val] = none
    (∀ (role : Fin 4) (slot : Fin 64),
      let isFree := fun n : Fin 4 => s.hl.sessions[n.val] = none
        ∧ ∀ h, s.hl.hellos[n.val] = some h → h.since + 5 * cycSec < s.clk.cyc
      let unkeyed := ep = .hp ∧ role.val = 3 ∧ slot.val = 0x3F ∧ lifecycle s = 1 ∧ ∀ i : Fin 64, slotAuthOk i.val 3 s = false
      ((∀ n, ¬ isFree n) → ∃ u, exec (.hello ep role slot) s = .next u ∧ replies u .busy 7 [] ∧ u.hl.sessions = s.hl.sessions)
      ∧ ((∃ n, isFree n) → unkeyed → ∃ n u, isFree n ∧ exec (.hello ep role slot) s = .next u
          ∧ replies u .ok 7 (leBytes 4 n.val ++ List.replicate 16 0) ∧ holds u n 3 none)
      ∧ ((∃ n, isFree n) → ¬ unkeyed → s.key.rngOk = false → ∃ u, exec (.hello ep role slot) s = .next u
          ∧ replies u .denied 7 [] ∧ u.hl.sessions = s.hl.sessions ∧ u.hl.hellos = s.hl.hellos ∧ u.hl.evt.getLsbD 0 = true)
      ∧ ((∃ n, isFree n) → ¬ unkeyed → s.key.rngOk = true → ∃ n u ch, isFree n ∧ exec (.hello ep role slot) s = .next u
          ∧ ch.length = 16 ∧ replies u .ok 7 (leBytes 4 n.val ++ ch) ∧ u.hl.sessions = s.hl.sessions
          ∧ u.hl.hellos = s.hl.hellos.set n.val (some ⟨ep, role, slot, ch, s.clk.cyc⟩)
          ∧ u.key.rngCount = s.key.rngCount + 4))
    ∧ ∀ (sid : Fin 4) (tag : List Byte),
      let good := ∃ h, s.hl.hellos[sid.val] = some h ∧ h.ep = ep ∧ s.clk.cyc ≤ h.since + 5 * cycSec
        ∧ slotAuthOk h.slot.val h.role.val s = true
        ∧ tag = hmac256 (slotKey s h.slot.val)
            (h.challenge ++ [BitVec.ofNat 8 h.role.val, BitVec.ofNat 8 h.slot.val, BitVec.ofNat 8 sid.val])
      (good → ∃ h u, s.hl.hellos[sid.val] = some h ∧ exec (.auth ep sid tag) s = .next u
          ∧ replies u .ok (BitVec.ofNat 8 sid.val) [] ∧ holds u sid h.role (some h.slot))
      ∧ (¬ good → ∃ u, exec (.auth ep sid tag) s = .next u ∧ replies u .denied (BitVec.ofNat 8 sid.val) []
          ∧ u.hl.sessions = s.hl.sessions ∧ u.hl.hellos[sid.val] = none ∧ u.hl.evt.getLsbD 1 = true
          ∧ u.hl.violCnt = s.hl.violCnt + 1)

/-- R367 and R375. -/
def Obligations.SessionsClose : Prop :=
  ∀ (s : State), s.clk.power = true →
    let closes := fun (o : Host.Outcome State Fault Refusal) (sid : Fin 4) => ∃ u, o = .next u ∧ u.hl.sessions[sid.val] = none
      ∧ (∀ n : Fin 4, n ≠ sid → ((u.hl.sessions[n.val]).map fun x => (x.ep, x.role, x.slot, x.regs))
          = (s.hl.sessions[n.val]).map fun x => (x.ep, x.role, x.slot, x.regs))
      ∧ (s.upd.holder = some sid → s.hl.sessions[sid.val] ≠ none → u.upd.holder = none ∧ u.upd.sess = .idle)
      ∧ (s.upd.holder ≠ some sid → u.upd = s.upd)
      ∧ u.lanes = s.lanes ∧ u.frm = s.frm ∧ u.key = s.key ∧ u.nvs = s.nvs
    let idle := max 1 ((reg 0x100004 s).toNat / 256 % 256) * cycSec
    (∀ sid ss, heard sid ss s → closes (exec (.close sid) s) sid)
    ∧ (∀ sid target ss, hostReady sid 2 ss s → closes (exec (.hlCmdClose sid target) s) target)
    ∧ (∀ sid : Fin 4, ∀ ss, session sid.val s = some ss → sessionBusy sid.val s = false →
        (ss.lastExec + idle ≤ s.clk.cyc → closes (exec (.idleTimeout sid) s) sid)
        ∧ (s.clk.cyc < ss.lastExec + idle → exec (.idleTimeout sid) s = .next (settle s)))
    ∧ (∀ sid : Fin 4, session sid.val s = none ∨ sessionBusy sid.val s = true →
        exec (.idleTimeout sid) s = .next (settle s))
    ∧ ∀ ep t, (epFind ep s.hl.eps).throttledTo = some t →
        (s.clk.opSec ≤ t → exec (.throttleEnd ep) s = .next (settle s))
        ∧ (t < s.clk.opSec → ∃ u, exec (.throttleEnd ep) s = .next u ∧ u = { s with hl := { s.hl with eps := u.hl.eps }, att := u.att }
            ∧ (epFind ep u.hl.eps).throttledTo = none ∧ ∀ e, e ≠ ep → epFind e u.hl.eps = epFind e s.hl.eps)

/-- R365, R366 and R370. -/
def Obligations.ReadsAndWrites : Prop :=
  ∀ (sid : Fin 4) (ss : Session) (s : State), heard sid ss s →
    (∀ (sp : Fin 2) (a : Word) (n : Nat) (bs : List Byte), 1024 < n → 1024 < bs.length →
        exec (.read sid sp a n) s = .next (turnedAway sid ss .badLen s)
        ∧ exec (.write sid sp a bs) s = .next (turnedAway sid ss .badLen s))
    ∧ (∀ (a : Word) (bs : List Byte), bs.length ≤ 1024 → ∀ r,
      let n := bs.length
      ((a.toNat % 4 ≠ 0 ∨ n % 4 ≠ 0 ∨ n < 4 ∨ 256 < n) ∧ r = Res.badLen)
      ∨ (a.toNat % 4 = 0 ∧ n % 4 = 0 ∧ 4 ≤ n ∧ n ≤ 256
          ∧ (0x110000 ≤ a.toNat ∨ a.toNat / 0x10000 ≠ (a.toNat + n - 1) / 0x10000) ∧ r = Res.badSpace) →
      exec (.read sid 0 a n) s = .next (turnedAway sid ss r s) ∧ exec (.write sid 0 a bs) s = .next (turnedAway sid ss r s))
    ∧ (∀ (a : Word) (bs : List Byte), bs.length ≤ 1024 → ∀ r,
        (winOf a.toNat = none ∧ r = Res.badSpace)
        ∨ (∃ x o, winOf a.toNat = some (x, o) ∧ ((x = .shared ∨ x = .prog) ∧ (a.toNat % 4 ≠ 0 ∨ bs.length % 4 ≠ 0)) ∧ r = .badLen)
        ∨ (∃ x o, winOf a.toNat = some (x, o) ∧ ¬ ((x = .shared ∨ x = .prog) ∧ (a.toNat % 4 ≠ 0 ∨ bs.length % 4 ≠ 0))
            ∧ x.size < o + bs.length ∧ r = .badSpace) →
        exec (.read sid 1 a bs.length) s = .next (turnedAway sid ss r s)
        ∧ exec (.write sid 1 a bs) s = .next (turnedAway sid ss r s))
    -- registers, word by word
    ∧ (∀ (a : Word) (n : Nat) (xs : List Word), a.toNat % 4 = 0 → a.toNat < 0x110000 → 1 ≤ n → n ≤ 64 → xs.length = n →
        a.toNat / 0x10000 = (a.toNat + 4 * n - 1) / 0x10000 →
        let t := if a.toNat / 0x10000 = 15 ∧ s.upd.holder = some sid then { s with upd := { s.upd with lastReq := s.clk.cyc } } else s
        let rd := readWords sid.val n a.toNat t
        let wr := writeWords sid.val xs a.toNat 0 false s
        exec (.read sid 0 a (4 * n)) s = .next (answered sid ss .ok (4 * n) rd.1 rd.2)
        ∧ (wr.res ≠ .later → exec (.write sid 0 a (wordsBytes xs)) s = .next (answered sid ss wr.res wr.len [] wr.state))
        ∧ (wr.res = .later → exec (.write sid 0 a (wordsBytes xs)) s = .next (settle { wr.state with hl := { wr.state.hl with
              owed := some ⟨ss.ep, sid, nextSeq ss, wr.len, true⟩ } })))
    ∧ (∀ (a n : Nat) (u : State), readWords sid.val 0 a u = ([], u)
        ∧ readWords sid.val (n + 1) a u = (wordBytes (regRead sid.val a u).1 ++ (readWords sid.val n (a + 4) (regRead sid.val a u).2).1,
            (readWords sid.val n (a + 4) (regRead sid.val a u).2).2))
    ∧ (∀ (a d : Nat) (o : Bool) (x : Word) (xs : List Word) (u v : State) (r : Res),
        writeWords sid.val [] a d o u = ⟨if o then .later else .ok, d, [], u⟩
        ∧ (regWrite sid.val a x u = (r, v) → writeWords sid.val (x :: xs) a d o u =
            if r = .ok then writeWords sid.val xs (a + 4) (d + 4) o v
            else if r = .later then writeWords sid.val xs (a + 4) (d + 4) true v else ⟨r, d, [], v⟩))
    -- windows read
    ∧ (∀ (a : Word) (x : Win) (o n : Nat), winOf a.toNat = some (x, o) → n ≤ 1024 → o + n ≤ x.size →
        (x = .shared ∨ x = .prog → a.toNat % 4 = 0 ∧ n % 4 = 0) →
        ∃ payload, exec (.read sid 1 a n) s = .next (answered sid ss .ok n payload (if x = .nvs then nvDecode o n s else s))
          ∧ payload.length = n ∧ ∀ i < n, payload[i]? = some (match x with
            | .shared => sget zeroByte s.mem.shared (o + i)
            | .prog => sget zeroByte s.ln.prog (o + i)
            | .nvs => nvByte s (o + i)
            | .nor => norRead s (o + i)))
    ∧ (∀ o n, (∀ g ∈ s.nvs.ceGroups ++ s.nvs.unc, g + 8 ≤ o ∨ o + n ≤ g) → nvDecode o n s = s)
    -- windows written
    ∧ (∀ (a : Word) (x : Win) (o : Nat) (bs : List Byte), winOf a.toNat = some (x, o) → bs.length ≤ 1024 →
        o + bs.length ≤ x.size → (x = .shared ∨ x = .prog → a.toNat % 4 = 0 ∧ bs.length % 4 = 0) →
        let no := fun r => exec (.write sid 1 a bs) s = .next (turnedAway sid ss r s)
        let busy := exec (.write sid 1 a bs) s = .next (answered sid ss .busy 0 [] s)
        let takes := fun (n : Nat) (t : State) => exec (.write sid 1 a bs) s = .next (answered sid ss .ok n [] t)
        let n := min bs.length (64 - o % 64)
        let lowest := if 0x1E8000 ≤ o then 2 else if 192 * 64 ≤ o ∧ o < 0x4000 then 3 else 4
        let active := ∃ i < bs.length, decide (0x20000 ≤ (o + i) % 0x40000) = s.ln.half.getLsbD ((o + i) / 0x40000)
        (s.upd.recovery = true ∨ x = .nor → no .denied)
        ∧ (s.upd.recovery = false → x = .nvs →
          (ss.role.val < lowest → no .denied)
          ∧ (lowest ≤ ss.role.val → s.sys.flush ≠ .none → busy)
          ∧ (lowest ≤ ss.role.val → s.sys.flush = .none → o < 0x4000 → s.nvs.locked.getLsbD (o / 64) = true → no .denied)
          ∧ (lowest ≤ ss.role.val → s.sys.flush = .none → (o < 0x4000 → s.nvs.locked.getLsbD (o / 64) = false) →
              swf zeroByte s.nvs.mem = true → ∃ t, takes n t
                ∧ (∀ b, nvByte t b = if o ≤ b ∧ b < o + n then bs.getD (b - o) 0 else nvByte s b)
                ∧ t.lanes = s.lanes ∧ t.frm = s.frm ∧ t.mem = s.mem ∧ t.key = s.key))
        ∧ (s.upd.recovery = false → x = .shared ∨ x = .prog → ss.role.val < 2 → no .denied)
        ∧ (s.upd.recovery = false → x = .shared → 2 ≤ ss.role.val →
          (inTransfer s o bs.length = false → no .denied)
          ∧ (inTransfer s o bs.length = true → ∃ t, takes bs.length t
              ∧ (swf zeroByte s.mem.shared = true → ∀ b, sget zeroByte t.mem.shared b
                  = if o ≤ b ∧ b < o + bs.length then bs.getD (b - o) 0 else sget zeroByte s.mem.shared b)
              ∧ t.lanes = s.lanes ∧ t.frm = s.frm ∧ t.nvs = s.nvs ∧ t.key = s.key))
        ∧ (s.upd.recovery = false → x = .prog → 2 ≤ ss.role.val →
          (active → no .denied)
          ∧ (¬ active → s.plr.state = .placing ∨ s.plr.state = .armed → busy)
          ∧ (¬ active → s.plr.state ≠ .placing → s.plr.state ≠ .armed → ∃ t, takes bs.length t
              ∧ (swf zeroByte s.ln.prog = true → ∀ b, sget zeroByte t.ln.prog b
                  = if o ≤ b ∧ b < o + bs.length then bs.getD (b - o) 0 else sget zeroByte s.ln.prog b)
              ∧ t.lanes = s.lanes ∧ t.frm = s.frm ∧ t.nvs = s.nvs ∧ t.mem = s.mem)))

/-- R360 to R365. R361 and R365. -/
def Obligations.Requests : Prop :=
  (∀ (s : State), s.clk.power = true →
    let header := fun (seq : BitVec 16) (op space sid : Byte) (a n : Word) =>
      [0x5A#8, 0x4F] ++ leBytes 2 seq.toNat ++ [op, space, sid, 0] ++ wordBytes a ++ wordBytes n
    let hp0 := { s with hl := { s.hl with hpReply := none } }
    let from_ := fun (ep : Endpoint) (mac : BitVec 48) => { s with hl := { s.hl with
      macs := (ep, mac) :: s.hl.macs.filter fun x => x.1 != ep } }
    (∀ ep mac bs, epHeard ep s = false → exec (.request ⟨ep, mac⟩ bs) s = .next (settle s))
    ∧ (∀ (sid : Fin 4) ss skip mac, heard sid ss s → epHeard ss.ep s = true → (∀ b ∈ skip, b ≠ 0x5A#8) →
        let b8 := BitVec.ofNat 8 sid.val
        let sends := fun (bs : List Byte) (c : Instr) =>
          (ss.ep = .hp → exec (.request ⟨.hp, mac⟩ (2 :: skip ++ bs)) s = exec c hp0)
          ∧ (∀ ip port, ss.ep = .udp ip port → exec (.request ⟨ss.ep, mac⟩ bs) s = exec c (from_ ss.ep mac))
        (∀ (space : Fin 2) a n, n ≤ 1024 → sends (header (nextSeq ss) 1 (BitVec.ofNat 8 space.val) b8 a (w n)) (.read sid space a n))
        ∧ (∀ (space : Fin 2) a payload, payload.length ≤ 1024 →
            sends (header (nextSeq ss) 2 (BitVec.ofNat 8 space.val) b8 a (w payload.length) ++ payload) (.write sid space a payload))
        ∧ (∀ space a, sends (header (nextSeq ss) 0x12 space b8 a 0) (.close sid))
        ∧ (∀ space a, sends (header (nextSeq ss) 0 space b8 a 0) (.nop ss.ep (some sid)))
        ∧ (∀ q r ip port op, op ∈ [0#8, 1, 0x12] → ss.lastSeq = some q → ss.lastReply = some r → ss.ep = .udp ip port →
            (r.result = 0 → ∃ u, exec (.request ⟨ss.ep, mac⟩ (header q op 0 b8 0 0)) s = .next u
              ∧ u = { from_ ss.ep mac with hl := { (from_ ss.ep mac).hl with
                    lastOut := u.hl.lastOut, lastTo := some ⟨mac, s.hl.vlan⟩ }, att := u.att }
              ∧ u.hl.lastOut = some (ss.ep, { r with status := u.att.last, agen := u.att.agen }))
            ∧ (∀ d : BitVec 16, 32767 < d.toNat → ∃ u, exec (.request ⟨ss.ep, mac⟩ (header (q + d) op 0 b8 0 0)) s = .next u
              ∧ u.hl.lastOut = some (ss.ep, ⟨q + d, 7, b8, (settle s).att.last, (settle s).att.agen, 0, []⟩)
              ∧ u.hl.sessions = s.hl.sessions ∧ u.hl.violCnt = s.hl.violCnt + 1 ∧ u.lanes = s.lanes ∧ u.frm = s.frm))
        ∧ exec (.nop ss.ep (some sid)) s = .next (answered sid ss .ok 0 [] s))
    ∧ (linkDeaf s = false → ∀ mac bs, (∀ b ∈ bs, b ≠ 0x5A#8) → throttled .hp s = false → ∃ u sid,
        exec (.request ⟨.hp, mac⟩ (2 :: bs)) s = .next u ∧ u.hl.hpReply = some ⟨0, 1, sid, (settle s).att.last, (settle s).att.agen, 0, []⟩
        ∧ u.hl.sessions = s.hl.sessions ∧ u.hl.violCnt = s.hl.violCnt + 1)
    ∧ (linkDeaf s = false → ∀ mac t bs, t ≠ 2#8 → t ≠ 3#8 →
        exec (.request ⟨.hp, mac⟩ (t :: bs)) s = .next (settle { s with hl := { s.hl with violCnt := s.hl.violCnt + 1 } }))
    ∧ (linkDeaf s = false → ∀ mac bs,
        let layout := fun r : Reply => [0x5A#8, 0x4F] ++ leBytes 2 r.seq.toNat ++ [r.result, r.sid]
          ++ leBytes 2 r.status.toNat ++ wordBytes r.agen ++ leBytes 4 r.len ++ r.payload
        let fetched := .next (settle { s with hl := { s.hl with
          hpOut := match s.hl.hpReply with
            | none => [0]
            | some r => 1 :: layout r } })
        exec .replyFetch s = fetched ∧ exec (.request ⟨.hp, mac⟩ (3 :: bs)) s = fetched))
  ∧ (∀ (s : State), s.clk.power = true →
    let served := s.hl.udpEn = true ∧ s.hl.ip ≠ 0 ∧ s.upd.recovery = false
    (∀ ep, epHeard ep s = true → throttled ep s = false → ∃ u, exec (.nop ep none) s = .next u
      ∧ u.hl.lastOut = some (ep, ⟨0, 0, 7, u.att.last, u.att.agen, 0, []⟩)
      ∧ u = { s with hl := { s.hl with lastOut := u.hl.lastOut, lastTo := replyTo ep s, hpReply := u.hl.hpReply }, att := u.att }
      ∧ (ep = .hp → u.hl.hpReply = u.hl.lastOut.map (·.2)) ∧ (ep ≠ .hp → u.hl.hpReply = s.hl.hpReply))
    ∧ (served → exec .arpRequest s = .next (settle { s with hl := { s.hl with arpSent := s.hl.arpSent + 1 } })
        ∧ exec .icmpEcho s = .next (settle { s with hl := { s.hl with icmpSent := s.hl.icmpSent + 1 } }))
    ∧ (¬ served → exec .arpRequest s = .next (settle s) ∧ exec .icmpEcho s = .next (settle s)))

/-- R387 to R389. -/
def Obligations.UpdateDownload : Prop :=
  ∀ (sid : Fin 4) (ss : Session) (s : State),
    let mine := ∀ h, s.upd.holder = some h → h = sid
    let t := if s.upd.holder = some sid then { s with upd := { s.upd with lastReq := s.clk.cyc } } else s
    let no := fun c r u => exec c s = .next (turnedAway sid ss r u)
    let src := (sesReg sid.val 0xF0020 s).toNat
    let len := (sesReg sid.val 0xF0024 s).toNat
    let off := (sesReg sid.val 0xF0028 s).toNat
    let b := updBank s
    (heard sid ss s →
      (ss.role.val < 2 → ∀ c, updCmd c = true → (hostCmd c).map (·.1) = some sid → no c .denied s)
      ∧ (2 ≤ ss.role.val → ¬ mine → ∀ c, updCmd c = true → (hostCmd c).map (·.1) = some sid →
          exec c s = .next (answered sid ss .busy 0 [] s))
      ∧ (2 ≤ ss.role.val → mine →
        (let m := sgets zeroByte s.mem.shared src 4096
         let shut := lifecycle s = 3 ∨ s.upd.trial = true ∨ s.upd.pending = true ∨ s.upd.sess ≠ .idle
         let k := bankOf s b
         let fresh := k.state = .empty ∨ k.hash ≠ sha256 m
         let opens := ¬ shut ∧ len = 4096 ∧ inTransfer s src 4096 = true ∧ manifestCheck s m = none
         let taken := fun (u : State) (next : Nat) => u.upd.holder = some sid ∧ u.upd.nextOff = next ∧ u.upd.total = manTotal m
            ∧ u.upd.sess = (if next < manTotal m then .downloading else .downloaded) ∧ u.upd.lastReq = s.clk.cyc
            ∧ u.mem = s.mem ∧ u.lanes = s.lanes ∧ u.frm = s.frm
         (shut → no (.updOpen sid) .denied t)
         ∧ (¬ shut → len ≠ 4096 → no (.updOpen sid) .badLen t)
         ∧ (¬ shut → len = 4096 → inTransfer s src 4096 = false → no (.updOpen sid) .denied t)
         ∧ (∀ c, ¬ shut → len = 4096 → inTransfer s src 4096 = true → manifestCheck s m = some c → ∃ u,
              no (.updOpen sid) .denied u ∧ u.upd = { t.upd with result := BitVec.ofNat 8 c } ∧ u.mem = s.mem)
         ∧ (opens → fresh → swf norDefault s.upd.nor = true → ∃ u, exec (.updOpen sid) s = .next (answered sid ss .ok 4 [] u)
              ∧ taken u 4096 ∧ (∀ i < 4096, sget norDefault u.upd.nor (bankBase b + i) = m.getD i 0)
              ∧ bankOf u b = ⟨if 4096 < manTotal m then .partial_ else .complete, sha256 m, manVersion m, 4096⟩)
         ∧ (opens → ¬ fresh → k.state = .partial_ → ∃ u, exec (.updOpen sid) s = .next (answered sid ss .ok 4 [] u)
              ∧ taken u (k.reached / 65536 * 65536) ∧ u.upd.nor = s.upd.nor ∧ u.upd.banks = s.upd.banks)
         ∧ (opens → ¬ fresh → k.state ≠ .partial_ → ∃ u, exec (.updOpen sid) s = .next (answered sid ss .ok 4 [] u)
              ∧ taken u (manTotal m) ∧ u.upd.nor = s.upd.nor ∧ u.upd.banks = s.upd.banks))
        ∧ (s.upd.sess ≠ .downloading → no (.chunk sid) .denied t)
        ∧ (s.upd.sess = .downloading →
            let fits := 4 ≤ len ∧ len ≤ 0x100000 ∧ len % 4 = 0
            (¬ fits → no (.chunk sid) .badLen t)
            ∧ (fits → off ≠ s.upd.nextOff → no (.chunk sid) .denied t)
            ∧ (fits → off = s.upd.nextOff → s.upd.total < off + len → no (.chunk sid) .badLen t)
            ∧ (fits → off = s.upd.nextOff → off + len ≤ s.upd.total → inTransfer s src len = false → no (.chunk sid) .denied t)
            ∧ (fits → off = s.upd.nextOff → off + len ≤ s.upd.total → inTransfer s src len = true →
                swf norDefault s.upd.nor = true → s.upd.total ≤ 0x1800000 → ∃ u,
                exec (.chunk sid) s = .next (answered sid ss .ok 4 [] u) ∧ u.upd.nextOff = off + len
                ∧ u.upd.sess = (if off + len < s.upd.total then .downloading else .downloaded)
                ∧ (bankOf u b).reached = off + len ∧ (off + len = s.upd.total → (bankOf u b).state = .complete) ∧ u.mem = s.mem ∧ u.lanes = s.lanes
                ∧ (∀ i < len, sget norDefault u.upd.nor (bankBase b + off + i) = sget zeroByte s.mem.shared (src + i))
                ∧ ∀ a, a < bankBase b + off ∨ bankBase b + 0x1800000 ≤ a →
                    sget norDefault u.upd.nor a = sget norDefault s.upd.nor a))
        ∧ (s.upd.holder = some sid → ∃ u, exec (.updAbort sid) s = .next (answered sid ss .ok 4 [] u)
            ∧ u.upd.holder = none ∧ u.upd.sess = .idle ∧ u.upd.nor = s.upd.nor
            ∧ (s.upd.sess = .verified → (bankOf u b).state = .complete) ∧ (s.upd.sess ≠ .verified → u.upd.banks = s.upd.banks))
        ∧ (let committed := s.upd.pending = true ∨ (s.upd.recovery = true ∧ s.upd.trial = true)
           (s.upd.holder = none → committed → exec (.updAbort sid) s = .next (answered sid ss .late 0 [] s))
           ∧ (s.upd.holder = none → ¬ committed → no (.updAbort sid) .denied s))))
    ∧ (s.clk.power = true →
        (s.upd.holder = none ∨ s.clk.cyc < s.upd.lastReq + 60 * cycSec → exec .updLapse s = .next (settle s))
        ∧ (s.upd.holder ≠ none → s.upd.lastReq + 60 * cycSec ≤ s.clk.cyc → ∃ u, exec .updLapse s = .next u
            ∧ u.upd.holder = none ∧ u.upd.sess = .idle ∧ u.upd.evt = s.upd.evt ||| 4 ∧ u.upd.nor = s.upd.nor
            ∧ (s.upd.sess = .verified → (bankOf u b).state = .complete) ∧ (s.upd.sess ≠ .verified → u.upd.banks = s.upd.banks)
            ∧ u.hl = s.hl ∧ u.lanes = s.lanes))

/-- R390, R391 and R393. -/
def Obligations.UpdateTrust : Prop :=
  ∀ (sid : Fin 4) (ss : Session) (s : State),
    let t := if s.upd.holder = some sid then { s with upd := { s.upd with lastReq := s.clk.cyc } } else s
    let no := fun c => exec c s = .next (turnedAway sid ss .denied t)
    let b := updBank s
    let version := (bankOf s s.upd.activeBank.toNat).version
    (heard sid ss s → 2 ≤ ss.role.val → (∀ h, s.upd.holder = some h → h = sid) →
      (s.upd.sess = .downloaded → exec (.verify sid) s = .next (answered sid ss .ok 4 []
        { t with upd := { t.upd with sess := .verifying, verifyFrom := s.clk.cyc } }))
      ∧ (s.upd.sess ≠ .downloaded → no (.verify sid))
      ∧ (s.upd.sess ≠ .verified → no (.activate sid))
      ∧ (s.upd.sess = .verified → ∃ u, exec (.activate sid) s = .next (answered sid ss .ok 4 [] u)
          ∧ (s.upd.recovery = false → u.upd = { t.upd with pending := true, sess := .idle, holder := none }
              ∧ (status u).getLsbD 7 = true)
          ∧ (s.upd.recovery = true → u.upd = { t.upd with
              activeBank := !s.upd.activeBank, prevBank := s.upd.activeBank, trial := true, expired := false, tbase := counter s 2, sess := .idle, holder := none })
          ∧ (counter s 3 + 1 < 2 ^ 64 → counter u 3 = counter s 3 + 1) ∧ u.lanes = s.lanes ∧ u.frm = s.frm)
      ∧ (s.upd.pending = true → s.upd.holder = none → ∃ u, exec (.deactivate sid) s = .next (answered sid ss .ok 4 [] u)
          ∧ u.upd = { s.upd with pending := false } ∧ (status u).getLsbD 7 = false ∧ u.lanes = s.lanes ∧ u.nvs.rings = s.nvs.rings)
      ∧ (s.upd.pending = false ∨ s.upd.holder ≠ none → no (.deactivate sid))
      ∧ (s.upd.trial = false → no (.confirm sid))
      ∧ (s.upd.trial = true → s.upd.expired = true → exec (.confirm sid) s = .next (answered sid ss .late 0 [] t))
      ∧ (s.upd.trial = true → s.upd.expired = false → exec (.confirm sid) s = .next (answered sid ss .ok 4 []
          (note 0xD027 srcUPD version (w s.upd.trialN) (w (s.clk.opSec - s.upd.tstart))
            (recordPut recUPDATE 0 { t with upd := { t.upd with trial := false } })))))
    ∧ (s.clk.power = true →
      (s.upd.sess ≠ .verifying → exec .verified s = .next (settle s))
      ∧ (s.upd.sess = .verifying →
        let m := norBytes s (bankBase b) 4096
        let sound := (∀ p ∈ manParts m, 1 ≤ p.id → p.id ≤ 6 → sha256 (norBytes s (bankBase b + p.off) p.len) = p.hash)
          ∧ (∀ id, 1 ≤ id → id ≤ 6 → ∃ p ∈ manParts m, p.id = id) ∧ signerOk s m = true ∧ signatureOk m = true
        let one := ∀ p ∈ manParts m, ∀ q ∈ manParts m, p.id = q.id → p = q
        (one → sound → ∃ u, exec .verified s = .next u ∧ u.upd.sess = .verified ∧ (bankOf u b).state = .verified
          ∧ u.upd.evt = s.upd.evt ||| 1 ∧ u.upd.activeBank = s.upd.activeBank ∧ u.upd.nor = s.upd.nor ∧ u.lanes = s.lanes)
        ∧ (one → ¬ sound → ∃ u, exec .verified s = .next u ∧ u.upd.sess = .idle ∧ u.upd.holder = none
          ∧ (bankOf u b).state = .empty ∧ u.upd.evt = s.upd.evt ||| 2 ∧ u.upd.activeBank = s.upd.activeBank
          ∧ u.upd.nor = s.upd.nor ∧ u.lanes = s.lanes ∧ 1 ≤ u.upd.result.toNat ∧ u.upd.result.toNat ≤ 16))
      ∧ (let due := s.upd.trial = true ∧ s.upd.expired = false ∧ s.upd.recovery = false ∧ s.upd.tstart + 600 ≤ s.clk.opSec
         (due → exec .trialExpired s = .next (settle (note 0xD028 srcUPD version (w s.upd.trialN) 0
            (recordPut recUPDATE 0 { s with upd := { s.upd with expired := true, evt := s.upd.evt ||| 8 } }))))
         ∧ (¬ due → exec .trialExpired s = .next (settle s))))

/-- The queue of the block, and time (log entry 1). -/
def Obligations.FrontCommandRuns : Prop :=
  ∀ (s : State),
    (∀ c rest, s.pending = c :: rest → step s = exec c { s with pending := rest })
    ∧ (s.pending = [] → s.mem.mgmtCe = [] → ∃ t, step s = .next t ∧ t = { s with
          clk := t.clk, rtc := { s.rtc with frac := t.rtc.frac, count := t.rtc.count, xtal := t.rtc.xtal }, att := t.att }
        ∧ (s.rtc.frac + 32768 < cycSec → t.rtc = { s.rtc with frac := s.rtc.frac + 32768 })
        ∧ (cycSec ≤ s.rtc.frac + 32768 → t.rtc.frac + cycSec = s.rtc.frac + 32768
            ∧ t.rtc.count = (s.rtc.count + 1) % 2 ^ 48 ∧ t.rtc.xtal = s.rtc.xtal + 1)
        ∧ (s.clk.power = true → t.clk.cyc = s.clk.cyc + 1 ∧ t.clk.tickph = s.clk.tickph + 1 ∧ t.clk.power = true
            ∧ (0 ≤ (s.clk.nt : Int) + 25000000000 + 25 * s.tim.freq →
                (t.clk.nt : Int) = s.clk.nt + 25000000000 + 25 * s.tim.freq)
            ∧ (s.clk.opCyc + 1 = cycSec → t.clk.opSec = s.clk.opSec + 1)
            ∧ (s.clk.opCyc + 1 ≠ cycSec → t.clk.opSec = s.clk.opSec))
        ∧ (s.clk.power = false → t.clk = s.clk ∧ t.att = s.att))
    ∧ (∀ a b l, s.pending = [] → s.clk.power = true → s.mem.mgmtCe = (a, b) :: l → ∃ t, step s = .next t
        ∧ t.mem = { s.mem with mgmtCe := l } ∧ t.clk.cyc = s.clk.cyc + 1 ∧ t.lanes = s.lanes ∧ t.frm = s.frm
        ∧ (s.evr.cur = none → s.evr.queue = [] → ∃ x, t.evr.cur = some x ∧ x.entry.code = 0x0013 ∧ x.entry.p0 = a
            ∧ x.entry.p1 = bitWord b))

/-- State.reset. -/
def Obligations.ResetState : Prop :=
  let s := State.reset
  s.pending = [] ∧ s.clk.power = true ∧ s.clk.cyc = 0 ∧ s.frm.state = .starting ∧ s.sys.latched = false ∧ s.sys.plinth = false
  ∧ status s = 0x0008 ∧ statusCurrent s ∧ s.att.agen = 0 ∧ s.att.rose = Vector.replicate 4 0
  ∧ s.hl.sessions = Vector.replicate 4 none ∧ s.tim.state = .freerun ∧ s.clk.nt = 946684800 * 10 ^ 19 ∧ s.hsb.role = .alone
  ∧ (∀ i : Fin 16, (s.lanes[i.val]).mode = .idle ∧ (s.lanes[i.val]).reqs = [] ∧ swf zeroByte (s.lanes[i.val]).scratch = true)
  ∧ s.plr.state = .empty ∧ s.plr.run = none ∧ (∀ i : Fin 4, (s.can.ctl[i.val]).state = .off)
  ∧ (∀ i : Fin 256, (s.mem.te[i.val]).state = .free) ∧ (∀ a, reg a s = regReset a)
  ∧ swf zeroByte s.mem.shared = true ∧ swf zeroByte s.ln.prog = true ∧ swf zeroByte s.nvs.mem = true
  ∧ swf norDefault s.upd.nor = true

/-- R372: each bit follows its source continuously. -/
def Obligations.StatusStaysCurrent : Prop :=
  ∀ (s t : State), statusCurrent s → step s = .next t → statusCurrent t

/-- R381 and R402. -/
def Obligations.Resets : Prop :=
  ∀ (r : ResetIn) (s : State),
    let restarts := fun (o : Host.Outcome State Fault Refusal) => ∃ u, o = .next u ∧ u.clk.power = true ∧ u.clk.cyc = 0
      ∧ u.frm.ticks = 0 ∧ u.frm.state ≠ .running ∧ u.pwr.pfw = none ∧ u.sys.resetCommanded = false ∧ u.pending = s.pending
      ∧ u.hl.sessions = Vector.replicate 4 none
      ∧ u.regs = (settingsValue (readMarker (settleJournal (nvFound r s))).2).1 ∧ ∀ x ∈ u.regs, storedRow x.1 = true
    let commanded := s.sys.resetCommanded = true ∧ s.sys.flush = .none
    let returned := s.clk.power = true ∧ s.pwr.pfw ≠ none ∧ s.sys.flushed = true
      ∧ s.sys.flushedCyc + 100 * cycMs ≤ s.clk.cyc ∧ s.pwr.since + 100 * cycMs ≤ s.clk.cyc
    (s.clk.power = false ∨ commanded → restarts (exec (.moduleReset r) s))
    ∧ (s.clk.power = true → ¬ commanded → exec (.moduleReset r) s = .next s)
    ∧ (returned → restarts (exec (.supplyReturnReset r) s))
    ∧ (¬ returned → exec (.supplyReturnReset r) s = .next s)
    ∧ (let spent := s.pwr.pfw ≠ none ∧ s.pwr.since + 8 * cycMs ≤ s.clk.cyc
        let down := exec .powerDown s
        (s.clk.power = true → spent → s.sys.flush = .none → down = .next (settle { s with clk := { s.clk with power := false } }))
        ∧ (s.clk.power = true → spent → s.sys.flush ≠ .none → ∃ u, down = .next u ∧ u.clk = { s.clk with power := false }
            ∧ u.sys = s.sys ∧ u.lanes = s.lanes ∧ u.frm = s.frm ∧ u.mem = s.mem ∧ u.rtc = s.rtc
            ∧ (4 ≤ (cutOf s).parts ∨ ∀ a, 0x4400 ≤ a → a < 0x4440 → nvByte u a = nvByte s a))
        ∧ (s.clk.power = true → ¬ spent → down = .next (settle s))
        ∧ (s.clk.power = false → down = .next s))

/-- R22 to R30. -/
def Obligations.DoubtCauses : Prop :=
  ∀ (s : State), s.clk.power = true →
    let doubt := fun (u : State) (code : BitVec 16) (bit : Nat) => u.sys.latched = true ∧ u.sys.firstCause = code
      ∧ u.sys.cause = s.sys.cause ||| BitVec.twoPow 10 bit ∧ u.sys.doubtCyc = s.clk.cyc ∧ u.frm.state = stateInDoubt s
      ∧ u.sys.flush = (if bit = 4 then FlushKind.powerFail else FlushKind.doubt)
      ∧ (∀ i : Fin 16, (u.lanes[i.val]).mode = .stopped) ∧ (status u).getLsbD 1 = true ∧ u.frm.k = s.frm.k
    let later := fun (u : State) (bit : Nat) => u.sys.latched = true ∧ u.sys.firstCause = s.sys.firstCause
      ∧ u.sys.cause = s.sys.cause ||| BitVec.twoPow 10 bit ∧ u.lanes = s.lanes ∧ u.frm = s.frm
    let raises := fun (c : Instr) (code : BitVec 16) (bit : Nat) =>
      (s.sys.latched = false → s.sys.plinth = false → s.sys.retired = false → ∃ u, exec c s = .next u ∧ doubt u code bit)
      ∧ (s.sys.latched = true → s.sys.doubtCyc ≠ s.clk.cyc → ∃ u, exec c s = .next u ∧ later u bit)
      ∧ (s.sys.latched = false → s.sys.plinth = true ∨ s.sys.retired = true → ∃ u, exec c s = .next u
          ∧ u.sys = { s.sys with cause := s.sys.cause ||| BitVec.twoPow 10 bit } ∧ u.frm = s.frm)
    (∀ src, s.pwr.pfw = none → raises (.pfw src) 0x0020 4)
    ∧ (∀ src, s.pwr.pfw ≠ none → exec (.pfw src) s = .next (settle s))
    ∧ (∀ rail, raises (.supplyRail rail) 0x0021 4)
    ∧ (s.sys.plinth = false → s.sys.retired = false → raises .watchdog 0x0030 7 ∧ ∃ u, exec .watchdog s = .next u
        ∧ u.hl.sessions = Vector.replicate 4 none ∧ u.sys.mgmtRestarted = true)
    ∧ (s.sys.plinth = true ∨ s.sys.retired = true → raises .watchdog 0x0030 7)
    ∧ (∀ a b, raises (.mgmtSramUe a b) 0x0012 2)
    ∧ (∀ x, raises (.clockLoss (.tcxo x)) 0x5030 5 ∧ raises (.clockLoss (.pll x)) 0x5031 5
        ∧ raises (.clockLoss (.interval x)) 0x5032 5)
    ∧ (s.sys.badBlocks = [] → exec .blockCrcScrub s = .next (settle s))
    ∧ (s.sys.badBlocks ≠ [] → raises .blockCrcScrub 0x0011 2)
    ∧ (∀ sid ss, hostReady sid 2 ss s → ∃ u, exec (.hostReset sid) s = .next (answered sid ss .ok 4 [] u)
        ∧ u.sys.resetCommanded = true
        ∧ (s.sys.latched = false → s.sys.plinth = false → s.sys.retired = false → doubt u 0x0031 9)
        ∧ (s.sys.latched = true → s.sys.doubtCyc ≠ s.clk.cyc → later u 9))
    ∧ (s.sys.flush = .none → exec .flushComplete s = .next (settle s))
    ∧ (s.sys.flush ≠ .none → ∃ u, exec .flushComplete s = .next u ∧ u.sys.plinth = true ∧ u.sys.flushed = true
        ∧ u.sys.flush = .none ∧ (status u).getLsbD 2 = true ∧ u.lanes = s.lanes ∧ u.frm = s.frm ∧ u.mem = s.mem
        ∧ (∀ i : Fin 8, (u.ne.sp[i.val]).state ≠ .run) ∧ (∀ i : Fin 64, (u.ne.gp[i.val]).state ≠ .run))
    ∧ (s.sys.goosePending = false → exec .doubtGoose s = .next (settle s))
    ∧ (s.sys.goosePending = true → ∃ u, exec .doubtGoose s = .next u ∧ u.sys = { s.sys with goosePending := false }
        ∧ u.lanes = s.lanes ∧ u.frm = s.frm ∧ u.ne.sv = s.ne.sv ∧ u.ne.gs = s.ne.gs
        ∧ (drives s = false → u.ne = s.ne)
        ∧ (drives s = true → ∀ i : Fin 64, ((s.ne.gp[i.val]).state ≠ .run → u.ne.gp[i.val] = s.ne.gp[i.val])
            ∧ ((s.ne.gp[i.val]).state = .run → (u.ne.gp[i.val]).state = .halted ∧ (u.ne.gp[i.val]).nextN = 0
                ∧ ((s.ne.gp[i.val]).last = none → (u.ne.gp[i.val]).st = (s.ne.gp[i.val]).st)
                ∧ ((s.ne.gp[i.val]).last ≠ none → (u.ne.gp[i.val]).sq = 0
                    ∧ (u.ne.gp[i.val]).st = if (s.ne.gp[i.val]).st + 1 = 0 then 1 else (s.ne.gp[i.val]).st + 1))))

/-- R34, R35, R37, R43, R44. -/
def Obligations.FrameEvents : Prop :=
  ∀ (s : State), s.clk.power = true →
    let idle := fun c => exec c s = .next (settle s)
    let k := s.frm.k + 1
    let begins := fun (u : State) => u.frm.k = k ∧ u.frm.ticks = s.frm.ticks + 1 ∧ u.clk.tickph = 0 ∧ u.frm.tickCyc = s.clk.cyc
    let doubt := fun (u : State) (code : BitVec 16) (bit : Nat) => u.sys.latched = true ∧ u.sys.firstCause = code
      ∧ u.sys.cause = s.sys.cause ||| BitVec.twoPow 10 bit ∧ u.frm.state = stateInDoubt s
      ∧ ∀ i : Fin 16, (u.lanes[i.val]).mode = .stopped
    let wait := (reg 0x60004 s).toNat / 256 % 256
    let first := s.frm.state = .starting ∧ s.sys.latched = false ∧ s.sys.retired = false ∧ s.upd.recovery = false ∧ s.clk.cyc % 4 = 0
      ∧ (wait = 0 ∨ s.tim.state = .locked ∨ wait * cycSec ≤ s.tim.sinceTest + s.clk.cyc)
    let due := s.frm.ticks ≠ 0 ∧ s.frm.state ≠ .starting ∧ s.tim.target ≤ s.clk.nt * rate s ∧ s.clk.cyc % 4 = 0
    let quiet := s.frm.commitArmed = false ∧ s.plr.swapF = none ∧ s.ne.badDesc = none ∧ s.sys.badRegs = [] ∧ hsbEn s = false
    let off := (((s.clk.cyc - s.frm.tickCyc) * rate s : Nat) : Int) - cycSec
    let assembles := s.frm.state = .running ∧ s.frm.assembled = false ∧ (mirrored s = false ∨ s.hsb.imageJudged = true)
    let opens := s.frm.state = .running ∧ s.clk.tickph = 2400 ∧ s.frm.windowOpen = false
    let guards := s.frm.state = .running ∧ s.clk.tickph = guardCyc s ∧ s.frm.windowOpen = true ∧ s.frm.guardDone = false
    let late := fun i : Fin 16 => schedule s i.val ≠ [] ∧ (s.lanes[i.val]).frameEnd = none
    let parityFails := ∃ (i : Fin 16) (p : Placed), entryFirst s i.val = some p ∧ entryBad s i.val p ≠ none
    -- a lane in BACKGROUND work, and one whose operations in flight trap as they complete
    let bg := fun ln : Lane => ln.mode = .bg ∨ (ln.mode = .wait ∧ ln.cls = 3)
    let trapped := ∃ i : Fin 16, bg s.lanes[i.val] ∧ firstTrap (s.lanes[i.val]).trap (s.lanes[i.val]).inflight ≠ none
    (¬ first → idle .firstTick)
    ∧ (first → ∃ u, exec .firstTick s = .next u ∧ u.frm.k = s.clk.nt * rate s / 10 ^ 19 ∧ u.frm.k0 = u.frm.k
        ∧ u.frm.ticks = 1 ∧ u.clk.tickph = 0 ∧ u.frm.tickCyc = s.clk.cyc ∧ u.frm.state = .running ∧ u.sys = s.sys)
    ∧ (¬ due → idle .tick)
    ∧ (due → s.frm.state = .halted → ∃ u, exec .tick s = .next u ∧ begins u ∧ u.frm.state = .halted
        ∧ u.lanes = s.lanes ∧ u.mem = s.mem ∧ u.fio = s.fio ∧ u.can = s.can ∧ u.eq = s.eq)
    ∧ (due → s.frm.state = .running → quiet → off.natAbs * 100 ≤ cycSec → ∃ u, exec .tick s = .next u ∧ begins u
        ∧ u.frm.state = .running ∧ u.sys = s.sys ∧ u.frm.assembled = false ∧ u.frm.windowOpen = false ∧ u.frm.guardDone = false
        ∧ ∀ i : Fin 16, (u.lanes[i.val]).mode = (if schedule u i.val = [] then .idle else .wait))
    ∧ (due → s.frm.state = .running → quiet → s.sys.latched = false → inPlinth s = false → cycSec < off.natAbs * 100 → ∃ u,
        exec .tick s = .next u ∧ begins u ∧ doubt u 0x5032 5)
    ∧ (¬ assembles → idle .assemblyComplete)
    ∧ (assembles → ∃ u, exec .assemblyComplete s = .next u ∧ u.frm.assembled = true ∧ u.frm.k = s.frm.k ∧ u.lanes = s.lanes
        ∧ u.sys = s.sys)
    ∧ (¬ opens → idle .computeWindowOpen)
    ∧ (opens → s.frm.assembled = false → s.sys.latched = false → inPlinth s = false → ∃ u, exec .computeWindowOpen s = .next u ∧ doubt u 0x1013 1
        ∧ u.frm.ovrClass = 3)
    ∧ (opens → s.frm.assembled = true → parityFails → s.sys.latched = false → inPlinth s = false → ∃ u,
        exec .computeWindowOpen s = .next u ∧ doubt u 0x1014 2)
    ∧ (opens → s.frm.assembled = true → ¬ parityFails → ∃ u, exec .computeWindowOpen s = .next u
        ∧ u.frm.windowOpen = true ∧ u.sys = s.sys ∧ u.mem = s.mem
        ∧ (∀ n : Fin 256, batonClass s n.val = 0 → u.ln.batons[n.val] = 0)
        ∧ (∀ n : Fin 256, 3 ≤ batonClass s n.val → u.ln.batons[n.val] = s.ln.batons[n.val])
        ∧ ∀ i : Fin 16, let a := u.lanes[i.val]
          match schedule s i.val with
          | p :: _ => a.pc = p.first ∧ a.v = Vector.replicate 64 0 ∧ a.p = 1 ∧ a.dsp = 0 ∧ a.rstack = []
              ∧ a.inflight = [] ∧ (a.mode = if s.clk.tickph < p.start then .wait else .sched)
          | [] => background s i.val = [] → (s.lanes[i.val]).bgSaved = none → a.mode = .idle)
    ∧ (¬ guards → s.sys.latched = false → idle .guard)
    ∧ (guards → (∀ i, ¬ late i) → ¬ trapped → ∃ u, exec .guard s = .next u ∧ u.frm.guardDone = true ∧ u.sys = s.sys
        ∧ ∀ i : Fin 16, let ln := s.lanes[i.val]
          let a := u.lanes[i.val]
          (¬ bg ln → a = ln)
          ∧ (bg ln → ln.reqs = [] → (∀ q ∈ ln.slots.toList, q.outstanding = false) → elementUnderWay { ln with saving := true } = false →
              a.mode = .done ∧ a.saving = false
              ∧ ∃ b, a.bgSaved = some b ∧ b.pc = ln.pc ∧ b.v = ln.v ∧ b.rstack = ln.rstack ∧ b.wait = ln.wait)
          ∧ (bg ln → ln.reqs ≠ [] ∨ (∃ q ∈ ln.slots.toList, q.outstanding = true) ∨ elementUnderWay { ln with saving := true } = true →
              a.mode = ln.mode ∧ a.saving = true ∧ a.reqs = ln.reqs ∧ a.slots = ln.slots ∧ a.pc = ln.pc ∧ a.bgSaved = ln.bgSaved))
    ∧ (guards → s.sys.latched = false → inPlinth s = false → ¬ trapped → (∃ i, late i) → ∃ u, exec .guard s = .next u ∧ doubt u 0x1001 1
        ∧ ∀ i : Fin 16, u.frm.ovrLanes.getLsbD i.val = true ↔ late i)
    ∧ (guards → s.sys.latched = false → inPlinth s = false → trapped → ∃ u, exec .guard s = .next u ∧ u.sys.latched = true
        ∧ (u.sys.firstCause = 0x1009 ∨ u.sys.firstCause = 0x100A) ∧ u.sys.cause.getLsbD 0 = true
        ∧ ∀ i : Fin 16, (u.lanes[i.val]).mode = .stopped)

/-- R171 to R175. -/
def Obligations.BankEvents : Prop :=
  ∀ (b : Fin 32) (ne eq te mgmt : Bool) (s : State), s.clk.power = true →
    let bk := s.mem.banks[b.val]
    let cmd := exec (.bankGrant b ne eq te mgmt) s
    let ag : Agents := ⟨ne, eq, te, mgmt⟩
    let reserved := s.clk.cyc % 20 = 19 ∧ mgmt = true
    let fresh := bk.lastCyc ≠ some s.clk.cyc
    let flag := fun i : Fin 4 => [ne, eq, te, mgmt].getD i.val false
    -- from when each agent's request waits
    let since := Vector.ofFn fun i : Fin 4 => if flag i then some ((bk.since[i.val]).getD s.clk.cyc) else none
    -- the bank once it has served agent `i`
    let served := fun (i : Fin 4) => { bk with
      lastCyc := some s.clk.cyc, grantsCur := bk.grantsCur + 1, since := since.set i.val none, waitMax := max bk.waitMax (s.clk.cyc + 1 - (since[i.val]).getD s.clk.cyc) }
    let put := fun (k : Bank) => Host.Outcome.next (settle { s with mem := { s.mem with banks := s.mem.banks.set b.val k } })
    let turn := fun (c left : Nat) => ∃ (l : Fin 16) (r : SharedReq) (rest : List SharedReq) (u : State), cmd = .next u
      ∧ l.val / 4 = c ∧ (s.lanes[l.val]).reqs = r :: rest ∧ r.addr / bankSize = b.val ∧ r.since ≤ s.clk.cyc
      ∧ (∀ (m : Fin 16) q t, m.val / 4 = c → (s.lanes[m.val]).reqs = q :: t → q.addr / bankSize = b.val → r.since ≤ q.since)
      ∧ (u.lanes[l.val]).reqs.length = rest.length ∧ (∀ m : Fin 16, m ≠ l → u.lanes[m.val] = s.lanes[m.val])
      ∧ (u.mem.banks[b.val]).ptr.val = c ∧ (u.mem.banks[b.val]).left = left
      ∧ (u.mem.banks[b.val]).lastCyc = some s.clk.cyc ∧ (u.mem.banks[b.val]).since = since ∧ (u.mem.banks[b.val]).grantsCur = bk.grantsCur + 1
      ∧ (u.mem.banks[b.val]).waitMax = max bk.waitMax (s.clk.cyc + 1 - r.since)
      ∧ match r.op with
        | .load slot n q => u.mem.shared = s.mem.shared ∧ ∀ i : Fin 20, i.val = slot →
            ((u.lanes[l.val]).slots[i.val]).granted = some (s.clk.cyc + (if b.val / 8 = c then 3 else 6),
              let x : Word := BitVec.ofNat 32 (leNat (sgets zeroByte s.mem.shared r.addr n))
              if q then x &&& ~~~0x20000#32 else x)
        | .store slot n v => (n ≤ 4 → stored s.mem.shared u.mem.shared r.addr n v) ∧ ∀ i : Fin 20, i.val = slot →
            ((u.lanes[l.val]).slots[i.val]).granted = some (s.clk.cyc + 1, v)
    let others := fun r => (r = 4 ∧ ne = true) ∨ (r = 5 ∧ eq = true) ∨ (r = 6 ∧ te = true)
    (¬ fresh → cmd = .next (settle s))
    ∧ (fresh → reserved → cmd = put (served 3))
    ∧ (fresh → ¬ reserved → bk.left = 0 → (∀ c < 4, clusterWaiters s b.val c = []) → ne = false → eq = false → te = false →
        cmd = put { bk with lastCyc := some s.clk.cyc, since := since })
    ∧ (∀ r < 7, fresh → ¬ reserved → bk.left = 0 →
        let waiting := fun x => (x < 4 ∧ clusterWaiters s b.val x ≠ []) ∨ others x
        waiting r → (∀ x < 7, waiting x → (r + 7 - (bk.ptr.val + 1)) % 7 ≤ (x + 7 - (bk.ptr.val + 1)) % 7) →
        (r < 4 → turn r ((clusterWaiters s b.val r).length - 1))
        ∧ (4 ≤ r → cmd = put { served (Fin.ofNat 4 (r - 4)) with ptr := Fin.ofNat 7 r, left := 0 }))
    ∧ (fresh → ¬ reserved → 0 < bk.left → bk.ptr.val < 4 → clusterWaiters s b.val bk.ptr.val ≠ [] →
        turn bk.ptr.val (bk.left - 1))
    ∧ ∀ (l : Fin 16) (i : Fin 20),
        let q := (s.lanes[l.val]).slots[i.val]
        let ln := s.lanes[l.val]
        let slots := fun x : Word => ln.slots.set i.val { q with data := x, outstanding := false, granted := none }
        (∀ d x, ln.saving = false → q.granted = some (d, x) → d ≤ s.clk.cyc →
          exec (.loadReturn l i) s = .next (settle (modLane l (fun ln => { ln with slots := slots x }) s)))
        ∧ (ln.saving = false → (∀ d x, q.granted = some (d, x) → s.clk.cyc < d) → exec (.loadReturn l i) s = .next (settle s))
        ∧ (∀ d x, ln.saving = true → ln.mode = .bg ∨ ln.mode = .wait → ln.reqs = [] → elementUnderWay ln = false →
          q.granted = some (d, x) → d ≤ s.clk.cyc → (∀ j : Fin 20, j ≠ i → ((s.lanes[l.val]).slots[j.val]).outstanding = false) →
          ∃ a : Lane, exec (.loadReturn l i) s = .next (settle (modLane l (fun _ => a) s)) ∧ a.mode = .done ∧ a.saving = false
            ∧ ∃ b, a.bgSaved = some b ∧ b.slots = slots x ∧ b.pc = ln.pc ∧ b.v = ln.v)

/-- R184 to R189. -/
def Obligations.PortEvents : Prop :=
  ∀ (s : State), s.clk.power = true →
    let recent := fun (tab : List (Nat × Nat × Nat)) (mac seq : Nat) =>
      ∃ e ∈ tab, e.1 = mac ∧ e.2.1 = seq ∧ s.clk.cyc < e.2.2 + 400 * cycMs
    let adds := fun (tab : List (Nat × Nat × Nat)) (mac seq : Nat) =>
      (if tab.length < 1024 then tab else tab.drop 1) ++ [(mac, seq, s.clk.cyc)]
    (∀ (port : Fin 12) (f : EthFrame),
      let n := port.val / 2
      let p := nePairOf s n
      let live := portLink s port.val = true ∧ spdErr p = false
      let sound := live ∧ f.fcsOk = true ∧ 64 ≤ f.len ∧ f.len ≤ 1528
      let cmd := exec (.portFrame port f) s
      let counts := fun (place : Nat) => ∃ u, cmd = .next u ∧ u.ne.evt = s.ne.evt ||| 4
        ∧ (∀ i : Fin 8, (u.ne.portCnt[port.val])[i.val]
            = (s.ne.portCnt[port.val])[i.val] + (if i.val = 0 ∨ i.val = place then 1 else 0))
        ∧ u.ne.sv = s.ne.sv ∧ u.ne.gs = s.ne.gs ∧ u.ne.pairs = s.ne.pairs ∧ u.tim = s.tim ∧ u.mem = s.mem
      let forUs := f.dstMac / 2 ^ 40 % 2 = 1 ∨ f.dstMac = ownMac s port.val
      let passes := fun (t : State) => (∀ m, f.payload = .sv m → cmd = .next (settle (svMessage port.val { m with dmac := f.dstMac } t)))
        ∧ (∀ m, f.payload = .goose m → cmd = .next (settle (gooseMessage port.val { m with dmac := f.dstMac } t)))
        ∧ (∀ m, f.payload = .ptp m → (forUs → cmd = .next (settle (ptpMessage port.val m t)))
            ∧ (¬ forUs → cmd = .next (settle t)))
        ∧ (f.payload = .supervision ∨ f.payload = .other → cmd = .next (settle t))
      let got := portInc port.val 0 s
      let wrong := portViol port.val 6 0x4030 got
      let once := fun (seq : Nat) (t : State) => (recent p.dups f.srcMac seq → cmd = .next (settle (portInc port.val 5 t)))
        ∧ (¬ recent p.dups f.srcMac seq → passes (modPair n (fun q => { q with dups := adds p.dups f.srcMac seq }) t))
      let own := f.srcMac = ownMac s port.val
      (¬ live → cmd = .next (settle s))
      ∧ (live → f.fcsOk = false → counts 2)
      ∧ (live → f.fcsOk = true → f.len < 64 ∨ 1528 < f.len → counts 3)
      ∧ (sound → p.mode = 0 ∨ f.tag = .none → passes got)
      ∧ (sound → p.mode = 1 → ∀ seq lanOk, f.tag = .prp seq lanOk false → passes wrong)
      ∧ (sound → p.mode = 1 → ∀ seq lanOk, f.tag = .prp seq lanOk true → once seq (if lanOk = true then got else wrong))
      ∧ (sound → p.mode = 2 → ∀ seq, f.tag = .hsr seq true → ¬ own → once seq got)
      ∧ (sound → p.mode = 2 → ∀ seq, f.tag = .hsr seq true → own → f.payload ≠ .supervision → cmd = .next (settle got))
      ∧ (sound → p.mode = 2 → ∀ seq, f.tag = .hsr seq true → own → f.payload = .supervision →
          cmd = .next (settle (modPair n (fun q => if port.val % 2 = 0 then { q with supA := some s.clk.cyc }
            else { q with supB := some s.clk.cyc }) got)))
      ∧ (sound → p.mode = 2 → ∀ seq, f.tag = .hsr seq false → counts 6))
    ∧ (∀ (pair : Fin 6) (fromB : Bool) (f : EthFrame),
        let p := s.ne.pairs[pair.val]
        let inp := 2 * pair.val + (if fromB then 1 else 0)
        let out := 2 * pair.val + (if fromB then 0 else 1)
        let tab := if fromB then p.fwdBA else p.fwdAB
        let goes := fun (seq : Nat) => f.tag = .hsr seq true ∧ p.mode = 2 ∧ spdErr p = false ∧ p.linkA = true ∧ p.linkB = true
          ∧ f.fcsOk = true ∧ 64 ≤ f.len ∧ f.len ≤ 1528 ∧ f.dstMac ≠ ownMac s inp ∧ f.srcMac ≠ ownMac s inp
          ∧ ¬ recent tab f.srcMac seq
        ((∀ seq, ¬ goes seq) → exec (.hsrForward pair fromB f) s = .next (settle s))
        ∧ ∀ seq, goes seq → ∃ (u : State) (c : Option Int), exec (.hsrForward pair fromB f) s = .next u
            ∧ ((∀ m, f.payload ≠ .ptp m) → c = none ∧ u.tim = s.tim)
            ∧ u.ne.sent = s.ne.sent ++ [⟨f.srcMac, some f.dstMac, none, none,
                [(out, .hsr seq (Config.lsduSize (.forward c)))], none, .forward c⟩]
            ∧ (let q := u.ne.pairs[pair.val]; (if fromB then q.fwdBA else q.fwdAB) = adds tab f.srcMac seq)
            ∧ (∀ o : Fin 12, o.val = out → ∀ i : Fin 8, (u.ne.portCnt[o.val])[i.val]
                = (s.ne.portCnt[o.val])[i.val] + (if i.val = 1 ∨ i.val = 7 then 1 else 0))
            ∧ u.ne.sv = s.ne.sv ∧ u.ne.gs = s.ne.gs ∧ u.mem = s.mem ∧ u.frm = s.frm)
    ∧ (∀ (pair : Fin 6),
        let p := s.ne.pairs[pair.val]
        let due := p.mode ≠ 0 ∧ spdErr p = false ∧ (p.supCount = 0 ∨ p.supSent + 2000 * cycMs ≤ s.clk.cyc)
        let size := Config.lsduSize .supervision
        let tag := fun (x : Nat) => if p.mode = 1 then SentTag.prp p.seq (x % 2 == 1) size
          else if p.mode = 2 then .hsr p.seq size else .none
        (¬ due → exec (.supervisionFrame pair) s = .next (settle s))
        ∧ (due → ∃ u, exec (.supervisionFrame pair) s = .next u
            ∧ u.ne.sent = s.ne.sent ++ [⟨Config.baseMac.toNat + 2 * pair.val, none, none, none,
                ([2 * pair.val, 2 * pair.val + 1].filter (portLink s)).map (fun x => (x, tag x)), none, .supervision⟩]
            ∧ u.ne.pairs[pair.val] = { p with supSent := s.clk.cyc, supCount := p.supCount + 1, seq := (p.seq + 1) % 65536 }
            ∧ u.ne.sv = s.ne.sv ∧ u.ne.gs = s.ne.gs ∧ u.mem = s.mem)
        ∧ (let young := List.filter fun e : Nat × Nat × Nat => decide (s.clk.cyc < e.2.2 + 400 * cycMs)
           let q := { p with dups := young p.dups, fwdAB := young p.fwdAB, fwdBA := young p.fwdBA }
           exec (.duplicateEntryExpiry pair) s = .next (settle { s with ne := { s.ne with pairs := s.ne.pairs.set pair.val q } })))
    ∧ ∀ (port : Fin 12) (up : Bool) (speed : Nat),
        let p := nePairOf s (port.val / 2)
        let code := if port.val % 2 = 0 then p.ifA else p.ifB
        let runs := (code = 0 ∧ speed = 3) ∨ (code = 1 ∧ speed = 2) ∨ (code = 2 ∧ 1 ≤ speed ∧ speed ≤ 3)
        let differs := up ≠ portLink s port.val ∨ (up = true ∧ speed ≠ portSpeed s port.val)
        (¬ differs ∨ (up = true ∧ ¬ runs) → exec (.linkChange port up speed) s = .next (settle s))
        ∧ (differs → (up = true → runs) → ∃ u, exec (.linkChange port up speed) s = .next u
            ∧ portLink u port.val = up ∧ portSpeed u port.val = (if up then speed else 0) ∧ u.ne.evt = s.ne.evt ||| 8
            ∧ (∀ o : Fin 12, o ≠ port → portLink u o.val = portLink s o.val ∧ portSpeed u o.val = portSpeed s o.val)
            ∧ u.ne.sv = s.ne.sv ∧ u.ne.gs = s.ne.gs ∧ u.mem = s.mem ∧ u.frm = s.frm)

/-- R193 to R196. -/
def Obligations.SampledValues : Prop :=
  ∀ (s : State), s.clk.power = true →
    (∀ (port : Fin 12) (m : SvMsg),
      let cmd := exec (.svMessage port m) s
      let heard := s.sys.latched = false ∧ spdErr (nePairOf s (port.val / 2)) = false
      let got := arrived port.val s
      (¬ heard → cmd = .next (settle got))
      ∧ (heard → svSelected port.val m s = [] → cmd = .next (settle (portInc port.val 4 got)))
      ∧ ∀ i : Fin 24, heard → svSelected port.val m s = [i.val] →
        let v := s.ne.sv[i.val]
        let formed := m.wellFormed = true ∧ 1 ≤ m.asdus.length ∧ m.asdus.length ≤ 8
        let fits := neAccepts s kSVSUB i.val m.vlan m.sim (fun x => m.asdus.all fun a => a.confRev == x) = true
        let drops := fun (place : Nat) (code : BitVec 16) => ∃ u, cmd = .next u ∧ u.mem = s.mem ∧ u.frm = s.frm ∧ u.ne.portCnt = got.ne.portCnt
          ∧ u.ne.evt = s.ne.evt ||| 4 ∧ (∀ n : Fin 24, n ≠ i → u.ne.sv[n.val] = s.ne.sv[n.val])
          ∧ ∃ cs : Vector Word 9, u.ne.sv[i.val] = { v with cnt := cs, lastDrop := code, lostDrop := code }
            ∧ ∀ n : Fin 9, cs[n.val] = v.cnt[n.val] + (if n.val = place then 1 else 0)
        (¬ formed → drops 5 0x4001)
        ∧ (formed → ¬ fits → drops 8 0x4007)
        ∧ (formed → fits → authOk s kSVSUB i.val m.auth = false → drops 7 0x4006)
        ∧ ∀ a, m.wellFormed = true → m.asdus = [a] → fits → authOk s kSVSUB i.val m.auth = true → (∀ x, a.smpRate = some x → x = rate s) →
            (cutOpen s = true → s.clk.cyc + cutCycles ≤ nextTickCyc s) →
          let now := ntCap s * rate s / 10 ^ 19
          ∀ j, j % rate s = a.smpCnt → j ≤ now + 1 → now + 1 < j + rate s →
          let cut := ∃ c, s.ne.lastCut = some c ∧ j ≤ c
          (j + 64 < now → drops 6 0x4002)
          ∧ (now ≤ j + 64 → svHolds s i.val j = true → ∃ u, cmd = .next u ∧ u.ne.portCnt = got.ne.portCnt ∧ u.mem = s.mem ∧ (u.ne.sv[i.val]).state = v.state
              ∧ (u.ne.sv[i.val]).held = v.held ∧ (u.ne.sv[i.val]).cnt[3] = v.cnt[3] + 1)
          ∧ (now ≤ j + 64 → svHolds s i.val j = false → cut → ∃ u, cmd = .next u ∧ u.ne.portCnt = got.ne.portCnt ∧ (u.ne.sv[i.val]).held = v.held
              ∧ (u.ne.sv[i.val]).cnt[2] = v.cnt[2] + 1 ∧ u.mem = (shPutW (qualAddr s i.val j)
                  (shWord s (qualAddr s i.val j) ||| 0x20000) s).mem)
          ∧ (now ≤ j + 64 → svHolds s i.val j = false → ¬ cut → ∃ u, cmd = .next u ∧ u.ne.portCnt = got.ne.portCnt
              ∧ (u.ne.sv[i.val]).held = v.held ++ [(j, s.clk.cyc)]
              ∧ (u.ne.sv[i.val]).state = v.state ∧ (u.ne.sv[i.val]).cnt[0] = v.cnt[0] + 1
              ∧ u.mem = (svStore i.val j a.vals.toList (svQuality m.sim a) s).mem ∧ u.frm = s.frm ∧ u.lanes = s.lanes))
    ∧ (let j := s.frm.k + 1 - horizon s
       let due := s.frm.state = .running ∧ s.sys.latched = false ∧ (∀ c, s.ne.lastCut = some c → c < j)
         ∧ nextTickCyc s ≤ s.clk.cyc + cutCycles
       (¬ due → exec .cutoff s = .next (settle s))
       ∧ (due → ∃ u, exec .cutoff s = .next u ∧ u.ne.lastCut = some j ∧ u.lanes = s.lanes ∧ u.ne.gs = s.ne.gs
          ∧ ∀ i : Fin 24, let v := s.ne.sv[i.val]
            let x := u.ne.sv[i.val]
            let lim := max 1 ((neCfg s kSVSUB i.val 1).toNat % 256)
            let again := max 1 ((neCfg s kSVSUB i.val 1).toNat / 256 % 4096)
            let run := min 255 (v.mrun + 1)
            (v.state = .off → x = v)
            ∧ ((∀ y ∈ v.held, y.1 = j → y.2 ≤ s.clk.cyc) →
            let has := v.held.any (·.1 == j)
            (v.state ≠ .off → x.held = v.held.filter (·.1 ≠ j)
                ∧ (has = true → x.mrun = 0 ∧ x.cnt[1] = v.cnt[1]) ∧ (has = false → x.mrun = run ∧ x.cnt[1] = v.cnt[1] + 1))
            ∧ (v.state = .run → x.state = if has = false ∧ lim ≤ run then .lost else .run)
            ∧ (v.state = .lost → x.state = if has = true ∧ again ≤ v.good + 1 then .run else .lost))))

/-- R200 to R204. -/
def Obligations.GooseMessages : Prop :=
  ∀ (s : State), s.clk.power = true →
    let shownAs := fun (x : GsSub) => if gsBlock x = x.shown then x else { x with gen := (x.gen + 1) % 256, shown := gsBlock x }
    (∀ (port : Fin 12) (m : GooseMsg),
      let cmd := exec (.gooseMessage port m) s
      let heard := s.sys.latched = false ∧ spdErr (nePairOf s (port.val / 2)) = false
      let got := arrived port.val s
      (¬ heard → cmd = .next (settle got))
      ∧ (heard → gsSelected port.val m s = [] → cmd = .next (settle (portInc port.val 4 got)))
      ∧ ∀ i : Fin 256, heard → gsSelected port.val m s = [i.val] →
        let g := s.ne.gs[i.val]
        let fits := neAccepts s kGSSUB i.val m.vlan m.sim (fun x => m.confRev == x) = true
        let sound := authOk s kGSSUB i.val m.auth = true
        let ends := fun (x : GsSub) (places : List Nat) => ∃ (u : State) (cs : Vector Word 7), cmd = .next u
          ∧ u.ne.gs[i.val] = { shownAs x with cnt := cs } ∧ u.ne.portCnt = got.ne.portCnt
          ∧ (∀ n : Fin 7, cs[n.val] = g.cnt[n.val] + (if n.val ∈ places then 1 else 0))
          ∧ (∀ n : Fin 256, n ≠ i → u.ne.gs[n.val] = s.ne.gs[n.val]) ∧ u.mem = s.mem ∧ u.lanes = s.lanes ∧ u.ne.sv = s.ne.sv
        let taken := fun ms => { g with state := .valid, sq := m.sq, tal := max 1 m.tal, tAcc := ntCap s, ndscom := m.ndsCom
                                        reject := false, mismatch := false, auth := false, members := ms }
        let fresh := fun ms gap restart => ends { taken ms with
          st := m.st, t0 := m.t0, t1 := m.t1, newFlag := true, gap := gap, restart := restart, test := m.test, sim := m.sim
          newAt := tickStep s } [0, 1]
        let held := ends { g with state := .held, ndscom := m.ndsCom } [2]
        (¬ fits → ends { g with reject := true } [6])
        ∧ (fits → ¬ sound → ends { g with auth := true } [5])
        ∧ (fits → sound → gsDecode s i.val m.data = none → ends { g with mismatch := true } [4])
        ∧ ∀ ms, fits → sound → gsDecode s i.val m.data = some ms →
          let known := g.state ≠ .wait ∧ g.state ≠ .expired
          (¬ known → fresh ms false false)
          ∧ (known → m.ndsCom = true → held)
          ∧ (known → m.ndsCom = false → m.st = g.st → m.sq = g.sq ∨ (m.sq - g.sq).msb = true → ends { g with ndscom := false } [6])
          ∧ (known → m.ndsCom = false → m.st = g.st → m.sq ≠ g.sq → (m.sq - g.sq).msb = false →
              (ms = g.members → ends (taken g.members) [0]) ∧ (ms ≠ g.members → held))
          ∧ (known → m.ndsCom = false → m.st ≠ g.st → (m.st - g.st).msb = false → fresh ms (decide (m.st ≠ g.st + 1)) false)
          ∧ (known → m.ndsCom = false → m.st ≠ g.st → (m.st - g.st).msb = true →
              (m.st = 1 → fresh ms false true) ∧ (m.st ≠ 1 → held)))
    ∧ (∀ i : Fin 256,
        let g := s.ne.gs[i.val]
        let was := gsAtTick s i.val
        let old := sget zeroWord s.ne.frozen (0x1000 + 0x40 * i.val)
        let due := s.frm.state = .running ∧ s.sys.latched = false ∧ s.clk.tickph = 0 ∧ (was.state = .valid ∨ was.state = .held)
          ∧ was.tAcc + was.tal * 10 ^ 16 ≤ s.frm.ttick
        (¬ due → exec (.gooseExpiry i) s = .next (settle s))
        ∧ (due → ∃ (u : State) (cs : Vector Word 7), exec (.gooseExpiry i) s = .next u
            ∧ u.ne.gs[i.val] = { shownAs (if gsFresh s i.val = true then g else { g with state := .expired }) with cnt := cs }
            ∧ (∀ n : Fin 7, cs[n.val] = g.cnt[n.val] + (if n.val = 3 then 1 else 0))
            ∧ u.ne.frozen = sput zeroWord (0x1000 + 0x40 * i.val) ((old &&& ~~~3#32) ||| 4#32) s.ne.frozen
            ∧ (∀ n : Fin 256, n ≠ i → u.ne.gs[n.val] = s.ne.gs[n.val]) ∧ u.mem = s.mem ∧ u.lanes = s.lanes))
    ∧ ∀ i : Fin 64,
        let p := s.ne.gp[i.val]
        let due := s.frm.state = .running ∧ tracks s = true ∧ s.clk.tickph = 0 ∧ p.state = .run
          ∧ p.last ≠ none ∧ 0 < p.nextN ∧ p.tRel + p.dueMs * 10 ^ 16 ≤ s.frm.ttick
        let next := min (2 ^ min p.nextN 16 * gpT1 s i.val) (gpT0 s i.val)
        let sq := if p.sq + 1 = 0 then 1 else p.sq + 1
        let pair := nePair s kGOPUB i.val
        let port := nePort s kGOPUB i.val
        let addr := neCfg s kGOPUB i.val 2
        let msg := TxMsg.goose i.val (neAppid s kGOPUB i.val) (neStr s kGOPUB i.val 16) (neStr s kGOPUB i.val 32)
          (neStr s kGOPUB i.val 48) (neCfg s kGOPUB i.val 5) p.st sq (2 * next) (p.tRel / 10 ^ 10) p.test
          (goEncode (neTypes s kGOPUB i.val) (p.last.getD []))
        let frame : TxFrame := ⟨ownMac s (2 * pair + port % 2), some (neDmac s kGOPUB i.val),
          if (neCfg s kGOPUB i.val 0).getLsbD 10 = true then some (addr.toNat / 65536 % 4096, addr.toNat / 2 ^ 28 % 8) else none,
          none, frameCopies s pair port msg, pubAuth s kGOPUB i.val msg, msg⟩
        (¬ due → exec (.gooseRetransmit i) s = .next (settle s))
        ∧ (due → ∃ u, exec (.gooseRetransmit i) s = .next u
            ∧ u.ne.gp[i.val] = { p with sq := sq, nextN := p.nextN + 1, dueMs := p.dueMs + next, interval := next
                                        sent := p.sent + sentOne s pair }
            ∧ (drives s = true → pair < 6 → spdErr (nePairOf s pair) = false → u.ne.sent = s.ne.sent ++ [frame])
            ∧ (drives s = false ∨ spdErr (nePairOf s pair) = true → u.ne.sent = s.ne.sent)
            ∧ (∀ n : Fin 64, n ≠ i → u.ne.gp[n.val] = s.ne.gp[n.val]) ∧ u.ne.gs = s.ne.gs ∧ u.ne.sv = s.ne.sv ∧ u.mem = s.mem)

/-- R211 to R214 and R221 to R223. -/
def Obligations.TimeSources : Prop :=
  ∀ (s : State), s.clk.power = true →
    let src := fun (t : State) (i : Fin 3) => t.tim.sources[i.val]
    let measured := fun (o : Host.Outcome State Fault Refusal) (i : Fin 3) (off : Int) => ∃ u, o = .next u ∧ u.tim.offset = off
      ∧ u.lanes = s.lanes ∧ u.sys = s.sys ∧ u.clk = s.clk ∧ (∀ n, n ≠ i → src u n = src s n)
      ∧ let x := src s i
        let y := src u i
        let far := s.tim.state = .locked ∧ 10000 < off.natAbs
        let limit := if i.val = 1 then 1000 else 200
        let steps := (reg 0x60004 s).getLsbD 6 = true ∧ s.tim.stepped = false
          ∧ max 10 ((reg 0x60008 s).toNat % 2 ^ 20) * 1000 ≤ off.natAbs
        let used := x.valid = true ∧ s.tim.src = i.val + 1 ∧ timSelect s = i.val + 1
        (far → y.good = 0 ∧ y.valid = (x.valid && decide (x.outliers < 2)))
        ∧ (¬ far → y.good = min 3 (x.good + 1) ∧ y.valid = (x.valid || decide (2 ≤ x.good)) ∧ y.outliers = 0
            ∧ y.lastGood = s.clk.cyc)
        ∧ (used → s.tim.state = .acquiring →
            (steps → u.tim.stepPend = some (-off) ∧ u.tim.stepped = true ∧ u.tim.state = .acquiring)
            ∧ (¬ steps → u.tim.freq.natAbs ≤ 500000
              ∧ (off.natAbs ≤ limit → 15 ≤ s.tim.lockRun → u.tim.state = .locked ∧ u.tim.everLocked = true
                  ∧ u.tim.holdLim = false ∧ u.tim.stepPend = none ∧ u.tim.evt.getLsbD 0 = true)
              ∧ (¬ (off.natAbs ≤ limit ∧ 15 ≤ s.tim.lockRun) → u.tim.state = .acquiring ∧ u.tim.stepPend = s.tim.stepPend)))
        ∧ (used → s.tim.state = .locked → off.natAbs ≤ 10000 → u.tim.state = .locked ∧ u.tim.freq.natAbs ≤ 500000)
    let broken := fun (o : Host.Outcome State Fault Refusal) (i : Fin 3) => ∃ u, o = .next u ∧ u.tim.state = s.tim.state
      ∧ src u i = { src s i with good := 0 } ∧ (∀ n, n ≠ i → src u n = src s n) ∧ u.lanes = s.lanes ∧ u.clk = s.clk
    let ns : Nat := ntCap s % 10 ^ 19 / 10 ^ 10
    let off : Int := if ns ≤ 500000000 then (ns : Int) else (ns : Int) - 1000000000
    (∀ f : IrigMsg,
      let cmd := exec (.irigFrame f) s
      (irigYear f s = none → broken cmd 1)
      ∧ ∀ y, irigYear f s = some y →
        let now := irigTime f y s
        let good := f.parityOk = true ∧ f.tq % 16 ≠ 15 ∧ ∃ l : Nat, s.tim.irigLast = some l ∧ now = l + 1
        (good → measured cmd 1 (((ntCap s / 10 ^ 10 : Nat) : Int) - f.ageNs - now * 1000000000)) ∧ (¬ good → broken cmd 1))
    ∧ (∀ wd, (wd < 1000 → exec (.ppsIn wd) s = .next (settle s))
        ∧ (1000 ≤ wd → 400000000 < off.natAbs → broken (exec (.ppsIn wd) s) 2)
        ∧ (1000 ≤ wd → off.natAbs ≤ 400000000 → measured (exec (.ppsIn wd) s) 2 off))
    ∧ (∀ i : Fin 3,
        let due := (src s i).valid = true ∧ (src s i).lastGood + 3 * cycSec ≤ s.clk.cyc
        (¬ due → exec (.sourceTimeout i) s = .next (settle s))
        ∧ (due → ∃ u, exec (.sourceTimeout i) s = .next u ∧ src u i = { src s i with valid := false, good := 0, outliers := 0 }
            ∧ (∀ n, n ≠ i → src u n = src s n) ∧ u.tim.src = timSelect u ∧ u.lanes = s.lanes
            ∧ (timSelect u = 0 → s.tim.state = .locked → u.tim.state = .holdover ∧ u.tim.holdStart = some s.clk.cyc
                ∧ u.tim.evt.getLsbD 1 = true)
            ∧ (timSelect u = 0 → s.tim.state = .acquiring → u.tim.state = if s.tim.fromHold then .holdover else .freerun)
            ∧ (timSelect u ≠ 0 → s.tim.state = .locked ∨ s.tim.state = .acquiring → u.tim.state = s.tim.state)))
    ∧ (let limit := (reg 0x6000C s).toNat % 2 ^ 16
       let act := (reg 0x6000C s).toNat / 2 ^ 16 % 4
       let due := s.tim.holdLim = false ∧ limit ≠ 0 ∧ ∃ from_, s.tim.holdStart = some from_ ∧ limit ≤ (s.clk.cyc - from_) / cycSec
       (¬ due → exec .holdLimit s = .next (settle s))
       ∧ (due → ∃ u, exec .holdLimit s = .next u ∧ u.tim.holdLim = true
          ∧ u.tim.state = s.tim.state ∧ u.tim.evt = s.tim.evt ||| 8
          ∧ (act < 2 → u.sys = s.sys ∧ u.lanes = s.lanes)
          ∧ (2 ≤ act → s.sys.latched = false → inPlinth s = false → u.sys.latched = true ∧ u.sys.firstCause = 0x5004 ∧ u.sys.cause = s.sys.cause ||| BitVec.twoPow 10 6)))
    ∧ (let mode := (reg 0x60074 s).toNat % 4
       let ms := min 500 (max 1 ((reg 0x60074 s).toNat / 4 % 1024))
       let may := mode = 1 ∨ (mode = 2 ∧ (s.tim.state = .locked ∨ (s.tim.state = .holdover ∧ s.tim.holdLim = false)))
       let sec := s.clk.nt / 10 ^ 19
       let rises := may ∧ s.tim.ppsHigh = false ∧ s.clk.nt % 10 ^ 19 / 10 ^ 10 < 10 ∧ s.tim.ppsSec ≠ some sec
       let falls := s.tim.ppsHigh = true ∧ s.tim.ppsEnd ≤ s.clk.cyc
       (¬ rises → exec .ppsOut s = .next (settle s))
       ∧ (rises → exec .ppsOut s = .next (settle { s with tim := { s.tim with
            ppsHigh := true, ppsEnd := s.clk.cyc + ms * cycMs, ppsSec := some sec } }))
       ∧ (¬ falls → exec .ppsPulseEnd s = .next (settle s))
       ∧ (falls → exec .ppsPulseEnd s = .next (settle { s with tim := { s.tim with ppsHigh := false } })))

/-- R216 to R220. -/
def Obligations.PtpMessages : Prop :=
  ∀ (s : State), s.clk.power = true →
    let cfg : Nat := (reg 0x60030 s).toNat
    let two := (reg 0x60030 s).getLsbD 25 = true
    let ns : Int := (ntCap s / 10 ^ 10 : Nat)
    let lat := fun (port : Fin 12) => (reg (0x60080 + 4 * port.val) s).toNat
    let frame := fun (port : Fin 12) (t : State) (m : TxMsg) => (⟨ownMac s port.val, none, none, none,
      (frameCopies t (port.val / 2) port.val m).filter (fun x => x.1 == port.val), none, m⟩ : TxFrame)
    let after := fun (port : Fin 12) =>
      modPair (port.val / 2) (fun x => if x.mode = 0 then x else { x with seq := (x.seq + 1) % 65536 }) s
    (∀ (port : Fin 12) (m : PtpMsg),
      let cmd := exec (.ptpMessage port m) s
      let x := s.tim.ports[port.val]
      let runs := ptpOn s port.val = true ∧ m.kind ≠ .management
      let counted := fun (u : State) (code : Nat) => (∀ i : Fin 8, (u.tim.cnt[port.val])[i.val]
          = (s.tim.cnt[port.val])[i.val] + (if i.val = code then 1 else 0)) ∧ u.lanes = s.lanes ∧ u.mem = s.mem ∧ u.sys = s.sys
      let drops := fun (code : Nat) => ∃ u, cmd = .next u ∧ counted u code ∧ u.tim.evt = s.tim.evt ||| 32
        ∧ u.tim.ports = s.tim.ports ∧ u.tim.sources = s.tim.sources ∧ u.tim.slave = s.tim.slave
      let fresh := fun (c : Nat) => s.clk.cyc ≤ c + cycSec
      let e2e := m.kind = .delayReq ∨ m.kind = .delayResp
      let plain := runs ∧ m.lengthOk = true ∧ m.version = 2 ∧ m.domain = cfg % 256 ∧ ¬ e2e ∧ m.sdo = 0
      let follows := (m.kind = .followUp → ∃ y, x.sync = some y ∧ y.1 = m.seq ∧ y.2.1 = m.source ∧ fresh y.2.2.2)
        ∧ (m.kind = .pdelayRespFollowUp → ∃ y, x.pd = some y ∧ y.1 = m.seq ∧ y.2.1 = m.source ∧ fresh y.2.2.2)
      let known := m.kind = .sync → ∃ p : Fin 12, s.tim.slave = some p ∧ ((s.tim.ports[p.val]).sender = m.source
        ∨ (p.val / 2 = port.val / 2 ∧ p ≠ port ∧ (nePairOf s (port.val / 2)).mode = 1 ∧ x.best ≠ none ∧ x.sender = m.source))
      let ranged := 0 ≤ m.correction ∧ m.correction ≤ 1000000000 ∧ (m.kind = .announce → m.clock.steps < 255)
      let good := plain ∧ follows ∧ known ∧ ranged
      let rx : Int := ns - (lat port % 2 ^ 16 : Nat)
      let takes := fun (P : State → PtpPort → Prop) => ∃ u, cmd = .next u ∧ counted u 0 ∧ P u (u.tim.ports[port.val])
      let measures := fun (off : Int) (u : State) (y : PtpPort) => y.offset = off ∧ (s.tim.slave = some port → u.tim.offset = off)
        ∧ (s.tim.slave ≠ some port → u.tim.offset = s.tim.offset ∧ u.tim.sources = s.tim.sources)
      (¬ runs → cmd = .next (settle (arrived port.val s)))
      ∧ (runs → m.lengthOk = false → drops 1)
      ∧ (runs → m.lengthOk = true → m.version ≠ 2 → drops 2)
      ∧ (runs → m.lengthOk = true → m.version = 2 → m.domain ≠ cfg % 256 → drops 3)
      ∧ (runs → m.lengthOk = true → m.version = 2 → m.domain = cfg % 256 → e2e ∨ m.sdo ≠ 0 → drops 4)
      ∧ (plain → ¬ follows → drops 5)
      ∧ (plain → follows → ¬ known → drops 6)
      ∧ (plain → follows → known → ¬ ranged → drops 7)
      ∧ (good → m.kind = .announce →
          let keeps := x.best = none ∨ x.sender = m.source ∨ ∃ b, x.best = some b ∧ betterClock m.clock b = true
          (keeps → takes fun _ y => y.best = some { m.clock with heard := s.clk.cyc } ∧ y.sender = m.source
            ∧ y.annAt = s.clk.cyc ∧ y.annInt = msgInterval m)
          ∧ (¬ keeps → takes fun _ y => y.best = x.best ∧ y.sender = x.sender))
      ∧ (good → m.kind = .sync → m.twoStep = true → takes fun u y => y.sync = some (m.seq, m.source, rx - m.correction, s.clk.cyc)
            ∧ y.lastSync = s.clk.cyc ∧ y.syncInt = msgInterval m ∧ u.tim.offset = s.tim.offset)
      ∧ (good → m.kind = .sync → m.twoStep = false → takes (measures (rx - m.time - m.correction - x.pdelay)))
      ∧ (good → m.kind = .followUp → ∀ z, x.sync = some z → takes fun u y => y.sync = none
            ∧ measures (z.2.2.1 - m.time - m.correction - x.pdelay) u y)
      ∧ (good → m.kind = .pdelayReq →
          let resp := TxMsg.ptp 4 m.seq (cfg % 256) none none
          let more := TxMsg.ptp 5 m.seq (cfg % 256) none none
          (¬ two → takes fun u _ => u.ne.sent = s.ne.sent ++ [frame port s resp])
          ∧ (two → takes fun u _ => u.ne.sent = s.ne.sent ++ [frame port s resp, frame port (after port) more]))
      ∧ (good → m.kind = .pdelayResp →
          let round : Int := (((s.clk.cyc - x.lastTx[2]) * 5 / 2 : Nat) : Int) - (lat port % 2 ^ 16 : Nat)
            - (lat port / 2 ^ 16 % 2 ^ 16 : Nat) - m.correction
          let ours := x.seqTx[2] = (m.seq + 1) % 65536
          (¬ ours → takes fun u _ => u.tim.ports = s.tim.ports)
          ∧ (ours → m.twoStep = true → takes fun _ y => y.pd = some (m.seq, m.source, round, s.clk.cyc) ∧ y.pdelay = x.pdelay)
          ∧ (ours → m.twoStep = false → takes fun _ y => y.pdelay = max 0 ((round - m.time) / 2)))
      ∧ (good → m.kind = .pdelayRespFollowUp → ∀ z, x.pd = some z → takes fun _ y => y.pd = none
            ∧ y.pdelay = max 0 ((z.2.2.1 - (m.time + m.correction)) / 2)))
    ∧ (∀ (port : Fin 12) (kind : Fin 3),
        let t := if kind.val = 1 then bmca s else s
        let x := t.tim.ports[port.val]
        let due := ptpOn s port.val = true ∧ portLink s port.val = true ∧ (kind.val = 2 ∨ x.master = true)
          ∧ x.lastTx[kind.val] + cycSec ≤ s.clk.cyc
        let seq := x.seqTx[kind.val]
        let sentAt : Int := ns + (lat port / 2 ^ 16 % 2 ^ 16 : Nat)
        let first := TxMsg.ptp kind.val seq (cfg % 256) (if kind.val = 1 then some (ownClock s) else none)
        (¬ due → exec (.ptpTransmit port kind) s = .next (settle t))
        ∧ (due → ∃ u, exec (.ptpTransmit port kind) s = .next u
            ∧ u.tim.ports[port.val] = { x with seqTx := x.seqTx.set kind.val ((seq + 1) % 65536)
                                               lastTx := x.lastTx.set kind.val s.clk.cyc }
            ∧ (kind.val ≠ 0 → u.ne.sent = s.ne.sent ++ [frame port s (first none)])
            ∧ (kind.val = 0 → ¬ two → u.ne.sent = s.ne.sent ++ [frame port s (first (some sentAt))])
            ∧ (kind.val = 0 → two → u.ne.sent = s.ne.sent ++ [frame port s (first none),
                frame port (after port) (.ptp 3 seq (cfg % 256) none (some sentAt))])
            ∧ u.mem = s.mem ∧ u.lanes = s.lanes ∧ u.frm = s.frm))
    ∧ (∀ (pair : Fin 6) (p q : Fin 12), s.tim.slave = some p → q.val / 2 = p.val / 2 → q ≠ p →
        let x := s.tim.ports[p.val]
        let y := s.tim.ports[q.val]
        let due := p.val / 2 = pair.val ∧ (s.ne.pairs[pair.val]).mode = 1 ∧ y.best ≠ none ∧ x.lastSync + 3 * x.syncInt ≤ s.clk.cyc
        (due → exec (.ptpLanSwitch pair) s = .next (settle { s with tim := { s.tim with
            slave := some q, stepped := true, stepPend := none
            ports := (s.tim.ports.set p.val { x with syncLost := true }).set q.val { y with syncLost := false } } }))
        ∧ (¬ due → exec (.ptpLanSwitch pair) s = .next (settle s)))
    ∧ (∀ pair, s.tim.slave = none → exec (.ptpLanSwitch pair) s = .next (settle s))
    ∧ ∀ (port : Fin 12),
        let x := s.tim.ports[port.val]
        let due := x.annAt + 3 * x.annInt ≤ s.clk.cyc
        (¬ due → exec (.announceReceiptTimeout port) s = .next (settle s))
        ∧ (due → ∃ u, exec (.announceReceiptTimeout port) s = .next u ∧ (u.tim.ports[port.val]).best = none
            ∧ u.tim.slave ≠ some port ∧ u.tim.sources = s.tim.sources ∧ u.lanes = s.lanes ∧ u.ne = s.ne
            ∧ (∀ q : Fin 12, q ≠ port → (u.tim.ports[q.val]).best = (s.tim.ports[q.val]).best)
            ∧ ((∀ q : Fin 12, q ≠ port → (s.tim.ports[q.val]).best = none) → (reg 0x60030 s).getLsbD 24 = false →
                ptpOn s port.val = true → u.tim.slave = none ∧ (u.tim.ports[port.val]).master = true))

/-- R226 to R233. -/
def Obligations.BackupDomain : Prop :=
  ∀ (s : State),
    let ends := fun (t : State) => (Host.Outcome.next (if s.clk.power then settle t else t) : Host.Outcome State Fault Refusal)
    let gives := fun (r : Rtc) => ends { s with rtc := r }
    let t := tickFirst s
    let q := t.rtc
    let r := s.rtc
    let idle := gives r
    let under := fun a => ∃ x ∈ r.writes, x.reg = a
    (s.clk.power = true → ∀ h,
        (exec (.rtcTickLoRead h) s = gives { r with gen := (r.gen + 1) % 256, shadow := some (r.count, (r.gen + 1) % 256) })
        ∧ (r.shadow ≠ none → exec (.rtcTickHiRead h) s = gives { r with shadow := none })
        ∧ (r.shadow = none → exec (.rtcTickHiRead h) s = .next (settle { s with fresh := s.fresh + 1 })))
    ∧ (∀ (sid : Fin 4) (ss : Session), hostReady sid 2 ss s →
        (∀ (n : BitVec 15) (sub : Bool),
          let blocked := under 0x70010 ∨ (n ≠ 0 ∧ q.shift ≠ none)
          (blocked → exec (.shiftGo sid n sub) s = .next (answered sid ss .busy 0 [] t))
          ∧ (¬ blocked → ∃ v : Word, exec (.shiftGo sid n sub) s = .next (answered sid ss .ok 4 []
              { t with rtc := { q with writes := q.writes ++ [⟨0x70010, v, q.xtal⟩] } })
            ∧ v.toNat % 2 ^ 15 = n.toNat ∧ v.getLsbD 15 = sub ∧ v.getLsbD 16 = decide (n ≠ 0)))
        ∧ (under 0x70010 → exec (.shiftCancel sid) s = .next (answered sid ss .busy 0 [] t))
        ∧ (¬ under 0x70010 → q.shift ≠ none → exec (.shiftCancel sid) s = .next (answered sid ss .ok 4 [] { t with rtc := { q with
            shift := none
            writes := q.writes ++ [⟨0x70010, (w r.shiftAmt ||| (bitWord r.shiftSub <<< 15)) &&& 0xFFFF, q.xtal⟩] } }))
        ∧ (¬ under 0x70010 → q.shift = none → exec (.shiftCancel sid) s = .next (answered sid ss .late 0 [] t))
        ∧ (∀ hi : BitVec 16, (under 0x70018 → exec (.alarmArm sid hi) s = .next (answered sid ss .busy 0 [] s))
          ∧ (¬ under 0x70018 → exec (.alarmArm sid hi) s = .next (answered sid ss .ok 4 []
              { s with rtc := { r with writes := r.writes ++ [⟨0x70018, 0x80000000 ||| BitVec.setWidth 32 hi, r.xtal⟩] } }))))
    ∧ (∀ a, ¬ under a → exec (.domainWriteDone a) s = ends t)
    ∧ (∀ v c, r.writes = [⟨0x70018, v, c⟩] → v.getLsbD 31 = true → exec (.domainWriteDone 0x70018) s = ends { t with rtc := { q with
          writes := [], alarmReg := v.toNat % 2 ^ 16 * 2 ^ 32 + r.alarmReg % 2 ^ 32
          alarm := some (v.toNat % 2 ^ 16 * 2 ^ 32 + r.alarmReg % 2 ^ 32), alarmAt := q.xtal } })
    ∧ (∀ v c, r.writes = [⟨0x70010, v, c⟩] → v.toNat % 2 ^ 15 ≠ 0 → v.getLsbD 16 = true → exec (.domainWriteDone 0x70010) s = ends
          { t with rtc := { q with writes := [], shiftAmt := v.toNat % 2 ^ 15, shiftSub := v.getLsbD 15, shiftAt := q.xtal
                                   shift := some (if v.getLsbD 15 then -((v.toNat % 2 ^ 15 : Nat) : Int)
                                     else ((v.toNat % 2 ^ 15 : Nat) : Int)) } })
    ∧ (r.shift = none ∨ r.count % 32768 ≠ 0 ∨ r.xtal ≤ r.shiftAt → exec .shiftApply s = idle)
    ∧ (∀ d, r.shift = some d → r.count % 32768 = 0 → r.shiftAt < r.xtal →
        ((r.count : Int) + d < 0 → exec .shiftApply s = gives { r with shift := none, evt := r.evt ||| 16 })
        ∧ (0 ≤ (r.count : Int) + d → (r.count : Int) + d < 2 ^ 48 → ∃ u, exec .shiftApply s = .next u
            ∧ (u.rtc.count : Int) = r.count + d ∧ u.rtc.shift = none ∧ u.rtc.evt.getLsbD 3 = true ∧ u.lanes = s.lanes
            ∧ (∀ a, r.alarm = some a → r.count < a → ((a : Int) ≤ r.count + d → u.rtc.alarm = none
                  ∧ (u.rtc.fire : Int) = r.count + d ∧ u.rtc.evt.getLsbD 0 = true
                  ∧ ((a : Int) < r.count + d → u.rtc.evt.getLsbD 1 = true))
                ∧ (r.count + d < (a : Int) → u.rtc.alarm = some a ∧ u.rtc.fire = r.fire))))
    ∧ exec .alarmFire s = ends t
    ∧ (∀ a, r.alarm = some a → shiftDue r = false →
        (r.count < a ∨ r.xtal ≤ r.alarmAt → exec .alarmFire s = idle)
        ∧ (a ≤ r.count → r.alarmAt < r.xtal → ∃ u, exec .alarmFire s = .next u ∧ u.rtc = { r with
              alarm := none, fire := r.count, evt := r.evt ||| (if a < r.count then 3 else 1), alarmOff := u.rtc.alarmOff }
            ∧ (s.clk.power = false → u.rtc.alarmOff = true) ∧ (s.clk.power = true → u.rtc.alarmOff = r.alarmOff)
            ∧ u.lanes = s.lanes))
    ∧ (r.alarm = none → shiftDue r = false → exec .alarmFire s = idle)
    ∧ (s.clk.power = true → exec .domainReset s = .next (settle s))
    ∧ (s.clk.power = false → ∃ u, exec .domainReset s = .next u ∧ u = { s with rtc := u.rtc } ∧ u.rtc.count = 0
        ∧ u.rtc.view = true ∧ u.rtc.alarm = none ∧ u.rtc.shift = none ∧ u.rtc.bkp = Vector.replicate 16 0
        ∧ u.rtc.evt.getLsbD 2 = true ∧ u.rtc.cellLow = true)
    ∧ (∀ (closed : BitVec 3) (low : Bool),
        (r.xtal < r.tampAt + 32 → exec (.tamperSample ⟨closed, low⟩) s = idle)
        ∧ (r.tampAt + 32 ≤ r.xtal → ∃ u, exec (.tamperSample ⟨closed, low⟩) s = .next u ∧ u.rtc.tampAt = r.xtal
            ∧ u.rtc.cellLow = low ∧ u.rtc.count = q.count ∧ u.key = s.key ∧ u.lanes = s.lanes
            ∧ ∀ n : Fin 3, let t := r.tamp[n.val]
              let active := closed.getLsbD n.val = r.tampCfg.getLsbD (4 + n.val)
              (r.tampCfg.getLsbD n.val = false → u.rtc.tamp[n.val] = { t with prev := false, active := false })
              ∧ (r.tampCfg.getLsbD n.val = true → ¬ active → u.rtc.tamp[n.val] = { t with prev := false, active := false })
              ∧ (r.tampCfg.getLsbD n.val = true → active → t.prev = false ∨ t.latched = true →
                  u.rtc.tamp[n.val] = { t with prev := true, active := true })
              ∧ (r.tampCfg.getLsbD n.val = true → active → t.prev = true → t.latched = false →
                  u.rtc.tamp[n.val] = ⟨q.count, !s.clk.power, true, true, true, false⟩)))
    ∧ (s.clk.power = true →
        let sec : Nat := s.clk.nt / 10 ^ 19
        let due := s.tim.state = .locked ∧ s.tim.epochSec ≠ some sec
        let ticks : Nat := s.clk.nt * 32768 / 10 ^ 19
        (¬ due → exec .epochCheck s = .next (settle s))
        ∧ (due → ∃ u, exec .epochCheck s = .next u ∧ u.tim.epochSec = some sec ∧ u.rtc.count = r.count ∧ u.lanes = s.lanes
            ∧ (∀ e, epochOf r.bkp = some e → ((ticks : Int) - (e * 32768 + r.count)).natAbs ≤ 32767 → u.rtc.bkp = r.bkp
                ∧ (ticks ≠ e * 32768 + r.count → r.shift = none → goOnWay r = false → u.rtc.shift = some ((ticks : Int) - (e * 32768 + r.count)))
                ∧ (ticks = e * 32768 + r.count → u.rtc = r))
            ∧ (epochOf r.bkp = none → r.count ≤ ticks → ticks < 2 ^ 62 → epochOf u.rtc.bkp = some ((ticks - r.count) / 32768)
                ∧ u.rtc.view = false ∧ ∀ i : Fin 16, 4 ≤ i.val → u.rtc.bkp[i.val] = r.bkp[i.val])))

/-- R260 to R268. -/
def Obligations.FieldPoints : Prop :=
  ∀ (s : State), s.clk.power = true →
    let idle := fun c => exec c s = .next (settle s)
    let out := fun (t : State) (n : Nat) => vget State.out0 t.fio.outs n
    let grp := fun (t : State) (g : Nat) => vget State.og0 t.fio.og g
    let keeps := fun (u : State) => u.mem = s.mem ∧ u.lanes = s.lanes ∧ u.sys = s.sys ∧ u.eq = s.eq
    let shows := fun (c old : Nat) => if codeRank c < codeRank old then c else old
    let on := fun n => (out s n).drive = true ∧ (out s n).off = none ∧ (out s n).hot = false
      ∧ (grp s (n / 8)).enabled = true ∧ (grp s (n / 8)).supply = true
    let counts := fun (c : Nat) (o : FieldOut) => { o with
      code := shows c o.code, retries := min 65535 (o.retries + 1), lastChange := s.clk.cyc }
    let opens := fun (o : FieldOut) => { o with
      cmd := false, drive := false, lastChange := if o.drive then s.clk.cyc else o.lastChange }
    let ends := fun (cmd : Host.Outcome State Fault Refusal) (n : Nat) (o : FieldOut) => ∃ u, cmd = .next u ∧ keeps u
      ∧ out u n = (if o.off.isSome || o.hot then o else { o with
          lastChange := s.clk.cyc
          drive := o.cmd && drives s && (grp s (n / 8)).enabled && (grp s (n / 8)).supply && !s.sys.latched })
      ∧ ∀ m < 16, m ≠ n → out u m = out s m
    (∀ (n : Fin 32) (level : Bool) (held : Nat),
      let i := s.fio.ins[n.val]
      let filt := min 800 ((regAct (0x90040 + 4 * n.val) s).toNat % 1024) * 10
      let olds := if s.fio.usAt = s.clk.cyc / cycUs then s.fio.usIns else []
      let runs := if s.fio.usAt = s.clk.cyc / cycUs then s.fio.usRuns else []
      let j := { i with filtered := level, chg := true, multi := i.chg
                        stamp := w ((ntAgo s (held * cycUs) - 3 * 10 ^ 13).toNat / 10 ^ 13) }
      (i.filtered = level → idle (.acceptedTransition n level held))
      ∧ (i.filtered ≠ level → held < filt → exec (.acceptedTransition n level held) s = .next (settle { s with fio := { s.fio with
          usAt := s.clk.cyc / cycUs, usIns := olds, usRuns := (n.val, level, held) :: runs } }))
      ∧ (i.filtered ≠ level → filt ≤ held → exec (.acceptedTransition n level held) s = .next (settle { s with fio := { s.fio with
          ins := s.fio.ins.set n.val j, usAt := s.clk.cyc / cycUs, usRuns := runs
          usIns := if olds.any (·.1 == n.val) then olds else (n.val, i) :: olds } })))
    ∧ (∀ (n : Fin 32) (ua : Nat),
        let i := s.fio.ins[n.val]
        let seen := (regAct 0x90024 s).getLsbD n.val = true ∧ vget false s.fio.igSup (n.val / 8) = true ∧ i.filtered = false
        let breaks := seen ∧ ua < 150 ∧ i.wb = false
        let heals := seen ∧ 300 ≤ ua ∧ i.wb = true
        (¬ breaks → ¬ heals → idle (.wireBreak n ua))
        ∧ (breaks ∨ heals → ∃ u, exec (.wireBreak n ua) s = .next u ∧ keeps u
            ∧ u.fio = { s.fio with ins := s.fio.ins.set n.val { i with wb := !i.wb }, evt := u.fio.evt }
            ∧ u.fio.evt = if i.wb then s.fio.evt else s.fio.evt ||| 1))
    ∧ (∀ g : Fin 4,
        (s.fio.igSup[g.val] = false → idle (.supplyLoss ⟨g.val, by omega⟩))
        ∧ (s.fio.igSup[g.val] = true → idle (.supplyRestore ⟨g.val, by omega⟩))
        ∧ (s.fio.igSup[g.val] = true → ∃ u, exec (.supplyLoss ⟨g.val, by omega⟩) s = .next u ∧ keeps u
            ∧ u.fio = { s.fio with igSup := s.fio.igSup.set g.val false, evt := s.fio.evt ||| 4 })
        ∧ (s.fio.igSup[g.val] = false → ∃ u, exec (.supplyRestore ⟨g.val, by omega⟩) s = .next u ∧ keeps u
            ∧ u.fio = { s.fio with igSup := s.fio.igSup.set g.val true }))
    ∧ (∀ g : Fin 2,
        let o := s.fio.og[g.val]
        (∃ u, exec (.supplyLoss ⟨4 + g.val, by omega⟩) s = .next u ∧ keeps u ∧ grp u g.val = { o with supply := false }
            ∧ (∀ n < 16, n / 8 = g.val → out u n = { opens (out s n) with code := 6 })
            ∧ ∀ n < 16, n / 8 ≠ g.val → out u n = out s n)
        ∧ (o.supply = true → idle (.supplyRestore ⟨4 + g.val, by omega⟩))
        ∧ (o.supply = false → ∃ u, exec (.supplyRestore ⟨4 + g.val, by omega⟩) s = .next u ∧ keeps u
            ∧ u.fio = { s.fio with og := s.fio.og.set g.val { o with supply := true } }))
    ∧ (∀ n : Fin 16,
        (¬ on n.val → idle (.overcurrent n) ∧ idle (.thermalShutdown n))
        ∧ (on n.val → (∃ u, exec (.overcurrent n) s = .next u ∧ keeps u ∧ out u n.val = { counts 1 (out s n.val) with off := some (.overcurrent, s.clk.cyc) }
              ∧ ∀ m < 16, m ≠ n.val → out u m = out s m)
            ∧ ∃ u, exec (.thermalShutdown n) s = .next u ∧ keeps u ∧ out u n.val = { counts 2 (out s n.val) with hot := true }
              ∧ ∀ m < 16, m ≠ n.val → out u m = out s m))
    ∧ (∀ g : Fin 2,
        let any := ∃ n < 16, n / 8 = g.val ∧ on n
        (¬ any → idle (.groupOverload g))
        ∧ (any → ∃ u, exec (.groupOverload g) s = .next u ∧ keeps u ∧ (grp u g.val).ovl = true
            ∧ (∀ n < 16, n / 8 = g.val → out u n = { counts 7 (out s n) with off := some (.groupOvl, s.clk.cyc) })
            ∧ ∀ n < 16, n / 8 ≠ g.val → out u n = out s n))
    ∧ (∀ n : Fin 16,
        let o := s.fio.outs[n.val]
        (∀ x, o.off = some x → x.2 + 100 * cycMs ≤ s.clk.cyc → ends (exec (.outputRetry n) s) n.val { o with off := none })
        ∧ ((∀ x, o.off = some x → s.clk.cyc < x.2 + 100 * cycMs) → idle (.outputRetry n))
        ∧ (o.hot = true → ends (exec (.switchCooled n) s) n.val { o with hot := false })
        ∧ (o.hot = false → idle (.switchCooled n)))
    ∧ (∀ (n : Fin 16) (rb : Bool),
        let o := s.fio.outs[n.val]
        let sensed := { o with ext := if outOn s n.val = rb then none else some rb }
        let differs := o.lastChange + cycMs ≤ s.clk.cyc ∧ rb ≠ o.drive
        let c := if o.drive then 5 else if o.par then 4 else 3
        let left := if standing s n.val ≠ 0 then standing s n.val else mismatch s n.val rb
        let gives := fun (cmd : Host.Outcome State Fault Refusal) (x : FieldOut) => ∃ u, cmd = .next u ∧ keeps u
          ∧ out u n.val = x ∧ ∀ m < 16, m ≠ n.val → out u m = out s m
        (¬ differs → gives (exec (.outputDiag n rb) s) sensed)
        ∧ (differs → gives (exec (.outputDiag n rb) s) { sensed with code := shows c o.code })
        ∧ (codeRank left ≤ codeRank o.code → gives (exec (.diagClear n rb) s) sensed)
        ∧ (codeRank o.code < codeRank left → gives (exec (.diagClear n rb) s) { sensed with code := left }))
    ∧ ∀ g : Fin 2,
        let o := s.fio.og[g.val]
        let due := o.enabled = true ∧ s.frm.hbCyc + 600 * cycUs ≤ s.clk.cyc
        (¬ due → idle (.monostableRunout g))
        ∧ (due → ∃ u, exec (.monostableRunout g) s = .next u ∧ keeps u ∧ grp u g.val = { o with enabled := false, hbOut := true }
            ∧ u.fio.evt.getLsbD 3 = true
            ∧ (∀ n < 16, n / 8 = g.val → out u n = { opens (out s n) with code := shows 8 (out s n).code })
            ∧ ∀ n < 16, n / 8 ≠ g.val → out u n = out s n)

/-- R239 to R254. -/
def Obligations.Metering : Prop :=
  ∀ (s : State), s.clk.power = true →
    let idle := fun c => exec c s = .next (settle s)
    let pts := fun (t : State) (p : Nat) => eqPoint t p
    let en := fun p => ptEn s.eq.act p = true
    let n := s.frm.k - horizon s
    let due := s.eq.run = true ∧ s.frm.windowOpen = true ∧ s.eq.doneFrame ≠ some s.frm.k
    (¬ due → idle .eqSample)
    ∧ (due → ∃ u, exec .eqSample s = .next u ∧ u.eq.doneFrame = some s.frm.k ∧ u.mem = s.mem ∧ u.lanes = s.lanes
        ∧ (∀ p < 96, ¬ en p → pts u p = pts s p)
        ∧ ((∀ p < 96, en p → (pts s p).freerun = true ∧ (pts s p).armed = false) → ∀ p < 96, en p →
            let pt := pts s p
            let q := pts u p
            let bad := ∃ c ∈ ptChans s.eq.act p, chanBad s c n = true
            let late := pt.cycleEnd + eqPeriod s ≤ instant s n
            let bridged := pt.badRun < eqBridge s
            let took := fun (x y : CycSum) => y.samples = x.samples + 1
              ∧ (bad → y.good = x.good ∧ y.degraded = (x.degraded || decide bridged) ∧ y.zeroed = (x.zeroed || !decide bridged))
              ∧ (¬ bad → y.good = x.good + 1 ∧ y.degraded = x.degraded ∧ y.zeroed = x.zeroed ∧ (y.phases[0]).p = (x.phases[0]).p
                  + corrected s (ptU s.eq.act p 0) n 0 * corrected s (ptI s.eq.act p 0) n 0)
            q.freerun = true ∧ q.cycleEnd = pt.cycleEnd ∧ q.cycles = pt.cycles ∧ q.kept = pt.kept
            ∧ q.prevU = corrected s (ptU s.eq.act p 0) n 0
            ∧ (late → q.cur = pt.cur ∧ took pt.late q.late) ∧ (¬ late → q.late = pt.late ∧ took pt.cur q.cur)
            ∧ (bad → q.badRun = pt.badRun + 1) ∧ (¬ bad → q.badRun = 0)))
    ∧ (∀ p : Fin 96,
        let pt := pts s p.val
        let ends := s.eq.run = true ∧ en p.val ∧ pt.freerun = true ∧ s.eq.doneFrame = some s.frm.k
          ∧ pt.cycleEnd + eqPeriod s ≤ instant s n
        (¬ ends → idle (.freerunCycleEnd p))
        ∧ (ends → ∃ u, exec (.freerunCycleEnd p) s = .next u ∧ u.mem = s.mem ∧ u.lanes = s.lanes
            ∧ (∀ q < 96, q ≠ p.val → pts u q = pts s q)
            ∧ let v := pts u p.val
              let e : Rat := 1 / (rate s : Rat) * sumPh (ptPhases s.eq.was p.val) fun i => (vget State.psum0 pt.cur.phases i).p
              let adds := fun (r : Fin 7) (x : Nat) => (v.kept.regs[r.val]).residue = ((pt.kept.regs[r.val]).residue + x) % 2 ^ 32
                ∧ (v.kept.regs[r.val]).value = (pt.kept.regs[r.val]).value
                  + BitVec.ofNat 64 (((pt.kept.regs[r.val]).residue + x) / 2 ^ 32)
              v.cycleEnd = pt.cycleEnd + eqPeriod s ∧ v.freq = 0 ∧ v.cur = pt.late ∧ v.late = State.csum0
                ∧ v.kept.seq = pt.kept.seq + (if pt.latched.isSome then 1 else 0)
                ∧ (pt.cycles + 1 < ptN s.eq.was p.val → v.cycles = pt.cycles + 1 ∧ v.latched = none)
                ∧ (ptN s.eq.was p.val ≤ pt.cycles + 1 → v.cycles = 0 ∧ v.weight = 0 ∧ v.latched ≠ none ∧ v.kept.degraded = false
                    ∧ v.kept.overCeil = false ∧ v.kept.zeroed = false ∧ v.kept.test = false)
                ∧ (0 ≤ e → adds 0 (quanta32 (ptQexp s.eq.was p.val) e) ∧ v.kept.regs[1] = pt.kept.regs[1])
                ∧ (e < 0 → adds 1 (quanta32 (ptQexp s.eq.was p.val) (-e)) ∧ v.kept.regs[0] = pt.kept.regs[0])))
    ∧ (∀ p : Fin 96,
        let pt := pts s p.val
        (s.eq.run = false ∨ pt.latched = none → idle (.latch p))
        ∧ ∀ ws, s.eq.run = true → pt.latched = some ws → ∃ u, exec (.latch p) s = .next u ∧ u.mem = s.mem ∧ u.lanes = s.lanes
            ∧ u.eq.evt = s.eq.evt ||| 1 ∧ (∀ q < 96, q ≠ p.val → pts u q = pts s q)
            ∧ let v := pts u p.val
              v.kept = { pt.kept with seq := pt.kept.seq + 1 } ∧ v.newFlag = true ∧ v.latched = none ∧ v.cycles = pt.cycles
                ∧ latestSnap v = ws
                ∧ (s.eq.hold = false → visibleSnap v = ws ∧ u.eq.snapOvr = s.eq.snapOvr)
                ∧ (s.eq.hold = true → visibleSnap v = visibleSnap pt ∧ v.newer = true ∧ u.eq.snapOvr = s.eq.snapOvr + 1))
    ∧ (∀ g : Fin 16,
        let x := eqGen s g.val
        let k := s.frm.k + 1
        let starts := s.eq.run = true ∧ pgEn s.eq.act g.val = true ∧ x.on = false ∧ x.backlog ≠ []
          ∧ ∀ o, x.offAt = some o → o + (2 * rate s + 999) / 1000 ≤ k
        let stops := s.eq.run = true ∧ x.on = true ∧ x.onAt + x.width ≤ k
        let wide := (pgWidthMs s.eq.act g.val * rate s + 999) / 1000
        (¬ starts → idle (.pulseStart g))
        ∧ (starts → ∀ d t, x.backlog = d :: t → ∃ u, exec (.pulseStart g) s = .next u ∧ eqGen u g.val = { x with
              backlog := t, on := true, onAt := k, prevDue := some d, emitted := x.emitted + 1, width := (eqGen u g.val).width }
            ∧ (x.prevDue = none → (eqGen u g.val).width = wide)
            ∧ (∀ q, x.prevDue = some q → 2 * wide ≤ d - q → (eqGen u g.val).width = wide)
            ∧ (∀ q, x.prevDue = some q → d - q < 2 * wide →
                (eqGen u g.val).width = max ((d - q) / 2) ((2 * rate s + 999) / 1000))
            ∧ u.eq.points = s.eq.points ∧ u.mem = s.mem ∧ u.lanes = s.lanes)
        ∧ (¬ stops → idle (.pulseEnd g))
        ∧ (stops → ∃ u, exec (.pulseEnd g) s = .next u ∧ eqGen u g.val = { x with on := false, offAt := some k }
            ∧ u.eq.points = s.eq.points ∧ u.mem = s.mem ∧ u.lanes = s.lanes))
    ∧ (s.eq.run = false ∨ s.eq.saveDue = none → idle .energySave)
    ∧ (∀ t, s.eq.run = true → s.eq.saveDue = some t →
        let per := max 1 (min 3600 ((reg 0x80008 s).toNat % 4096)) * 1000
        let slot := (nextSave s).1
        ∃ u, exec .energySave s = .next u ∧ u.eq.saveDue = none ∧ u.eq.saveCopy = none ∧ u.eq.points = s.eq.points ∧ u.lanes = s.lanes ∧ u.mem = s.mem
          ∧ (t + per < opMs s → u.eq.evt = s.eq.evt ||| 16 ∧ u.nvs = s.nvs ∧ u.persist = s.persist)
          ∧ (opMs s ≤ t + per → u.eq.saveSeq = (nextSave s).2 ∧ u.eq.evt = s.eq.evt
              ∧ ∀ i : Fin 5, u.persist.saves[i.val]
                = if i.val = slot then some { s.eq.saveCopy.getD (saveOf s 0) with seq := (nextSave s).2 } else s.persist.saves[i.val]))

/-- R236, R246, R247, R250. -/
def Obligations.EnergyCommands : Prop :=
  ∀ (sid : Fin 4) (ss : Session) (s : State),
    let ok := fun c u => exec c s = .next (answered sid ss .ok 4 [] u)
    let no := fun c r => exec c s = .next (turnedAway sid ss r s)
    let released := { s with eq := { s.eq with
      hold := false
      points := s.eq.points.map fun pt => if pt.newer then { pt with showB := !pt.showB, newer := false } else pt } }
    (hostReady sid 1 ss s →
      (s.eq.hold = false → ok (.snapHold sid true) { s with eq := { s.eq with hold := true, holdCyc := s.clk.cyc, snapOvr := 0 } }
        ∧ ok (.snapHold sid false) s)
      ∧ (s.eq.hold = true → ok (.snapHold sid true) s ∧ ok (.snapHold sid false) released)
      ∧ (∀ p : BitVec 7, 96 ≤ p.toNat → no (.wrapClr sid p) .badSpace)
      ∧ (∀ p : BitVec 7, p.toNat < 96 → ∃ u, ok (.wrapClr sid p) u ∧ u = { s with eq := { s.eq with points := u.eq.points } }
          ∧ (∀ q : Fin 96, q.val ≠ p.toNat → u.eq.points[q.val] = s.eq.points[q.val])
          ∧ ∀ q : Fin 96, q.val = p.toNat → u.eq.points[q.val] = { s.eq.points[q.val] with kept := { (s.eq.points[q.val]).kept with
              regs := (s.eq.points[q.val]).kept.regs.map fun r => { r with wrapFlag := false } } })
      ∧ ok (.pqPop sid) { s with eq := { s.eq with queue := s.eq.queue.drop 1 } })
    ∧ (hostReady sid 2 ss s →
      (∀ (p : BitVec 7) (r : BitVec 3), 96 ≤ p.toNat → no (.pointClear sid p) .badSpace ∧ no (.preset sid p r) .badSpace)
      ∧ (∀ p : BitVec 7, p.toNat < 96 →
          (ptEn s.eq.act p.toNat = true → no (.pointClear sid p) .denied)
          ∧ (ptEn s.eq.act p.toNat = false → ∃ u, ok (.pointClear sid p) u
              ∧ u = { s with eq := { s.eq with points := u.eq.points }, evr := u.evr }
              ∧ (∀ q : Fin 96, q.val ≠ p.toNat → u.eq.points[q.val] = s.eq.points[q.val])
              ∧ ∀ q : Fin 96, q.val = p.toNat → (u.eq.points[q.val]).kept
                  = ⟨Vector.replicate 7 ⟨0, 0, 0, false⟩, 0, false, false, false, false, false, 0⟩))
      ∧ (∀ p : BitVec 7, p.toNat < 96 → no (.preset sid p 7) .badOp)
      ∧ (∀ (p : BitVec 7) (r : BitVec 3), p.toNat < 96 → r ≠ 7 →
          (2 ≤ lifecycle s → no (.preset sid p r) .denied)
          ∧ (lifecycle s < 2 → ok (.preset sid p r) { s with eq := { s.eq with
              presets := s.eq.presets ++ [(p.toNat, r.toNat, reg 0x80018 s ++ reg 0x80014 s)] } })))
    ∧ (s.clk.power = true →
        let due := s.eq.hold = true ∧ s.eq.holdCyc + 10 * cycSec ≤ s.clk.cyc
        (¬ due → exec .holdExpiry s = .next (settle s)) ∧ (due → exec .holdExpiry s = .next (settle released)))

/-- R274 to R288. -/
def Obligations.CanBus : Prop :=
  ∀ (n : Fin 4) (s : State),
    let ct := s.can.ctl[n.val]
    let reg := fun off => regAct (0xA0000 + 0x4000 * n.val + off) s
    let listen := ct.cfg.getLsbD 1
    let onBus := ct.state = .active ∨ ct.state = .passive
    let after := fun (x : Instr) (P : CanCtl → State → Prop) => ∃ u, exec x s = .next u ∧ P u.can.ctl[n.val] u
      ∧ u.lanes = s.lanes ∧ u.mem = s.mem ∧ ∀ m : Fin 4, m ≠ n → u.can.ctl[m.val] = s.can.ctl[m.val]
    let idle := fun x => exec x s = .next (settle s)
    let set := fun (x : CanCtl) => Host.Outcome.next (settle { s with can := ⟨s.can.ctl.set n.val x⟩ })
    (s.clk.power = true →
      (∀ r : CanRx,
        let fr := r.frame
        let sof := (s.clk.nt - r.ageNs * 10 ^ 10) / (2 * 10 ^ 10) * (2 * 10 ^ 10)
        let due := onBus ∧ ct.closing = false ∧ ct.attempt = none
        let pass := fun f => (reg (0x100 + 8 * f)).getLsbD 31 = true
          ∧ (fr.idw.toNat ^^^ (reg (0x100 + 8 * f)).toNat) &&& ((reg (0x104 + 8 * f)).toNat % 2 ^ 29) = 0
          ∧ fr.idw.getLsbD 29 = (reg (0x100 + 8 * f)).getLsbD 29
          ∧ ((reg (0x104 + 8 * f)).getLsbD 30 = true → fr.idw.getLsbD 30 = (reg (0x100 + 8 * f)).getLsbD 30)
        let first := fun f => f < 32 ∧ pass f ∧ ∀ g < f, ¬ pass g
        let isRef := (reg 0x44).toNat % 4 = 2 ∧ fr.idw.toNat % 2 ^ 30 = (tmId s n.val).toNat
        (¬ due → idle (.canFrameReceived n r))
        ∧ (due → after (.canFrameReceived n r) fun v _ => v.tec = ct.tec ∧ v.bufs = ct.bufs ∧ v.attempt = none
          ∧ (listen = true → v.recv = ct.recv ∧ v.state = ct.state)
          ∧ (listen = false → ct.tec ≤ 255 → ct.recv ≤ 127 → v.recv = ct.recv - 1)
          ∧ (listen = false → ct.tec ≤ 255 → 127 < ct.recv → 119 ≤ v.recv ∧ v.recv ≤ 127)
          ∧ (listen = false → ct.tec < 128 → v.state = .active)
          ∧ (listen = false → 128 ≤ ct.tec → ct.tec ≤ 255 → v.state = .passive)
          ∧ (isRef → v.refLost = false ∧ v.refNew = true ∧ v.refShown = fr.data[0].toNat % 64 ∧ v.refHeard = s.clk.cyc ∧ v.refSof = sof)
          ∧ (¬ isRef → v.refLost = ct.refLost ∧ v.refNew = ct.refNew ∧ v.refShown = ct.refShown ∧ v.refHeard = ct.refHeard)
          ∧ ((∀ f < 32, ¬ pass f) → v.rxq0 = ct.rxq0 ∧ v.rxq1 = ct.rxq1 ∧ v.cnt[2] = ct.cnt[2] + 1)
          ∧ (∀ f, first f → (reg (0x104 + 8 * f)).getLsbD 31 = false → v.rxq1 = ct.rxq1
              ∧ (ct.rxq0.length < 32 → v.rxq0 = ct.rxq0 ++ [⟨fr, f, usOf sof, s.clk.cyc⟩] ∧ v.cnt[0] = ct.cnt[0] + 1)
              ∧ (32 ≤ ct.rxq0.length → v.rxq0 = ct.rxq0 ∧ v.ovf0 = true ∧ v.cnt[3] = ct.cnt[3] + 1 ∧ v.evt.getLsbD 2 = true))
          ∧ (∀ f, first f → (reg (0x104 + 8 * f)).getLsbD 31 = true → v.rxq0 = ct.rxq0
              ∧ (ct.rxq1.length < 32 → v.rxq1 = ct.rxq1 ++ [⟨fr, f, usOf sof, s.clk.cyc⟩] ∧ v.cnt[0] = ct.cnt[0] + 1)
              ∧ (32 ≤ ct.rxq1.length → v.rxq1 = ct.rxq1 ∧ v.ovf1 = true ∧ v.cnt[4] = ct.cnt[4] + 1 ∧ v.evt.getLsbD 2 = true))))
      ∧ (let may := onBus ∧ listen = false ∧ ct.attempt = none ∧ drives s = true ∧ s.sys.latched = false
        let cand := fun (x : TxWhat) => match x with
          | .buf b => ct.bufs[b.val].state = .pending
          | .reference count => ct.refDue = some count
        let key := fun (i : Nat) => if i.testBit 29 then (i / 2 ^ 18 % 2 ^ 11 * 2 + 1) * 2 ^ 18 + i % 2 ^ 18 else i % 2 ^ 11 * 2 ^ 19
        let rank := fun (x : TxWhat) => match x with
          | .buf b => if ct.cfg.getLsbD 2 then b.val else key ct.bufs[b.val].frame.idw.toNat
          | .reference _ => if ct.cfg.getLsbD 2 then 0 else key (tmId s n.val).toNat
        (¬ (may ∧ ∃ x, cand x) → idle (.txAttempt n))
        ∧ (may → (∃ x, cand x) → ∃ x, exec (.txAttempt n) s = set { ct with
              attempt := some ⟨x, false, ntCap s, none⟩, withdrawn := none, errTx := none } ∧ cand x
            ∧ (∀ y, cand y → rank x ≤ rank y) ∧ ∀ b b', x = .buf b → cand (.buf b') → rank x = rank (.buf b') → b ≤ b'))
      ∧ (let open_ := ∃ a, ct.attempt = some a ∧ a.committed = false
        let fd := fun (f : CanFrame) => ct.dbt.getLsbD 28 = true ∧ f.idw.getLsbD 30 = true
        let starts := fun (x : TxBuf) => { x with state := .active, wasReplaced := false }
        let ssp := fun (loop : Nat) => some (loop + ct.cfg.toNat / 65536 % 128)
        (¬ open_ → idle (.lostArbitration n))
        ∧ (¬ open_ → (ct.attempt = none → ∀ x, ct.withdrawn = some x → x.clock ≠ s.clk.cyc / 5) →
            ∀ loop, idle (.frameCommitPoint ⟨n, loop⟩))
        ∧ (∀ x loop, ct.attempt = none → ct.withdrawn = some x → x.clock = s.clk.cyc / 5 → x.attempt.what = .buf x.buf →
            ¬ fd x.was.frame ∨ loop ≤ 127 → after (.frameCommitPoint ⟨n, loop⟩) fun v _ =>
            let now := ct.bufs[x.buf.val]
            v.withdrawn = none ∧ v.bufs[x.buf.val] = starts { x.was with
              late := true, cseq := now.cseq, seqBase := now.seqBase, cseqBase := now.cseqBase
              held := if now.state = .cancelled then none else some (now.seq, now.frame) }
            ∧ (¬ fd x.was.frame → v.attempt = some { x.attempt with committed := true } ∧ v.ssp = ct.ssp)
            ∧ (fd x.was.frame → v.attempt = some { x.attempt with committed := true, loop := some loop } ∧ v.ssp = ssp loop))
        ∧ (open_ → ct.closing = false → exec (.lostArbitration n) s = set { ct with attempt := none })
        ∧ (open_ → ct.closing = true → after (.lostArbitration n) fun v _ => v.state = .off ∧ v.closing = false ∧ v.attempt = none
            ∧ ∀ b : Fin 3, v.bufs[b.val] = (if ct.bufs[b.val].state = .pending then
                { ct.bufs[b.val] with state := .cancelled, held := none } else ct.bufs[b.val]))
        ∧ (∀ a count loop, ct.attempt = some a → a.committed = false → a.what = .reference count →
            exec (.frameCommitPoint ⟨n, loop⟩) s = set { ct with attempt := some { a with committed := true } })
        ∧ (∀ a b loop, ct.attempt = some a → a.committed = false → a.what = .buf b →
            let bufs := ct.bufs.set b.val (starts ct.bufs[b.val])
            (¬ fd ct.bufs[b.val].frame → exec (.frameCommitPoint ⟨n, loop⟩) s = set { ct with
              attempt := some { a with committed := true }, bufs := bufs })
            ∧ (fd ct.bufs[b.val].frame → loop ≤ 127 → exec (.frameCommitPoint ⟨n, loop⟩) s = set { ct with
              attempt := some { a with committed := true, loop := some loop }, bufs := bufs, ssp := ssp loop })
            ∧ (fd ct.bufs[b.val].frame → 127 < loop → after (.frameCommitPoint ⟨n, loop⟩) fun v _ => v.attempt = none
              ∧ (listen = false → v.tec = ct.tec + 8 ∧ v.cnt[6] = ct.cnt[6] + 1))))
      ∧ ((¬ ∃ a, ct.attempt = some a ∧ a.committed = true) → idle (.txDone n))
      ∧ (∀ a, ct.attempt = some a → a.committed = true → ct.closing = false → listen = false → after (.txDone n) fun v _ =>
          let sof := a.sof - a.loop.getD 0 * (125 * 10 ^ 9)
          v.attempt = none ∧ v.tec = ct.tec - 1 ∧ v.cnt[1] = ct.cnt[1] + 1 ∧ (ct.tec ≤ 256 → v.recv = ct.recv)
          ∧ (onBus → ct.tec ≤ 128 → ct.recv < 128 → v.state = .active)
          ∧ (ct.state = .passive → 129 ≤ ct.tec → ct.tec ≤ 256 → v.state = .passive)
          ∧ (∀ count, a.what = .reference count → v.bufs = ct.bufs ∧ v.refNew = true ∧ v.refSof = sof ∧ v.refShown = count
              ∧ (ct.tec ≤ 256 → v.refDue = if ct.refDue = some count then none else ct.refDue))
          ∧ ∀ b, a.what = .buf b → (ct.tec ≤ 256 → v.refDue = ct.refDue) ∧ v.bufs[b.val].doneStamp = usOf sof ∧ v.bufs[b.val].held = none
            ∧ (ct.bufs[b.val].held = none → v.bufs[b.val] = { ct.bufs[b.val] with state := .done, doneStamp := usOf sof })
            ∧ (∀ q f, ct.bufs[b.val].held = some (q, f) → v.bufs[b.val].seq = q ∧ v.bufs[b.val].frame = f
                ∧ v.bufs[b.val].state = if badRequest f then .refused else .pending))
      ∧ (∀ e : CanErr,
        let due := onBus ∧ (e.transmitter = true → ct.attempt ≠ none ∨ ct.errTx ≠ none) ∧ (e.transmitter = false → ct.attempt = none)
        let further := if e.transmitter then ct.attempt.isNone else e.weight8
        let sending := if e.transmitter then (match ct.attempt with
          | some a => some a.what
          | none => ct.errTx) else none
        let tec := if e.transmitter && !e.exempt then ct.tec + 8 else ct.tec
        let recv := if e.transmitter then ct.recv else min 255 (ct.recv + if e.weight8 then 8 else 1)
        (¬ due → idle (.canError n e))
        ∧ (due → ct.closing = false → listen = false → after (.canError n e) fun v u => v.attempt = none ∧ v.tec = tec
          ∧ v.cnt[6] = ct.cnt[6] + (if further then 0 else 1) ∧ v.rxq0 = ct.rxq0 ∧ v.rxq1 = ct.rxq1 ∧ u.sys = s.sys
          ∧ (tec ≤ 255 → v.recv = recv ∧ (128 ≤ tec ∨ 128 ≤ recv → v.state = .passive) ∧ (tec < 128 → recv < 128 → v.state = .active))
          ∧ (255 < tec → v.cnt[5] = ct.cnt[5] + 1 ∧ v.evt.getLsbD 1 = true
              ∧ ((∃ count, sending = some (.reference count)) → v.refDue = none)
              ∧ ((¬ ∃ count, sending = some (.reference count)) → v.refDue = ct.refDue)
              ∧ (ct.cfg.getLsbD 3 = false → v.state = .busOff ∧ v.recv = recv)
              ∧ (ct.cfg.getLsbD 3 = true → v.state = .recovering ∧ v.recv = 0))
          ∧ ∀ b : Fin 3, (ct.attempt.any fun a => a.what == .buf b) = true → ct.bufs[b.val].held = none →
              v.bufs[b.val] = { ct.bufs[b.val] with state := .pending }))
      ∧ (ct.state ≠ .integrating → ct.state ≠ .recovering → idle (.integrationEnd n))
      ∧ (ct.state = .integrating → after (.integrationEnd n) fun v _ => v = { ct with state := .active })
      ∧ (ct.state = .recovering → ct.recv < 127 → after (.integrationEnd n) fun v _ => v = { ct with recv := ct.recv + 1 })
      ∧ (ct.state = .recovering → 127 ≤ ct.recv → after (.integrationEnd n) fun v _ =>
          v = { ct with state := .active, tec := 0, recv := 0, errTx := none })
      ∧ (ct.state ≠ .recovering → idle (.recoveryEnd n))
      ∧ (ct.state = .recovering → after (.recoveryEnd n) fun v _ => v = { ct with state := .active, tec := 0, recv := 0, errTx := none })
      ∧ (let due := (reg 0x44).toNat % 4 = 1 ∧ ct.state ≠ .off ∧ drives s = true ∧ s.sys.latched = false
          ∧ ∀ i, ct.lastCycle = some i → i < cycleIndex s n.val
        (¬ due → idle (.referenceDue n))
        ∧ (due → after (.referenceDue n) fun v _ => v.refDue = some ct.refCycle ∧ v.refCycle = (ct.refCycle + 1) % 64
          ∧ v.lastCycle = some (cycleIndex s n.val) ∧ v.bufs = ct.bufs ∧ v.state = ct.state
          ∧ (∀ a count, ct.attempt = some a → a.what = .reference count → a.committed = false → v.attempt = none)
          ∧ v.cnt[7] = ct.cnt[7] + (if ct.refDue = none then 0 else 1) ∧ (ct.refDue ≠ none → v.evt.getLsbD 3 = true)))
      ∧ (let due := (reg 0x44).toNat % 4 = 2 ∧ ct.state ≠ .off ∧ ct.refLost = false
          ∧ ct.refHeard + 2 * tmCyc s n.val * cycUs ≤ s.clk.cyc
        (¬ due → idle (.refLost n))
        ∧ (due → after (.refLost n) fun v _ => v = { ct with refLost := true, evt := ct.evt ||| 8 })))
    ∧ ∀ (sid : Fin 4) (ss : Session), hostReady sid 1 ss s →
      (ct.state ≠ .busOff → exec (.recover sid n) s = .next (answered sid ss .ok 4 [] s))
      ∧ (ct.state = .busOff → exec (.recover sid n) s = .next (answered sid ss .ok 4 []
          (assertEvw (30 + n.val) { s with can := ⟨s.can.ctl.set n.val { ct with state := .recovering, recv := 0 }⟩ })))

/-- R294 to R309. The transfer's block layout is the model's choice (log entry 43). -/
def Obligations.SyncMessages : Prop :=
  ∀ (hd : HsHead) (s : State), s.clk.power = true →
    let en := hsbEn s = true
    let h := s.hsb
    let l := hd.link.val
    let first := (hd.k, hd.seq) ∉ h.taken ∧ (hd.k, hd.seq) ∉ h.takenPrev
    let link := { h with link := h.link.set l true, cnt := h.cnt.set 0 (h.cnt[0] + 1) }
    let hears := { link with heard := h.heard.set l true, seekFrom := s.clk.cyc, seekDone := false }
    let got := { link with taken := (hd.k, hd.seq) :: h.taken }
    let put := fun (x : Instr) (v : Hsb) => exec x s = .next (settle { s with hsb := v })
    let only := fun x => put x got
    let after := fun (x : Instr) (P : State → Prop) => ∃ u, exec x s = .next u ∧ u.hsb.role = h.role ∧ u.lanes = s.lanes
      ∧ u.hsb.link = got.link ∧ u.hsb.taken = got.taken ∧ P u
    let driving := h.role = .alone ∨ h.role = .active
    let code := fun (hash : List Word) (chisel : Word) (proto : Bool) =>
      if hash ≠ runHash s then 1 else if chisel ≠ activeId s then 2
      else if 1024 < (outputSet s).length ∨ 1024 < (meterSet s).length then 3 else if proto = false then 4 else 0
    let verdict := fun (r : Record) => let c := code r.runHash r.chiselId r.protoOk
      if c = 0 ∧ stagedDiffer r s = true then refuseStaged else c
    let frame := fun (lo hi : Word) => lo.toNat + hi.toNat * 2 ^ 32
    let heard := fun (u : State) (r : Role) (m : BitVec 48) => u.hsb.peerRole = some r ∧ u.hsb.peerMac = m ∧ u.hsb.cnt = got.cnt
      ∧ u.hsb.heard = hears.heard ∧ u.hsb.seekFrom = s.clk.cyc ∧ u.hsb.seekDone = false ∧ u.mem = s.mem
    (∀ r b sv j vals sub gen gs ws cn q mw k pubs rl cd x m a last crcs cm lo hi,
      (∀ z ∈ [Instr.recordMsg hd r, .beatMsg hd b, .mirrorSv hd sv j vals, .mirrorGs hd sub gen gs, .mirrorCan hd cn q ws,
        .meter hd mw, .outputMsg hd k mw pubs, .doubtMsg hd rl cd x, .xferMsg hd m ⟨a, ws⟩ last, .scanMsg hd lo hi crcs, .controlMsg hd cm],
        (¬ en → exec z s = .next (settle s))
        ∧ (en → hd.crcOk = false → put z { h with cnt := h.cnt.set (1 + l) (h.cnt[1 + l]'(by omega) + 1) (by omega) }))
      ∧ (∀ z ∈ [Instr.mirrorSv hd sv j vals, .mirrorGs hd sub gen gs, .mirrorCan hd cn q ws, .meter hd mw,
        .outputMsg hd k mw pubs, .doubtMsg hd rl cd x, .xferMsg hd m ⟨a, ws⟩ last, .scanMsg hd lo hi crcs, .controlMsg hd cm],
        en → hd.crcOk = true → ¬ first → put z link)
      ∧ ∀ z ∈ [Instr.recordMsg hd r, .beatMsg hd b], en → hd.crcOk = true → ¬ first → put z hears)
    ∧ (en → hd.crcOk = true → first → (∀ r : Record, after (.recordMsg hd r) fun u => heard u r.role r.mac
        ∧ (driving → u.hsb.record = h.record ∧ u.hsb.agreed = h.agreed ∧ u.hsb.dual = some (decide
            (r.since < h.roleK ∨ (r.since = h.roleK ∧ r.mac.toNat < Config.baseMac.toNat))))
        ∧ (h.role = .syncing ∨ h.role = .standby →
            u.hsb.record = if r.k = s.frm.k ∧ s.clk.tickph ≤ 1800 then some r else h.record)
        ∧ (h.role = .syncing → u.hsb.refuse = verdict r ∧ u.hsb.agreed = decide (verdict r = 0)
            ∧ u.hsb.xferFrom = if verdict r = 0 then h.xferFrom else none)
        ∧ (h.role = .standby → u.hsb.verdictDiff = (h.verdictDiff || (r.k == s.frm.k && r.verdict != h.ownVerdict)))
        ∧ (h.role = .diverged → u.hsb.record = h.record ∧ u.hsb.dual = h.dual))
      ∧ (∀ b : Beat, after (.beatMsg hd b) fun u => heard u b.role b.mac ∧ u.hsb.peerBeat = some b
        ∧ u.hsb.peerStart = (h.peerStart
            || decide (driving ∧ b.role = .syncing ∧ code b.runHash b.chiselId true = 0)))
      ∧ (∀ sv j vals, put (.mirrorSv hd sv j vals) { got with
          mirSv := (h.mirSv.filter fun x => decide (x.1 ≠ sv.val ∨ x.2.1 ≠ j)) ++ [(sv.val, j, vals.toList)] })
      ∧ (∀ sub gen ws, put (.mirrorGs hd sub gen ws) { got with
          mirGs := (h.mirGs.filter fun x => decide (x.1 ≠ sub.val ∨ x.2.1 ≠ gen % 256)) ++ [(sub.val, gen % 256, ws)] })
      ∧ (∀ cn q ws, put (.mirrorCan hd cn q ws) { got with mirCan := h.mirCan ++ [(cn.val, q.val, ws)] })
      ∧ (∀ mw, put (.meter hd mw) { got with meter := some (hd.k, mw) })
      ∧ (∀ k mw pubs, put (.outputMsg hd k mw pubs) { got with output := some ⟨k, mw, pubs⟩, peerSt := pubs.map Prod.fst })
      ∧ (∀ rl cd x, after (.doubtMsg hd rl cd x) fun u => u.hsb.peerRole = some rl ∧ u.hsb.cnt = got.cnt
          ∧ u.hsb.doubtAt = some (h.doubtAt.getD s.clk.cyc) ∧ u.mem = s.mem)
      ∧ (∀ m a ws last, h.role ≠ .syncing → only (.xferMsg hd m ⟨a, ws⟩ last))
      ∧ (∀ m a ws last, h.role = .syncing → m + 1 ≠ s.frm.k ∨ 2400 ≤ s.clk.tickph → put (.xferMsg hd m ⟨a, ws⟩ last) { got with
          xferMissed := true })
      ∧ (∀ m a ws last, h.role = .syncing → m + 1 = s.frm.k → s.clk.tickph < 2400 →
          let missed := h.xferMissed && a != 0x6000000
          ∃ u, exec (.xferMsg hd m ⟨a, ws⟩ last) s = .next u ∧ u.hsb.role = h.role ∧ u.hsb.link = got.link ∧ u.hsb.taken = got.taken
          ∧ (a < 0x2000000 ∨ 0x3000000 ≤ a → u.lanes = s.lanes)
          ∧ u.hsb.cnt = got.cnt ∧ u.hsb.xferMissed = missed ∧ u.hsb.xferDone = (h.xferDone || (last && !missed))
          ∧ (a + 4 * ws.length ≤ 0x1800000 → u.ne = s.ne ∧ u.can = s.can ∧ (swf zeroByte s.mem.shared = true → ∀ i, sget zeroByte u.mem.shared i =
              if a ≤ i ∧ i < a + 4 * ws.length then byteOf (ws.getD ((i - a) / 4) 0) ((i - a) % 4)
              else sget zeroByte s.mem.shared i))
          ∧ (0x6000000 ≤ a → u.hsb.peerK0 = some ((ws.getD 0 0).toNat + (ws.getD 1 0).toNat * 2 ^ 32) ∧ u.mem = s.mem))
      ∧ (∀ lo hi crcs, (∀ own, h.scanOwn = some own → own.1 ≠ frame lo hi) → put (.scanMsg hd lo hi crcs) { got with scanPeer := some (frame lo hi, crcs) })
      ∧ (∀ lo hi crcs own, h.scanOwn = some (frame lo hi, own) →
          (h.role = .standby → own = crcs → put (.scanMsg hd lo hi crcs) { got with scanPeer := none })
          ∧ (h.role = .standby → own ≠ crcs → ∃ u, exec (.scanMsg hd lo hi crcs) s = .next u ∧ u.hsb.role = .standby ∧ u.mem = s.mem
              ∧ u.hsb.divDue = some (h.divDue.getD (s.frm.k + 1)) ∧ u.hsb.link = got.link ∧ u.hsb.divFrame = lo
              ∧ u.hsb.evt = h.evt ||| 2 ∧ u.hsb.cnt[5] = h.cnt[5] + 1)
          ∧ (h.role = .syncing → put (.scanMsg hd lo hi crcs) { got with
              scanPeer := none, scanRun := if own = crcs ∧ historyFull s = true then h.scanRun + own.length else 0 })
          ∧ (driving ∨ h.role = .diverged → put (.scanMsg hd lo hi crcs) { got with scanPeer := none }))
      ∧ (∀ cm, h.role ≠ .standby → only (.controlMsg hd cm))
      ∧ (h.role = .standby →
          (∀ f, put (.controlMsg hd (.handoverArm f)) { got with handover := some f, hoCommitted := false })
          ∧ put (.controlMsg hd .handoverCancel) { got with handover := none }
          ∧ (∀ f g, after (.controlMsg hd (.commitArm f g)) fun u => u.frm = { s.frm with
              commitArmed := true, commitGroups := g, commitF := f, committed := false })
          ∧ (after (.controlMsg hd .commitCancel) fun u => u.frm = { s.frm with commitArmed := false, committed := false })
          ∧ (∀ f, s.plr.state = .placed → after (.controlMsg hd (.swapArm f)) fun u => u.plr = { s.plr with
              state := .armed, swapF := some f, swapDone := false })
          ∧ (∀ f, s.plr.state ≠ .placed → only (.controlMsg hd (.swapArm f)))
          ∧ (s.plr.swapF = none → only (.controlMsg hd .swapCancel))
          ∧ (∀ f, s.plr.swapF = some f → after (.controlMsg hd .swapCancel) fun u => u.plr = { s.plr with
              state := .placed, swapF := none })))
    ∧ ∀ (p : Fin 4) (mac : BitVec 48) (r : Role) (k : Word),
        let counts := en ∧ s.clk.tickph ≤ 4000 ∧ h.cfg.getLsbD (2 + p.val) = true ∧ (r = .alone ∨ r = .active)
          ∧ k = w s.frm.k
        (¬ counts → exec (.beacon p mac r k) s = .next (settle s))
        ∧ (counts → put (.beacon p mac r k) { h with beaconNow := true, peerMac := mac, seekFrom := s.clk.cyc, seekDone := false })

/-- R291 to R310. -/
def Obligations.PairEvents : Prop :=
  ∀ (s : State),
    let h := s.hsb
    let idle := fun x => exec x s = .next (settle s)
    let after := fun (x : Instr) (P : State → Prop) => ∃ u, exec x s = .next u ∧ P u
    let put := fun (x : Instr) (v : Hsb) => exec x s = .next (settle { s with hsb := v })
    let mir := h.role = .standby ∨ (h.role = .syncing ∧ h.xferFrom.isSome = true)
    (s.clk.power = true →
      (let due := s.frm.state = .running ∧ mir ∧ h.imageJudged = false ∧ 1800 ≤ s.clk.tickph
        let own := fun (v : Hsb) => { v with own := true, imageJudged := true, cnt := v.cnt.set 4 (v.cnt[4] + 1) }
        let on := fun i => (svSub s i).state ≠ .off
        let j := s.frm.k - horizon s
        (¬ due → idle .imageDeadline)
        ∧ (due → h.record = none → put .imageDeadline (own { h with cnt := h.cnt.set 3 (h.cnt[3] + 1) }))
        ∧ (∀ r, due → h.record = some r → ((mirrorParts s r).isNone = true → put .imageDeadline (own h))
            ∧ ((∃ i < 24, on i ∧ (r.words.getD (16 + i) 0).getLsbD 16 = false ∧ ∀ x ∈ h.mirSv, x.1 = i → x.2.1 ≠ j) →
                put .imageDeadline (own h))
            ∧ ((mirrorParts s r).isSome = true → after .imageDeadline fun u => u.hsb.own = false ∧ u.hsb.imageJudged = true
                ∧ u.hsb.cnt = h.cnt ∧ u.lanes = s.lanes ∧ u.fio = s.fio
                ∧ (∀ i : Fin 4, u.frm.evw.extractLsb' (32 * i.val) 32 = r.words.getD (6 + i.val) 0)
                ∧ u.frm.ttick = ((r.words.getD 4 0).toNat + (r.words.getD 5 0).toNat % 2 ^ 16 * 2 ^ 32) * ntSec
                    + (r.words.getD 3 0).toNat * ntNs)))
      ∧ (let due := fun (o : OutSet) => h.ownOut = some o ∧ h.role = .standby ∧ h.imageJudged = true ∧ h.roleK ≤ o.k
          ∧ h.compared ≠ some o.k ∧ o.k + 1 = s.frm.k
        let near := h.doubtAt.isSome = true ∨ h.record = none
        let diverges := fun (o : OutSet) (P : Word → Word → Word → Prop) => after .compare fun u =>
          u.hsb.compared = some o.k ∧ u.hsb.divDue = some (h.divDue.getD (s.frm.k + 1)) ∧ u.hsb.divFrame = w o.k ∧ u.hsb.evt = h.evt ||| 2
          ∧ u.hsb.cnt[5] = h.cnt[5] + 1 ∧ P u.hsb.divWord u.hsb.divOwn u.hsb.divPeer
        let peer := fun (p : OutSet) (i : Nat) => (p.words.find? fun x => x.1 == i).map Prod.snd
        ((¬ ∃ o, due o) → idle .compare)
        ∧ (∀ o, due o →
          (h.ownPrev = true → (near → put .compare { h with compared := some o.k }) ∧ (¬ near → diverges o fun i _ _ => i = 0xFFFFFFFE))
          ∧ (h.ownPrev = false → h.output.filter (fun p => p.k == o.k) = none → (near → put .compare { h with compared := some o.k })
            ∧ (¬ near → diverges o fun i _ _ => i = 0xFFFFFFFF))
          ∧ (∀ p, h.ownPrev = false → h.output = some p → p.k = o.k →
            ((∃ x ∈ o.words, peer p x.1 ≠ some x.2) → diverges o fun i a b =>
              ∃ x ∈ o.words, peer p x.1 ≠ some x.2 ∧ i = w x.1 ∧ a = x.2 ∧ b = (peer p x.1).getD 0)
            ∧ ((∀ x ∈ o.words, peer p x.1 = some x.2) → p.pubs.length = o.pubs.length → p.pubs ≠ o.pubs →
                diverges o fun _ _ _ => True)
            ∧ ((∀ x ∈ o.words, peer p x.1 = some x.2) → p.pubs = o.pubs → put .compare { h with compared := some o.k }))))
      ∧ (let seek := h.role = .syncing ∧ h.seekFrom + max 100 (h.cfg.toNat / 2 ^ 16) * 400000 ≤ s.clk.cyc
        (¬ seek → idle .seekTimeout) ∧ (seek → put .seekTimeout { h with seekDone := true }))
      ∧ (let full := h.role = .syncing ∧ h.agreed = true ∧ h.xferDone = true ∧ scanBlocks s ≤ h.scanRun
          ∧ ∃ f, h.xferFrom = some f ∧ f + 8192 ≤ s.frm.k
        (¬ full → idle .transferComplete) ∧ (full → put .transferComplete { h with ready := true }))
      ∧ (let k := s.frm.k + 1
        let off := (((s.clk.cyc - s.frm.tickCyc) * rate s : Nat) : Int) - cycSec
        let ready := s.frm.ticks ≠ 0 ∧ s.frm.state = .running ∧ s.tim.target ≤ s.clk.nt * rate s ∧ s.clk.cyc % 4 = 0
          ∧ s.frm.commitArmed = false ∧ s.plr.swapF = none ∧ s.ne.badDesc = none ∧ s.sys.badRegs = [] ∧ off.natAbs * 100 ≤ cycSec ∧ hsbEn s = true
        let miss := h.record = none ∧ 1 ≤ h.missRec
        let beats := h.heard[0] = false ∧ h.heard[1] = false ∧ 1 ≤ h.missBeat
        let doubt := ∃ t, h.doubtAt = some t ∧ t + 400 ≤ s.clk.cyc
        let hand := h.handover = some k ∧ h.hoCommitted = true
        let turns := fun (r : Role) => ∃ u, exec .tick s = .next u ∧ u.hsb.role = r ∧ u.frm.k = k
          ∧ (r ≠ h.role → u.hsb.roleK = k ∧ u.hsb.handover = none)
        ready → (h.role = .standby →
            (h.divDue = some k ∨ h.verdictDiff = true → turns .diverged)
            ∧ (¬ (h.divDue = some k ∨ h.verdictDiff = true) → (hand → turns .active)
              ∧ (¬ hand → (doubt ∨ (miss ∧ h.beaconNow = false) → turns .alone)
                ∧ (¬ doubt → miss → h.beaconNow = true → turns .diverged)
                ∧ (¬ doubt → ¬ miss → turns .standby))))
          ∧ (h.role = .active → (h.dual = some true → turns .diverged)
            ∧ (h.dual ≠ some true → (hand → turns .standby)
              ∧ (¬ hand → (h.doubtAt.isSome = true ∨ beats → turns .alone)
                ∧ (h.doubtAt = none → ¬ beats → turns .active))))
          ∧ (h.role = .alone → (h.dual = some true → turns .diverged)
            ∧ (h.dual ≠ some true → turns (if h.peerStart then .active else .alone)))
          ∧ (h.role = .syncing → (h.seekDone = true → turns .alone)
            ∧ (h.seekDone = false → h.peerBeat = none → turns (if h.ready && h.agreed then .standby else .syncing)))
          ∧ (h.role = .diverged → turns (if h.heard[0] && h.heard[1] then .syncing else .diverged)))
      ∧ (∀ l : Fin 2, (h.link[l.val] = false → idle (.linkDown l))
        ∧ (h.link[l.val] = true → after (.linkDown l) fun u => u.hsb = { h with
            link := h.link.set l.val false, linkDowns := h.linkDowns.set l.val (h.linkDowns[l.val] + 1), evt := h.evt ||| 4 })))
    ∧ ∀ (sid : Fin 4) (ss : Session), hostReady sid 1 ss s →
      let f := (reg 0xB0010 s).toNat + (reg 0xB0014 s).toNat * 2 ^ 32
      let no := fun x r => exec x s = .next (turnedAway sid ss r s)
      let ok := fun x v => exec x s = .next (answered sid ss .ok 4 [] { s with hsb := v })
      let pair := h.role = .active ∧ h.peerRole = some .standby
      let sent := fun (v : Hsb) (c : Control) => { v with sent := h.sent ++ [⟨kLow s, h.txSeq, .control c⟩], txSeq := h.txSeq + 1 }
      ((s.frm.ticks = 0 ∨ f < s.frm.k + 16 → no (.handover sid) .late)
        ∧ (s.frm.ticks ≠ 0 → s.frm.k + 16 ≤ f → (¬ pair ∨ s.plr.swapF = some f → no (.handover sid) .denied)
          ∧ (pair → s.plr.swapF ≠ some f → ok (.handover sid) (sent { h with
              handover := some f, hoCommitted := false } (.handoverArm f)))))
      ∧ (h.handover = none → ok (.handoverCancel sid) h)
      ∧ (∀ g, h.handover = some g → (g ≤ s.frm.k + 1 → no (.handoverCancel sid) .late)
        ∧ (s.frm.k + 1 < g → (pair → ok (.handoverCancel sid) (sent { h with handover := none } .handoverCancel))
          ∧ (¬ pair → ok (.handoverCancel sid) { h with handover := none })))
end

