-- ==== Sys2Proof/Laws/Act.lean ====
section
/-! SUPPORT. The shape of a meaning: what a command does in a powered module, in an unpowered one, and when its condition
does not hold. -/
namespace Sys2Proof.Laws

open Sys2Proof.Machine Sys2Proof.Safety

/-- A powered module takes the effect, and STATUS follows. -/
theorem act_powered (eff : State → State) {s : State} (h : s.clk.power = true) : act eff s = .next (settle (eff s)) := by
  simp [act, h]

/-- An unpowered module is unchanged. -/
theorem act_off (eff : State → State) {s : State} (h : s.clk.power = false) : act eff s = .next s := by
  simp [act, h]

/-- An effect that leaves the state alone. -/
theorem act_idle {eff : State → State} {s : State} (h : s.clk.power = true) (e : eff s = s) :
    act eff s = .next (settle s) := by
  rw [act_powered eff h, e]

/-- An event whose condition holds, and one whose condition does not. -/
theorem whenever_true (eff : State → State) (s : State) : whenever true eff s = eff s := rfl
theorem whenever_false (eff : State → State) (s : State) : whenever false eff s = s := rfl

/-- An event of the backup domain runs unpowered too (R226). -/
theorem domainAct_off (eff : State → State) {s : State} (h : s.clk.power = false) : domainAct eff s = .next (eff s) := by
  simp [domainAct, h]
theorem domainAct_on (eff : State → State) {s : State} (h : s.clk.power = true) :
    domainAct eff s = .next (settle (eff s)) := by
  simp [domainAct, h]

/-- STATUS as compared is STATUS as its sources stand, once it has followed them. -/
theorem settle_last (s : State) : (settle s).att.last = status (settle s) := rfl

/-- What has risen is counted, and shown to every session (R373). -/
theorem settle_rose (s : State) (i : Fin 4) :
    (settle s).att.rose[i.val] = s.att.rose[i.val] ||| (status s &&& ~~~s.att.last) := by
  simp [settle]

end Sys2Proof.Laws
end

