-- ==== Sys2Proof/Laws/Doubt.lean ====
section
/-! SUPPORT. What raising an entry and taking a MODULE doubt change, and what they leave alone. -/
namespace Sys2Proof.Laws

open Sys2Proof.Machine Sys2Proof.Safety

/-- An entry changes the recorder alone (R332). -/
theorem raiseEntry_only (e : Entry) (s : State) : ∃ v, raiseEntry e s = { s with evr := v } := by
  unfold raiseEntry
  split
  · exact ⟨_, rfl⟩
  · split
    · exact ⟨_, rfl⟩
    · split
      · split
        · exact ⟨_, rfl⟩
        · exact ⟨_, rfl⟩
      · exact ⟨_, rfl⟩

theorem note_only (c : BitVec 16) (src : BitVec 8) (a b d : Word) (s : State) : ∃ v, note c src a b d s = { s with evr := v } :=
  raiseEntry_only _ _

/-- The doubt latch, the lanes, the LN block and the frame state are the same. -/
structure SameDoubt (s t : State) : Prop where
  sys : t.sys = s.sys
  lanes : t.lanes = s.lanes
  ln : t.ln = s.ln
  clk : t.clk = s.clk
  state : t.frm.state = s.frm.state

theorem SameDoubt.refl (s : State) : SameDoubt s s := ⟨rfl, rfl, rfl, rfl, rfl⟩
theorem SameDoubt.trans {s t u : State} (a : SameDoubt s t) (b : SameDoubt t u) : SameDoubt s u :=
  ⟨b.sys.trans a.sys, b.lanes.trans a.lanes, b.ln.trans a.ln, b.clk.trans a.clk, b.state.trans a.state⟩

theorem raiseEntry_same (e : Entry) (s : State) : SameDoubt s (raiseEntry e s) := by
  obtain ⟨v, h⟩ := raiseEntry_only e s
  rw [h]; exact ⟨rfl, rfl, rfl, rfl, rfl⟩

theorem note_same (c : BitVec 16) (src : BitVec 8) (a b d : Word) (s : State) : SameDoubt s (note c src a b d s) :=
  raiseEntry_same _ _

theorem assertEvw_same (n : Nat) (s : State) : SameDoubt s (assertEvw n s) := by
  unfold assertEvw; split <;> exact ⟨rfl, rfl, rfl, rfl, rfl⟩

/-- A change made for each number of a list keeps what each keeps. -/
theorem forAll_same (is : List Nat) (f : Nat → State → State) (h : ∀ i s, SameDoubt s (f i s)) (s : State) :
    SameDoubt s (forAll is f s) := by
  unfold forAll
  induction is generalizing s with
  | nil => exact SameDoubt.refl s
  | cons i is ih => exact (h i s).trans (ih (f i s))

theorem pqEnd_same (c : Nat) (ch : EqChan) (e : Rat) (b : Bool) (s : State) : SameDoubt s (pqEnd c ch e b s) := by
  unfold pqEnd
  dsimp only
  split
  all_goals
    have h := note_same
    exact ⟨(h _ _ _ _ _ _).sys, (h _ _ _ _ _ _).lanes, (h _ _ _ _ _ _).ln, (h _ _ _ _ _ _).clk, (h _ _ _ _ _ _).state⟩

theorem eqStop_same (s : State) : SameDoubt s (eqStop s) := by
  have h : ∀ t, SameDoubt t (forAll (where_ 192 fun c => (vget State.chan0 t.eq.chans c).pq ≠ .normal) (fun c s =>
    let ch := vget State.chan0 s.eq.chans c
    assertEvw 40 (pqEnd c ch ch.halfStart true
      { s with eq := { s.eq with chans := vset s.eq.chans c { ch with pq := .normal } } })) t) := by
    intro t
    refine forAll_same _ _ ?_ t
    intro i s
    have a := assertEvw_same 40 (pqEnd i (vget State.chan0 s.eq.chans i) (vget State.chan0 s.eq.chans i).halfStart true
      { s with eq := { s.eq with chans := vset s.eq.chans i { vget State.chan0 s.eq.chans i with pq := .normal } } })
    have b := pqEnd_same i (vget State.chan0 s.eq.chans i) (vget State.chan0 s.eq.chans i).halfStart true
      { s with eq := { s.eq with chans := vset s.eq.chans i { vget State.chan0 s.eq.chans i with pq := .normal } } }
    exact SameDoubt.trans ⟨b.sys, b.lanes, b.ln, b.clk, b.state⟩ a
  unfold eqStop
  dsimp only
  split
  · exact (h s).trans ⟨rfl, rfl, rfl, rfl, rfl⟩
  · exact h s

theorem canStop_same (s : State) : SameDoubt s (canStop s) := by
  have h : ∀ (is : List Nat) (t : State), SameDoubt t (forAll is (fun n s => assertEvw (30 + n) s) t) :=
    fun is t => forAll_same is _ (fun i s => assertEvw_same (30 + i) s) t
  unfold canStop
  dsimp only
  exact ⟨(h _ _).sys, (h _ _).lanes, (h _ _).ln, (h _ _).clk, (h _ _).state⟩

theorem hsbDoubt_same (c : BitVec 16) (s : State) : SameDoubt s (hsbDoubt c s) := by
  unfold hsbDoubt
  dsimp only
  split <;> exact ⟨rfl, rfl, rfl, rfl, rfl⟩

theorem teStop_same (s : State) : SameDoubt s (teStop s) := by
  unfold teStop; exact ⟨rfl, rfl, rfl, rfl, rfl⟩

/-- The first MODULE cause (R25 step 1, R28). -/
theorem moduleDoubt_first (bit : Nat) (code : BitVec 16) (src : BitVec 8) (a b c : Word) (s : State)
    (h : s.sys.latched = false) (hp : inPlinth s = false) :
    (moduleDoubt bit code src a b c s).sys.latched = true
    ∧ (moduleDoubt bit code src a b c s).sys.firstCause = code
    ∧ (moduleDoubt bit code src a b c s).sys.cause = setBit s.sys.cause bit
    ∧ (moduleDoubt bit code src a b c s).sys.doubtCyc = s.clk.cyc
    ∧ (moduleDoubt bit code src a b c s).frm.state = stateInDoubt s
    ∧ (moduleDoubt bit code src a b c s).ln = s.ln
    ∧ ∀ i : Fin 16, ((moduleDoubt bit code src a b c s).lanes[i.val]).mode = .stopped := by
  unfold moduleDoubt
  rw [if_neg (by simp [hp]), if_neg (by simp [h])]
  have key : ∀ t, SameDoubt (latchDoubt bit code s) t → t.sys.latched = true ∧ t.sys.firstCause = code
      ∧ t.sys.cause = setBit s.sys.cause bit ∧ t.sys.doubtCyc = s.clk.cyc ∧ t.frm.state = stateInDoubt s ∧ t.ln = s.ln
      ∧ ∀ i : Fin 16, (t.lanes[i.val]).mode = .stopped := by
    intro t ht
    have h2 : ∀ x, SameDoubt x (hsbDoubt code (canStop (eqStop (teStop x)))) := fun x =>
      (((teStop_same x).trans (eqStop_same _)).trans (canStop_same _)).trans (hsbDoubt_same _ _)
    unfold latchDoubt at ht
    dsimp only at ht
    have h3 := (h2 _).trans ht
    refine ⟨by rw [h3.sys]; rfl, by rw [h3.sys]; rfl, by rw [h3.sys]; rfl, by rw [h3.sys]; rfl, by rw [h3.state]; show (if booting s then FrmState.starting else .halted) = _; simp [stateInDoubt, booting], by rw [h3.ln]; rfl, ?_⟩
    intro i
    rw [h3.lanes]
    simp [lanesStop, modLanes, vmap]
  exact key _ (raiseEntry_same _ _)

/-- A lane fault in a module without doubt (R77, R79). -/
theorem laneFault_first (l : Fin 16) (f : LFault) (pc : Nat) (mac : Bool) (s : State)
    (h : s.sys.latched = false) (hp : inPlinth s = false) (hv : s.ln.fault.valid = false) :
    laneFaults l f.code f.arg pc s (.next (settle (laneFault l f pc mac s))) := by
  refine ⟨_, rfl, ?_⟩
  show _ ∧ _
  unfold laneFault laneFaultIn
  dsimp only
  obtain ⟨a1, a2, a3, a4, a5, a6, a7⟩ := moduleDoubt_first (if f.code = 0x100C#16 then causeControl else causeLane) f.code (BitVec.ofNat 8 l.val) (w l.val) (w pc) f.arg
    (modLane l (fun ln => { ln with lastIssue := some s.clk.cyc }) { s with ln := { s.ln with fault := latchFault (activeHalf s l.val) l.val f pc mac s } }) h hp
  refine ⟨a1, a2, a4, a5, ?_, ?_, ?_, ?_, ?_, ?_, a7⟩
  all_goals first | (show (moduleDoubt _ _ _ _ _ _ _).ln.fault.valid = true; rw [a6]; simp [modLane, latchFault, hv]) | skip
  all_goals first | (show (moduleDoubt _ _ _ _ _ _ _).ln.fault.code = _; rw [a6]; simp [modLane, latchFault, hv]) | skip
  all_goals first | (show (moduleDoubt _ _ _ _ _ _ _).ln.fault.lane = _; rw [a6]; simp [modLane, latchFault, hv]) | skip
  all_goals first | (show (moduleDoubt _ _ _ _ _ _ _).ln.fault.arg = _; rw [a6]; simp [modLane, latchFault, hv]) | skip
  all_goals first | (show (moduleDoubt _ _ _ _ _ _ _).ln.fault.pc = _; rw [a6]; simp [modLane, latchFault, hv]) | skip
  show (moduleDoubt _ _ _ _ _ _ _).sys.cause = _
  rw [a3]
  by_cases hc : f.code = 0x100C#16 <;> simp [hc, setBit, causeControl, causeLane, modLane]

end Sys2Proof.Laws
end

