-- ==== Sys2Proof/Laws/Host.lean ====
section
/-! SUPPORT. What the shape of a host command does, once for all of them: a command that is judged, one that is not. -/
namespace Sys2Proof.Laws

open Sys2Proof.Machine Sys2Proof.Safety

/-- STATUS that is current stays so: nothing has risen. -/
theorem settle_current {s : State} (h : s.att.last = status s) : settle s = s := by
  have e0 : ∀ x : BitVec 16, x &&& ~~~x = 0 := fun x => by simp
  have e1 : w (popcount16 0#16) = 0 := by decide
  have e2 : s.att.rose.map (· ||| 0#16) = s.att.rose := by
    apply Vector.ext; intro i hi; rw [Vector.getElem_map, BitVec.or_zero]
  unfold settle
  simp only [← h, e0]
  rw [show (0 : BitVec 16) = 0#16 from rfl, e1, e2, show s.att.agen + (0 : Word) = s.att.agen from BitVec.add_zero _]

/-- `answerSession` under `act` is `answered`. -/
theorem act_answer {sid : Fin 4} {ss : Session} {res : Res} {len : Nat} {payload : List Byte} {s' : State} :
    settle (answerSession sid.val ss.ep (nextSeq ss) res len payload s') =
      answered sid ss res len payload s' := rfl

/-- A write that is judged: its role suffices and the module is not in ROM recovery. -/
theorem write_judged {sid : Fin 4} {role : Nat} {upd : Bool} {op : RegOp} {ss : Session} {s : State} (h : heard sid ss s)
    (hr : role ≤ ss.role.val) (hu : recoveryOk upd s = true) :
    act (hostWriteDo sid.val role upd op) s = .next (settle (finishRequest sid.val ss.ep (nextSeq ss) (op s).1
      (if (op s).1 = .ok ∨ (op s).1 = .later then 4 else 0) [] (op s).2)) := by
  obtain ⟨h1, h2, h3, h4⟩ := h
  have e : ¬ (ss.role.val < role ∨ (!recoveryOk upd s) = true) := by simp [hu]; omega
  unfold act hostWriteDo
  simp only [h1, h2, h3, h4, if_true, Bool.false_eq_true, if_false, e]

/-- A command that is judged and answered OK. -/
theorem host_ok {sid : Fin 4} {role : Nat} {op : RegOp} {ss : Session} {s s' : State} (h : hostReady sid role ss s)
    (e : op s = (.ok, s')) : act (hostDo sid.val role op) s = .next (answered sid ss .ok 4 [] s') := by
  unfold hostDo
  rw [write_judged h.1 h.2.1 (by simp [recoveryOk, h.2.2]), e]
  rfl

/-- A command that is judged and answered with another result. -/
theorem host_no {sid : Fin 4} {role : Nat} {op : RegOp} {ss : Session} {s s' : State} {r : Res} (h : hostReady sid role ss s)
    (e : op s = (r, s')) (h1 : r ≠ .ok) (h2 : r ≠ .later) :
    act (hostDo sid.val role op) s = .next (answered sid ss r 0 [] s') := by
  unfold hostDo
  rw [write_judged h.1 h.2.1 (by simp [recoveryOk, h.2.2]), e]
  simp only [h1, h2, or_self, if_false, finishRequest]
  rfl

/-- The same for the UPD block, which ROM recovery does not shut. -/
theorem upd_ok {sid : Fin 4} {op : RegOp} {ss : Session} {s s' : State} {role : Nat} (h : heard sid ss s)
    (hr : role ≤ ss.role.val) (e : op s = (.ok, s')) :
    act (hostDoUpd sid.val role op) s = .next (answered sid ss .ok 4 [] s') := by
  unfold hostDoUpd
  rw [write_judged h hr (by simp [recoveryOk]), e]
  rfl

theorem upd_no {sid : Fin 4} {op : RegOp} {ss : Session} {s s' : State} {r : Res} {role : Nat} (h : heard sid ss s)
    (hr : role ≤ ss.role.val) (e : op s = (r, s')) (h1 : r ≠ .ok) (h2 : r ≠ .later) :
    act (hostDoUpd sid.val role op) s = .next (answered sid ss r 0 [] s') := by
  unfold hostDoUpd
  rw [write_judged h hr (by simp [recoveryOk]), e]
  simp only [h1, h2, or_self, if_false, finishRequest]
  rfl

/-- A read with an effect. -/
theorem read_ok {sid : Fin 4} {op : State → Word × State} {ss : Session} {s : State} (h : heard sid ss s) :
    act (hostReadDo sid.val op) s = .next (answered sid ss .ok 4 (wordBytes (op s).1) (op s).2) := by
  obtain ⟨h1, h2, h3, h4⟩ := h
  unfold act hostReadDo
  simp only [h1, h2, h3, h4, if_true, Bool.false_eq_true, if_false]
  rfl

/-- A request of an open session that is executed and answered. -/
theorem session_ok {sid : Fin 4} {op : State → Done} {ss : Session} {s : State} (h : heard sid ss s)
    (hl : (op s).res ≠ .later) :
    act (sessionDo sid.val op) s = .next (answered sid ss (op s).res (op s).len (op s).payload (op s).state) := by
  obtain ⟨h1, h2, h3, h4⟩ := h
  unfold act sessionDo finishDone finishRequest
  simp only [h1, h2, h3, h4, if_true, Bool.false_eq_true, if_false, hl]
  rfl

end Sys2Proof.Laws
end

