-- ==== Sys2Proof/Laws/Lanes.lean ====
section
/-! SUPPORT. What a lane that is ready to issue does with a bundle of one trigger move: the facts that every statement
about a unit operation starts from. -/
namespace Sys2Proof.Laws

open Sys2Proof.Machine Sys2Proof.Safety


theorem foldl_appear_fields (rs : List InFlight) (ln : Lane) :
    (rs.foldl appear ln).pc = ln.pc ∧ (rs.foldl appear ln).repRun = ln.repRun ∧ (rs.foldl appear ln).mac = ln.mac 
    ∧ (rs.foldl appear ln).logs = ln.logs ∧ (rs.foldl appear ln).logDrops = ln.logDrops ∧ (rs.foldl appear ln).mode = ln.mode
    ∧ (rs.foldl appear ln).p.getLsbD 0 = ln.p.getLsbD 0 ∧ (rs.foldl appear ln).step = ln.step ∧ (rs.foldl appear ln).trap = ln.trap := by
  induction rs generalizing ln with
  | nil => simp
  | cons r rs ih =>
    have := ih (appear ln r)
    simp only [List.foldl_cons]
    obtain ⟨a,b,c,d,e,f,g,h1,h2⟩ := this
    refine ⟨a.trans rfl, b.trans rfl, c.trans rfl, d.trans rfl, e.trans rfl, f.trans rfl, g.trans ?_, h1.trans rfl, h2.trans rfl⟩
    simp only [appear]
    split
    · simp only [predWrite]
      split
      · rfl
      · rename_i hne
        have key : ∀ b, (putBit ln.p (r.pred % 8) b).getLsbD 0 = ln.p.getLsbD 0 := by
          intro b
          have h0 : ¬ (r.pred % 8 = 0) := hne
          generalize r.pred % 8 = k at *
          cases b <;> simp [putBit, setBit, clrBit] <;> omega
        split <;> first | exact key _ | rfl
    · rfl

theorem runningLane_ready {l : Fin 16} {s : State} (h : laneReady l s) :
    runningLane s s.lanes[l.val] = s.lanes[l.val] ∧ stoppedNow s s.lanes[l.val] = false := by
  have hc := h.2.1
  have : stoppedNow s s.lanes[l.val] = false := by
    unfold canIssue at hc; unfold stoppedNow
    cases hm : (s.lanes[l.val]).mode <;> simp_all
  exact ⟨by simp [runningLane, this], this⟩

/-- move and issue of a trigger row -/
def mvOf (p : Nat) (t : Word) : Mv := ⟨0, 0, p, .imm t⟩
def isOf (pc p : Nat) (t : Word) : Issue := ⟨pc, 0, 1, [mvOf p t], none, 0, false⟩

theorem issueTrigger_ready {l : Fin 16} {s : State} (h : laneReady l s) (p : Nat) (t : Word)
    (hs : stalls (laneNow l s) [mvOf p t] [(p, t)] = false)
    (hf : stepFault s l { (laneNow l s) with inflight := (s.lanes[l.val]).inflight } (isOf (s.lanes[l.val]).pc p t) [(p, t)] false = none) :
    issueTrigger l p t s =
      (let s' := runLog l [(p, t)] (laneNow l s) (ctlBatons l [(p, t)] (laneNow l s) (s.lanes[l.val]).pc s)
       let s'' := modLane l (fun _ => issueLane s l (isOf (s.lanes[l.val]).pc p t) [(p, t)]
         { (laneNow l s) with logs := (s'.lanes[l.val]).logs, logDrops := (s'.lanes[l.val]).logDrops }) s'
       if (trigger [(p, t)] .ctl).any (·.1 == 0x14) then entryDoubt l.val (entryAfter s l.val (laneNow l s)) s'' else s'') := by
  obtain ⟨hr, hst⟩ := runningLane_ready h
  obtain ⟨_, hc, hrep, hmac, hpc, hp0, hdue⟩ := h
  have hp0' : (present s.lanes[l.val]).p.getLsbD 0 = true := by
    unfold present; rw [(foldl_appear_fields _ _).2.2.2.2.2.2.1]; exact hp0
  have heff : effective (isOf (s.lanes[l.val]).pc p t) (present s.lanes[l.val]) = [mvOf p t] := by
    simp [effective, isOf, guardOk, mvOf, hp0']
  unfold issueTrigger
  have hpc' : decide (4095 < (s.lanes[l.val]).pc) = false := by simp; omega
  simp only [hr, hc, hrep, hmac, hpc', Bool.not_true, Option.isSome_none, Bool.or_self, Bool.false_eq_true, if_false]
  unfold issueMoves
  simp only [hr, settleStop, hst, Bool.false_eq_true, if_false]
  have e1 : (⟨(s.lanes[l.val]).pc, 0, 1, [⟨0, 0, p, Src.imm t⟩], none, 0, false⟩ : Issue) = isOf (s.lanes[l.val]).pc p t := rfl
  simp only [e1, heff]
  have e2 : List.map (fun m => (m.dst, mvValue s l (present s.lanes[l.val]) m)) [mvOf p t] = [(p, t)] := rfl
  simp only [e2]
  have hs' : stalls (present s.lanes[l.val]) [mvOf p t] [(p, t)] = false := hs
  rw [hs']
  have hf' : stepFault s l { (present s.lanes[l.val]) with inflight := (s.lanes[l.val]).inflight } (isOf (s.lanes[l.val]).pc p t) [(p, t)] false = none := hf
  simp only [Bool.false_eq_true, if_false, hf']
  rfl

theorem trigger_single (u : UnitId) (p : Nat) (t : Word) :
    trigger [(p, t)] u = (match trigOf p with | some (v, op) => if v = u then some (op, t) else none | none => none) := by
  unfold trigger
  cases hp : trigOf p with
  | none => simp [List.findSome?, hp]
  | some x => obtain ⟨v, op⟩ := x; by_cases hv : v = u <;> simp [List.findSome?, hp, hv]

theorem dueTrap_now {l : Fin 16} {s : State} (h : laneReady l s) :
    dueTrap { (laneNow l s) with inflight := (s.lanes[l.val]).inflight } = none := by
  have := h.2.2.2.2.2.2
  unfold dueTrap dueOf at *
  unfold laneNow present
  simp only [(foldl_appear_fields _ _).2.2.2.2.2.2.2.1, (foldl_appear_fields _ _).2.2.2.2.2.2.2.2]
  exact this

/-- a trigger of a plain arithmetic unit neither stalls nor faults -/
theorem plain_ok {l : Fin 16} {s : State} (h : laneReady l s) {p : Nat} {t : Word} {u : UnitId} {op : Nat}
    (hp : trigOf p = some (u, op)) (hd : dstOk p = true) (h1 : u ≠ .lsu) (h2 : u ≠ .img) (h3 : u ≠ .dsk) (h4 : u ≠ .ctl) :
    stalls (laneNow l s) [mvOf p t] [(p, t)] = false ∧
    stepFault s l { (laneNow l s) with inflight := (s.lanes[l.val]).inflight } (isOf (s.lanes[l.val]).pc p t) [(p, t)] false = none := by
  have hdue := dueTrap_now h
  have tr : ∀ v, v ≠ u → trigger [(p, t)] v = none := by
    intro v hv; rw [trigger_single, hp]; simp [Ne.symm hv]
  have hss : startsShared (mvOf p t) = false := by
    simp only [startsShared, mvOf, hp]
    cases u <;> simp_all
  refine ⟨?_, ?_⟩
  · simp [stalls, slotsNeeded, mvOf, tr .lsu (Ne.symm h1), tr .img (Ne.symm h2)]
    have : startsShared ⟨0, 0, p, .imm t⟩ = false := hss
    simp [this]
  · have key : ∀ ln : Lane, dueTrap ln = none → stepFault s l ln (isOf (s.lanes[l.val]).pc p t) [(p, t)] false = none := by
      intro ln hdue
      have hpf : portFault (mvOf p t) = none := by simp [portFault, mvOf, hd]
      have heff : effective (isOf (s.lanes[l.val]).pc p t) ln = [mvOf p t] ∨ effective (isOf (s.lanes[l.val]).pc p t) ln = [] := by
        by_cases hg : guardOk ln.p 0 <;> simp [effective, isOf, mvOf, hg]
      unfold stepFault
      have e : (isOf (s.lanes[l.val]).pc p t).moves = [mvOf p t] := rfl
      rcases heff with he | he <;>
        simp [firstFault, returnFault, tr .ctl (Ne.symm h4), he, hss, e, hpf, protectFault, tr .lsu (Ne.symm h1), tr .img (Ne.symm h2), stackFault, tr .dsk (Ne.symm h3), hdue, waitFault, collision, firstPair]
    exact key _ hdue

theorem trig_ge {p : Nat} {u : UnitId} {op : Nat} (hp : trigOf p = some (u, op)) :
    unitOf p = some (u, op) ∧ 0x10 ≤ op ∧ 0x080 ≤ p := by
  unfold trigOf at hp
  split at hp
  · rename_i u' o' hu
    split at hp
    · rename_i ht
      simp only [Option.some.injEq, Prod.mk.injEq] at hp
      obtain ⟨rfl, rfl⟩ := hp
      refine ⟨hu, ?_, ?_⟩
      · cases u' <;> simp [isTrig] at ht <;> omega
      · unfold unitOf at hu; split at hu <;> [cases hu; omega]
    · cases hp
  · cases hp

theorem writePort_trig {p : Nat} {t : Word} {u : UnitId} {op : Nat} (hp : trigOf p = some (u, op)) (ln : Lane) :
    writePort ln (p, t) = ln := by
  obtain ⟨hu, ho, hp8⟩ := trig_ge hp
  unfold writePort
  simp only [hu]
  rw [if_neg (by omega), if_neg (by omega)]
  split <;> first | omega | rfl

/-- A change of the lane that leaves its place in the program alone. -/
def Keeps (g : Lane → Lane) : Prop := ∀ ln, (g ln).pc = ln.pc ∧ (g ln).repRun = ln.repRun ∧ (g ln).mac = ln.mac

theorem onTrigger_keeps (vs : Vals) (u : UnitId) (g : Nat → Word → Lane → Lane) (h : ∀ op t, Keeps (g op t)) :
    Keeps (onTrigger vs u g) := by
  intro ln; unfold onTrigger; split
  · exact h _ _ _
  · simp

/-- What `runArith` leaves alone. -/
theorem runArith_frame (vs : Vals) (a b : Lane) :
    (runArith vs a b).pc = b.pc ∧ (runArith vs a b).repRun = b.repRun ∧ (runArith vs a b).mac = b.mac := by
  have k1 := onTrigger_keeps vs .alu0 (startAlu vs a .alu0) (fun _ _ _ => ⟨rfl, rfl, rfl⟩)
  have k2 := onTrigger_keeps vs .alu1 (startAlu vs a .alu1) (fun _ _ _ => ⟨rfl, rfl, rfl⟩)
  have k3 := onTrigger_keeps vs .mul (startMul vs a) (fun _ _ _ => ⟨rfl, rfl, rfl⟩)
  have k4 := onTrigger_keeps vs .div (startDiv vs a) (fun _ _ _ => ⟨rfl, rfl, rfl⟩)
  have k5 := onTrigger_keeps vs .bcd (startBcd vs a) (fun _ _ _ => ⟨rfl, rfl, rfl⟩)
  have k6 := onTrigger_keeps vs .bit (startBit vs a) (fun _ _ _ => ⟨rfl, rfl, rfl⟩)
  have k7 := onTrigger_keeps vs .cmp (startCmp vs a) (fun _ _ _ => ⟨rfl, rfl, rfl⟩)
  have k8 := onTrigger_keeps vs .fpu (startFpu vs a) (fun _ _ _ => ⟨rfl, rfl, rfl⟩)
  have k9 := onTrigger_keeps vs .crd (startCrd vs a) (fun _ _ _ => ⟨rfl, rfl, rfl⟩)
  unfold runArith
  refine ⟨?_, ?_, ?_⟩
  · rw [(k9 _).1, (k8 _).1, (k7 _).1, (k6 _).1, (k5 _).1, (k4 _).1, (k3 _).1, (k2 _).1, (k1 _).1]
  · rw [(k9 _).2.1, (k8 _).2.1, (k7 _).2.1, (k6 _).2.1, (k5 _).2.1, (k4 _).2.1, (k3 _).2.1, (k2 _).2.1, (k1 _).2.1]
  · rw [(k9 _).2.2, (k8 _).2.2, (k7 _).2.2, (k6 _).2.2, (k5 _).2.2, (k4 _).2.2, (k3 _).2.2, (k2 _).2.2, (k1 _).2.2]

theorem endStall_frame (s : State) (ln : Lane) :
    (endStall s ln).pc = ln.pc ∧ (endStall s ln).repRun = ln.repRun ∧ (endStall s ln).mac = ln.mac := by
  unfold endStall; split <;> simp

theorem now_frame (l : Fin 16) (s : State) :
    (laneNow l s).pc = (s.lanes[l.val]).pc ∧ (laneNow l s).repRun = (s.lanes[l.val]).repRun ∧ (laneNow l s).mac = (s.lanes[l.val]).mac := by
  unfold laneNow present
  simp only [(foldl_appear_fields _ _).1, (foldl_appear_fields _ _).2.1, (foldl_appear_fields _ _).2.2.1, and_self]

/-- The units' part of an issued trigger, on a lane whose stall has ended: `now` is the lane as the step begins. -/
def unitsPart (s : State) (vs : Vals) (now ln : Lane) : Lane :=
  runSys s vs (runImg s vs now (runLsu s vs now (runStack vs (runArith vs now ln))))

theorem now_logs (l : Fin 16) (s : State) :
    (s.lanes[l.val]).logs = (laneNow l s).logs ∧ (s.lanes[l.val]).logDrops = (laneNow l s).logDrops := by
  unfold laneNow present
  simp only [(foldl_appear_fields _ _).2.2.2.1, (foldl_appear_fields _ _).2.2.2.2.1, and_self]

/-- A trigger that is no transfer, no repetition and no LOG, and neither stalls nor faults. -/
theorem issue_plain {l : Fin 16} {s : State} (h : laneReady l s) {p : Nat} {t : Word} {u : UnitId} {op : Nat}
    (hp : trigOf p = some (u, op)) (h4 : u ≠ .ctl) (h6 : u ≠ .rep) (hlog : u = .sys → op ≠ 0x13)
    (hs : stalls (laneNow l s) [mvOf p t] [(p, t)] = false)
    (hf : stepFault s l { (laneNow l s) with inflight := (s.lanes[l.val]).inflight } (isOf (s.lanes[l.val]).pc p t) [(p, t)] false = none)
    (hrep : (unitsPart s [(p, t)] (laneNow l s) (endStall s (laneNow l s))).repRun = .none) :
    act (issueTrigger l p t) s = .next (laneStep l (unitsPart s [(p, t)] (laneNow l s)) s) := by
  have tr : ∀ v, v ≠ u → trigger [(p, t)] v = none := by
    intro v hv; rw [trigger_single, hp]; simp [Ne.symm hv]
  unfold act
  rw [issueTrigger_ready h p t hs hf]
  simp only [h.1, if_true, laneStep]
  have hl : runLog l [(p, t)] (laneNow l s) (ctlBatons l [(p, t)] (laneNow l s) (s.lanes[l.val]).pc s) = s := by
    have h1 : ctlBatons l [(p, t)] (laneNow l s) (s.lanes[l.val]).pc s = s := by simp [ctlBatons, tr .ctl (Ne.symm h4)]
    rw [h1]
    unfold runLog
    rw [trigger_single, hp]
    by_cases hu : u = .sys
    · subst hu
      simp only [if_true]
      split
      · rename_i _ _ heq
        simp only [Option.some.injEq, Prod.mk.injEq] at heq
        exact absurd heq.1 (hlog rfl)
      · rfl
    · simp [hu]
  simp only [hl, tr .ctl (Ne.symm h4), Option.any_none, Bool.false_eq_true, if_false]
  congr 2
  unfold modLane
  congr 2
  rw [(now_logs l s).1, (now_logs l s).2]
  show issueLane s l _ _ (laneNow l s) = afterStep s _ _ _
  have e : ∀ a : Lane, a.repRun = .none →
      countStep s (runCtl s l (isOf (s.lanes[l.val]).pc p t) [(p, t)] (advance (isOf (s.lanes[l.val]).pc p t)
        { a with lastPc := (s.lanes[l.val]).pc, lastMacro := false
                 slotsCur := if a.cls = 3 then a.slotsCur else a.slotsCur + 1 })) =
      { a with pc := (s.lanes[l.val]).pc + 1, lastPc := (s.lanes[l.val]).pc, lastMacro := false
               slotsCur := if a.cls = 3 then a.slotsCur else a.slotsCur + 1
               step := a.step + 1, lastIssue := some s.clk.cyc } := by
    intro a hr
    simp only [runCtl, tr .ctl (Ne.symm h4), advance, isOf, hr, countStep]
  have hrt : repTrigger [(p, t)] = none := by
    simp [repTrigger, isTransfer, tr .ctl (Ne.symm h4), tr .rep (Ne.symm h6)]
  have hrr : ∀ is ln, runRep is [(p, t)] ln = ln := by intro is ln; simp [runRep, hrt]
  unfold issueLane
  simp only [hrr, List.foldl_cons, List.foldl_nil, writePort_trig hp]
  exact e _ hrep

theorem start_arith {l : Fin 16} {s : State} (h : laneReady l s) {p : Nat} {t : Word} {u : UnitId} {op : Nat}
    (hp : trigOf p = some (u, op)) (hd : dstOk p = true) (h1 : u ≠ .lsu) (h2 : u ≠ .img) (h3 : u ≠ .dsk) (h4 : u ≠ .ctl)
    (h5 : u ≠ .sys) (h6 : u ≠ .rep) :
    act (issueTrigger l p t) s = .next (laneStep l (runArith [(p, t)] (laneNow l s)) s) := by
  obtain ⟨a, b⟩ := plain_ok (t := t) h hp hd h1 h2 h3 h4
  have tr : ∀ v, v ≠ u → trigger [(p, t)] v = none := by
    intro v hv; rw [trigger_single, hp]; simp [Ne.symm hv]
  have hst : ∀ ln, runStack [(p, t)] ln = ln := by intro ln; simp [runStack, tr .dsk (Ne.symm h3)]
  have hls : ∀ ln0 ln, runLsu s [(p, t)] ln0 ln = ln := by intro ln0 ln; simp [runLsu, tr .lsu (Ne.symm h1)]
  have him : ∀ ln0 ln, runImg s [(p, t)] ln0 ln = ln := by intro ln0 ln; simp [runImg, tr .img (Ne.symm h2)]
  have hsy : ∀ ln, runSys s [(p, t)] ln = ln := by intro ln; simp [runSys, tr .sys (Ne.symm h5)]
  have hu : unitsPart s [(p, t)] (laneNow l s) = runArith [(p, t)] (laneNow l s) := by
    funext ln; simp only [unitsPart, hst, hls, him, hsy]
  rw [issue_plain h hp h4 h6 (fun e => absurd e h5) a b, hu]
  rw [hu, (runArith_frame _ _ _).2.1, (endStall_frame _ _).2.1]
  exact (now_frame l s).2.1.trans h.2.2.1

/-- A port operand of a unit in such a step is what the port holds. -/
theorem opnd_now {l : Fin 16} {s : State} {p : Nat} {t : Word} {u : UnitId} {op : Nat} (hp : trigOf p = some (u, op))
    (v : UnitId) :
    opnd (laneNow l s) [(p, t)] v 0 = (unitNow l v s).o1 ∧ opnd (laneNow l s) [(p, t)] v 1 = (unitNow l v s).o2
    ∧ opnd (laneNow l s) [(p, t)] v 2 = (unitNow l v s).o3 := by
  have hm : ∀ k, k < 3 → moved [(p, t)] (unitBase v + k) = none := by
    intro k hk
    have hne : (p == unitBase v + k) = false := by
      by_contra hc
      have e : p = unitBase v + k := by simpa using hc
      subst e
      interval_cases k <;> cases v <;> simp [unitBase, trigOf, unitOf, isTrig] at hp
    simp [moved, List.find?, hne]
  refine ⟨?_, ?_, ?_⟩ <;> (unfold opnd; rw [hm _ (by decide)]; rfl)

/-- The trigger of such a step, unit by unit. -/
theorem tr_own {p : Nat} {t : Word} {u : UnitId} {op : Nat} (hp : trigOf p = some (u, op)) :
    trigger [(p, t)] u = some (op, t) := by rw [trigger_single, hp]; simp
theorem tr_other {p : Nat} {t : Word} {u v : UnitId} {op : Nat} (hp : trigOf p = some (u, op)) (hv : v ≠ u) :
    trigger [(p, t)] v = none := by rw [trigger_single, hp]; simp [Ne.symm hv]

/-- The lane on which the faults of the step are judged: the trap is judged before the results appear. -/
def atFault (l : Fin 16) (s : State) : Lane := { (laneNow l s) with inflight := (s.lanes[l.val]).inflight }

/-- The fault of a step with one legal trigger move: a bad return entry, a forbidden access, a stack fault or a WAIT
past its deadline. -/
theorem stepFault_one {l : Fin 16} {s : State} (h : laneReady l s) {p : Nat} {t : Word} (hd : dstOk p = true) :
    stepFault s l (atFault l s) (isOf (s.lanes[l.val]).pc p t) [(p, t)] false =
    firstFault [returnFault (atFault l s) [(p, t)], protectFault s l (atFault l s) [(p, t)], stackFault (atFault l s) [(p, t)],
      waitFault s l (atFault l s) (isOf (s.lanes[l.val]).pc p t) [(p, t)]] := by
  have hdue : dueTrap (atFault l s) = none := dueTrap_now h
  generalize atFault l s = ln at *
  have hpf : portFault (mvOf p t) = none := by simp [portFault, mvOf, hd]
  have heff : effective (isOf (s.lanes[l.val]).pc p t) ln = [mvOf p t] ∨ effective (isOf (s.lanes[l.val]).pc p t) ln = [] := by
    by_cases hg : guardOk ln.p 0 <;> simp [effective, isOf, mvOf, hg]
  have e : (isOf (s.lanes[l.val]).pc p t).moves = [mvOf p t] := rfl
  have hle : (List.filter startsShared [mvOf p t]).length ≤ 1 := (List.length_filter_le _ _).trans (by simp)
  unfold stepFault
  have h1 : ¬ 1 < (List.filter startsShared [mvOf p t]).length := by omega
  rcases heff with he | he <;>
    simp only [firstFault, he, e, hpf, hdue, collision, firstPair, List.findSome?, Option.map_none, h1, if_false, Bool.false_eq_true, id] <;>
    (cases returnFault ln [(p, t)] <;> cases protectFault s l ln [(p, t)] <;> cases stackFault ln [(p, t)] <;> cases waitFault s l ln (isOf (s.lanes[l.val]).pc p t) [(p, t)] <;> simp)

/-- A trigger that faults. -/
theorem issueTrigger_fault {l : Fin 16} {s : State} (h : laneReady l s) (p : Nat) (t : Word) (f : LFault)
    (hs : stalls (laneNow l s) [mvOf p t] [(p, t)] = false)
    (hf : stepFault s l (atFault l s) (isOf (s.lanes[l.val]).pc p t) [(p, t)] false = some f) :
    act (issueTrigger l p t) s = .next (settle (laneFault l f (s.lanes[l.val]).pc false s)) := by
  obtain ⟨hr, hst⟩ := runningLane_ready h
  have hpow := h.1
  obtain ⟨_, hc, hrep, hmac, hpc, hp0, hdue⟩ := h
  have hp0' : (present s.lanes[l.val]).p.getLsbD 0 = true := by
    unfold present; rw [(foldl_appear_fields _ _).2.2.2.2.2.2.1]; exact hp0
  have heff : effective (isOf (s.lanes[l.val]).pc p t) (present s.lanes[l.val]) = [mvOf p t] := by
    simp [effective, isOf, guardOk, mvOf, hp0']
  unfold act issueTrigger
  have hpc' : decide (4095 < (s.lanes[l.val]).pc) = false := by simp; omega
  simp only [hpow, hr, hc, hrep, hmac, hpc', Bool.not_true, Option.isSome_none, Bool.or_self, Bool.false_eq_true, if_false, if_true]
  unfold issueMoves
  simp only [hr, settleStop, hst, Bool.false_eq_true, if_false]
  have e1 : (⟨(s.lanes[l.val]).pc, 0, 1, [⟨0, 0, p, Src.imm t⟩], none, 0, false⟩ : Issue) = isOf (s.lanes[l.val]).pc p t := rfl
  simp only [e1, heff]
  have e2 : List.map (fun m => (m.dst, mvValue s l (present s.lanes[l.val]) m)) [mvOf p t] = [(p, t)] := rfl
  simp only [e2]
  have hs' : stalls (present s.lanes[l.val]) [mvOf p t] [(p, t)] = false := hs
  rw [hs']
  have hf' : stepFault s l { (present s.lanes[l.val]) with inflight := (s.lanes[l.val]).inflight } (isOf (s.lanes[l.val]).pc p t) [(p, t)] false = some f := hf
  simp only [Bool.false_eq_true, if_false, hf']
  rfl

/-- A trigger that stalls: the lane holds, and no step passes (R71, R72). -/
theorem issueTrigger_stall {l : Fin 16} {s : State} (h : laneReady l s) (p : Nat) (t : Word)
    (hs : stalls (laneNow l s) [mvOf p t] [(p, t)] = true) :
    act (issueTrigger l p t) s = .next (settle (modLane l (beginStall s) s)) := by
  obtain ⟨hr, hst⟩ := runningLane_ready h
  have hpow := h.1
  obtain ⟨_, hc, hrep, hmac, hpc, hp0, hdue⟩ := h
  have hp0' : (present s.lanes[l.val]).p.getLsbD 0 = true := by
    unfold present; rw [(foldl_appear_fields _ _).2.2.2.2.2.2.1]; exact hp0
  have heff : effective (isOf (s.lanes[l.val]).pc p t) (present s.lanes[l.val]) = [mvOf p t] := by
    simp [effective, isOf, guardOk, mvOf, hp0']
  unfold act issueTrigger
  have hpc' : decide (4095 < (s.lanes[l.val]).pc) = false := by simp; omega
  simp only [hpow, hr, hc, hrep, hmac, hpc', Bool.not_true, Option.isSome_none, Bool.or_self, Bool.false_eq_true, if_false, if_true]
  unfold issueMoves
  simp only [hr, settleStop, hst, Bool.false_eq_true, if_false]
  have e1 : (⟨(s.lanes[l.val]).pc, 0, 1, [⟨0, 0, p, Src.imm t⟩], none, 0, false⟩ : Issue) = isOf (s.lanes[l.val]).pc p t := rfl
  simp only [e1, heff]
  have e2 : List.map (fun m => (m.dst, mvValue s l (present s.lanes[l.val]) m)) [mvOf p t] = [(p, t)] := rfl
  simp only [e2]
  have hs' : stalls (present s.lanes[l.val]) [mvOf p t] [(p, t)] = true := hs
  rw [hs']
  rfl

end Sys2Proof.Laws
end

