-- ==== Sys2Proof/Laws/Sparse.lean ====
section
/-! SUPPORT. Sparse storage: a read after a write, and that every operation keeps the canonical form. -/
namespace Sys2Proof.Laws

open Sys2Proof.Machine

variable {β : Type} [DecidableEq β]

/-- A lower bound of the keys may be lowered. -/
theorem swfFrom_mono {d : Nat → β} {lo lo' : Nat} (h : lo' ≤ lo) :
    ∀ {m : List (Nat × β)}, swfFrom d lo m = true → swfFrom d lo' m = true
  | [], _ => rfl
  | (k, v) :: t, hm => by
    simp only [swfFrom, Bool.and_eq_true, decide_eq_true_eq] at hm ⊢
    exact ⟨⟨by omega, hm.1.2⟩, hm.2⟩

/-- Below every key of a canonical list, the default is read. -/
theorem sget_below {d : Nat → β} :
    ∀ {m : List (Nat × β)} {lo k : Nat}, swfFrom d lo m = true → k < lo → sget d m k = d k
  | [], _, _, _, _ => rfl
  | (k', v) :: t, lo, k, hm, hk => by
    simp only [swfFrom, Bool.and_eq_true, decide_eq_true_eq] at hm
    have hne : k ≠ k' := by omega
    simp only [sget, hne, if_false]
    exact sget_below hm.2 (by omega)

/-- A write keeps the canonical form. -/
theorem swfFrom_sput {d : Nat → β} (k : Nat) (v : β) :
    ∀ {m : List (Nat × β)} {lo : Nat}, swfFrom d lo m = true → lo ≤ k → swfFrom d lo (sput d k v m) = true
  | [], lo, _, hk => by
    unfold sput
    split
    · rfl
    · simp [swfFrom, *]
  | (k', v') :: t, lo, hm, hk => by
    have hm' := hm
    simp only [swfFrom, Bool.and_eq_true, decide_eq_true_eq] at hm'
    obtain ⟨⟨h1, h2⟩, h3⟩ := hm'
    unfold sput
    split
    · rename_i hlt
      split
      · exact hm
      · rename_i hv
        simp only [swfFrom, Bool.and_eq_true, decide_eq_true_eq]
        exact ⟨⟨hk, hv⟩, ⟨by omega, h2⟩, h3⟩
    · split
      · rename_i heq
        split
        · exact swfFrom_mono (by omega) h3
        · rename_i hv
          simp only [swfFrom, Bool.and_eq_true, decide_eq_true_eq]
          subst heq
          exact ⟨⟨hk, hv⟩, h3⟩
      · simp only [swfFrom, Bool.and_eq_true, decide_eq_true_eq]
        exact ⟨⟨h1, h2⟩, swfFrom_sput k v h3 (by omega)⟩

theorem swf_sput {d : Nat → β} (k : Nat) (v : β) {m : List (Nat × β)} (h : swf d m = true) : swf d (sput d k v m) = true :=
  swfFrom_sput k v h (Nat.zero_le _)

/-- A read after a write: the value written at its key, and what was there before at every other key. -/
theorem sget_sput {d : Nat → β} (k : Nat) (v : β) (j : Nat) :
    ∀ {m : List (Nat × β)} {lo : Nat}, swfFrom d lo m = true → sget d (sput d k v m) j = if j = k then v else sget d m j
  | [], _, _ => by
    unfold sput
    by_cases hj : j = k <;> by_cases hv : v = d k <;> simp [sget, hj, hv]
  | (k', v') :: t, lo, hm => by
    have hm' := hm
    simp only [swfFrom, Bool.and_eq_true, decide_eq_true_eq] at hm'
    obtain ⟨⟨h1, h2⟩, h3⟩ := hm'
    unfold sput
    split
    · rename_i hlt
      split
      · rename_i hv
        by_cases hj : j = k
        · subst hj
          rw [if_pos rfl, hv]
          exact sget_below (lo := k') (by simp only [swfFrom, Bool.and_eq_true, decide_eq_true_eq]; exact ⟨⟨Nat.le_refl _, h2⟩, h3⟩) hlt
        · simp [hj]
      · by_cases hj : j = k <;> simp [sget, hj]
    · rename_i hge
      split
      · rename_i heq
        subst heq
        split
        · rename_i hv
          by_cases hj : j = k
          · subst hj; rw [if_pos rfl, hv]; exact sget_below h3 (by omega)
          · simp [sget, hj]
        · by_cases hj : j = k <;> simp [sget, hj]
      · rename_i hne
        by_cases hj : j = k'
        · subst hj
          simp [sget, Ne.symm hne]
        · simp only [sget, hj, if_false]
          exact sget_sput k v j h3

/-- Writing a run of values keeps the canonical form. -/
theorem swf_sputs {d : Nat → β} :
    ∀ (vs : List β) (k : Nat) {m : List (Nat × β)}, swf d m = true → swf d (sputs d k vs m) = true
  | [], _, _, h => h
  | v :: vs, k, _, h => swf_sputs vs (k + 1) (swf_sput k v h)

/-- A read after writing a run of values. -/
theorem sget_sputs {d : Nat → β} (j : Nat) :
    ∀ (vs : List β) (k : Nat) {m : List (Nat × β)}, swf d m = true →
      sget d (sputs d k vs m) j = if h : k ≤ j ∧ j < k + vs.length then vs[j - k]'(by omega) else sget d m j
  | [], k, m, h => by
    rw [dif_neg (by simp only [List.length_nil]; omega)]; rfl
  | v :: vs, k, m, h => by
    have hc := swf_sput k v h
    show sget d (sputs d (k + 1) vs (sput d k v m)) j = _
    rw [sget_sputs j vs (k + 1) hc, sget_sput k v j h]
    by_cases hj : j = k
    · subst hj
      rw [dif_neg (by omega), dif_pos (by simp only [List.length_cons]; omega)]
      simp
    · by_cases hr : k + 1 ≤ j ∧ j < k + 1 + vs.length
      · rw [dif_pos hr, dif_pos (by simp only [List.length_cons]; omega)]
        have : j - k = (j - (k + 1)) + 1 := by omega
        simp only [this, List.getElem_cons_succ]
      · rw [dif_neg hr, dif_neg (by simp only [List.length_cons]; omega), if_neg hj]

/-- Clearing a range keeps the canonical form. -/
theorem swfFrom_sclear {d : Nat → β} (a b : Nat) :
    ∀ {m : List (Nat × β)} {lo : Nat}, swfFrom d lo m = true → swfFrom d lo (sclear a b m) = true
  | [], _, _ => rfl
  | (k, v) :: t, lo, hm => by
    simp only [swfFrom, Bool.and_eq_true, decide_eq_true_eq] at hm
    unfold sclear
    split
    · exact swfFrom_mono (by omega) (swfFrom_sclear a b hm.2)
    · simp only [swfFrom, Bool.and_eq_true, decide_eq_true_eq]
      exact ⟨hm.1, swfFrom_sclear a b hm.2⟩

theorem swf_sclear {d : Nat → β} (a b : Nat) {m : List (Nat × β)} (h : swf d m = true) : swf d (sclear a b m) = true :=
  swfFrom_sclear a b h

/-- The memories of the module right after reset are in canonical form. -/
theorem memory_wf_reset : Memory.wf State.reset = true := by
  unfold Memory.wf
  have h : swf zeroByte State.nvs0.mem = true := swf_sputs _ _ rfl
  simp only [State.reset, Bool.and_eq_true]
  refine ⟨⟨⟨⟨⟨⟨⟨rfl, rfl⟩, ?_⟩, h⟩, rfl⟩, rfl⟩, rfl⟩, rfl⟩
  simp [Vector.all_replicate, State.lane0, swf, swfFrom]

end Sys2Proof.Laws
end

