-- ==== Sys2Proof/Laws/LaneMem.lean ====
section
/-! SUPPORT. What a lane that is ready to issue does with a trigger of LSU, IMG, DSK and SYS: when it stalls, when it
faults, and the lane it answers otherwise. -/
namespace Sys2Proof.Laws

open Sys2Proof.Machine Sys2Proof.Safety

/-- Appearing results change the units, the predicates and the operations in flight alone. -/
theorem present_only (ln : Lane) :
    ∃ u p, present ln = { ln with inflight := ln.inflight.filter fun r => decide (ln.step < r.due), units := u, p := p } := by
  have h : ∀ (rs : List InFlight) (a : Lane), ∃ u p, rs.foldl appear a = { a with units := u, p := p } := by
    intro rs
    induction rs with
    | nil => intro a; exact ⟨_, _, rfl⟩
    | cons r rs ih =>
      intro a
      obtain ⟨u, p, e⟩ := ih (appear a r)
      exact ⟨u, p, by rw [List.foldl_cons, e]; rfl⟩
  obtain ⟨u, p, e⟩ := h (dueOf ln) { ln with inflight := ln.inflight.filter fun r => decide (ln.step < r.due) }
  exact ⟨u, p, e⟩

/-- The end of a stall changes its start and its count alone. -/
theorem endStall_only (s : State) (ln : Lane) : ∃ a b, endStall s ln = { ln with stallFrom := a, stallCur := b } := by
  unfold endStall; split
  · exact ⟨_, _, rfl⟩
  · exact ⟨_, _, rfl⟩

/-- The lane as its step begins, field by field. -/
theorem endStall_now (l : Fin 16) (s : State) : ∃ i u p a b, endStall s (laneNow l s) =
    { s.lanes[l.val] with inflight := i, units := u, p := p, stallFrom := a, stallCur := b } := by
  obtain ⟨u, p, e⟩ := present_only s.lanes[l.val]
  obtain ⟨a, b, e2⟩ := endStall_only s (laneNow l s)
  exact ⟨_, u, p, a, b, by rw [e2]; unfold laneNow; rw [e]⟩

theorem laneNow_only (l : Fin 16) (s : State) : ∃ i u p, laneNow l s =
    { s.lanes[l.val] with inflight := i, units := u, p := p } := by
  obtain ⟨u, p, e⟩ := present_only s.lanes[l.val]
  exact ⟨_, u, p, e⟩

theorem laneStep_congr {l : Fin 16} {f g : Lane → Lane} {s : State}
    (h : f (endStall s (laneNow l s)) = g (endStall s (laneNow l s))) : laneStep l f s = laneStep l g s := by
  unfold laneStep modLane afterStep
  have h' : f (endStall s (present s.lanes[l.val])) = g (endStall s (present s.lanes[l.val])) := h
  simp only [h']

/-! ### The bytes of a word -/

theorem stored_sputs (m : List (Nat × Byte)) (a n : Nat) (x : Word) (bs : List Byte) (hl : bs.length = n)
    (hb : ∀ i (h : i < n), bs[i]'(by omega) = byteOf x i) : stored m (sputs zeroByte a bs m) a n x := by
  intro h
  refine ⟨swf_sputs _ _ h, ?_⟩
  intro b
  rw [sget_sputs b bs a h]
  by_cases hc : a ≤ b ∧ b < a + n
  · rw [dif_pos (by omega), if_pos hc, hb (b-a) (by omega)]
  · rw [dif_neg (by omega), if_neg hc]

theorem leBytes_length (n x : Nat) : (leBytes n x).length = n := by
  induction n generalizing x with
  | zero => rfl
  | succ n ih => simp [leBytes, ih]

theorem leBytes_byteOf (x : Word) (n : Nat) (hn : n ≤ 4) (i : Nat) (h : i < n) :
    (leBytes n x.toNat)[i]'(by rw [leBytes_length]; exact h) = byteOf x i := by
  apply BitVec.eq_of_toNat_eq
  interval_cases n <;> interval_cases i <;>
    (simp [leBytes, byteOf, BitVec.extractLsb'_toNat, Nat.shiftRight_eq_div_pow]; try omega)

theorem leNat_toNat (m : List (Nat × Byte)) (a : Nat) :
    leNat (sgets zeroByte m a 1) = (sget zeroByte m a).toNat
    ∧ leNat (sgets zeroByte m a 2) = (sget zeroByte m a).toNat + 256 * (sget zeroByte m (a + 1)).toNat
    ∧ leNat (sgets zeroByte m a 4) = (sget zeroByte m a).toNat + 256 * (sget zeroByte m (a + 1)).toNat
      + 65536 * (sget zeroByte m (a + 2)).toNat + 16777216 * (sget zeroByte m (a + 3)).toNat := by
  refine ⟨?_, ?_, ?_⟩ <;> simp [sgets, leNat] <;> ring

theorem cat_toNat {n m : Nat} (a : BitVec n) (b : BitVec m) : (a ++ b).toNat = a.toNat * 2 ^ m + b.toNat := by
  rw [BitVec.toNat_append, ← Nat.shiftLeft_add_eq_or_of_lt b.isLt, Nat.shiftLeft_eq]

theorem word_read (m : List (Nat × Byte)) (a : Nat) :
    BitVec.ofNat 32 (leNat (sgets zeroByte m a 4)) =
      (sget zeroByte m (a + 3) ++ sget zeroByte m (a + 2) ++ sget zeroByte m (a + 1) ++ sget zeroByte m a : BitVec 32) := by
  apply BitVec.eq_of_toNat_eq
  rw [(leNat_toNat m a).2.2, BitVec.toNat_ofNat]
  have h1 := (sget zeroByte m a).isLt
  have h2 := (sget zeroByte m (a + 1)).isLt
  have h3 := (sget zeroByte m (a + 2)).isLt
  have h4 := (sget zeroByte m (a + 3)).isLt
  simp only [cat_toNat]
  omega

theorem half_read (m : List (Nat × Byte)) (a : Nat) :
    BitVec.ofNat 32 (leNat (sgets zeroByte m a 2)) =
      (0#16 ++ (sget zeroByte m (a + 1) ++ sget zeroByte m a) : BitVec 32) := by
  apply BitVec.eq_of_toNat_eq
  rw [(leNat_toNat m a).2.1, BitVec.toNat_ofNat]
  have h1 := (sget zeroByte m a).isLt
  have h2 := (sget zeroByte m (a + 1)).isLt
  simp only [cat_toNat, BitVec.toNat_ofNat]
  omega

theorem byte_read (m : List (Nat × Byte)) (a : Nat) :
    BitVec.ofNat 32 (leNat (sgets zeroByte m a 1)) = (0#24 ++ sget zeroByte m a : BitVec 32) := by
  apply BitVec.eq_of_toNat_eq
  rw [(leNat_toNat m a).1, BitVec.toNat_ofNat]
  have h1 := (sget zeroByte m a).isLt
  simp only [cat_toNat, BitVec.toNat_ofNat]
  omega

/-! ### Units one by one -/

/-- The units' part of a trigger of LSU, IMG, DSK or SYS. -/
theorem unitsPart_lsu {s : State} {p : Nat} {t : Word} {op : Nat} (hp : trigOf p = some (.lsu, op)) (now : Lane) :
    unitsPart s [(p, t)] now = runLsu s [(p, t)] now := by
  funext ln
  have tr : ∀ v, v ≠ UnitId.lsu → trigger [(p, t)] v = none := fun v hv => tr_other hp hv
  simp [unitsPart, runArith, onTrigger, runStack, runImg, runSys, tr]

theorem unitsPart_img {s : State} {p : Nat} {t : Word} {op : Nat} (hp : trigOf p = some (.img, op)) (now : Lane) :
    unitsPart s [(p, t)] now = runImg s [(p, t)] now := by
  funext ln
  have tr : ∀ v, v ≠ UnitId.img → trigger [(p, t)] v = none := fun v hv => tr_other hp hv
  simp [unitsPart, runArith, onTrigger, runStack, runLsu, runSys, tr]

theorem unitsPart_dsk {s : State} {p : Nat} {t : Word} {op : Nat} (hp : trigOf p = some (.dsk, op)) (now : Lane) :
    unitsPart s [(p, t)] now = runStack [(p, t)] := by
  funext ln
  have tr : ∀ v, v ≠ UnitId.dsk → trigger [(p, t)] v = none := fun v hv => tr_other hp hv
  simp [unitsPart, runArith, onTrigger, runImg, runLsu, runSys, tr]

theorem unitsPart_sys {s : State} {p : Nat} {t : Word} {op : Nat} (hp : trigOf p = some (.sys, op)) (now : Lane) :
    unitsPart s [(p, t)] now = runSys s [(p, t)] := by
  funext ln
  have tr : ∀ v, v ≠ UnitId.sys → trigger [(p, t)] v = none := fun v hv => tr_other hp hv
  simp [unitsPart, runArith, onTrigger, runImg, runLsu, runStack, tr]

/-- The fault of a step with one trigger of LSU, IMG, DSK or SYS. -/
theorem stepFault_mem {l : Fin 16} {s : State} (h : laneReady l s) {p : Nat} {t : Word} {u : UnitId} {op : Nat}
    (hp : trigOf p = some (u, op)) (hd : dstOk p = true) (h4 : u ≠ .ctl) :
    stepFault s l (atFault l s) (isOf (s.lanes[l.val]).pc p t) [(p, t)] false =
    firstFault [protectFault s l (atFault l s) [(p, t)], stackFault (atFault l s) [(p, t)]] := by
  rw [stepFault_one h hd]
  have e1 : returnFault (atFault l s) [(p, t)] = none := by simp [returnFault, tr_other hp (Ne.symm h4)]
  have e2 : waitFault s l (atFault l s) (isOf (s.lanes[l.val]).pc p t) [(p, t)] = none := by
    simp [waitFault, tr_other hp (Ne.symm h4)]
  rw [e1, e2]
  cases protectFault s l (atFault l s) [(p, t)] <;> cases stackFault (atFault l s) [(p, t)] <;> rfl

/-- Bytes of a scratch access. -/
def accLen (op : Nat) : Nat := if op = 0x10 ∨ op = 0x13 then 4 else if op = 0x11 ∨ op = 0x14 then 2 else 1

/-- A scratch access of LSU. -/
theorem lsu_local {l : Fin 16} {s : State} (h : laneReady l s) (t : Word) (op : Nat) (h1 : 0x10 ≤ op) (h2 : op ≤ 0x15) :
    (localsOk (t.toNat / accLen op * accLen op) (accLen op) = true →
      act (issueTrigger l (0x2C0 + op) t) s = .next (laneStep l (runLsu s [(0x2C0 + op, t)] (laneNow l s)) s))
    ∧ (localsOk (t.toNat / accLen op * accLen op) (accLen op) = false →
      act (issueTrigger l (0x2C0 + op) t) s = .next (settle (laneFault l ⟨0x100B, t, none⟩ (s.lanes[l.val]).pc false s))) := by
  have hp : trigOf (0x2C0 + op) = some (.lsu, op) := by interval_cases op <;> rfl
  have hd : dstOk (0x2C0 + op) = true := by interval_cases op <;> rfl
  have hs : stalls (laneNow l s) [mvOf (0x2C0 + op) t] [(0x2C0 + op, t)] = false := by
    have a1 : op ≠ 0x18 := by omega
    have a2 : op ≠ 0x19 := by omega
    simp [stalls, slotsNeeded, mvOf, tr_own hp, tr_other hp (show UnitId.img ≠ .lsu by decide), startsShared, hp, a1, a2]
  have hpf : protectFault s l (atFault l s) [(0x2C0 + op, t)] =
      if localsOk (t.toNat / accLen op * accLen op) (accLen op) then none else some ⟨0x100B, t, none⟩ := by
    unfold protectFault
    simp only [tr_own hp, tr_other hp (show UnitId.img ≠ .lsu by decide)]
    interval_cases op <;> simp only [accLen] <;> norm_num <;> split <;> simp_all
  have hsf : stackFault (atFault l s) [(0x2C0 + op, t)] = none := by
    simp [stackFault, tr_other hp (show UnitId.dsk ≠ .lsu by decide), tr_other hp (show UnitId.ctl ≠ .lsu by decide)]
  have hf := stepFault_mem (t := t) h hp hd (by decide)
  rw [hpf, hsf] at hf
  refine ⟨fun hl => ?_, fun hl => ?_⟩
  · rw [hl] at hf
    have hu := unitsPart_lsu (s := s) (t := t) hp (laneNow l s)
    rw [issue_plain h hp (by decide) (by decide) (by intro e; cases e) hs hf, hu]
    rw [hu]
    obtain ⟨i, u, p, a, b, e⟩ := endStall_now l s
    rw [e]
    have hr := h.2.2.1
    simp only [runLsu, tr_own hp]
    interval_cases op <;> exact hr
  · rw [hl] at hf
    exact issueTrigger_fault h _ t _ hs hf

end Sys2Proof.Laws
end

