-- ==== Sys2Proof/Laws/State.lean ====
section
/-! SUPPORT. One lemma for each field of the state under each shared update of it: what the update leaves, and what it
writes. -/
namespace Sys2Proof.Laws

open Sys2Proof.Machine

@[simp] theorem settle_pending (s : State) : (settle s).pending = s.pending := rfl
@[simp] theorem settle_clk (s : State) : (settle s).clk = s.clk := rfl
@[simp] theorem settle_sys (s : State) : (settle s).sys = s.sys := rfl
@[simp] theorem settle_frm (s : State) : (settle s).frm = s.frm := rfl
@[simp] theorem settle_lanes (s : State) : (settle s).lanes = s.lanes := rfl
@[simp] theorem settle_ln (s : State) : (settle s).ln = s.ln := rfl
@[simp] theorem settle_plr (s : State) : (settle s).plr = s.plr := rfl
@[simp] theorem settle_mem (s : State) : (settle s).mem = s.mem := rfl
@[simp] theorem settle_ne (s : State) : (settle s).ne = s.ne := rfl
@[simp] theorem settle_tim (s : State) : (settle s).tim = s.tim := rfl
@[simp] theorem settle_rtc (s : State) : (settle s).rtc = s.rtc := rfl
@[simp] theorem settle_eq (s : State) : (settle s).eq = s.eq := rfl
@[simp] theorem settle_fio (s : State) : (settle s).fio = s.fio := rfl
@[simp] theorem settle_can (s : State) : (settle s).can = s.can := rfl
@[simp] theorem settle_hsb (s : State) : (settle s).hsb = s.hsb := rfl
@[simp] theorem settle_nvs (s : State) : (settle s).nvs = s.nvs := rfl
@[simp] theorem settle_evr (s : State) : (settle s).evr = s.evr := rfl
@[simp] theorem settle_key (s : State) : (settle s).key = s.key := rfl
@[simp] theorem settle_hl (s : State) : (settle s).hl = s.hl := rfl
@[simp] theorem settle_upd (s : State) : (settle s).upd = s.upd := rfl
@[simp] theorem settle_pwr (s : State) : (settle s).pwr = s.pwr := rfl
@[simp] theorem settle_tap (s : State) : (settle s).tap = s.tap := rfl
@[simp] theorem settle_persist (s : State) : (settle s).persist = s.persist := rfl
@[simp] theorem settle_regs (s : State) : (settle s).regs = s.regs := rfl
@[simp] theorem settle_act (s : State) : (settle s).act = s.act := rfl
@[simp] theorem settle_rl (s : State) : (settle s).rl = s.rl := rfl
@[simp] theorem settle_fresh (s : State) : (settle s).fresh = s.fresh := rfl
@[simp] theorem setReg_pending (a : Nat) (x : Word) (s : State) : (setReg a x s).pending = s.pending := rfl
@[simp] theorem setReg_clk (a : Nat) (x : Word) (s : State) : (setReg a x s).clk = s.clk := rfl
@[simp] theorem setReg_sys (a : Nat) (x : Word) (s : State) : (setReg a x s).sys = s.sys := rfl
@[simp] theorem setReg_att (a : Nat) (x : Word) (s : State) : (setReg a x s).att = s.att := rfl
@[simp] theorem setReg_frm (a : Nat) (x : Word) (s : State) : (setReg a x s).frm = s.frm := rfl
@[simp] theorem setReg_lanes (a : Nat) (x : Word) (s : State) : (setReg a x s).lanes = s.lanes := rfl
@[simp] theorem setReg_ln (a : Nat) (x : Word) (s : State) : (setReg a x s).ln = s.ln := rfl
@[simp] theorem setReg_plr (a : Nat) (x : Word) (s : State) : (setReg a x s).plr = s.plr := rfl
@[simp] theorem setReg_mem (a : Nat) (x : Word) (s : State) : (setReg a x s).mem = s.mem := rfl
@[simp] theorem setReg_ne (a : Nat) (x : Word) (s : State) : (setReg a x s).ne = s.ne := rfl
@[simp] theorem setReg_tim (a : Nat) (x : Word) (s : State) : (setReg a x s).tim = s.tim := rfl
@[simp] theorem setReg_rtc (a : Nat) (x : Word) (s : State) : (setReg a x s).rtc = s.rtc := rfl
@[simp] theorem setReg_eq (a : Nat) (x : Word) (s : State) : (setReg a x s).eq = s.eq := rfl
@[simp] theorem setReg_fio (a : Nat) (x : Word) (s : State) : (setReg a x s).fio = s.fio := rfl
@[simp] theorem setReg_can (a : Nat) (x : Word) (s : State) : (setReg a x s).can = s.can := rfl
@[simp] theorem setReg_hsb (a : Nat) (x : Word) (s : State) : (setReg a x s).hsb = s.hsb := rfl
@[simp] theorem setReg_nvs (a : Nat) (x : Word) (s : State) : (setReg a x s).nvs = s.nvs := rfl
@[simp] theorem setReg_evr (a : Nat) (x : Word) (s : State) : (setReg a x s).evr = s.evr := rfl
@[simp] theorem setReg_key (a : Nat) (x : Word) (s : State) : (setReg a x s).key = s.key := rfl
@[simp] theorem setReg_hl (a : Nat) (x : Word) (s : State) : (setReg a x s).hl = s.hl := rfl
@[simp] theorem setReg_upd (a : Nat) (x : Word) (s : State) : (setReg a x s).upd = s.upd := rfl
@[simp] theorem setReg_pwr (a : Nat) (x : Word) (s : State) : (setReg a x s).pwr = s.pwr := rfl
@[simp] theorem setReg_tap (a : Nat) (x : Word) (s : State) : (setReg a x s).tap = s.tap := rfl
@[simp] theorem setReg_persist (a : Nat) (x : Word) (s : State) : (setReg a x s).persist = s.persist := rfl
@[simp] theorem setReg_regs (a : Nat) (x : Word) (s : State) : (setReg a x s).regs = sput regReset a x s.regs := rfl
@[simp] theorem setReg_act (a : Nat) (x : Word) (s : State) : (setReg a x s).act = s.act := rfl
@[simp] theorem setReg_rl (a : Nat) (x : Word) (s : State) : (setReg a x s).rl = s.rl := rfl
@[simp] theorem setReg_fresh (a : Nat) (x : Word) (s : State) : (setReg a x s).fresh = s.fresh := rfl
@[simp] theorem shPut_pending (a : Nat) (bs : List Byte) (s : State) : (shPut a bs s).pending = s.pending := rfl
@[simp] theorem shPut_clk (a : Nat) (bs : List Byte) (s : State) : (shPut a bs s).clk = s.clk := rfl
@[simp] theorem shPut_sys (a : Nat) (bs : List Byte) (s : State) : (shPut a bs s).sys = s.sys := rfl
@[simp] theorem shPut_att (a : Nat) (bs : List Byte) (s : State) : (shPut a bs s).att = s.att := rfl
@[simp] theorem shPut_frm (a : Nat) (bs : List Byte) (s : State) : (shPut a bs s).frm = s.frm := rfl
@[simp] theorem shPut_lanes (a : Nat) (bs : List Byte) (s : State) : (shPut a bs s).lanes = s.lanes := rfl
@[simp] theorem shPut_ln (a : Nat) (bs : List Byte) (s : State) : (shPut a bs s).ln = s.ln := rfl
@[simp] theorem shPut_plr (a : Nat) (bs : List Byte) (s : State) : (shPut a bs s).plr = s.plr := rfl
@[simp] theorem shPut_mem (a : Nat) (bs : List Byte) (s : State) : (shPut a bs s).mem = { s.mem with shared := sputs zeroByte a bs s.mem.shared } := rfl
@[simp] theorem shPut_ne (a : Nat) (bs : List Byte) (s : State) : (shPut a bs s).ne = s.ne := rfl
@[simp] theorem shPut_tim (a : Nat) (bs : List Byte) (s : State) : (shPut a bs s).tim = s.tim := rfl
@[simp] theorem shPut_rtc (a : Nat) (bs : List Byte) (s : State) : (shPut a bs s).rtc = s.rtc := rfl
@[simp] theorem shPut_eq (a : Nat) (bs : List Byte) (s : State) : (shPut a bs s).eq = s.eq := rfl
@[simp] theorem shPut_fio (a : Nat) (bs : List Byte) (s : State) : (shPut a bs s).fio = s.fio := rfl
@[simp] theorem shPut_can (a : Nat) (bs : List Byte) (s : State) : (shPut a bs s).can = s.can := rfl
@[simp] theorem shPut_hsb (a : Nat) (bs : List Byte) (s : State) : (shPut a bs s).hsb = s.hsb := rfl
@[simp] theorem shPut_nvs (a : Nat) (bs : List Byte) (s : State) : (shPut a bs s).nvs = s.nvs := rfl
@[simp] theorem shPut_evr (a : Nat) (bs : List Byte) (s : State) : (shPut a bs s).evr = s.evr := rfl
@[simp] theorem shPut_key (a : Nat) (bs : List Byte) (s : State) : (shPut a bs s).key = s.key := rfl
@[simp] theorem shPut_hl (a : Nat) (bs : List Byte) (s : State) : (shPut a bs s).hl = s.hl := rfl
@[simp] theorem shPut_upd (a : Nat) (bs : List Byte) (s : State) : (shPut a bs s).upd = s.upd := rfl
@[simp] theorem shPut_pwr (a : Nat) (bs : List Byte) (s : State) : (shPut a bs s).pwr = s.pwr := rfl
@[simp] theorem shPut_tap (a : Nat) (bs : List Byte) (s : State) : (shPut a bs s).tap = s.tap := rfl
@[simp] theorem shPut_persist (a : Nat) (bs : List Byte) (s : State) : (shPut a bs s).persist = s.persist := rfl
@[simp] theorem shPut_regs (a : Nat) (bs : List Byte) (s : State) : (shPut a bs s).regs = s.regs := rfl
@[simp] theorem shPut_act (a : Nat) (bs : List Byte) (s : State) : (shPut a bs s).act = s.act := rfl
@[simp] theorem shPut_rl (a : Nat) (bs : List Byte) (s : State) : (shPut a bs s).rl = s.rl := rfl
@[simp] theorem shPut_fresh (a : Nat) (bs : List Byte) (s : State) : (shPut a bs s).fresh = s.fresh := rfl
@[simp] theorem nvPut_pending (a : Nat) (bs : List Byte) (s : State) : (nvPut a bs s).pending = s.pending := rfl
@[simp] theorem nvPut_clk (a : Nat) (bs : List Byte) (s : State) : (nvPut a bs s).clk = s.clk := rfl
@[simp] theorem nvPut_sys (a : Nat) (bs : List Byte) (s : State) : (nvPut a bs s).sys = s.sys := rfl
@[simp] theorem nvPut_att (a : Nat) (bs : List Byte) (s : State) : (nvPut a bs s).att = s.att := rfl
@[simp] theorem nvPut_frm (a : Nat) (bs : List Byte) (s : State) : (nvPut a bs s).frm = s.frm := rfl
@[simp] theorem nvPut_lanes (a : Nat) (bs : List Byte) (s : State) : (nvPut a bs s).lanes = s.lanes := rfl
@[simp] theorem nvPut_ln (a : Nat) (bs : List Byte) (s : State) : (nvPut a bs s).ln = s.ln := rfl
@[simp] theorem nvPut_plr (a : Nat) (bs : List Byte) (s : State) : (nvPut a bs s).plr = s.plr := rfl
@[simp] theorem nvPut_mem (a : Nat) (bs : List Byte) (s : State) : (nvPut a bs s).mem = s.mem := rfl
@[simp] theorem nvPut_ne (a : Nat) (bs : List Byte) (s : State) : (nvPut a bs s).ne = s.ne := rfl
@[simp] theorem nvPut_tim (a : Nat) (bs : List Byte) (s : State) : (nvPut a bs s).tim = s.tim := rfl
@[simp] theorem nvPut_rtc (a : Nat) (bs : List Byte) (s : State) : (nvPut a bs s).rtc = s.rtc := rfl
@[simp] theorem nvPut_eq (a : Nat) (bs : List Byte) (s : State) : (nvPut a bs s).eq = s.eq := rfl
@[simp] theorem nvPut_fio (a : Nat) (bs : List Byte) (s : State) : (nvPut a bs s).fio = s.fio := rfl
@[simp] theorem nvPut_can (a : Nat) (bs : List Byte) (s : State) : (nvPut a bs s).can = s.can := rfl
@[simp] theorem nvPut_hsb (a : Nat) (bs : List Byte) (s : State) : (nvPut a bs s).hsb = s.hsb := rfl
@[simp] theorem nvPut_evr (a : Nat) (bs : List Byte) (s : State) : (nvPut a bs s).evr = s.evr := rfl
@[simp] theorem nvPut_key (a : Nat) (bs : List Byte) (s : State) : (nvPut a bs s).key = s.key := rfl
@[simp] theorem nvPut_hl (a : Nat) (bs : List Byte) (s : State) : (nvPut a bs s).hl = s.hl := rfl
@[simp] theorem nvPut_upd (a : Nat) (bs : List Byte) (s : State) : (nvPut a bs s).upd = s.upd := rfl
@[simp] theorem nvPut_pwr (a : Nat) (bs : List Byte) (s : State) : (nvPut a bs s).pwr = s.pwr := rfl
@[simp] theorem nvPut_tap (a : Nat) (bs : List Byte) (s : State) : (nvPut a bs s).tap = s.tap := rfl
@[simp] theorem nvPut_persist (a : Nat) (bs : List Byte) (s : State) : (nvPut a bs s).persist = s.persist := rfl
@[simp] theorem nvPut_regs (a : Nat) (bs : List Byte) (s : State) : (nvPut a bs s).regs = s.regs := rfl
@[simp] theorem nvPut_act (a : Nat) (bs : List Byte) (s : State) : (nvPut a bs s).act = s.act := rfl
@[simp] theorem nvPut_rl (a : Nat) (bs : List Byte) (s : State) : (nvPut a bs s).rl = s.rl := rfl
@[simp] theorem nvPut_fresh (a : Nat) (bs : List Byte) (s : State) : (nvPut a bs s).fresh = s.fresh := rfl
@[simp] theorem modLane_pending (l : Fin 16) (f : Lane → Lane) (s : State) : (modLane l f s).pending = s.pending := rfl
@[simp] theorem modLane_clk (l : Fin 16) (f : Lane → Lane) (s : State) : (modLane l f s).clk = s.clk := rfl
@[simp] theorem modLane_sys (l : Fin 16) (f : Lane → Lane) (s : State) : (modLane l f s).sys = s.sys := rfl
@[simp] theorem modLane_att (l : Fin 16) (f : Lane → Lane) (s : State) : (modLane l f s).att = s.att := rfl
@[simp] theorem modLane_frm (l : Fin 16) (f : Lane → Lane) (s : State) : (modLane l f s).frm = s.frm := rfl
@[simp] theorem modLane_lanes (l : Fin 16) (f : Lane → Lane) (s : State) : (modLane l f s).lanes = s.lanes.set l.val (f s.lanes[l.val]) := rfl
@[simp] theorem modLane_ln (l : Fin 16) (f : Lane → Lane) (s : State) : (modLane l f s).ln = s.ln := rfl
@[simp] theorem modLane_plr (l : Fin 16) (f : Lane → Lane) (s : State) : (modLane l f s).plr = s.plr := rfl
@[simp] theorem modLane_mem (l : Fin 16) (f : Lane → Lane) (s : State) : (modLane l f s).mem = s.mem := rfl
@[simp] theorem modLane_ne (l : Fin 16) (f : Lane → Lane) (s : State) : (modLane l f s).ne = s.ne := rfl
@[simp] theorem modLane_tim (l : Fin 16) (f : Lane → Lane) (s : State) : (modLane l f s).tim = s.tim := rfl
@[simp] theorem modLane_rtc (l : Fin 16) (f : Lane → Lane) (s : State) : (modLane l f s).rtc = s.rtc := rfl
@[simp] theorem modLane_eq (l : Fin 16) (f : Lane → Lane) (s : State) : (modLane l f s).eq = s.eq := rfl
@[simp] theorem modLane_fio (l : Fin 16) (f : Lane → Lane) (s : State) : (modLane l f s).fio = s.fio := rfl
@[simp] theorem modLane_can (l : Fin 16) (f : Lane → Lane) (s : State) : (modLane l f s).can = s.can := rfl
@[simp] theorem modLane_hsb (l : Fin 16) (f : Lane → Lane) (s : State) : (modLane l f s).hsb = s.hsb := rfl
@[simp] theorem modLane_nvs (l : Fin 16) (f : Lane → Lane) (s : State) : (modLane l f s).nvs = s.nvs := rfl
@[simp] theorem modLane_evr (l : Fin 16) (f : Lane → Lane) (s : State) : (modLane l f s).evr = s.evr := rfl
@[simp] theorem modLane_key (l : Fin 16) (f : Lane → Lane) (s : State) : (modLane l f s).key = s.key := rfl
@[simp] theorem modLane_hl (l : Fin 16) (f : Lane → Lane) (s : State) : (modLane l f s).hl = s.hl := rfl
@[simp] theorem modLane_upd (l : Fin 16) (f : Lane → Lane) (s : State) : (modLane l f s).upd = s.upd := rfl
@[simp] theorem modLane_pwr (l : Fin 16) (f : Lane → Lane) (s : State) : (modLane l f s).pwr = s.pwr := rfl
@[simp] theorem modLane_tap (l : Fin 16) (f : Lane → Lane) (s : State) : (modLane l f s).tap = s.tap := rfl
@[simp] theorem modLane_persist (l : Fin 16) (f : Lane → Lane) (s : State) : (modLane l f s).persist = s.persist := rfl
@[simp] theorem modLane_regs (l : Fin 16) (f : Lane → Lane) (s : State) : (modLane l f s).regs = s.regs := rfl
@[simp] theorem modLane_act (l : Fin 16) (f : Lane → Lane) (s : State) : (modLane l f s).act = s.act := rfl
@[simp] theorem modLane_rl (l : Fin 16) (f : Lane → Lane) (s : State) : (modLane l f s).rl = s.rl := rfl
@[simp] theorem modLane_fresh (l : Fin 16) (f : Lane → Lane) (s : State) : (modLane l f s).fresh = s.fresh := rfl
@[simp] theorem modLanes_pending (f : Nat → Lane → Lane) (s : State) : (modLanes f s).pending = s.pending := by rw [modLanes]
@[simp] theorem modLanes_clk (f : Nat → Lane → Lane) (s : State) : (modLanes f s).clk = s.clk := by rw [modLanes]
@[simp] theorem modLanes_sys (f : Nat → Lane → Lane) (s : State) : (modLanes f s).sys = s.sys := by rw [modLanes]
@[simp] theorem modLanes_att (f : Nat → Lane → Lane) (s : State) : (modLanes f s).att = s.att := by rw [modLanes]
@[simp] theorem modLanes_frm (f : Nat → Lane → Lane) (s : State) : (modLanes f s).frm = s.frm := by rw [modLanes]
@[simp] theorem modLanes_lanes (f : Nat → Lane → Lane) (s : State) : (modLanes f s).lanes = vmap s.lanes f := by rw [modLanes]
@[simp] theorem modLanes_ln (f : Nat → Lane → Lane) (s : State) : (modLanes f s).ln = s.ln := by rw [modLanes]
@[simp] theorem modLanes_plr (f : Nat → Lane → Lane) (s : State) : (modLanes f s).plr = s.plr := by rw [modLanes]
@[simp] theorem modLanes_mem (f : Nat → Lane → Lane) (s : State) : (modLanes f s).mem = s.mem := by rw [modLanes]
@[simp] theorem modLanes_ne (f : Nat → Lane → Lane) (s : State) : (modLanes f s).ne = s.ne := by rw [modLanes]
@[simp] theorem modLanes_tim (f : Nat → Lane → Lane) (s : State) : (modLanes f s).tim = s.tim := by rw [modLanes]
@[simp] theorem modLanes_rtc (f : Nat → Lane → Lane) (s : State) : (modLanes f s).rtc = s.rtc := by rw [modLanes]
@[simp] theorem modLanes_eq (f : Nat → Lane → Lane) (s : State) : (modLanes f s).eq = s.eq := by rw [modLanes]
@[simp] theorem modLanes_fio (f : Nat → Lane → Lane) (s : State) : (modLanes f s).fio = s.fio := by rw [modLanes]
@[simp] theorem modLanes_can (f : Nat → Lane → Lane) (s : State) : (modLanes f s).can = s.can := by rw [modLanes]
@[simp] theorem modLanes_hsb (f : Nat → Lane → Lane) (s : State) : (modLanes f s).hsb = s.hsb := by rw [modLanes]
@[simp] theorem modLanes_nvs (f : Nat → Lane → Lane) (s : State) : (modLanes f s).nvs = s.nvs := by rw [modLanes]
@[simp] theorem modLanes_evr (f : Nat → Lane → Lane) (s : State) : (modLanes f s).evr = s.evr := by rw [modLanes]
@[simp] theorem modLanes_key (f : Nat → Lane → Lane) (s : State) : (modLanes f s).key = s.key := by rw [modLanes]
@[simp] theorem modLanes_hl (f : Nat → Lane → Lane) (s : State) : (modLanes f s).hl = s.hl := by rw [modLanes]
@[simp] theorem modLanes_upd (f : Nat → Lane → Lane) (s : State) : (modLanes f s).upd = s.upd := by rw [modLanes]
@[simp] theorem modLanes_pwr (f : Nat → Lane → Lane) (s : State) : (modLanes f s).pwr = s.pwr := by rw [modLanes]
@[simp] theorem modLanes_tap (f : Nat → Lane → Lane) (s : State) : (modLanes f s).tap = s.tap := by rw [modLanes]
@[simp] theorem modLanes_persist (f : Nat → Lane → Lane) (s : State) : (modLanes f s).persist = s.persist := by rw [modLanes]
@[simp] theorem modLanes_regs (f : Nat → Lane → Lane) (s : State) : (modLanes f s).regs = s.regs := by rw [modLanes]
@[simp] theorem modLanes_act (f : Nat → Lane → Lane) (s : State) : (modLanes f s).act = s.act := by rw [modLanes]
@[simp] theorem modLanes_rl (f : Nat → Lane → Lane) (s : State) : (modLanes f s).rl = s.rl := by rw [modLanes]
@[simp] theorem modLanes_fresh (f : Nat → Lane → Lane) (s : State) : (modLanes f s).fresh = s.fresh := by rw [modLanes]
@[simp] theorem modFrm_pending (f : Machine.Frm → Machine.Frm) (s : State) : (modFrm f s).pending = s.pending := rfl
@[simp] theorem modFrm_clk (f : Machine.Frm → Machine.Frm) (s : State) : (modFrm f s).clk = s.clk := rfl
@[simp] theorem modFrm_sys (f : Machine.Frm → Machine.Frm) (s : State) : (modFrm f s).sys = s.sys := rfl
@[simp] theorem modFrm_att (f : Machine.Frm → Machine.Frm) (s : State) : (modFrm f s).att = s.att := rfl
@[simp] theorem modFrm_frm (f : Machine.Frm → Machine.Frm) (s : State) : (modFrm f s).frm = f s.frm := rfl
@[simp] theorem modFrm_lanes (f : Machine.Frm → Machine.Frm) (s : State) : (modFrm f s).lanes = s.lanes := rfl
@[simp] theorem modFrm_ln (f : Machine.Frm → Machine.Frm) (s : State) : (modFrm f s).ln = s.ln := rfl
@[simp] theorem modFrm_plr (f : Machine.Frm → Machine.Frm) (s : State) : (modFrm f s).plr = s.plr := rfl
@[simp] theorem modFrm_mem (f : Machine.Frm → Machine.Frm) (s : State) : (modFrm f s).mem = s.mem := rfl
@[simp] theorem modFrm_ne (f : Machine.Frm → Machine.Frm) (s : State) : (modFrm f s).ne = s.ne := rfl
@[simp] theorem modFrm_tim (f : Machine.Frm → Machine.Frm) (s : State) : (modFrm f s).tim = s.tim := rfl
@[simp] theorem modFrm_rtc (f : Machine.Frm → Machine.Frm) (s : State) : (modFrm f s).rtc = s.rtc := rfl
@[simp] theorem modFrm_eq (f : Machine.Frm → Machine.Frm) (s : State) : (modFrm f s).eq = s.eq := rfl
@[simp] theorem modFrm_fio (f : Machine.Frm → Machine.Frm) (s : State) : (modFrm f s).fio = s.fio := rfl
@[simp] theorem modFrm_can (f : Machine.Frm → Machine.Frm) (s : State) : (modFrm f s).can = s.can := rfl
@[simp] theorem modFrm_hsb (f : Machine.Frm → Machine.Frm) (s : State) : (modFrm f s).hsb = s.hsb := rfl
@[simp] theorem modFrm_nvs (f : Machine.Frm → Machine.Frm) (s : State) : (modFrm f s).nvs = s.nvs := rfl
@[simp] theorem modFrm_evr (f : Machine.Frm → Machine.Frm) (s : State) : (modFrm f s).evr = s.evr := rfl
@[simp] theorem modFrm_key (f : Machine.Frm → Machine.Frm) (s : State) : (modFrm f s).key = s.key := rfl
@[simp] theorem modFrm_hl (f : Machine.Frm → Machine.Frm) (s : State) : (modFrm f s).hl = s.hl := rfl
@[simp] theorem modFrm_upd (f : Machine.Frm → Machine.Frm) (s : State) : (modFrm f s).upd = s.upd := rfl
@[simp] theorem modFrm_pwr (f : Machine.Frm → Machine.Frm) (s : State) : (modFrm f s).pwr = s.pwr := rfl
@[simp] theorem modFrm_tap (f : Machine.Frm → Machine.Frm) (s : State) : (modFrm f s).tap = s.tap := rfl
@[simp] theorem modFrm_persist (f : Machine.Frm → Machine.Frm) (s : State) : (modFrm f s).persist = s.persist := rfl
@[simp] theorem modFrm_regs (f : Machine.Frm → Machine.Frm) (s : State) : (modFrm f s).regs = s.regs := rfl
@[simp] theorem modFrm_act (f : Machine.Frm → Machine.Frm) (s : State) : (modFrm f s).act = s.act := rfl
@[simp] theorem modFrm_rl (f : Machine.Frm → Machine.Frm) (s : State) : (modFrm f s).rl = s.rl := rfl
@[simp] theorem modFrm_fresh (f : Machine.Frm → Machine.Frm) (s : State) : (modFrm f s).fresh = s.fresh := rfl
@[simp] theorem modTim_pending (f : Tim → Tim) (s : State) : (modTim f s).pending = s.pending := rfl
@[simp] theorem modTim_clk (f : Tim → Tim) (s : State) : (modTim f s).clk = s.clk := rfl
@[simp] theorem modTim_sys (f : Tim → Tim) (s : State) : (modTim f s).sys = s.sys := rfl
@[simp] theorem modTim_att (f : Tim → Tim) (s : State) : (modTim f s).att = s.att := rfl
@[simp] theorem modTim_frm (f : Tim → Tim) (s : State) : (modTim f s).frm = s.frm := rfl
@[simp] theorem modTim_lanes (f : Tim → Tim) (s : State) : (modTim f s).lanes = s.lanes := rfl
@[simp] theorem modTim_ln (f : Tim → Tim) (s : State) : (modTim f s).ln = s.ln := rfl
@[simp] theorem modTim_plr (f : Tim → Tim) (s : State) : (modTim f s).plr = s.plr := rfl
@[simp] theorem modTim_mem (f : Tim → Tim) (s : State) : (modTim f s).mem = s.mem := rfl
@[simp] theorem modTim_ne (f : Tim → Tim) (s : State) : (modTim f s).ne = s.ne := rfl
@[simp] theorem modTim_tim (f : Tim → Tim) (s : State) : (modTim f s).tim = f s.tim := rfl
@[simp] theorem modTim_rtc (f : Tim → Tim) (s : State) : (modTim f s).rtc = s.rtc := rfl
@[simp] theorem modTim_eq (f : Tim → Tim) (s : State) : (modTim f s).eq = s.eq := rfl
@[simp] theorem modTim_fio (f : Tim → Tim) (s : State) : (modTim f s).fio = s.fio := rfl
@[simp] theorem modTim_can (f : Tim → Tim) (s : State) : (modTim f s).can = s.can := rfl
@[simp] theorem modTim_hsb (f : Tim → Tim) (s : State) : (modTim f s).hsb = s.hsb := rfl
@[simp] theorem modTim_nvs (f : Tim → Tim) (s : State) : (modTim f s).nvs = s.nvs := rfl
@[simp] theorem modTim_evr (f : Tim → Tim) (s : State) : (modTim f s).evr = s.evr := rfl
@[simp] theorem modTim_key (f : Tim → Tim) (s : State) : (modTim f s).key = s.key := rfl
@[simp] theorem modTim_hl (f : Tim → Tim) (s : State) : (modTim f s).hl = s.hl := rfl
@[simp] theorem modTim_upd (f : Tim → Tim) (s : State) : (modTim f s).upd = s.upd := rfl
@[simp] theorem modTim_pwr (f : Tim → Tim) (s : State) : (modTim f s).pwr = s.pwr := rfl
@[simp] theorem modTim_tap (f : Tim → Tim) (s : State) : (modTim f s).tap = s.tap := rfl
@[simp] theorem modTim_persist (f : Tim → Tim) (s : State) : (modTim f s).persist = s.persist := rfl
@[simp] theorem modTim_regs (f : Tim → Tim) (s : State) : (modTim f s).regs = s.regs := rfl
@[simp] theorem modTim_act (f : Tim → Tim) (s : State) : (modTim f s).act = s.act := rfl
@[simp] theorem modTim_rl (f : Tim → Tim) (s : State) : (modTim f s).rl = s.rl := rfl
@[simp] theorem modTim_fresh (f : Tim → Tim) (s : State) : (modTim f s).fresh = s.fresh := rfl
@[simp] theorem modRtc_pending (f : Rtc → Rtc) (s : State) : (modRtc f s).pending = s.pending := rfl
@[simp] theorem modRtc_clk (f : Rtc → Rtc) (s : State) : (modRtc f s).clk = s.clk := rfl
@[simp] theorem modRtc_sys (f : Rtc → Rtc) (s : State) : (modRtc f s).sys = s.sys := rfl
@[simp] theorem modRtc_att (f : Rtc → Rtc) (s : State) : (modRtc f s).att = s.att := rfl
@[simp] theorem modRtc_frm (f : Rtc → Rtc) (s : State) : (modRtc f s).frm = s.frm := rfl
@[simp] theorem modRtc_lanes (f : Rtc → Rtc) (s : State) : (modRtc f s).lanes = s.lanes := rfl
@[simp] theorem modRtc_ln (f : Rtc → Rtc) (s : State) : (modRtc f s).ln = s.ln := rfl
@[simp] theorem modRtc_plr (f : Rtc → Rtc) (s : State) : (modRtc f s).plr = s.plr := rfl
@[simp] theorem modRtc_mem (f : Rtc → Rtc) (s : State) : (modRtc f s).mem = s.mem := rfl
@[simp] theorem modRtc_ne (f : Rtc → Rtc) (s : State) : (modRtc f s).ne = s.ne := rfl
@[simp] theorem modRtc_tim (f : Rtc → Rtc) (s : State) : (modRtc f s).tim = s.tim := rfl
@[simp] theorem modRtc_rtc (f : Rtc → Rtc) (s : State) : (modRtc f s).rtc = f s.rtc := rfl
@[simp] theorem modRtc_eq (f : Rtc → Rtc) (s : State) : (modRtc f s).eq = s.eq := rfl
@[simp] theorem modRtc_fio (f : Rtc → Rtc) (s : State) : (modRtc f s).fio = s.fio := rfl
@[simp] theorem modRtc_can (f : Rtc → Rtc) (s : State) : (modRtc f s).can = s.can := rfl
@[simp] theorem modRtc_hsb (f : Rtc → Rtc) (s : State) : (modRtc f s).hsb = s.hsb := rfl
@[simp] theorem modRtc_nvs (f : Rtc → Rtc) (s : State) : (modRtc f s).nvs = s.nvs := rfl
@[simp] theorem modRtc_evr (f : Rtc → Rtc) (s : State) : (modRtc f s).evr = s.evr := rfl
@[simp] theorem modRtc_key (f : Rtc → Rtc) (s : State) : (modRtc f s).key = s.key := rfl
@[simp] theorem modRtc_hl (f : Rtc → Rtc) (s : State) : (modRtc f s).hl = s.hl := rfl
@[simp] theorem modRtc_upd (f : Rtc → Rtc) (s : State) : (modRtc f s).upd = s.upd := rfl
@[simp] theorem modRtc_pwr (f : Rtc → Rtc) (s : State) : (modRtc f s).pwr = s.pwr := rfl
@[simp] theorem modRtc_tap (f : Rtc → Rtc) (s : State) : (modRtc f s).tap = s.tap := rfl
@[simp] theorem modRtc_persist (f : Rtc → Rtc) (s : State) : (modRtc f s).persist = s.persist := rfl
@[simp] theorem modRtc_regs (f : Rtc → Rtc) (s : State) : (modRtc f s).regs = s.regs := rfl
@[simp] theorem modRtc_act (f : Rtc → Rtc) (s : State) : (modRtc f s).act = s.act := rfl
@[simp] theorem modRtc_rl (f : Rtc → Rtc) (s : State) : (modRtc f s).rl = s.rl := rfl
@[simp] theorem modRtc_fresh (f : Rtc → Rtc) (s : State) : (modRtc f s).fresh = s.fresh := rfl
@[simp] theorem modEq_pending (f : EqEng → EqEng) (s : State) : (modEq f s).pending = s.pending := rfl
@[simp] theorem modEq_clk (f : EqEng → EqEng) (s : State) : (modEq f s).clk = s.clk := rfl
@[simp] theorem modEq_sys (f : EqEng → EqEng) (s : State) : (modEq f s).sys = s.sys := rfl
@[simp] theorem modEq_att (f : EqEng → EqEng) (s : State) : (modEq f s).att = s.att := rfl
@[simp] theorem modEq_frm (f : EqEng → EqEng) (s : State) : (modEq f s).frm = s.frm := rfl
@[simp] theorem modEq_lanes (f : EqEng → EqEng) (s : State) : (modEq f s).lanes = s.lanes := rfl
@[simp] theorem modEq_ln (f : EqEng → EqEng) (s : State) : (modEq f s).ln = s.ln := rfl
@[simp] theorem modEq_plr (f : EqEng → EqEng) (s : State) : (modEq f s).plr = s.plr := rfl
@[simp] theorem modEq_mem (f : EqEng → EqEng) (s : State) : (modEq f s).mem = s.mem := rfl
@[simp] theorem modEq_ne (f : EqEng → EqEng) (s : State) : (modEq f s).ne = s.ne := rfl
@[simp] theorem modEq_tim (f : EqEng → EqEng) (s : State) : (modEq f s).tim = s.tim := rfl
@[simp] theorem modEq_rtc (f : EqEng → EqEng) (s : State) : (modEq f s).rtc = s.rtc := rfl
@[simp] theorem modEq_eq (f : EqEng → EqEng) (s : State) : (modEq f s).eq = f s.eq := rfl
@[simp] theorem modEq_fio (f : EqEng → EqEng) (s : State) : (modEq f s).fio = s.fio := rfl
@[simp] theorem modEq_can (f : EqEng → EqEng) (s : State) : (modEq f s).can = s.can := rfl
@[simp] theorem modEq_hsb (f : EqEng → EqEng) (s : State) : (modEq f s).hsb = s.hsb := rfl
@[simp] theorem modEq_nvs (f : EqEng → EqEng) (s : State) : (modEq f s).nvs = s.nvs := rfl
@[simp] theorem modEq_evr (f : EqEng → EqEng) (s : State) : (modEq f s).evr = s.evr := rfl
@[simp] theorem modEq_key (f : EqEng → EqEng) (s : State) : (modEq f s).key = s.key := rfl
@[simp] theorem modEq_hl (f : EqEng → EqEng) (s : State) : (modEq f s).hl = s.hl := rfl
@[simp] theorem modEq_upd (f : EqEng → EqEng) (s : State) : (modEq f s).upd = s.upd := rfl
@[simp] theorem modEq_pwr (f : EqEng → EqEng) (s : State) : (modEq f s).pwr = s.pwr := rfl
@[simp] theorem modEq_tap (f : EqEng → EqEng) (s : State) : (modEq f s).tap = s.tap := rfl
@[simp] theorem modEq_persist (f : EqEng → EqEng) (s : State) : (modEq f s).persist = s.persist := rfl
@[simp] theorem modEq_regs (f : EqEng → EqEng) (s : State) : (modEq f s).regs = s.regs := rfl
@[simp] theorem modEq_act (f : EqEng → EqEng) (s : State) : (modEq f s).act = s.act := rfl
@[simp] theorem modEq_rl (f : EqEng → EqEng) (s : State) : (modEq f s).rl = s.rl := rfl
@[simp] theorem modEq_fresh (f : EqEng → EqEng) (s : State) : (modEq f s).fresh = s.fresh := rfl
@[simp] theorem modHsb_pending (f : Hsb → Hsb) (s : State) : (modHsb f s).pending = s.pending := rfl
@[simp] theorem modHsb_clk (f : Hsb → Hsb) (s : State) : (modHsb f s).clk = s.clk := rfl
@[simp] theorem modHsb_sys (f : Hsb → Hsb) (s : State) : (modHsb f s).sys = s.sys := rfl
@[simp] theorem modHsb_att (f : Hsb → Hsb) (s : State) : (modHsb f s).att = s.att := rfl
@[simp] theorem modHsb_frm (f : Hsb → Hsb) (s : State) : (modHsb f s).frm = s.frm := rfl
@[simp] theorem modHsb_lanes (f : Hsb → Hsb) (s : State) : (modHsb f s).lanes = s.lanes := rfl
@[simp] theorem modHsb_ln (f : Hsb → Hsb) (s : State) : (modHsb f s).ln = s.ln := rfl
@[simp] theorem modHsb_plr (f : Hsb → Hsb) (s : State) : (modHsb f s).plr = s.plr := rfl
@[simp] theorem modHsb_mem (f : Hsb → Hsb) (s : State) : (modHsb f s).mem = s.mem := rfl
@[simp] theorem modHsb_ne (f : Hsb → Hsb) (s : State) : (modHsb f s).ne = s.ne := rfl
@[simp] theorem modHsb_tim (f : Hsb → Hsb) (s : State) : (modHsb f s).tim = s.tim := rfl
@[simp] theorem modHsb_rtc (f : Hsb → Hsb) (s : State) : (modHsb f s).rtc = s.rtc := rfl
@[simp] theorem modHsb_eq (f : Hsb → Hsb) (s : State) : (modHsb f s).eq = s.eq := rfl
@[simp] theorem modHsb_fio (f : Hsb → Hsb) (s : State) : (modHsb f s).fio = s.fio := rfl
@[simp] theorem modHsb_can (f : Hsb → Hsb) (s : State) : (modHsb f s).can = s.can := rfl
@[simp] theorem modHsb_hsb (f : Hsb → Hsb) (s : State) : (modHsb f s).hsb = f s.hsb := rfl
@[simp] theorem modHsb_nvs (f : Hsb → Hsb) (s : State) : (modHsb f s).nvs = s.nvs := rfl
@[simp] theorem modHsb_evr (f : Hsb → Hsb) (s : State) : (modHsb f s).evr = s.evr := rfl
@[simp] theorem modHsb_key (f : Hsb → Hsb) (s : State) : (modHsb f s).key = s.key := rfl
@[simp] theorem modHsb_hl (f : Hsb → Hsb) (s : State) : (modHsb f s).hl = s.hl := rfl
@[simp] theorem modHsb_upd (f : Hsb → Hsb) (s : State) : (modHsb f s).upd = s.upd := rfl
@[simp] theorem modHsb_pwr (f : Hsb → Hsb) (s : State) : (modHsb f s).pwr = s.pwr := rfl
@[simp] theorem modHsb_tap (f : Hsb → Hsb) (s : State) : (modHsb f s).tap = s.tap := rfl
@[simp] theorem modHsb_persist (f : Hsb → Hsb) (s : State) : (modHsb f s).persist = s.persist := rfl
@[simp] theorem modHsb_regs (f : Hsb → Hsb) (s : State) : (modHsb f s).regs = s.regs := rfl
@[simp] theorem modHsb_act (f : Hsb → Hsb) (s : State) : (modHsb f s).act = s.act := rfl
@[simp] theorem modHsb_rl (f : Hsb → Hsb) (s : State) : (modHsb f s).rl = s.rl := rfl
@[simp] theorem modHsb_fresh (f : Hsb → Hsb) (s : State) : (modHsb f s).fresh = s.fresh := rfl
@[simp] theorem modNvs_pending (f : Nvs → Nvs) (s : State) : (modNvs f s).pending = s.pending := rfl
@[simp] theorem modNvs_clk (f : Nvs → Nvs) (s : State) : (modNvs f s).clk = s.clk := rfl
@[simp] theorem modNvs_sys (f : Nvs → Nvs) (s : State) : (modNvs f s).sys = s.sys := rfl
@[simp] theorem modNvs_att (f : Nvs → Nvs) (s : State) : (modNvs f s).att = s.att := rfl
@[simp] theorem modNvs_frm (f : Nvs → Nvs) (s : State) : (modNvs f s).frm = s.frm := rfl
@[simp] theorem modNvs_lanes (f : Nvs → Nvs) (s : State) : (modNvs f s).lanes = s.lanes := rfl
@[simp] theorem modNvs_ln (f : Nvs → Nvs) (s : State) : (modNvs f s).ln = s.ln := rfl
@[simp] theorem modNvs_plr (f : Nvs → Nvs) (s : State) : (modNvs f s).plr = s.plr := rfl
@[simp] theorem modNvs_mem (f : Nvs → Nvs) (s : State) : (modNvs f s).mem = s.mem := rfl
@[simp] theorem modNvs_ne (f : Nvs → Nvs) (s : State) : (modNvs f s).ne = s.ne := rfl
@[simp] theorem modNvs_tim (f : Nvs → Nvs) (s : State) : (modNvs f s).tim = s.tim := rfl
@[simp] theorem modNvs_rtc (f : Nvs → Nvs) (s : State) : (modNvs f s).rtc = s.rtc := rfl
@[simp] theorem modNvs_eq (f : Nvs → Nvs) (s : State) : (modNvs f s).eq = s.eq := rfl
@[simp] theorem modNvs_fio (f : Nvs → Nvs) (s : State) : (modNvs f s).fio = s.fio := rfl
@[simp] theorem modNvs_can (f : Nvs → Nvs) (s : State) : (modNvs f s).can = s.can := rfl
@[simp] theorem modNvs_hsb (f : Nvs → Nvs) (s : State) : (modNvs f s).hsb = s.hsb := rfl
@[simp] theorem modNvs_nvs (f : Nvs → Nvs) (s : State) : (modNvs f s).nvs = f s.nvs := rfl
@[simp] theorem modNvs_evr (f : Nvs → Nvs) (s : State) : (modNvs f s).evr = s.evr := rfl
@[simp] theorem modNvs_key (f : Nvs → Nvs) (s : State) : (modNvs f s).key = s.key := rfl
@[simp] theorem modNvs_hl (f : Nvs → Nvs) (s : State) : (modNvs f s).hl = s.hl := rfl
@[simp] theorem modNvs_upd (f : Nvs → Nvs) (s : State) : (modNvs f s).upd = s.upd := rfl
@[simp] theorem modNvs_pwr (f : Nvs → Nvs) (s : State) : (modNvs f s).pwr = s.pwr := rfl
@[simp] theorem modNvs_tap (f : Nvs → Nvs) (s : State) : (modNvs f s).tap = s.tap := rfl
@[simp] theorem modNvs_persist (f : Nvs → Nvs) (s : State) : (modNvs f s).persist = s.persist := rfl
@[simp] theorem modNvs_regs (f : Nvs → Nvs) (s : State) : (modNvs f s).regs = s.regs := rfl
@[simp] theorem modNvs_act (f : Nvs → Nvs) (s : State) : (modNvs f s).act = s.act := rfl
@[simp] theorem modNvs_rl (f : Nvs → Nvs) (s : State) : (modNvs f s).rl = s.rl := rfl
@[simp] theorem modNvs_fresh (f : Nvs → Nvs) (s : State) : (modNvs f s).fresh = s.fresh := rfl
@[simp] theorem modEvr_pending (f : Evr → Evr) (s : State) : (modEvr f s).pending = s.pending := rfl
@[simp] theorem modEvr_clk (f : Evr → Evr) (s : State) : (modEvr f s).clk = s.clk := rfl
@[simp] theorem modEvr_sys (f : Evr → Evr) (s : State) : (modEvr f s).sys = s.sys := rfl
@[simp] theorem modEvr_att (f : Evr → Evr) (s : State) : (modEvr f s).att = s.att := rfl
@[simp] theorem modEvr_frm (f : Evr → Evr) (s : State) : (modEvr f s).frm = s.frm := rfl
@[simp] theorem modEvr_lanes (f : Evr → Evr) (s : State) : (modEvr f s).lanes = s.lanes := rfl
@[simp] theorem modEvr_ln (f : Evr → Evr) (s : State) : (modEvr f s).ln = s.ln := rfl
@[simp] theorem modEvr_plr (f : Evr → Evr) (s : State) : (modEvr f s).plr = s.plr := rfl
@[simp] theorem modEvr_mem (f : Evr → Evr) (s : State) : (modEvr f s).mem = s.mem := rfl
@[simp] theorem modEvr_ne (f : Evr → Evr) (s : State) : (modEvr f s).ne = s.ne := rfl
@[simp] theorem modEvr_tim (f : Evr → Evr) (s : State) : (modEvr f s).tim = s.tim := rfl
@[simp] theorem modEvr_rtc (f : Evr → Evr) (s : State) : (modEvr f s).rtc = s.rtc := rfl
@[simp] theorem modEvr_eq (f : Evr → Evr) (s : State) : (modEvr f s).eq = s.eq := rfl
@[simp] theorem modEvr_fio (f : Evr → Evr) (s : State) : (modEvr f s).fio = s.fio := rfl
@[simp] theorem modEvr_can (f : Evr → Evr) (s : State) : (modEvr f s).can = s.can := rfl
@[simp] theorem modEvr_hsb (f : Evr → Evr) (s : State) : (modEvr f s).hsb = s.hsb := rfl
@[simp] theorem modEvr_nvs (f : Evr → Evr) (s : State) : (modEvr f s).nvs = s.nvs := rfl
@[simp] theorem modEvr_evr (f : Evr → Evr) (s : State) : (modEvr f s).evr = f s.evr := rfl
@[simp] theorem modEvr_key (f : Evr → Evr) (s : State) : (modEvr f s).key = s.key := rfl
@[simp] theorem modEvr_hl (f : Evr → Evr) (s : State) : (modEvr f s).hl = s.hl := rfl
@[simp] theorem modEvr_upd (f : Evr → Evr) (s : State) : (modEvr f s).upd = s.upd := rfl
@[simp] theorem modEvr_pwr (f : Evr → Evr) (s : State) : (modEvr f s).pwr = s.pwr := rfl
@[simp] theorem modEvr_tap (f : Evr → Evr) (s : State) : (modEvr f s).tap = s.tap := rfl
@[simp] theorem modEvr_persist (f : Evr → Evr) (s : State) : (modEvr f s).persist = s.persist := rfl
@[simp] theorem modEvr_regs (f : Evr → Evr) (s : State) : (modEvr f s).regs = s.regs := rfl
@[simp] theorem modEvr_act (f : Evr → Evr) (s : State) : (modEvr f s).act = s.act := rfl
@[simp] theorem modEvr_rl (f : Evr → Evr) (s : State) : (modEvr f s).rl = s.rl := rfl
@[simp] theorem modEvr_fresh (f : Evr → Evr) (s : State) : (modEvr f s).fresh = s.fresh := rfl
@[simp] theorem modHl_pending (f : Hl → Hl) (s : State) : (modHl f s).pending = s.pending := rfl
@[simp] theorem modHl_clk (f : Hl → Hl) (s : State) : (modHl f s).clk = s.clk := rfl
@[simp] theorem modHl_sys (f : Hl → Hl) (s : State) : (modHl f s).sys = s.sys := rfl
@[simp] theorem modHl_att (f : Hl → Hl) (s : State) : (modHl f s).att = s.att := rfl
@[simp] theorem modHl_frm (f : Hl → Hl) (s : State) : (modHl f s).frm = s.frm := rfl
@[simp] theorem modHl_lanes (f : Hl → Hl) (s : State) : (modHl f s).lanes = s.lanes := rfl
@[simp] theorem modHl_ln (f : Hl → Hl) (s : State) : (modHl f s).ln = s.ln := rfl
@[simp] theorem modHl_plr (f : Hl → Hl) (s : State) : (modHl f s).plr = s.plr := rfl
@[simp] theorem modHl_mem (f : Hl → Hl) (s : State) : (modHl f s).mem = s.mem := rfl
@[simp] theorem modHl_ne (f : Hl → Hl) (s : State) : (modHl f s).ne = s.ne := rfl
@[simp] theorem modHl_tim (f : Hl → Hl) (s : State) : (modHl f s).tim = s.tim := rfl
@[simp] theorem modHl_rtc (f : Hl → Hl) (s : State) : (modHl f s).rtc = s.rtc := rfl
@[simp] theorem modHl_eq (f : Hl → Hl) (s : State) : (modHl f s).eq = s.eq := rfl
@[simp] theorem modHl_fio (f : Hl → Hl) (s : State) : (modHl f s).fio = s.fio := rfl
@[simp] theorem modHl_can (f : Hl → Hl) (s : State) : (modHl f s).can = s.can := rfl
@[simp] theorem modHl_hsb (f : Hl → Hl) (s : State) : (modHl f s).hsb = s.hsb := rfl
@[simp] theorem modHl_nvs (f : Hl → Hl) (s : State) : (modHl f s).nvs = s.nvs := rfl
@[simp] theorem modHl_evr (f : Hl → Hl) (s : State) : (modHl f s).evr = s.evr := rfl
@[simp] theorem modHl_key (f : Hl → Hl) (s : State) : (modHl f s).key = s.key := rfl
@[simp] theorem modHl_hl (f : Hl → Hl) (s : State) : (modHl f s).hl = f s.hl := rfl
@[simp] theorem modHl_upd (f : Hl → Hl) (s : State) : (modHl f s).upd = s.upd := rfl
@[simp] theorem modHl_pwr (f : Hl → Hl) (s : State) : (modHl f s).pwr = s.pwr := rfl
@[simp] theorem modHl_tap (f : Hl → Hl) (s : State) : (modHl f s).tap = s.tap := rfl
@[simp] theorem modHl_persist (f : Hl → Hl) (s : State) : (modHl f s).persist = s.persist := rfl
@[simp] theorem modHl_regs (f : Hl → Hl) (s : State) : (modHl f s).regs = s.regs := rfl
@[simp] theorem modHl_act (f : Hl → Hl) (s : State) : (modHl f s).act = s.act := rfl
@[simp] theorem modHl_rl (f : Hl → Hl) (s : State) : (modHl f s).rl = s.rl := rfl
@[simp] theorem modHl_fresh (f : Hl → Hl) (s : State) : (modHl f s).fresh = s.fresh := rfl
@[simp] theorem modUpd_pending (f : Upd → Upd) (s : State) : (modUpd f s).pending = s.pending := rfl
@[simp] theorem modUpd_clk (f : Upd → Upd) (s : State) : (modUpd f s).clk = s.clk := rfl
@[simp] theorem modUpd_sys (f : Upd → Upd) (s : State) : (modUpd f s).sys = s.sys := rfl
@[simp] theorem modUpd_att (f : Upd → Upd) (s : State) : (modUpd f s).att = s.att := rfl
@[simp] theorem modUpd_frm (f : Upd → Upd) (s : State) : (modUpd f s).frm = s.frm := rfl
@[simp] theorem modUpd_lanes (f : Upd → Upd) (s : State) : (modUpd f s).lanes = s.lanes := rfl
@[simp] theorem modUpd_ln (f : Upd → Upd) (s : State) : (modUpd f s).ln = s.ln := rfl
@[simp] theorem modUpd_plr (f : Upd → Upd) (s : State) : (modUpd f s).plr = s.plr := rfl
@[simp] theorem modUpd_mem (f : Upd → Upd) (s : State) : (modUpd f s).mem = s.mem := rfl
@[simp] theorem modUpd_ne (f : Upd → Upd) (s : State) : (modUpd f s).ne = s.ne := rfl
@[simp] theorem modUpd_tim (f : Upd → Upd) (s : State) : (modUpd f s).tim = s.tim := rfl
@[simp] theorem modUpd_rtc (f : Upd → Upd) (s : State) : (modUpd f s).rtc = s.rtc := rfl
@[simp] theorem modUpd_eq (f : Upd → Upd) (s : State) : (modUpd f s).eq = s.eq := rfl
@[simp] theorem modUpd_fio (f : Upd → Upd) (s : State) : (modUpd f s).fio = s.fio := rfl
@[simp] theorem modUpd_can (f : Upd → Upd) (s : State) : (modUpd f s).can = s.can := rfl
@[simp] theorem modUpd_hsb (f : Upd → Upd) (s : State) : (modUpd f s).hsb = s.hsb := rfl
@[simp] theorem modUpd_nvs (f : Upd → Upd) (s : State) : (modUpd f s).nvs = s.nvs := rfl
@[simp] theorem modUpd_evr (f : Upd → Upd) (s : State) : (modUpd f s).evr = s.evr := rfl
@[simp] theorem modUpd_key (f : Upd → Upd) (s : State) : (modUpd f s).key = s.key := rfl
@[simp] theorem modUpd_hl (f : Upd → Upd) (s : State) : (modUpd f s).hl = s.hl := rfl
@[simp] theorem modUpd_upd (f : Upd → Upd) (s : State) : (modUpd f s).upd = f s.upd := rfl
@[simp] theorem modUpd_pwr (f : Upd → Upd) (s : State) : (modUpd f s).pwr = s.pwr := rfl
@[simp] theorem modUpd_tap (f : Upd → Upd) (s : State) : (modUpd f s).tap = s.tap := rfl
@[simp] theorem modUpd_persist (f : Upd → Upd) (s : State) : (modUpd f s).persist = s.persist := rfl
@[simp] theorem modUpd_regs (f : Upd → Upd) (s : State) : (modUpd f s).regs = s.regs := rfl
@[simp] theorem modUpd_act (f : Upd → Upd) (s : State) : (modUpd f s).act = s.act := rfl
@[simp] theorem modUpd_rl (f : Upd → Upd) (s : State) : (modUpd f s).rl = s.rl := rfl
@[simp] theorem modUpd_fresh (f : Upd → Upd) (s : State) : (modUpd f s).fresh = s.fresh := rfl
@[simp] theorem modKey_pending (f : Key → Key) (s : State) : (modKey f s).pending = s.pending := rfl
@[simp] theorem modKey_clk (f : Key → Key) (s : State) : (modKey f s).clk = s.clk := rfl
@[simp] theorem modKey_sys (f : Key → Key) (s : State) : (modKey f s).sys = s.sys := rfl
@[simp] theorem modKey_att (f : Key → Key) (s : State) : (modKey f s).att = s.att := rfl
@[simp] theorem modKey_frm (f : Key → Key) (s : State) : (modKey f s).frm = s.frm := rfl
@[simp] theorem modKey_lanes (f : Key → Key) (s : State) : (modKey f s).lanes = s.lanes := rfl
@[simp] theorem modKey_ln (f : Key → Key) (s : State) : (modKey f s).ln = s.ln := rfl
@[simp] theorem modKey_plr (f : Key → Key) (s : State) : (modKey f s).plr = s.plr := rfl
@[simp] theorem modKey_mem (f : Key → Key) (s : State) : (modKey f s).mem = s.mem := rfl
@[simp] theorem modKey_ne (f : Key → Key) (s : State) : (modKey f s).ne = s.ne := rfl
@[simp] theorem modKey_tim (f : Key → Key) (s : State) : (modKey f s).tim = s.tim := rfl
@[simp] theorem modKey_rtc (f : Key → Key) (s : State) : (modKey f s).rtc = s.rtc := rfl
@[simp] theorem modKey_eq (f : Key → Key) (s : State) : (modKey f s).eq = s.eq := rfl
@[simp] theorem modKey_fio (f : Key → Key) (s : State) : (modKey f s).fio = s.fio := rfl
@[simp] theorem modKey_can (f : Key → Key) (s : State) : (modKey f s).can = s.can := rfl
@[simp] theorem modKey_hsb (f : Key → Key) (s : State) : (modKey f s).hsb = s.hsb := rfl
@[simp] theorem modKey_nvs (f : Key → Key) (s : State) : (modKey f s).nvs = s.nvs := rfl
@[simp] theorem modKey_evr (f : Key → Key) (s : State) : (modKey f s).evr = s.evr := rfl
@[simp] theorem modKey_key (f : Key → Key) (s : State) : (modKey f s).key = f s.key := rfl
@[simp] theorem modKey_hl (f : Key → Key) (s : State) : (modKey f s).hl = s.hl := rfl
@[simp] theorem modKey_upd (f : Key → Key) (s : State) : (modKey f s).upd = s.upd := rfl
@[simp] theorem modKey_pwr (f : Key → Key) (s : State) : (modKey f s).pwr = s.pwr := rfl
@[simp] theorem modKey_tap (f : Key → Key) (s : State) : (modKey f s).tap = s.tap := rfl
@[simp] theorem modKey_persist (f : Key → Key) (s : State) : (modKey f s).persist = s.persist := rfl
@[simp] theorem modKey_regs (f : Key → Key) (s : State) : (modKey f s).regs = s.regs := rfl
@[simp] theorem modKey_act (f : Key → Key) (s : State) : (modKey f s).act = s.act := rfl
@[simp] theorem modKey_rl (f : Key → Key) (s : State) : (modKey f s).rl = s.rl := rfl
@[simp] theorem modKey_fresh (f : Key → Key) (s : State) : (modKey f s).fresh = s.fresh := rfl
@[simp] theorem modCan_pending (n : Nat) (f : CanCtl → CanCtl) (s : State) : (modCan n f s).pending = s.pending := rfl
@[simp] theorem modCan_clk (n : Nat) (f : CanCtl → CanCtl) (s : State) : (modCan n f s).clk = s.clk := rfl
@[simp] theorem modCan_sys (n : Nat) (f : CanCtl → CanCtl) (s : State) : (modCan n f s).sys = s.sys := rfl
@[simp] theorem modCan_att (n : Nat) (f : CanCtl → CanCtl) (s : State) : (modCan n f s).att = s.att := rfl
@[simp] theorem modCan_frm (n : Nat) (f : CanCtl → CanCtl) (s : State) : (modCan n f s).frm = s.frm := rfl
@[simp] theorem modCan_lanes (n : Nat) (f : CanCtl → CanCtl) (s : State) : (modCan n f s).lanes = s.lanes := rfl
@[simp] theorem modCan_ln (n : Nat) (f : CanCtl → CanCtl) (s : State) : (modCan n f s).ln = s.ln := rfl
@[simp] theorem modCan_plr (n : Nat) (f : CanCtl → CanCtl) (s : State) : (modCan n f s).plr = s.plr := rfl
@[simp] theorem modCan_mem (n : Nat) (f : CanCtl → CanCtl) (s : State) : (modCan n f s).mem = s.mem := rfl
@[simp] theorem modCan_ne (n : Nat) (f : CanCtl → CanCtl) (s : State) : (modCan n f s).ne = s.ne := rfl
@[simp] theorem modCan_tim (n : Nat) (f : CanCtl → CanCtl) (s : State) : (modCan n f s).tim = s.tim := rfl
@[simp] theorem modCan_rtc (n : Nat) (f : CanCtl → CanCtl) (s : State) : (modCan n f s).rtc = s.rtc := rfl
@[simp] theorem modCan_eq (n : Nat) (f : CanCtl → CanCtl) (s : State) : (modCan n f s).eq = s.eq := rfl
@[simp] theorem modCan_fio (n : Nat) (f : CanCtl → CanCtl) (s : State) : (modCan n f s).fio = s.fio := rfl
@[simp] theorem modCan_can (n : Nat) (f : CanCtl → CanCtl) (s : State) : (modCan n f s).can = ⟨vmod s.can.ctl n f⟩ := rfl
@[simp] theorem modCan_hsb (n : Nat) (f : CanCtl → CanCtl) (s : State) : (modCan n f s).hsb = s.hsb := rfl
@[simp] theorem modCan_nvs (n : Nat) (f : CanCtl → CanCtl) (s : State) : (modCan n f s).nvs = s.nvs := rfl
@[simp] theorem modCan_evr (n : Nat) (f : CanCtl → CanCtl) (s : State) : (modCan n f s).evr = s.evr := rfl
@[simp] theorem modCan_key (n : Nat) (f : CanCtl → CanCtl) (s : State) : (modCan n f s).key = s.key := rfl
@[simp] theorem modCan_hl (n : Nat) (f : CanCtl → CanCtl) (s : State) : (modCan n f s).hl = s.hl := rfl
@[simp] theorem modCan_upd (n : Nat) (f : CanCtl → CanCtl) (s : State) : (modCan n f s).upd = s.upd := rfl
@[simp] theorem modCan_pwr (n : Nat) (f : CanCtl → CanCtl) (s : State) : (modCan n f s).pwr = s.pwr := rfl
@[simp] theorem modCan_tap (n : Nat) (f : CanCtl → CanCtl) (s : State) : (modCan n f s).tap = s.tap := rfl
@[simp] theorem modCan_persist (n : Nat) (f : CanCtl → CanCtl) (s : State) : (modCan n f s).persist = s.persist := rfl
@[simp] theorem modCan_regs (n : Nat) (f : CanCtl → CanCtl) (s : State) : (modCan n f s).regs = s.regs := rfl
@[simp] theorem modCan_act (n : Nat) (f : CanCtl → CanCtl) (s : State) : (modCan n f s).act = s.act := rfl
@[simp] theorem modCan_rl (n : Nat) (f : CanCtl → CanCtl) (s : State) : (modCan n f s).rl = s.rl := rfl
@[simp] theorem modCan_fresh (n : Nat) (f : CanCtl → CanCtl) (s : State) : (modCan n f s).fresh = s.fresh := rfl
@[simp] theorem modSv_pending (i : Nat) (f : SvSub → SvSub) (s : State) : (modSv i f s).pending = s.pending := rfl
@[simp] theorem modSv_clk (i : Nat) (f : SvSub → SvSub) (s : State) : (modSv i f s).clk = s.clk := rfl
@[simp] theorem modSv_sys (i : Nat) (f : SvSub → SvSub) (s : State) : (modSv i f s).sys = s.sys := rfl
@[simp] theorem modSv_att (i : Nat) (f : SvSub → SvSub) (s : State) : (modSv i f s).att = s.att := rfl
@[simp] theorem modSv_frm (i : Nat) (f : SvSub → SvSub) (s : State) : (modSv i f s).frm = s.frm := rfl
@[simp] theorem modSv_lanes (i : Nat) (f : SvSub → SvSub) (s : State) : (modSv i f s).lanes = s.lanes := rfl
@[simp] theorem modSv_ln (i : Nat) (f : SvSub → SvSub) (s : State) : (modSv i f s).ln = s.ln := rfl
@[simp] theorem modSv_plr (i : Nat) (f : SvSub → SvSub) (s : State) : (modSv i f s).plr = s.plr := rfl
@[simp] theorem modSv_mem (i : Nat) (f : SvSub → SvSub) (s : State) : (modSv i f s).mem = s.mem := rfl
@[simp] theorem modSv_ne (i : Nat) (f : SvSub → SvSub) (s : State) : (modSv i f s).ne = { s.ne with sv := vmod s.ne.sv i f } := rfl
@[simp] theorem modSv_tim (i : Nat) (f : SvSub → SvSub) (s : State) : (modSv i f s).tim = s.tim := rfl
@[simp] theorem modSv_rtc (i : Nat) (f : SvSub → SvSub) (s : State) : (modSv i f s).rtc = s.rtc := rfl
@[simp] theorem modSv_eq (i : Nat) (f : SvSub → SvSub) (s : State) : (modSv i f s).eq = s.eq := rfl
@[simp] theorem modSv_fio (i : Nat) (f : SvSub → SvSub) (s : State) : (modSv i f s).fio = s.fio := rfl
@[simp] theorem modSv_can (i : Nat) (f : SvSub → SvSub) (s : State) : (modSv i f s).can = s.can := rfl
@[simp] theorem modSv_hsb (i : Nat) (f : SvSub → SvSub) (s : State) : (modSv i f s).hsb = s.hsb := rfl
@[simp] theorem modSv_nvs (i : Nat) (f : SvSub → SvSub) (s : State) : (modSv i f s).nvs = s.nvs := rfl
@[simp] theorem modSv_evr (i : Nat) (f : SvSub → SvSub) (s : State) : (modSv i f s).evr = s.evr := rfl
@[simp] theorem modSv_key (i : Nat) (f : SvSub → SvSub) (s : State) : (modSv i f s).key = s.key := rfl
@[simp] theorem modSv_hl (i : Nat) (f : SvSub → SvSub) (s : State) : (modSv i f s).hl = s.hl := rfl
@[simp] theorem modSv_upd (i : Nat) (f : SvSub → SvSub) (s : State) : (modSv i f s).upd = s.upd := rfl
@[simp] theorem modSv_pwr (i : Nat) (f : SvSub → SvSub) (s : State) : (modSv i f s).pwr = s.pwr := rfl
@[simp] theorem modSv_tap (i : Nat) (f : SvSub → SvSub) (s : State) : (modSv i f s).tap = s.tap := rfl
@[simp] theorem modSv_persist (i : Nat) (f : SvSub → SvSub) (s : State) : (modSv i f s).persist = s.persist := rfl
@[simp] theorem modSv_regs (i : Nat) (f : SvSub → SvSub) (s : State) : (modSv i f s).regs = s.regs := rfl
@[simp] theorem modSv_act (i : Nat) (f : SvSub → SvSub) (s : State) : (modSv i f s).act = s.act := rfl
@[simp] theorem modSv_rl (i : Nat) (f : SvSub → SvSub) (s : State) : (modSv i f s).rl = s.rl := rfl
@[simp] theorem modSv_fresh (i : Nat) (f : SvSub → SvSub) (s : State) : (modSv i f s).fresh = s.fresh := rfl
@[simp] theorem modGs_pending (i : Nat) (f : GsSub → GsSub) (s : State) : (modGs i f s).pending = s.pending := rfl
@[simp] theorem modGs_clk (i : Nat) (f : GsSub → GsSub) (s : State) : (modGs i f s).clk = s.clk := rfl
@[simp] theorem modGs_sys (i : Nat) (f : GsSub → GsSub) (s : State) : (modGs i f s).sys = s.sys := rfl
@[simp] theorem modGs_att (i : Nat) (f : GsSub → GsSub) (s : State) : (modGs i f s).att = s.att := rfl
@[simp] theorem modGs_frm (i : Nat) (f : GsSub → GsSub) (s : State) : (modGs i f s).frm = s.frm := rfl
@[simp] theorem modGs_lanes (i : Nat) (f : GsSub → GsSub) (s : State) : (modGs i f s).lanes = s.lanes := rfl
@[simp] theorem modGs_ln (i : Nat) (f : GsSub → GsSub) (s : State) : (modGs i f s).ln = s.ln := rfl
@[simp] theorem modGs_plr (i : Nat) (f : GsSub → GsSub) (s : State) : (modGs i f s).plr = s.plr := rfl
@[simp] theorem modGs_mem (i : Nat) (f : GsSub → GsSub) (s : State) : (modGs i f s).mem = s.mem := rfl
@[simp] theorem modGs_ne (i : Nat) (f : GsSub → GsSub) (s : State) : (modGs i f s).ne = { s.ne with gs := vmod s.ne.gs i f } := rfl
@[simp] theorem modGs_tim (i : Nat) (f : GsSub → GsSub) (s : State) : (modGs i f s).tim = s.tim := rfl
@[simp] theorem modGs_rtc (i : Nat) (f : GsSub → GsSub) (s : State) : (modGs i f s).rtc = s.rtc := rfl
@[simp] theorem modGs_eq (i : Nat) (f : GsSub → GsSub) (s : State) : (modGs i f s).eq = s.eq := rfl
@[simp] theorem modGs_fio (i : Nat) (f : GsSub → GsSub) (s : State) : (modGs i f s).fio = s.fio := rfl
@[simp] theorem modGs_can (i : Nat) (f : GsSub → GsSub) (s : State) : (modGs i f s).can = s.can := rfl
@[simp] theorem modGs_hsb (i : Nat) (f : GsSub → GsSub) (s : State) : (modGs i f s).hsb = s.hsb := rfl
@[simp] theorem modGs_nvs (i : Nat) (f : GsSub → GsSub) (s : State) : (modGs i f s).nvs = s.nvs := rfl
@[simp] theorem modGs_evr (i : Nat) (f : GsSub → GsSub) (s : State) : (modGs i f s).evr = s.evr := rfl
@[simp] theorem modGs_key (i : Nat) (f : GsSub → GsSub) (s : State) : (modGs i f s).key = s.key := rfl
@[simp] theorem modGs_hl (i : Nat) (f : GsSub → GsSub) (s : State) : (modGs i f s).hl = s.hl := rfl
@[simp] theorem modGs_upd (i : Nat) (f : GsSub → GsSub) (s : State) : (modGs i f s).upd = s.upd := rfl
@[simp] theorem modGs_pwr (i : Nat) (f : GsSub → GsSub) (s : State) : (modGs i f s).pwr = s.pwr := rfl
@[simp] theorem modGs_tap (i : Nat) (f : GsSub → GsSub) (s : State) : (modGs i f s).tap = s.tap := rfl
@[simp] theorem modGs_persist (i : Nat) (f : GsSub → GsSub) (s : State) : (modGs i f s).persist = s.persist := rfl
@[simp] theorem modGs_regs (i : Nat) (f : GsSub → GsSub) (s : State) : (modGs i f s).regs = s.regs := rfl
@[simp] theorem modGs_act (i : Nat) (f : GsSub → GsSub) (s : State) : (modGs i f s).act = s.act := rfl
@[simp] theorem modGs_rl (i : Nat) (f : GsSub → GsSub) (s : State) : (modGs i f s).rl = s.rl := rfl
@[simp] theorem modGs_fresh (i : Nat) (f : GsSub → GsSub) (s : State) : (modGs i f s).fresh = s.fresh := rfl
@[simp] theorem modGp_pending (i : Nat) (f : GoPub → GoPub) (s : State) : (modGp i f s).pending = s.pending := rfl
@[simp] theorem modGp_clk (i : Nat) (f : GoPub → GoPub) (s : State) : (modGp i f s).clk = s.clk := rfl
@[simp] theorem modGp_sys (i : Nat) (f : GoPub → GoPub) (s : State) : (modGp i f s).sys = s.sys := rfl
@[simp] theorem modGp_att (i : Nat) (f : GoPub → GoPub) (s : State) : (modGp i f s).att = s.att := rfl
@[simp] theorem modGp_frm (i : Nat) (f : GoPub → GoPub) (s : State) : (modGp i f s).frm = s.frm := rfl
@[simp] theorem modGp_lanes (i : Nat) (f : GoPub → GoPub) (s : State) : (modGp i f s).lanes = s.lanes := rfl
@[simp] theorem modGp_ln (i : Nat) (f : GoPub → GoPub) (s : State) : (modGp i f s).ln = s.ln := rfl
@[simp] theorem modGp_plr (i : Nat) (f : GoPub → GoPub) (s : State) : (modGp i f s).plr = s.plr := rfl
@[simp] theorem modGp_mem (i : Nat) (f : GoPub → GoPub) (s : State) : (modGp i f s).mem = s.mem := rfl
@[simp] theorem modGp_ne (i : Nat) (f : GoPub → GoPub) (s : State) : (modGp i f s).ne = { s.ne with gp := vmod s.ne.gp i f } := rfl
@[simp] theorem modGp_tim (i : Nat) (f : GoPub → GoPub) (s : State) : (modGp i f s).tim = s.tim := rfl
@[simp] theorem modGp_rtc (i : Nat) (f : GoPub → GoPub) (s : State) : (modGp i f s).rtc = s.rtc := rfl
@[simp] theorem modGp_eq (i : Nat) (f : GoPub → GoPub) (s : State) : (modGp i f s).eq = s.eq := rfl
@[simp] theorem modGp_fio (i : Nat) (f : GoPub → GoPub) (s : State) : (modGp i f s).fio = s.fio := rfl
@[simp] theorem modGp_can (i : Nat) (f : GoPub → GoPub) (s : State) : (modGp i f s).can = s.can := rfl
@[simp] theorem modGp_hsb (i : Nat) (f : GoPub → GoPub) (s : State) : (modGp i f s).hsb = s.hsb := rfl
@[simp] theorem modGp_nvs (i : Nat) (f : GoPub → GoPub) (s : State) : (modGp i f s).nvs = s.nvs := rfl
@[simp] theorem modGp_evr (i : Nat) (f : GoPub → GoPub) (s : State) : (modGp i f s).evr = s.evr := rfl
@[simp] theorem modGp_key (i : Nat) (f : GoPub → GoPub) (s : State) : (modGp i f s).key = s.key := rfl
@[simp] theorem modGp_hl (i : Nat) (f : GoPub → GoPub) (s : State) : (modGp i f s).hl = s.hl := rfl
@[simp] theorem modGp_upd (i : Nat) (f : GoPub → GoPub) (s : State) : (modGp i f s).upd = s.upd := rfl
@[simp] theorem modGp_pwr (i : Nat) (f : GoPub → GoPub) (s : State) : (modGp i f s).pwr = s.pwr := rfl
@[simp] theorem modGp_tap (i : Nat) (f : GoPub → GoPub) (s : State) : (modGp i f s).tap = s.tap := rfl
@[simp] theorem modGp_persist (i : Nat) (f : GoPub → GoPub) (s : State) : (modGp i f s).persist = s.persist := rfl
@[simp] theorem modGp_regs (i : Nat) (f : GoPub → GoPub) (s : State) : (modGp i f s).regs = s.regs := rfl
@[simp] theorem modGp_act (i : Nat) (f : GoPub → GoPub) (s : State) : (modGp i f s).act = s.act := rfl
@[simp] theorem modGp_rl (i : Nat) (f : GoPub → GoPub) (s : State) : (modGp i f s).rl = s.rl := rfl
@[simp] theorem modGp_fresh (i : Nat) (f : GoPub → GoPub) (s : State) : (modGp i f s).fresh = s.fresh := rfl
@[simp] theorem modTe_pending (i : Nat) (f : TeSlot → TeSlot) (s : State) : (modTe i f s).pending = s.pending := rfl
@[simp] theorem modTe_clk (i : Nat) (f : TeSlot → TeSlot) (s : State) : (modTe i f s).clk = s.clk := rfl
@[simp] theorem modTe_sys (i : Nat) (f : TeSlot → TeSlot) (s : State) : (modTe i f s).sys = s.sys := rfl
@[simp] theorem modTe_att (i : Nat) (f : TeSlot → TeSlot) (s : State) : (modTe i f s).att = s.att := rfl
@[simp] theorem modTe_frm (i : Nat) (f : TeSlot → TeSlot) (s : State) : (modTe i f s).frm = s.frm := rfl
@[simp] theorem modTe_lanes (i : Nat) (f : TeSlot → TeSlot) (s : State) : (modTe i f s).lanes = s.lanes := rfl
@[simp] theorem modTe_ln (i : Nat) (f : TeSlot → TeSlot) (s : State) : (modTe i f s).ln = s.ln := rfl
@[simp] theorem modTe_plr (i : Nat) (f : TeSlot → TeSlot) (s : State) : (modTe i f s).plr = s.plr := rfl
@[simp] theorem modTe_mem (i : Nat) (f : TeSlot → TeSlot) (s : State) : (modTe i f s).mem = { s.mem with te := vmod s.mem.te i f } := rfl
@[simp] theorem modTe_ne (i : Nat) (f : TeSlot → TeSlot) (s : State) : (modTe i f s).ne = s.ne := rfl
@[simp] theorem modTe_tim (i : Nat) (f : TeSlot → TeSlot) (s : State) : (modTe i f s).tim = s.tim := rfl
@[simp] theorem modTe_rtc (i : Nat) (f : TeSlot → TeSlot) (s : State) : (modTe i f s).rtc = s.rtc := rfl
@[simp] theorem modTe_eq (i : Nat) (f : TeSlot → TeSlot) (s : State) : (modTe i f s).eq = s.eq := rfl
@[simp] theorem modTe_fio (i : Nat) (f : TeSlot → TeSlot) (s : State) : (modTe i f s).fio = s.fio := rfl
@[simp] theorem modTe_can (i : Nat) (f : TeSlot → TeSlot) (s : State) : (modTe i f s).can = s.can := rfl
@[simp] theorem modTe_hsb (i : Nat) (f : TeSlot → TeSlot) (s : State) : (modTe i f s).hsb = s.hsb := rfl
@[simp] theorem modTe_nvs (i : Nat) (f : TeSlot → TeSlot) (s : State) : (modTe i f s).nvs = s.nvs := rfl
@[simp] theorem modTe_evr (i : Nat) (f : TeSlot → TeSlot) (s : State) : (modTe i f s).evr = s.evr := rfl
@[simp] theorem modTe_key (i : Nat) (f : TeSlot → TeSlot) (s : State) : (modTe i f s).key = s.key := rfl
@[simp] theorem modTe_hl (i : Nat) (f : TeSlot → TeSlot) (s : State) : (modTe i f s).hl = s.hl := rfl
@[simp] theorem modTe_upd (i : Nat) (f : TeSlot → TeSlot) (s : State) : (modTe i f s).upd = s.upd := rfl
@[simp] theorem modTe_pwr (i : Nat) (f : TeSlot → TeSlot) (s : State) : (modTe i f s).pwr = s.pwr := rfl
@[simp] theorem modTe_tap (i : Nat) (f : TeSlot → TeSlot) (s : State) : (modTe i f s).tap = s.tap := rfl
@[simp] theorem modTe_persist (i : Nat) (f : TeSlot → TeSlot) (s : State) : (modTe i f s).persist = s.persist := rfl
@[simp] theorem modTe_regs (i : Nat) (f : TeSlot → TeSlot) (s : State) : (modTe i f s).regs = s.regs := rfl
@[simp] theorem modTe_act (i : Nat) (f : TeSlot → TeSlot) (s : State) : (modTe i f s).act = s.act := rfl
@[simp] theorem modTe_rl (i : Nat) (f : TeSlot → TeSlot) (s : State) : (modTe i f s).rl = s.rl := rfl
@[simp] theorem modTe_fresh (i : Nat) (f : TeSlot → TeSlot) (s : State) : (modTe i f s).fresh = s.fresh := rfl
@[simp] theorem raiseEntry_pending (e : Entry) (s : State) : (raiseEntry e s).pending = s.pending := by
  obtain ⟨v, h⟩ := raiseEntry_only e s; rw [h]
@[simp] theorem raiseEntry_clk (e : Entry) (s : State) : (raiseEntry e s).clk = s.clk := by
  obtain ⟨v, h⟩ := raiseEntry_only e s; rw [h]
@[simp] theorem raiseEntry_sys (e : Entry) (s : State) : (raiseEntry e s).sys = s.sys := by
  obtain ⟨v, h⟩ := raiseEntry_only e s; rw [h]
@[simp] theorem raiseEntry_att (e : Entry) (s : State) : (raiseEntry e s).att = s.att := by
  obtain ⟨v, h⟩ := raiseEntry_only e s; rw [h]
@[simp] theorem raiseEntry_frm (e : Entry) (s : State) : (raiseEntry e s).frm = s.frm := by
  obtain ⟨v, h⟩ := raiseEntry_only e s; rw [h]
@[simp] theorem raiseEntry_lanes (e : Entry) (s : State) : (raiseEntry e s).lanes = s.lanes := by
  obtain ⟨v, h⟩ := raiseEntry_only e s; rw [h]
@[simp] theorem raiseEntry_ln (e : Entry) (s : State) : (raiseEntry e s).ln = s.ln := by
  obtain ⟨v, h⟩ := raiseEntry_only e s; rw [h]
@[simp] theorem raiseEntry_plr (e : Entry) (s : State) : (raiseEntry e s).plr = s.plr := by
  obtain ⟨v, h⟩ := raiseEntry_only e s; rw [h]
@[simp] theorem raiseEntry_mem (e : Entry) (s : State) : (raiseEntry e s).mem = s.mem := by
  obtain ⟨v, h⟩ := raiseEntry_only e s; rw [h]
@[simp] theorem raiseEntry_ne (e : Entry) (s : State) : (raiseEntry e s).ne = s.ne := by
  obtain ⟨v, h⟩ := raiseEntry_only e s; rw [h]
@[simp] theorem raiseEntry_tim (e : Entry) (s : State) : (raiseEntry e s).tim = s.tim := by
  obtain ⟨v, h⟩ := raiseEntry_only e s; rw [h]
@[simp] theorem raiseEntry_rtc (e : Entry) (s : State) : (raiseEntry e s).rtc = s.rtc := by
  obtain ⟨v, h⟩ := raiseEntry_only e s; rw [h]
@[simp] theorem raiseEntry_eq (e : Entry) (s : State) : (raiseEntry e s).eq = s.eq := by
  obtain ⟨v, h⟩ := raiseEntry_only e s; rw [h]
@[simp] theorem raiseEntry_fio (e : Entry) (s : State) : (raiseEntry e s).fio = s.fio := by
  obtain ⟨v, h⟩ := raiseEntry_only e s; rw [h]
@[simp] theorem raiseEntry_can (e : Entry) (s : State) : (raiseEntry e s).can = s.can := by
  obtain ⟨v, h⟩ := raiseEntry_only e s; rw [h]
@[simp] theorem raiseEntry_hsb (e : Entry) (s : State) : (raiseEntry e s).hsb = s.hsb := by
  obtain ⟨v, h⟩ := raiseEntry_only e s; rw [h]
@[simp] theorem raiseEntry_nvs (e : Entry) (s : State) : (raiseEntry e s).nvs = s.nvs := by
  obtain ⟨v, h⟩ := raiseEntry_only e s; rw [h]
@[simp] theorem raiseEntry_key (e : Entry) (s : State) : (raiseEntry e s).key = s.key := by
  obtain ⟨v, h⟩ := raiseEntry_only e s; rw [h]
@[simp] theorem raiseEntry_hl (e : Entry) (s : State) : (raiseEntry e s).hl = s.hl := by
  obtain ⟨v, h⟩ := raiseEntry_only e s; rw [h]
@[simp] theorem raiseEntry_upd (e : Entry) (s : State) : (raiseEntry e s).upd = s.upd := by
  obtain ⟨v, h⟩ := raiseEntry_only e s; rw [h]
@[simp] theorem raiseEntry_pwr (e : Entry) (s : State) : (raiseEntry e s).pwr = s.pwr := by
  obtain ⟨v, h⟩ := raiseEntry_only e s; rw [h]
@[simp] theorem raiseEntry_tap (e : Entry) (s : State) : (raiseEntry e s).tap = s.tap := by
  obtain ⟨v, h⟩ := raiseEntry_only e s; rw [h]
@[simp] theorem raiseEntry_persist (e : Entry) (s : State) : (raiseEntry e s).persist = s.persist := by
  obtain ⟨v, h⟩ := raiseEntry_only e s; rw [h]
@[simp] theorem raiseEntry_regs (e : Entry) (s : State) : (raiseEntry e s).regs = s.regs := by
  obtain ⟨v, h⟩ := raiseEntry_only e s; rw [h]
@[simp] theorem raiseEntry_act (e : Entry) (s : State) : (raiseEntry e s).act = s.act := by
  obtain ⟨v, h⟩ := raiseEntry_only e s; rw [h]
@[simp] theorem raiseEntry_rl (e : Entry) (s : State) : (raiseEntry e s).rl = s.rl := by
  obtain ⟨v, h⟩ := raiseEntry_only e s; rw [h]
@[simp] theorem raiseEntry_fresh (e : Entry) (s : State) : (raiseEntry e s).fresh = s.fresh := by
  obtain ⟨v, h⟩ := raiseEntry_only e s; rw [h]
@[simp] theorem assertEvw_pending (n : Nat) (s : State) : (assertEvw n s).pending = s.pending := by
  unfold assertEvw; split <;> rfl
@[simp] theorem assertEvw_clk (n : Nat) (s : State) : (assertEvw n s).clk = s.clk := by
  unfold assertEvw; split <;> rfl
@[simp] theorem assertEvw_sys (n : Nat) (s : State) : (assertEvw n s).sys = s.sys := by
  unfold assertEvw; split <;> rfl
@[simp] theorem assertEvw_att (n : Nat) (s : State) : (assertEvw n s).att = s.att := by
  unfold assertEvw; split <;> rfl
@[simp] theorem assertEvw_lanes (n : Nat) (s : State) : (assertEvw n s).lanes = s.lanes := by
  unfold assertEvw; split <;> rfl
@[simp] theorem assertEvw_ln (n : Nat) (s : State) : (assertEvw n s).ln = s.ln := by
  unfold assertEvw; split <;> rfl
@[simp] theorem assertEvw_plr (n : Nat) (s : State) : (assertEvw n s).plr = s.plr := by
  unfold assertEvw; split <;> rfl
@[simp] theorem assertEvw_mem (n : Nat) (s : State) : (assertEvw n s).mem = s.mem := by
  unfold assertEvw; split <;> rfl
@[simp] theorem assertEvw_ne (n : Nat) (s : State) : (assertEvw n s).ne = s.ne := by
  unfold assertEvw; split <;> rfl
@[simp] theorem assertEvw_tim (n : Nat) (s : State) : (assertEvw n s).tim = s.tim := by
  unfold assertEvw; split <;> rfl
@[simp] theorem assertEvw_rtc (n : Nat) (s : State) : (assertEvw n s).rtc = s.rtc := by
  unfold assertEvw; split <;> rfl
@[simp] theorem assertEvw_eq (n : Nat) (s : State) : (assertEvw n s).eq = s.eq := by
  unfold assertEvw; split <;> rfl
@[simp] theorem assertEvw_fio (n : Nat) (s : State) : (assertEvw n s).fio = s.fio := by
  unfold assertEvw; split <;> rfl
@[simp] theorem assertEvw_can (n : Nat) (s : State) : (assertEvw n s).can = s.can := by
  unfold assertEvw; split <;> rfl
@[simp] theorem assertEvw_hsb (n : Nat) (s : State) : (assertEvw n s).hsb = s.hsb := by
  unfold assertEvw; split <;> rfl
@[simp] theorem assertEvw_nvs (n : Nat) (s : State) : (assertEvw n s).nvs = s.nvs := by
  unfold assertEvw; split <;> rfl
@[simp] theorem assertEvw_evr (n : Nat) (s : State) : (assertEvw n s).evr = s.evr := by
  unfold assertEvw; split <;> rfl
@[simp] theorem assertEvw_key (n : Nat) (s : State) : (assertEvw n s).key = s.key := by
  unfold assertEvw; split <;> rfl
@[simp] theorem assertEvw_hl (n : Nat) (s : State) : (assertEvw n s).hl = s.hl := by
  unfold assertEvw; split <;> rfl
@[simp] theorem assertEvw_upd (n : Nat) (s : State) : (assertEvw n s).upd = s.upd := by
  unfold assertEvw; split <;> rfl
@[simp] theorem assertEvw_pwr (n : Nat) (s : State) : (assertEvw n s).pwr = s.pwr := by
  unfold assertEvw; split <;> rfl
@[simp] theorem assertEvw_tap (n : Nat) (s : State) : (assertEvw n s).tap = s.tap := by
  unfold assertEvw; split <;> rfl
@[simp] theorem assertEvw_persist (n : Nat) (s : State) : (assertEvw n s).persist = s.persist := by
  unfold assertEvw; split <;> rfl
@[simp] theorem assertEvw_regs (n : Nat) (s : State) : (assertEvw n s).regs = s.regs := by
  unfold assertEvw; split <;> rfl
@[simp] theorem assertEvw_act (n : Nat) (s : State) : (assertEvw n s).act = s.act := by
  unfold assertEvw; split <;> rfl
@[simp] theorem assertEvw_rl (n : Nat) (s : State) : (assertEvw n s).rl = s.rl := by
  unfold assertEvw; split <;> rfl
@[simp] theorem assertEvw_fresh (n : Nat) (s : State) : (assertEvw n s).fresh = s.fresh := by
  unfold assertEvw; split <;> rfl

end Sys2Proof.Laws
end

