-- ==== Sys2Proof/Laws/Memory.lean ====
section
/-! SUPPORT. Every operation that writes a memory keeps the canonical form of all memories, and what a byte reads as after
it. -/
namespace Sys2Proof.Laws

open Sys2Proof.Machine Sys2Proof.Safety

/-- The parts of the canonical form. -/
theorem memory_wf_iff (s : State) : Memory.wf s = true ↔ swf zeroByte s.mem.shared = true ∧ swf zeroByte s.ln.prog = true
    ∧ (∀ i : Fin 16, swf zeroByte (s.lanes[i.val]).scratch = true) ∧ swf zeroByte s.nvs.mem = true
    ∧ swf norDefault s.upd.nor = true ∧ swf zeroByte s.mem.neBuf = true ∧ swf zeroByte s.mem.mgmtSecure = true
    ∧ swf zeroByte s.mem.mgmtNormal = true := by
  unfold Memory.wf
  simp only [Bool.and_eq_true, Vector.all_eq_true, and_assoc]
  constructor
  · rintro ⟨a, b, c, d⟩; exact ⟨a, b, fun i => c i.val i.isLt, d⟩
  · rintro ⟨a, b, c, d⟩; exact ⟨a, b, fun i h => c ⟨i, h⟩, d⟩

/-- A change that leaves the memories alone keeps their form. -/
theorem memory_wf_same {s t : State} (h : Memory.wf s = true) (e1 : t.mem.shared = s.mem.shared) (e2 : t.ln.prog = s.ln.prog)
    (e3 : ∀ i : Fin 16, (t.lanes[i.val]).scratch = (s.lanes[i.val]).scratch) (e4 : t.nvs.mem = s.nvs.mem)
    (e5 : t.upd.nor = s.upd.nor) (e6 : t.mem.neBuf = s.mem.neBuf) (e7 : t.mem.mgmtSecure = s.mem.mgmtSecure)
    (e8 : t.mem.mgmtNormal = s.mem.mgmtNormal) : Memory.wf t = true := by
  rw [memory_wf_iff] at h ⊢
  rw [e1, e2, e4, e5, e6, e7, e8]
  exact ⟨h.1, h.2.1, fun i => by rw [e3]; exact h.2.2.1 i, h.2.2.2⟩

/-- Shared memory written. -/
theorem shPut_wf (a : Nat) (bs : List Byte) {s : State} (h : Memory.wf s = true) : Memory.wf (shPut a bs s) = true := by
  rw [memory_wf_iff] at h ⊢
  exact ⟨swf_sputs bs a h.1, h.2⟩

theorem shPutW_wf (a : Nat) (x : Word) {s : State} (h : Memory.wf s = true) : Memory.wf (shPutW a x s) = true :=
  shPut_wf a _ h

/-- The parameter store written. -/
theorem nvPut_wf (a : Nat) (bs : List Byte) {s : State} (h : Memory.wf s = true) : Memory.wf (nvPut a bs s) = true := by
  rw [memory_wf_iff] at h ⊢
  exact ⟨h.1, h.2.1, h.2.2.1, swf_sputs bs a h.2.2.2.1, h.2.2.2.2⟩

/-- A lane changed in a way that keeps the form of its scratch. -/
theorem modLane_wf (l : Fin 16) (f : Lane → Lane) {s : State} (h : Memory.wf s = true)
    (hf : swf zeroByte (s.lanes[l.val]).scratch = true → swf zeroByte (f s.lanes[l.val]).scratch = true) :
    Memory.wf (modLane l f s) = true := by
  rw [memory_wf_iff] at h ⊢
  refine ⟨h.1, h.2.1, fun i => ?_, h.2.2.2⟩
  by_cases e : i = l
  · subst e; simpa [modLane] using hf (h.2.2.1 i)
  · have : l.val ≠ i.val := fun q => e (Fin.ext q.symm)
    simpa [modLane, Vector.getElem_set, this] using h.2.2.1 i

/-- Lane program memory written: by placement, and by a host or the transfer engine (R60, R163). -/
theorem putBundle_wf (x : Nat × Nat × Nat) {s : State} (h : Memory.wf s = true) : Memory.wf (putBundle x s) = true := by
  rw [memory_wf_iff] at h ⊢
  unfold putBundle
  simp only
  generalize leBytes 32 x.2.2 = bs
  exact ⟨h.1, swf_sputs bs _ h.2.1, h.2.2⟩

theorem maquettePut_wf (o : Nat) (bs : List Byte) {s : State} (h : Memory.wf s = true) :
    Memory.wf (maquettePut o bs s) = true := by
  have h0 : Memory.wf { s with ln := { s.ln with
      prog := sputs zeroByte o bs s.ln.prog
      badBundles := s.ln.badBundles.filter fun k => !decide (o / 32 ≤ k ∧ k * 32 < o + bs.length) } } = true := by
    rw [memory_wf_iff] at h ⊢
    exact ⟨h.1, swf_sputs bs o h.2.1, h.2.2⟩
  unfold maquettePut
  simp only
  split
  · exact memory_wf_same h0 rfl rfl (fun _ => rfl) rfl rfl rfl rfl rfl
  · exact h0

/-- NOR flash: a slot emptied, bytes written with the sectors they open erased. -/
theorem emptySlot_wf {s : State} (h : Memory.wf s = true) : Memory.wf (emptySlot s) = true := by
  rw [memory_wf_iff] at h ⊢
  exact ⟨h.1, h.2.1, h.2.2.1, h.2.2.2.1, swf_sclear _ _ h.2.2.2.2.1, h.2.2.2.2.2⟩

theorem norPut_wf (a : Nat) (bs : List Byte) {s : State} (h : Memory.wf s = true) :
    Memory.wf (modUpd (fun u => { u with nor := sputs norDefault a bs u.nor }) s) = true := by
  rw [memory_wf_iff] at h ⊢
  exact ⟨h.1, h.2.1, h.2.2.1, h.2.2.2.1, swf_sputs _ _ h.2.2.2.2.1, h.2.2.2.2.2⟩

/-- A change made for each number of a list keeps the form if each does. -/
theorem forAll_wf (is : List Nat) (f : Nat → State → State) (hf : ∀ i s, Memory.wf s = true → Memory.wf (f i s) = true) :
    ∀ {s : State}, Memory.wf s = true → Memory.wf (forAll is f s) = true := by
  unfold forAll
  induction is with
  | nil => exact fun h => h
  | cons i t ih => exact fun h => ih (hf i _ h)

theorem norWrite_wf (a : Nat) (bs : List Byte) {s : State} (h : Memory.wf s = true) : Memory.wf (norWrite a bs s) = true := by
  unfold norWrite
  exact norPut_wf a bs (forAll_wf _ _ (fun k s h => norPut_wf _ _ h) h)

/-- The image area written at a freeze (R190). -/
theorem writeImage_wf {s : State} (h : Memory.wf s = true) : Memory.wf (writeImage s) = true := by
  unfold writeImage
  simp only
  have h0 : Memory.wf { s with mem := { s.mem with shared := sclear (areaBase s 0) (areaBase s 0 + lenIn) s.mem.shared } }
      = true := by
    rw [memory_wf_iff] at h ⊢
    exact ⟨swf_sclear _ _ h.1, h.2⟩
  generalize areaBase s 0 = b at h0 ⊢
  revert h0
  generalize { s with mem := { s.mem with shared := sclear b (b + lenIn) s.mem.shared } } = t
  have : ∀ (ws : List (Nat × Word)) (t : State), Memory.wf t = true →
      Memory.wf (ws.foldl (fun s x => shPutW (b + 4 * x.1) x.2 s) t) = true := by
    intro ws
    induction ws with
    | nil => exact fun _ h => h
    | cons x ws ih => exact fun t h => ih _ (shPutW_wf _ _ h)
  exact this _ t

/-- Notes, event bits, registers and STATUS touch no memory. -/
theorem raiseEntry_wf (e : Entry) {s : State} (h : Memory.wf s = true) : Memory.wf (raiseEntry e s) = true :=
  memory_wf_same h (by simp) (by simp) (by simp) (by simp) (by simp) (by simp) (by simp) (by simp)
theorem assertEvw_wf (n : Nat) {s : State} (h : Memory.wf s = true) : Memory.wf (assertEvw n s) = true :=
  memory_wf_same h (by simp) (by simp) (by simp) (by simp) (by simp) (by simp) (by simp) (by simp)
theorem setReg_wf (a : Nat) (x : Word) {s : State} (h : Memory.wf s = true) : Memory.wf (setReg a x s) = true := h
theorem settle_wf {s : State} (h : Memory.wf s = true) : Memory.wf (settle s) = true := h

/-- A byte of shared memory after a write; a register after a write. -/
theorem shByte_shPut (a : Nat) (bs : List Byte) (i : Nat) {s : State} (h : Memory.wf s = true) :
    shByte (shPut a bs s) i = if h : a ≤ i ∧ i < a + bs.length then bs[i - a]'(by omega) else shByte s i :=
  sget_sputs i bs a ((memory_wf_iff s).mp h).1
theorem reg_setReg (a b : Nat) (x : Word) {s : State} (h : swf regReset s.regs = true) :
    reg b (setReg a x s) = if b = a then x else reg b s := sget_sput a x b h

end Sys2Proof.Laws
end

