-- ==== Sys2Proof/WellFormed.lean ====
section
/-! DEFINITION. Well-formed commands: every field fits the width that it has on its wire or in its register. A command outside is no
command that the outside can send; exec still gives each one an outcome. -/
namespace Sys2Proof

open Sys2Proof.Machine

/-- A MAC address, an APPID and a VLAN tag in range (R193, R200). -/
def macWf (m : Nat) : Bool := decide (m < 2 ^ 48)
def vlanWf : Option Nat → Bool
  | none => true
  | some v => decide (v < 4096)

/-- An ASDU: a 16-bit sample count and rate, an 8-bit smpSynch (R193). -/
def asduWf (a : SvAsdu) : Bool :=
  decide (a.smpCnt < 65536 ∧ a.smpSynch < 256)
  && match a.smpRate with
    | none => true
    | some r => decide (r < 65536)

/-- An authentication extension: algorithm, IV and tag are octets of a message (R207). -/
def authWf : Option AuthTag → Bool
  | none => true
  | some a => decide (a.alg < 256 ∧ a.iv.length ≤ 255 ∧ a.tag.length ≤ 255)

/-- A sampled-value message (R193). -/
def svWf (m : SvMsg) : Bool :=
  macWf m.dmac && decide (m.appid < 65536) && vlanWf m.vlan && authWf m.auth && m.asdus.all asduWf

/-- A GOOSE message: its time to live is a 32-bit count of ms (R200). -/
def gooseWf (m : GooseMsg) : Bool :=
  macWf m.dmac && decide (m.appid < 65536) && vlanWf m.vlan && authWf m.auth && decide (m.tal < 2 ^ 32)

/-- A PTP message (R216). -/
def ptpWf (m : PtpMsg) : Bool :=
  decide (m.version < 16 ∧ m.sdo < 4096 ∧ m.domain < 256 ∧ m.seq < 65536 ∧ -128 ≤ m.logInt ∧ m.logInt ≤ 127)

/-- What a frame carries. -/
def payloadWf : Payload → Bool
  | .sv m => svWf m
  | .goose m => gooseWf m
  | .ptp m => ptpWf m
  | .supervision | .other => true

/-- A redundancy tag has a 16-bit sequence number (R187, R188). -/
def tagWf : RedTag → Bool
  | .none => true
  | .prp q _ _ => decide (q < 65536)
  | .hsr q _ => decide (q < 65536)

/-- An Ethernet frame (R186). -/
def ethWf (f : EthFrame) : Bool := macWf f.srcMac && macWf f.dstMac && tagWf f.tag && payloadWf f.payload

/-- An IRIG-B frame: year of the century, day of the year, second of the day (R221). -/
def irigWf (f : IrigMsg) : Bool :=
  decide (f.year ≤ 99 ∧ 1 ≤ f.day ∧ f.day ≤ 366 ∧ f.sec ≤ 86400 ∧ f.tq < 16)

/-- A frame number of the sync link fits its 64 bits (R295). -/
def hsbFrame (k : Nat) : Bool := decide (k < 2 ^ 64)

/-- Offsets of groups of the parameter store (R311). -/
def groupsWf (gs : List Nat) : Bool := gs.all fun g => decide (g % 8 = 0 ∧ g < 2 ^ 21)

/-- A start-up: steps 1 to 6 of the self-test, which ends before the start-up does (R381); groups of the store. -/
def resetWf (r : ResetIn) : Bool :=
  decide (r.stestMs ≤ r.bootMs) && groupsWf r.nvCe && groupsWf r.nvUnc && match r.stestFail with
    | none => true
    | some (n, _) => decide (1 ≤ n ∧ n ≤ 6)

/-- A command that the outside can send. -/
def Instr.wf : Instr → Bool
  | .move .. | .opResult .. | .macroCall .. | .add .. | .addc .. | .sub .. | .subc .. | .rsub .. | .andOp ..
  | .orOp .. | .xorOp .. | .andn .. | .notOp .. | .neg .. | .abs .. | .shl .. | .shr .. | .sar .. | .rol ..
  | .ror .. | .minOp .. | .maxOp .. | .minu .. | .maxu .. | .sext8 .. | .sext16 .. | .zext8 .. | .zext16 ..
  | .clz .. | .popc .. | .bswap .. | .pass .. | .mul .. | .mulu .. | .mulq31 .. | .mac .. | .accset ..
  | .div .. | .divu .. | .divl .. | .divlu .. | .badd .. | .baddc .. | .bsub .. | .bsubc .. | .bdadj ..
  | .b2bin .. | .bin2b .. | .date2day .. | .day2date .. | .time2sec .. | .sec2time .. | .bset .. | .brst ..
  | .btgl .. | .btst .. | .edge .. | .edgew .. | .prime .. | .primew .. | .cmpEq .. | .cmpNe .. | .cmpLt ..
  | .cmpLe .. | .cmpGt .. | .cmpGe .. | .cmpLtu .. | .cmpLeu .. | .cmpGtu .. | .cmpGeu .. | .tstz ..
  | .tstnz .. | .feq .. | .fne .. | .flt .. | .fle .. | .fgt .. | .fge .. | .fun_ .. | .inr .. | .inru ..
  | .fadd .. | .fsub .. | .fmul .. | .fma .. | .fms .. | .fdiv .. | .fsqrt .. | .fneg .. | .fabs ..
  | .fmin .. | .fmax .. | .i2f .. | .u2f .. | .f2i .. | .f2it .. | .f2u .. | .frnd .. | .atan2 .. | .mag ..
  | .polar .. | .sincos .. | .sld .. | .sldh .. | .sldb .. | .sst .. | .ssth .. | .sstb .. | .ld .. | .st ..
  | .imgIn .. | .imgOut .. | .hs .. | .hq .. | .push .. | .pop .. | .peek .. | .drop .. | .depth .. | .evw ..
  | .ttick .. | .now .. | .log .. | .jmp .. | .jmpr .. | .call .. | .ret .. | .endSeg .. | .wait ..
  | .post .. | .tryw .. | .rdepth .. | .batonCount .. | .batonTake .. | .batonTimeout .. | .segmentStart ..
  | .run .. | .copy .. | .matchRep .. | .seek .. | .fill .. | .breakRep .. | .bankGrant .. | .loadReturn ..
  | .tick | .assemblyComplete | .computeWindowOpen | .guard | .doubtGoose | .flushComplete | .watchdog
  | .blockCrcScrub | .mgmtSramUe .. | .hostReset .. | .commitArm .. | .commitCancel .. | .frmClrMax ..
  | .hostEvent .. | .frameLoRead .. | .k0LoRead .. | .lnClrMax .. | .seal .. | .chiselClear ..
  | .chiselCopy .. => true
  | .chiselWrite _ reg _ => decide (reg ≤ 64)
  | .load .. | .loaded | .place .. | .placed | .swap .. | .swapCancel .. | .discard .. | .uncache .. => true
  | .maquetteWrite _ addr _ => decide (0x20000000 ≤ addr ∧ addr < 0x20400000)
  | .submit .. | .abort .. | .descriptorTake .. | .teCopy .. | .teFill .. | .teCrc .. | .memClrMax .. => true
  | .portFrame _ f => ethWf f
  | .hsrForward _ _ f => ethWf f
  | .supervisionFrame .. | .duplicateEntryExpiry .. => true
  | .linkChange _ _ speed => decide (speed ≤ 3)
  | .svMessage _ m => svWf m
  | .cutoff => true
  | .gooseMessage _ m => gooseWf m
  | .gooseExpiry .. | .gooseRetransmit .. | .neClrCnt .. => true
  | .ptpMessage _ m => ptpWf m
  | .ptpTransmit .. | .ptpLanSwitch .. => true
  | .irigFrame f => irigWf f
  | .ppsIn .. | .sourceTimeout .. | .holdLimit | .clockLoss .. | .ppsOut | .ppsPulseEnd | .firstTick
  | .epochCheck | .timNowRead .. | .rtcTickLoRead .. | .rtcTickHiRead .. | .shiftGo .. | .shiftCancel ..
  | .shiftApply | .alarmArm .. | .alarmFire => true
  | .domainWriteDone reg => decide (0x70000 ≤ reg ∧ reg < 0x70200)
  | .domainReset | .tamperSample .. | .tamper | .eqSample | .freerunCycleEnd .. | .latch .. | .pulseStart ..
  | .pulseEnd .. | .energySave | .holdExpiry | .snapHold .. | .pointClear .. | .wrapClr .. | .preset ..
  | .pqPop .. | .acceptedTransition .. | .wireBreak .. | .supplyLoss .. | .supplyRestore .. | .overcurrent ..
  | .groupOverload .. | .thermalShutdown .. | .outputRetry .. | .outputDiag .. | .diagClear ..
  | .monostableRunout .. | .canFrameReceived .. | .txAttempt .. | .txDone .. | .canError ..
  | .integrationEnd .. | .recover .. | .recoveryEnd .. | .referenceDue .. | .refLost .. | .canClrCnt .. => true
  | .recordMsg _ r => hsbFrame r.k
  | .mirrorSv _ _ j _ => hsbFrame j
  | .mirrorGs _ _ _ words => decide (words.length ≤ 32)
  | .mirrorCan _ _ _ words => decide (words.length ≤ 20)
  | .meter _ words => decide (words.length ≤ 65536)
  | .outputMsg _ k words _ => hsbFrame k && decide (words.length ≤ 16384)
  | .doubtMsg .. | .beatMsg .. => true
  | .xferMsg _ m block _ => hsbFrame m && decide (block.addr % 4 = 0)
  | .scanMsg _ _ _ crcs => decide (crcs.length ≤ 256)
  | .controlMsg .. | .beacon .. | .imageDeadline | .compare | .seekTimeout | .transferComplete | .handover ..
  | .handoverCancel .. | .hsbClrCnt .. | .journalCommit | .retainSave | .opSecondsStore | .lockPage ..
  | .nvsCntLoRead .. | .intake | .ringWrite | .tokenAdd | .suppressed | .next .. | .prev .. | .cursorWrite ..
  | .cleared .. | .writeNow .. | .keyWrite .. | .keyErase .. | .keyWritten | .keyBad .. | .lcChange ..
  | .tamperClear .. | .sha256 .. | .hmac .. | .gmac .. | .ecdsa .. | .opDone | .keyRngRead .. | .reseed
  | .rngFail .. | .request .. | .replyFetch | .nop .. => true
  | .read _ _ _ len => decide (len < 2 ^ 32)
  | .write _ _ _ payload => decide (payload.length < 2 ^ 32)
  | .hello .. => true
  | .auth _ _ tag => decide (tag.length < 2 ^ 32)
  | .close .. | .hlCmdClose .. | .idleTimeout .. | .throttleEnd .. | .attnRoseRead .. | .arpRequest
  | .icmpEcho => true
  | .moduleReset r => resetWf r
  | .updOpen .. | .chunk .. | .verify .. | .verified | .activate .. | .updAbort .. | .deactivate ..
  | .confirm .. | .updLapse | .trialExpired | .pfw .. | .supplyRail .. => true
  | .supplyReturnReset r => resetWf r
  | .powerDown | .linkDown .. | .announceReceiptTimeout .. | .switchCooled .. | .lostArbitration ..
  | .frameCommitPoint .. => true

end Sys2Proof
end

