-- ==== Sys2Proof/Tests/Slice0.lean ====
section
/-! SUPPORT. Tests: witnesses that the hypotheses of the statements can be met, clause by clause, ill-formed commands, and
worked examples of the manual. -/
namespace Sys2Proof.Tests

set_option Elab.async false
open Sys2Proof Sys2Proof.Machine Sys2Proof.Safety

/-- The state after a command that answers one. -/
def after (o : Host.Outcome State Fault Refusal) : State :=
  match o with
  | .next u => u
  | _ => State.reset

/-- A module that runs frames: frame 100 of the tick at cycle 1,000,000, TICKPH 3,000, window open, every lane issuing. -/
def up : State :=
  { State.reset with
    clk := { State.reset.clk with cyc := 1003000, tickph := 3000 }
    frm := { State.reset.frm with
      state := .running, k := 100, ticks := 100, tickCyc := 1000000, assembled := true, windowOpen := true }
    lanes := State.reset.lanes.map fun ln => { ln with mode := .sched } }

/-- The ports of a unit of lane 3, given. -/
def ports (u : UnitId) (o1 o2 o3 f : Word) (s : State) : State :=
  modLane 3 (fun ln => { ln with units := vmod ln.units u.idx.val fun p => { p with o1 := o1, o2 := o2, o3 := o3, f := f } }) s

/-! ### Lane units -/

/-- Results in flight on lane 3 after a command on given ports: q, q2 and the flag word. -/
def gives (i : Instr) (u : UnitId) (o1 o2 f : Word) : List (Nat × Nat × Nat) :=
  ((after (exec i (ports u o1 o2 0 f up))).lanes[3]).inflight.map fun r => (r.q.toNat, r.q2.toNat, r.f.toNat)

/-- R89, worked example: o1 = 0x80000001. -/
theorem test_shifts :
    ([(.shl 3 0 1), (.shl 3 0 0x120), (.shl 3 0 33), (.shr 3 0 1), (.shr 3 0 32), (.sar 3 0 1), (.sar 3 0 32), (.sar 3 0 33),
      (.rol 3 0 33), (.rol 3 0 32)] : List Instr).map (fun i => gives i .alu0 0x80000001 0 0)
    = [[(2, 0, 1)], [(0, 0, 5)], [(0, 0, 4)], [(0x40000000, 0, 1)], [(0, 0, 5)], [(0xC0000000, 0, 9)], [(0xFFFFFFFF, 0, 9)],
       [(0xFFFFFFFF, 0, 8)], [(3, 0, 1)], [(0x80000001, 0, 8)]] := by
  decide +kernel

/-- R92, worked example: quotient, remainder and flags. -/
theorem test_division :
    [gives (.div 3 2) .div 0xFFFFFFF9 0 0, gives (.div 3 0xFFFFFFFE) .div 7 0 0, gives (.div 3 0xFFFFFFFF) .div 0x80000000 0 0,
      gives (.divu 3 0xFFFFFFFF) .div 0x80000000 0 0, gives (.div 3 0) .div 5 0 0, gives (.divl 3 2) .div 0 1 0,
      gives (.divlu 3 2) .div 0 1 0]
    = [[(0xFFFFFFFD, 0xFFFFFFFF, 8)], [(0xFFFFFFFD, 1, 8)], [(0x80000000, 0, 10)], [(0, 0x80000000, 4)], [(0, 5, 20)],
       [(0x80000000, 0, 10)], [(0x80000000, 0, 8)]] := by
  decide +kernel

/-- R94, worked example: a 16-digit addition chained through DC. -/
theorem test_decimal : gives (.badd 3 2) .bcd 0x99999999 0 0 = [(1, 0, 32)] ∧ gives (.baddc 3 0) .bcd 1 0 32 = [(2, 0, 0)] := by
  decide +kernel

/-- R96, worked example: calendar conversions. -/
theorem test_calendar :
    ([(.date2day 3 0x20000229), (.date2day 3 0x20240229), (.day2date 3 8825), (.date2day 3 0x21000229), (.date2day 3 0x21000301),
      (.day2date 3 36584), (.day2date 3 73048), (.day2date 3 73049), (.date2day 3 0x20230431), (.time2sec 3 0x00240000),
      (.time2sec 3 0x00235959)] : List Instr).map (fun i => (gives i .bcd 0 0 0).map fun r => (r.1, r.2.1, r.2.2 / 64))
    = [[(59, 0, 0)], [(0x2279, 0, 0)], [(0x20240229, 4, 0)], [(0, 0, 1)], [(0x8EE8, 0, 0)], [(0x21000301, 1, 0)],
       [(0x21991231, 2, 0)], [(0, 0, 1)], [(0, 0, 1)], [(0, 0, 1)], [(86399, 0, 0)]] := by
  decide +kernel

/-- R97, worked example: EDGEW on group 5 that holds 0xF0. -/
theorem test_edgew :
    let s := modLane 3 (fun ln => { ln with edges := 0xF0#4096 <<< 160 }) up
    let u := after (exec (.edgew 3 5) (ports .bit 0xF30 0 0 0 s))
    ((u.lanes[3]).inflight.map fun r => (r.q.toNat, r.q2.toNat, r.f.getLsbD 2)) = [(0xF00, 0xC0, false)]
      ∧ (u.lanes[3]).edges.extractLsb' 160 32 = 0xF30#32 := by
  decide +kernel

/-! ### Lanes: witnesses -/

/-- No doubt is latched, the module is not in plinth mode and no lane fault is held. -/
abbrev sound (s : State) : Prop := s.sys.latched = false ∧ inPlinth s = false ∧ s.ln.fault.valid = false

/-- A program: lane 3 runs two FAST segments (the second from TICKPH 4,000), lane 4 two BACKGROUND ones; bundle 0 of the
first has a deadline ahead, bundle 1 one that has passed. -/
def prog : Armature where
  imageId := 0x105
  digest := []
  mgmtVer := 0
  laneVer := 0
  rate := 1
  hm1 := 1
  margin := 10
  chiselId := 0
  keyChisel := 0
  predHash := []
  hasBg := true
  m := 4
  s := 48
  placed := [⟨1, 0, 0, 3, 0, 4, 0x10, 0, 900, [(0, 5000), (1, 2500)]⟩, ⟨2, 0, 0, 3, 4, 4, 0, 4000, 2000, []⟩,
    ⟨3, 3, 0, 4, 0, 4, 0, 0, 0, []⟩, ⟨4, 3, 0, 4, 8, 4, 0, 0, 0, []⟩, ⟨5, 0, 0, 5, 0, 4, 0, 0, 0, []⟩,
    ⟨6, 3, 0, 5, 4, 4, 0, 0, 0, []⟩]
  grants := [⟨3, 0x100000, 0x100, true, true⟩, ⟨3, 0x17FFF00, 0x100, true, true⟩]
  imgGrants := [⟨1, 0, 0, 256⟩, ⟨1, 1, 0, 256⟩, ⟨1, 2, 0, 192⟩, ⟨1, 3, 0, 24⟩]
  areas := [⟨0, 0x1740000, 0x40000, 0⟩, ⟨1, 0x1730000, 0x10000, 0⟩, ⟨2, 0x1600000, 0x48000, 0⟩]
  vars := []
  edges := []
  midIn := []
  slowIn := []
  midOut := []
  slowOut := []
  fastOut := [1]
  batons := [(7, 0), (9, 3)]
  hash := [1, 2, 3]

/-- The module with that program, lane 3 in its first segment. -/
def progUp : State :=
  modLane 3 (fun ln => { ln with segId := 1 }) { up with plr := { up.plr with run := some prog } }

/-- Lane 3 with a change. -/
def lane3 (f : Lane → Lane) (s : State) : State := modLane 3 f s

theorem meets_laneReady : laneReady 3 up ∧ laneReady 3 progUp ∧ sound up ∧ sound progUp := by and_intros <;> decide +kernel

/-- CalendarConversion: each clause at the ends of its range. -/
theorem meets_CalendarConversion : laneReady 3 up ∧ validDate 2000 1 1 ∧ packs 0x20000101 20000101 ∧ validDate 2199 12 31
    ∧ packs 0x21991231 21991231 ∧ dayNumber 2199 12 31 = 73048 ∧ ¬ validDate 2100 2 29 ∧ packs 0x00235959 235959
    ∧ (86399 : Nat) = 23 * 3600 + 59 * 60 + 59 := by
  and_intros <;> decide +kernel

/-- FpuResults, and CRD: a NaN, a signalling NaN, infinities, zeros, a finite number, the last number of SINCOS's range. -/
theorem meets_FpuResults : fIsNaN 0x7FC00000#32 = true ∧ fIsSNaN 0x7F800001#32 = true ∧ fIsInf 0x7F800000#32 = true
    ∧ fIsInf 0xFF800000#32 = true ∧ fSign 0xFF800000#32 ≠ fSign 0x7F800000#32 ∧ fIsZero 0x80000000#32 = true
    ∧ fSign 0xBF800000#32 = true ∧ fIsNaN 0x3F800000#32 = false ∧ fIsInf 0x3F800000#32 = false
    ∧ fIsNaN 0x47800000#32 = false ∧ (0x47800000#32 : Word).toNat % 2 ^ 31 ≤ 0x47800000 := by
  and_intros <;> decide +kernel

/-- LsuAccesses: locals from 0x8400 to 0xFFFF, beside and beyond; a granted shared range to its last word; a slot in use. -/
theorem meets_LsuAccesses : laneReady 3 progUp ∧ sound progUp ∧ (0x8400 ≤ 0x8403 / 4 * 4 ∧ 0xFFFF / 4 * 4 + 4 ≤ 0x10000)
    ∧ ¬ (0x8400 ≤ 0x83FF / 4 * 4) ∧ ¬ (0x10000 / 4 * 4 + 4 ≤ 0x10000)
    ∧ ((progUp.lanes[3]).slots[0]).outstanding = false ∧ (progUp.lanes[3]).reqs.length < 16
    ∧ grantOk progUp 3 0x17FFFFC 4 true = true ∧ grantOk progUp 3 0x100000 4 false = true ∧ grantOk progUp 3 0x100100 4 false = false
    ∧ (let s := lane3 (fun ln => { ln with slots := vmod ln.slots 0 fun r => { r with outstanding := true } }) progUp
       laneReady 3 s ∧ ((s.lanes[3]).slots[0]).outstanding = true) := by
  and_intros <;> decide +kernel

/-- ImageAccesses: declared words and samples at the ends of their ranges, undeclared ones, BACKGROUND. -/
theorem meets_ImageAccesses : laneReady 3 progUp ∧ sound progUp ∧ (progUp.lanes[3]).cls = 0
    ∧ declares progUp progUp.lanes[3] 0 255 = true ∧ declares progUp progUp.lanes[3] 1 0 = true
    ∧ declares progUp progUp.lanes[3] 0 256 = false
    ∧ imgAccess progUp (laneNow 3 progUp) 0x10 255 0 = .word (0x1740000 + 4 * 255)
    ∧ imgAccess progUp (laneNow 3 progUp) 0x11 0 0 = .word 0x1730000
    ∧ imgAccess progUp (laneNow 3 progUp) 0x12 0 0 = .word (0x1600000 + 4 * 98)
    ∧ imgAccess progUp (laneNow 3 progUp) 0x13 0 98 = .word 0x1640000
    ∧ (let s := lane3 (fun ln => { ln with cls := 3, mode := .bg }) progUp
       laneReady 3 s ∧ sound s ∧ (s.lanes[3]).cls = 3) := by
  and_intros <;> decide +kernel

/-- DataStack: an empty stack, one with a word, one that is full; SysUnit: four entries logged. -/
theorem meets_DataStack : laneReady 3 up ∧ (up.lanes[3]).dsp = 0
    ∧ (let s := lane3 (fun ln => { ln with dsp := 4095 }) up
       laneReady 3 s ∧ (s.lanes[3]).dsp < 4096 ∧ 4094 < (s.lanes[3]).dsp)
    ∧ (let s := lane3 (fun ln => { ln with dsp := 4096, logs := 4 }) up
       laneReady 3 s ∧ sound s ∧ 4096 ≤ (s.lanes[3]).dsp ∧ 4 ≤ (s.lanes[3]).logs) := by
  and_intros <;> decide +kernel

/-- ControlFlow: return stacks empty, full, sound and unsound; END with a next segment, its entry good and bad, at the
schedule's end, in BACKGROUND. -/
theorem meets_ControlFlow : (up.lanes[3]).rstack = [] ∧ laneReady 3 up ∧ sound up
    ∧ (let s := lane3 (fun ln => { ln with rstack := List.replicate 64 ⟨9, true⟩ }) up
       laneReady 3 s ∧ sound s ∧ 64 ≤ (s.lanes[3]).rstack.length)
    ∧ (let s := lane3 (fun ln => { ln with rstack := [⟨9, false⟩] }) up
       laneReady 3 s ∧ sound s ∧ (s.lanes[3]).rstack = [⟨9, false⟩])
    ∧ ((schedule progUp 3)[(progUp.lanes[3]).schedPos + 1]?).isSome = true ∧ (progUp.lanes[3]).cls ≠ 3
    ∧ (schedule progUp 3)[(progUp.lanes[3]).schedPos + 1]? = some ⟨2, 0, 0, 3, 4, 4, 0, 4000, 2000, []⟩
    ∧ entryBad progUp 3 ⟨2, 0, 0, 3, 4, 4, 0, 4000, 2000, []⟩ = none
    ∧ entryBad { progUp with plr := { progUp.plr with parityBad := [(3, 1)] } } 3 ⟨2, 0, 0, 3, 4, 4, 0, 4000, 2000, []⟩ = some 1
    ∧ (let s := lane3 (fun ln => { ln with schedPos := 1 }) progUp
       laneReady 3 s ∧ (schedule s 3)[(s.lanes[3]).schedPos + 1]? = none ∧ (s.lanes[3]).bgSaved = none ∧ background s 3 = [])
    ∧ laneReady 5 progUp ∧ (schedule progUp 5)[(progUp.lanes[5]).schedPos + 1]? = none ∧ (background progUp 5).length = 1
    ∧ (let s := modLane 4 (fun ln => { ln with cls := 3, mode := .bg }) progUp
       laneReady 4 s ∧ ((background s 4)[(s.lanes[4]).bgPos + 1]?).isSome = true)
    ∧ (let s := modLane 4 (fun ln => { ln with cls := 3, mode := .bg, bgPos := 1 }) progUp
       laneReady 4 s ∧ (background s 4)[(s.lanes[4]).bgPos + 1]? = none) := by
  and_intros <;> decide +kernel

/-- Baton 7 with one token. -/
def batonUp : State := { progUp with ln := { progUp.ln with batons := vset progUp.ln.batons 7 1 } }

/-- Lane 3 waiting on baton 7 with a deadline. -/
def waiting (d : Nat) (s : State) : State := lane3 (fun ln => { ln with mode := .wait, wait := .baton 7 (some d) }) s

/-- A post of lane 3 to baton 7 held since four cycles. -/
def posted (s : State) : State := { s with ln := { s.ln with posts := [⟨3, 7, 1002996, 0, 1002996⟩] } }

/-- Baton 7 taken in this cycle by lanes 5 and 9, and none left. -/
def claimUp : State :=
  { progUp with ln := { progUp.ln with takes := [⟨5, 7, 1003000, true, none⟩, ⟨9, 7, 1003000, false, some 5000⟩] } }

/-- Batons: available or not, taken by higher lanes of the cycle; before and past a deadline; a post that counts, one of a
full baton; a start time. -/
theorem meets_Batons : laneReady 3 claimUp ∧ availableTo 3 7 claimUp ∧ vget 0 claimUp.ln.batons 7 = 0
    ∧ takesAbove 3 7 claimUp = claimUp.ln.takes ∧ ((waiting 5000 batonUp).lanes[3]).saving = false
    ∧ laneReady 3 batonUp ∧ availableTo 3 7 batonUp ∧ laneReady 3 progUp ∧ ¬ availableTo 3 7 progUp
    ∧ deadlineOf progUp 3 progUp.lanes[3] 0 = some 5000
    ∧ (let s := lane3 (fun ln => { ln with pc := 1 }) progUp
       laneReady 3 s ∧ sound s ∧ ¬ availableTo 3 7 s ∧ deadlineOf s 3 s.lanes[3] 1 = some 2500)
    ∧ ((posted progUp).ln.posts.find? (fun q => q.lane == 3)) = some ⟨3, 7, 1002996, 0, 1002996⟩
    ∧ vget 0 (posted progUp).ln.batons 7 < 255
    ∧ 255 ≤ vget 0 (posted { progUp with ln := { progUp.ln with batons := vset progUp.ln.batons 7 255 } }).ln.batons 7
    ∧ availableTo 3 7 (waiting 5000 batonUp) ∧ ¬ availableTo 3 7 (waiting 3000 progUp) ∧ sound (waiting 3000 progUp)
    ∧ (let s := lane3 (fun ln => { ln with mode := .wait, wait := .start 3000 }) progUp
       (s.lanes[3]).wait = .start 3000 ∧ 3000 ≤ s.clk.tickph) := by
  and_intros <;> decide +kernel

/-- RepTriggers: an element size that exists, and the reserved one; BREAK in a body before its last bundle and at it. -/
theorem meets_RepTriggers : laneReady 3 up ∧ (up.lanes[3]).repElem.toNat % 4 ≠ 3
    ∧ (let s := lane3 (fun ln => { ln with repElem := 3 }) up
       laneReady 3 s ∧ (s.lanes[3]).repElem.toNat % 4 = 3)
    ∧ bodyReady 3 5 3 1 false (lane3 (fun ln => { ln with repRun := .body 5 3 1 false }) up) ∧ 1 + 1 < 3
    ∧ bodyReady 3 5 3 2 true (lane3 (fun ln => { ln with repRun := .body 5 3 2 true }) up) ∧ 3 ≤ 2 + 1 := by
  and_intros <;> decide +kernel

/-! ### Bundles -/

/-- Program memory of lane 3 with the words of a bundle at an index. -/
def withBundle (i : Nat) (ws : List Word) (s : State) : State :=
  { s with ln := { s.ln with prog := sputs zeroByte (bundleAddr (activeHalf s 3) 3 i) (wordsBytes ws) s.ln.prog } }

/-- R59, worked example: `v3 -> ALU_0.o1 ; #5 -> ALU_0.t.ADD`. -/
def addBundle : List Word := [0x81000003, 0x00908002, 0x10000000, 0x08000000, 0x04000000, 0x02000000, 0x01000000, 0x00800000]
/-- R59, worked example: `?!p2 #0xC0000001 -> v7`. -/
def longBundle : List Word := [0xD00F0001, 0x20000000, 0x10000000, 0x08000000, 0x04000000, 0x02000000, 0x01000000, 0x04800000]
/-- R58: `v3 -> v9` alone, with its header 0. -/
def moveBundle : List Word := [0x80120003, 0x20000000, 0x10000000, 0x08000000, 0x04000000, 0x02000000, 0x01000000, 0x00800000]

/-- The bundles of the examples read as the moves they stand for. -/
theorem test_bundles : movesOf (fetch (withBundle 0 addBundle up) 3 0) = [⟨0, 0, 0x080, .port 3⟩, ⟨1, 0, 0x090, .imm 5⟩]
    ∧ movesOf (fetch (withBundle 0 longBundle up) 3 0) = [⟨0, 10, 7, .imm 0xC0000001⟩]
    ∧ movesOf (fetch (withBundle 0 moveBundle up) 3 0) = [⟨0, 0, 9, .port 3⟩] := by
  and_intros <;> decide +kernel

/-- A plain move runs. -/
theorem test_move : let s := lane3 (fun ln => { ln with v := vset ln.v 3 42 }) (withBundle 0 moveBundle up)
    let ln := (after (exec (.move 3) s)).lanes[3]
    ln.v[9] = 42 ∧ ln.v[3] = 42 ∧ ln.pc = 1 ∧ ln.slotsCur = 1 := by
  and_intros <;> decide +kernel

/-- MovesAndResults: a result that is due alone, and a bundle of register moves. -/
theorem meets_MovesAndResults :
    (let s := lane3 (fun ln => { ln with inflight := [⟨.cmp, 0, 1, 0, 0, 0, 4, 0⟩] }) up
     canIssue s s.lanes[3] = true ∧ (s.lanes[3]).stallFrom = none ∧ dueTrap s.lanes[3] = none
       ∧ (s.lanes[3]).inflight.filter (fun x => decide (x.due ≤ (s.lanes[3]).step)) = [⟨.cmp, 0, 1, 0, 0, 0, 4, 0⟩])
    ∧ (let s := withBundle 0 moveBundle up
       let b := fetch s 3 0
       laneReady 3 s ∧ fetchBad s 3 0 = false ∧ headerOf b = 0 ∧ formBad b = false
         ∧ movesOf b = [⟨0, 0, 9, .port 3⟩] ∧ guardOk (laneNow 3 s).p 0 = true) := by
  and_intros <;> decide +kernel

/-! ### Macros (R137 to R140, worked example) -/

/-- The clamp macro: entry 0xF3 of three bundles and two parameters. -/
def clampWords : Vector Word 64 := Vector.ofFn fun i =>
  [0x81000060, 0x00A1BFFF, 0x10000000, 0x08000000, 0x04000000, 0x02000000, 0x01000000, 0x00800000,
   0x01800088, 0x00E2C000, 0x10000000, 0x08000000, 0x04000000, 0x02000000, 0x01000000, 0x00800000,
   0x00C200C8, 0x20000000, 0x10000000, 0x08000000, 0x04000000, 0x02000000, 0x01000000, 0x00800000].getD i.val 0

/-- The call `MACRO 0xF3 (v5, v9)`. -/
def callBundle : List Word := [0x002405F3, 0, 0, 0, 0, 0, 0, 0x02000000]

/-- The entry sealed (R137). -/
def clampEntry : ChiselEntry := ⟨3, 2, true, clampWords, crc32c (State.chiselBytes 3 2 0xF3 clampWords)⟩

/-- The module with the entry active, the call in bundle 0, and v5 of lane 3 given. -/
def macroUp (x : Word) : State :=
  let s := withBundle 0 callBundle { up with ln := { up.ln with active := vset up.ln.active 3 clampEntry } }
  lane3 (fun ln => { ln with v := vset ln.v 5 x }) s

/-- The template seals, and the words of the example are the moves of its listing. -/
theorem test_macro_seals : sealCode ⟨3, 2, false, clampWords, 0⟩ = 0
    ∧ movesOf (templateBundle ⟨3, 2, false, clampWords, 0⟩ 2) = [⟨0, 0, 0x061, .port 0x0C8⟩] := by
  and_intros <;> decide +kernel

/-- A sealed entry is intact; so is an empty one. -/
theorem meets_MacroCalls_intact : entryIntact 0xF3 (activeEntry (macroUp 0) 0xF3) = true
    ∧ entryIntact 0xF4 (activeEntry up 0xF4) = true := by
  have e : activeEntry (macroUp 0) 0xF3 = clampEntry := rfl
  have f : activeEntry up 0xF4 = State.chiselEmpty 0xF4 := rfl
  rw [e, f]
  simp [entryIntact, clampEntry, State.chiselEmpty]

/-- MacroCalls: a call that passes, one that does not pass, a damaged entry, an empty one. -/
theorem meets_MacroCalls :
    (let s := macroUp 0
     let b := fetch s 3 0
     laneReady 3 s ∧ fetchBad s 3 0 = false ∧ headerOf b / 64 = 0 ∧ headerOf b % 4 = 2
       ∧ guardOk (laneNow 3 s).p (b / 2 ^ 48 % 16) = true ∧ b % 256 = 0xF3 ∧ (activeEntry s 0xF3).len ≠ 0)
    ∧ (let s := { macroUp 0 with ln := { (macroUp 0).ln with badCopies := [(3, 0xF3)] } }
       laneReady 3 s ∧ sound s ∧ s.ln.badCopies.contains (3, 0xF3) = true)
    ∧ (let s := withBundle 0 [0x002405F4, 0, 0, 0, 0, 0, 0, 0x02000000] up
       laneReady 3 s ∧ fetch s 3 0 % 256 = 0xF4 ∧ (activeEntry s 0xF4).len = 0)
    ∧ (let s := withBundle 0 [0x002405F3, 0x00080000, 0, 0, 0, 0, 0, 0x02000000] up
       laneReady 3 s ∧ guardOk (laneNow 3 s).p (fetch s 3 0 / 2 ^ 48 % 16) = false) := by
  and_intros <;> decide +kernel

/-- The first step of the example: MIN of 40,000 and 32,767 starts, and the call goes on at its second bundle. -/
theorem test_macro :
    let s := macroUp 0x9C40
    let is : Issue := { pc := 0, header := 0, occ := 2, moves := (movesOf (templateBundle clampEntry 0)).map (substMv #v[5, 9, 0, 0])
                        mac := some ⟨0xF3, 0, #v[5, 9, 0, 0], 1⟩, macLen := 3, body := false }
    ((issueMoves 3 is false s).lanes[3]).inflight.map (·.q) = [0x7FFF] := by
  decide +kernel

/-- CRC-32C and CRC-16 of the digits 1 to 9 (R4, R328). -/
theorem test_crc : crc32c [0x31, 0x32, 0x33, 0x34, 0x35, 0x36, 0x37, 0x38, 0x39] = 0xE3069283
    ∧ crc16 [0x31, 0x32, 0x33, 0x34, 0x35, 0x36, 0x37, 0x38, 0x39] = 0x29B1 := by
  and_intros <;> decide +kernel

/-! ### Host sessions, commits, placer, transfer engine -/

/-- A session of a PROVISIONER on the host port, with registers of its own. -/
def ses (regs : List (Nat × Word)) : Session :=
  { ep := .hp, role := 3, slot := some 5, lastSeq := none, lastReply := none, lastExec := 1000000, regs := regs
    win := ⟨0, 0, Vector.replicate 8 0⟩, lastWrCount := 0, lastWrPage := 0 }

/-- A state with session 1 open so, and with given registers of the module. -/
def withSes (sr mr : List (Nat × Word)) (s : State) : State :=
  { s with regs := mr, hl := { s.hl with sessions := vset s.hl.sessions 1 (some (ses sr)) } }

/-- The running module with session 1 open. -/
def hostUp : State := withSes [] [] up

/-- An endpoint's counts. -/
def stat (viol : Nat) (to_ : Option Nat) : EpStat := { ep := .hp, sec := 0, viol := viol, throttledTo := to_, replySec := 0, replies := 0 }

/-- HostGate: each way in which a request is not executed. -/
theorem meets_HostGate : hostCmd (.seal 1) = some (1, some 2) ∧ State.reset.clk.power = true
    ∧ (let s := { hostUp with clk := { hostUp.clk with power := false } }
       s.clk.power = false)
    ∧ session 1 up = none ∧ up.clk.power = true
    ∧ (let s := { hostUp with hl := { hostUp.hl with eps := [stat 65 (some 5)] } }
       session 1 s = some (ses []) ∧ throttled .hp s = true)
    ∧ (let s := { hostUp with hl := { hostUp.hl with owed := some ⟨.hp, 1, 0, 4, true⟩ } }
       throttled .hp s = false ∧ sessionBusy 1 s = true)
    ∧ (let ss := { ses [] with role := 1 }
       let s := { up with hl := { up.hl with sessions := vset up.hl.sessions 1 (some ss) } }
       heard 1 ss s ∧ ss.role.val < 2)
    ∧ (let s := { hostUp with upd := { hostUp.upd with recovery := true } }
       heard 1 (ses []) s ∧ s.upd.recovery = true ∧ updCmd (.seal 1) = false) := by
  and_intros <;> decide +kernel

/-- LatchingReads, LatchesAndClears: a judged session, STATUS current, the generator in order and failed, host events in
the step under way and in an earlier one. -/
theorem meets_LatchesAndClears : heard 1 (ses []) hostUp ∧ hostReady 1 1 (ses []) hostUp ∧ hostUp.att.last = status hostUp
    ∧ hostUp.key.rngOk = true
    ∧ (let s := { hostUp with key := { hostUp.key with rngOk := false } }
       heard 1 (ses []) s ∧ s.key.rngOk = false)
    ∧ hostUp.frm.hostStepAt ≠ hostUp.clk.cyc / 4
    ∧ (let s := { hostUp with frm := { hostUp.frm with hostStepAt := 250750 } }
       hostReady 1 1 (ses []) s ∧ s.frm.hostStepAt = s.clk.cyc / 4) := by
  and_intros <;> decide +kernel

/-- A commit arm for frame `f`. -/
def armUp (f : Word) : State := withSes [] [(0x10030, f)] progUp

/-- An arm of groups already made for frame `f`. -/
def armed (f : Nat) : State :=
  { hostUp with frm := { hostUp.frm with commitArmed := true, commitGroups := 1, commitF := f, committed := false } }

/-- Commits: an arm in time, one that is late at the last frame, one in STANDBY, one of a chisel table that the program
does not name; cancels in time and late. -/
theorem meets_Commits : hostReady 1 2 (ses []) (armUp 102) ∧ paired (armUp 102) = false ∧ (armUp 102).hsb.role ≠ .standby
    ∧ (armUp 102).frm.commitArmed = false ∧ (armUp 102).frm.ticks ≠ 0
    ∧ (armUp 102).frm.k + 2 ≤ (reg 0x10030 (armUp 102)).toNat + (reg 0x10034 (armUp 102)).toNat * 2 ^ 32
    ∧ ¬ (armUp 101).frm.k + 2 ≤ (reg 0x10030 (armUp 101)).toNat + (reg 0x10034 (armUp 101)).toNat * 2 ^ 32
    ∧ (let s := { hostUp with hsb := { hostUp.hsb with role := .standby } }
       hostReady 1 2 (ses []) s ∧ s.hsb.role = .standby)
    ∧ hostReady 1 2 (ses []) (armed 102) ∧ (armed 102).frm.k + 1 < (armed 102).frm.commitF
    ∧ (armed 101).frm.commitF ≤ (armed 101).frm.k + 1 := by
  and_intros <;> decide +kernel

/-- A program whose CHISEL_ID is the staged table's, and one whose is not. -/
theorem meets_Commits_chisel :
    (let s := { armUp 102 with plr := { (armUp 102).plr with run := some { prog with chiselId := stagedId up } } }
     s.plr.run = some { prog with chiselId := stagedId up } ∧ stagedId s = stagedId up)
    ∧ (let s := { armUp 102 with plr := { (armUp 102).plr with run := some { prog with chiselId := stagedId up + 1 }, swapF := none } }
       ¬ (stagedId s = stagedId up + 1 ∨ (s.plr.swapF = some 102 ∧ ∃ m, s.plr.maq = some m ∧ m.chiselId = stagedId s))) := by
  refine ⟨⟨rfl, rfl⟩, ?_⟩
  intro s
  have e : stagedId s = stagedId up := rfl
  have f : s.plr.swapF = none := rfl
  rw [e, f]
  simp

/-- ChiselCommands: the first and the last customer entry, a vendor entry, the active table, an armed commit; an entry
that seals and one that does not. -/
theorem meets_ChiselCommands :
    hostReady 1 2 (ses [(0x21008, 0xF0)]) (withSes [(0x21008, 0xF0)] [] up)
    ∧ (regSes 0x21008 (ses [(0x21008, 0xF0)])).toNat % 256 = 0xF0 + (0 : Fin 16).val
    ∧ (regSes 0x21008 (ses [(0x21008, 0xFF)])).toNat % 256 = 0xF0 + (15 : Fin 16).val
    ∧ (regSes 0x21008 (ses [(0x21008, 0xEF)])).toNat % 256 < 0xF0 ∧ (regSes 0x21008 (ses [(0x21008, 0x1F0)])).getLsbD 8 = true
    ∧ (let s := { withSes [(0x21008, 0xF0)] [] up with frm := { up.frm with commitArmed := true, commitGroups := 16 } }
       hostReady 1 2 (ses [(0x21008, 0xF0)]) s ∧ (s.frm.commitArmed && s.frm.commitGroups.getLsbD 4) = true)
    ∧ sealCode ⟨3, 2, false, clampWords, 0⟩ = 0 ∧ sealCode ⟨3, 1, false, clampWords, 0⟩ ≠ 0 := by
  and_intros <;> decide +kernel

/-- A program image of 128 bytes that LOAD accepts: its header, a segment record, its digest (R145, R146). -/
def image : List Word := [0x4D514349,0x00010001,0x00000000,0x00000080,0x0000013F,0x00010000,0x00000000,0x00000000,0x00000040,0x00000000,0x00000000,0x00000000,0x00000000,0x00000000,0x00000105,0xE3D6274E,0x00000000,0x00000000,0x00000000,0x00000000,0x00000000,0x00000000,0x00000000,0x00000000,0xD87B0398,0xF946F139,0x8A162105,0x09196AD6,0xA133A345,0xD990A3EF,0x6F69A95C,0x98A31168]

/-- The image in shared memory at 0, the placer in a state, registers of the placer given. -/
def plrUp (st : PlrState) (mr : List (Nat × Word)) : State :=
  let s := withSes [] mr progUp
  { s with plr := { s.plr with state := st }, mem := { s.mem with shared := sputs zeroByte 0 (wordsBytes image) [] } }

/-- Registers that name the image, and one with a length that is not the image's. -/
def imgRegs (n : Word) : List (Nat × Word) := [(0x30008, 0), (0x3000C, n)]

theorem test_load : (loadBytes (plrUp .empty (imgRegs 128))).length = 128
    ∧ loadCheck (loadBytes (plrUp .empty (imgRegs 128))) 128 1 = none
    ∧ loadCheck (loadBytes (plrUp .empty (imgRegs 96))) 96 1 = some 0x2001 := by
  and_intros <;> decide +kernel

/-- A placer armed for frame `f`. -/
def swapUp (f : Nat) : State :=
  let s := plrUp .armed []
  { s with plr := { s.plr with swapF := some f } }

/-- A maquette whose CHISEL_ID is the active table's, with SWAP asked for frame `f` of a program of cycle 48. -/
def maqUp (f : Word) : State :=
  let s := plrUp .placed [(0x30014, f)]
  { s with plr := { s.plr with maq := some { prog with chiselId := activeId up } } }

/-- PlacerCommands: LOAD of an accepted and of a refused image, and every state of the placer; SWAP in time at the least
distance on a cycle begin, too soon, off the cycle, in STANDBY; cancels. -/
theorem meets_PlacerCommands :
    hostReady 1 2 (ses []) (plrUp .empty (imgRegs 128)) ∧ paired (plrUp .empty (imgRegs 128)) = false
    ∧ loadCheck (loadBytes (plrUp .empty (imgRegs 128))) (reg 0x3000C (plrUp .empty (imgRegs 128))).toNat
        (plrUp .empty (imgRegs 128)).frm.rate = none
    ∧ loadCheck (loadBytes (plrUp .empty (imgRegs 96))) (reg 0x3000C (plrUp .empty (imgRegs 96))).toNat
        (plrUp .empty (imgRegs 96)).frm.rate = some 0x2001
    ∧ (hostReady 1 2 (ses []) (plrUp .placing []) ∧ hostReady 1 2 (ses []) (plrUp .loading [])
      ∧ hostReady 1 2 (ses []) (plrUp .loaded []))
    ∧ (hostReady 1 2 (ses []) (maqUp 144) ∧ progS (maqUp 144) = 48 ∧ (maqUp 144).frm.k0 = 0 ∧ 48 ∣ 144 - 0
      ∧ (maqUp 144).hsb.role ≠ .standby ∧ ¬ ((maqUp 144).frm.ticks = 0 ∨ 144 < (maqUp 144).frm.k + 16))
    ∧ (115 < (maqUp 115).frm.k + 16 ∧ ¬ 117 < (maqUp 117).frm.k + 16 ∧ ¬ 48 ∣ 117 - 0)
    ∧ (let s := { maqUp 144 with hsb := { (maqUp 144).hsb with role := .standby } }
       hostReady 1 2 (ses []) s ∧ s.hsb.role = .standby ∧ paired s = false)
    ∧ (hostReady 1 2 (ses []) (swapUp 102) ∧ (swapUp 102).plr.swapF = some 102 ∧ (swapUp 102).frm.k + 1 < 102)
    ∧ ((swapUp 101).plr.swapF = some 101 ∧ 101 ≤ (swapUp 101).frm.k + 1) ∧ (plrUp .placed []).plr.swapF = none := by
  and_intros <;> decide +kernel

/-- The maquette of the SWAP fits the active table. -/
theorem meets_PlacerCommands_fits : ∃ a, (maqUp 144).plr.maq = some a ∧ (a.chiselId = activeId (maqUp 144)) :=
  ⟨{ prog with chiselId := activeId up }, rfl, congrArg₂ chiselId (rfl : up.ln.lanePart = (maqUp 144).ln.lanePart) (rfl : up.ln.active = (maqUp 144).ln.active)⟩

/-- PlacerEvents: the first and the last word of the window in the maquette half, an active half, a placer that places
with and without a result. -/
theorem meets_PlacerEvents : hostReady 1 2 (ses []) (plrUp .placed [])
    ∧ (decide (0x20000 ≤ 0x3FFFFC % 0x40000) == (plrUp .placed []).ln.half.getLsbD (0x3FFFFC / 0x40000)) = false
    ∧ (decide (0x20000 ≤ 0 % 0x40000) == (plrUp .placed []).ln.half.getLsbD (0 / 0x40000)) = true
    ∧ (plrUp .loading []).clk.power = true ∧ (plrUp .placing []).plr.maq = none
    ∧ (let s := { maqUp 144 with plr := { (maqUp 144).plr with state := .placing } }
       s.clk.power = true ∧ s.plr.state = .placing ∧ s.plr.maq.isSome = true) := by
  and_intros <;> decide +kernel

/-- A session's staged descriptor: operation and tag, source, destination, length. -/
def teSes (c src dst len : Word) : State := withSes [(0x40100, c), (0x40104, src), (0x40108, dst), (0x4010C, len)] [] progUp

/-- Slot 7 of the transfer engine given. -/
def withSlot (d : TeSlot) (s : State) : State := { s with mem := { s.mem with te := vset s.mem.te 7 d } }

/-- A descriptor: COPY, FILL or CRC of 16 bytes from 0x10100000 to 0x10200000, its CRC-16 good or damaged. -/
def desc (op : Nat) (st : TeState) (ok : Bool) : TeSlot :=
  let d := withCrc ⟨.queued, op, false, 0, 0x10100000, 0x10200000, 16, 0x11223344, 0, 0⟩
  { d with state := st, crc := if ok then d.crc else d.crc + 1 }

/-- TransferCommands: SUBMIT accepted, with every slot of the host in flight, out of space, misaligned, reserved, outside
the transfer area; ABORT of each kind of slot. -/
theorem meets_TransferCommands :
    (let s := teSes 0 0x10100000 0x10200000 16
     hostReady 1 2 (ses [(0x40100, 0), (0x40104, 0x10100000), (0x40108, 0x10200000), (0x4010C, 16)]) s
       ∧ teCheck s (staged 1 s) = .ok ∧ inFlight s false < 192 ∧ nextSlot s = some 0)
    ∧ (let s := teSes 0 0x10100000 0x10200000 16
       let t := { s with mem := { s.mem with te := vmap s.mem.te fun i d => if i < 192 then { d with state := .queued } else d } }
       teCheck t (staged 1 t) = .ok ∧ 192 ≤ inFlight t false)
    ∧ (teCheck (teSes 0 0x117FFFFC 0x10200000 8) (staged 1 (teSes 0 0x117FFFFC 0x10200000 8)) = .badSpace)
    ∧ (teCheck (teSes 0 0x10100002 0x10200000 8) (staged 1 (teSes 0 0x10100002 0x10200000 8)) = .badLen)
    ∧ (teCheck (teSes 3 0x10100000 0x10200000 8) (staged 1 (teSes 3 0x10100000 0x10200000 8)) = .badOp)
    ∧ (teCheck (teSes 0 0x10100000 0x11730000 8) (staged 1 (teSes 0 0x10100000 0x11730000 8)) = .denied)
    ∧ (let d := staged 1 (teSes 0 0x116FFFFC 0x10000000 4)
       d.op ≤ 2 ∧ 4 ≤ d.len ∧ d.src + d.len ≤ 0x11800000 ∧ inTransfer (teSes 0 0x116FFFFC 0x10000000 4) 0 4 = true)
    ∧ ((withSlot (desc 0 .queued true) hostUp).mem.te[7]).state = .queued
    ∧ ((withSlot (desc 0 .running true) hostUp).mem.te[7]).state = .running
    ∧ hostReady 1 2 (ses []) (withSlot (desc 0 .running true) hostUp) ∧ (hostUp.mem.te[7]).state = .free := by
  and_intros <;> decide +kernel

/-- Slot 7 queued, or running, on the host's channel. -/
def teQueue (d : TeSlot) : State := let s := withSlot d up; { s with mem := { s.mem with hostQ := [7] } }
def teRun (d : TeSlot) : State := let s := withSlot d up; { s with mem := { s.mem with hostRun := some 7 } }

/-- TransferEngine: a descriptor taken, refused, damaged; each operation under way. -/
theorem meets_TransferEngine :
    (let s := teQueue (desc 2 .queued true)
     s.mem.hostQ = [(7 : Fin 256).val] ∧ s.mem.hostRun = none ∧ s.mem.halted = false ∧ teCheck s s.mem.te[7] = .ok
       ∧ s.sys.latched = false)
    ∧ teCheck (teQueue (desc 3 .queued true)) (teQueue (desc 3 .queued true)).mem.te[7] ≠ .ok
    ∧ crcHolds (teQueue (desc 2 .queued true)).mem.te[7] = true ∧ inPlinth up = false
    ∧ crcHolds (teQueue (desc 2 .queued false)).mem.te[7] = false ∧ up.mem.hostQ = []
    ∧ (teRun (desc 0 .running true)).mem.hostRun = some (7 : Fin 256).val
    ∧ swf zeroByte (teRun (desc 1 .running true)).mem.shared = true
    ∧ 0x100000 + 16 ≤ 0x200000 := by
  and_intros <;> decide +kernel

/-- FILL writes its value, little-endian; COPY moves bytes; CRC of eight zero bytes. -/
theorem test_te : shWord (after (exec (.teFill false) (teRun (desc 1 .running true)))) 0x20000C = 0x11223344
    ∧ (let s := shPutW 0x100004 0xA1B2C3D4 (teRun (desc 0 .running true))
       shWord (after (exec (.teCopy false) s)) 0x200004 = 0xA1B2C3D4)
    ∧ ((after (exec (.teCrc false) (teRun { desc 2 .running true with len := 8 }))).mem.te[7]).result = 0x8C28B28A := by
  and_intros <;> decide +kernel

/-! ### Recorder, parameter store, keys -/

/-- An intact record of a NOTE, and another of the same kind that has been counted 0xFFFF times. -/
def rec1 : Rec := sealRec #v[0x000B1016, 0, 100, 1, 100, 0, 0, 0]
def recFull : Rec := sealRec #v[0x000B1016, 0xFFFF, 100, 1, 100, 0, 0, 0]

/-- Records pending, an entry taken, the ring in use. -/
def evrUp (ps : List Pend) : State := { hostUp with evr := { hostUp.evr with pending := ps } }
def takenUp (sev : Severity) (ps : List Pend) : State :=
  let t : Taken := ⟨⟨0x1016, 0x0B, sev, false, 0, 0, 0, 1000000⟩, 100, 1, 100, false⟩
  { evrUp ps with evr := { (evrUp ps).evr with cur := some t } }
def ringUp (n : Nat) (s : State) : State :=
  { s with nvs := { s.nvs with
    mem := sputs zeroByte nvRING (wordsBytes rec1.words.toList) s.nvs.mem
    rings := vset s.nvs.rings 4 ⟨BitVec.ofNat 64 n, 1, 0, true⟩ } }
/-- Size code 3 in force, with tokens for a class. -/
def sizeUp (tokens : Nat) (s : State) : State :=
  { s with evr := { s.evr with size := some 3, buckets := Vector.replicate 16 ⟨tokens, 0, 0, 0⟩ } }

/-- RecorderCommands: a number without a record, a pending one, a stored one, CLEAR with room and at the bound. -/
theorem meets_RecorderCommands : hostReady 1 0 (ses []) hostUp ∧ hostReady 1 2 (ses []) hostUp
    ∧ readableN 0 hostUp = none ∧ hostUp.evr.pending.length ≤ 1792
    ∧ (let s := evrUp [⟨rec1, 5⟩]
       s.evr.pending[0]? = some ⟨rec1, 5⟩ ∧ 0 = w (evrTotalN s + 0) ∧ evrOldestN s ≤ evrTotalN s + 0
         ∧ readableN 0 s = some 0 ∧ readableN 1 s = none)
    ∧ (let s := ringUp 1 hostUp
       readableN 0 s = some 0 ∧ 0 < evrTotalN s ∧ s.nvs.unc = [] ∧ s.nvs.ceGroups = [])
    ∧ checkOk (nvRec (ringUp 1 hostUp) (recAt (ringUp 1 hostUp) 0)) = true
    ∧ (evrUp (List.replicate 1791 ⟨rec1, 5⟩)).evr.pending.length < 1792
    ∧ 1792 ≤ (evrUp (List.replicate 1792 ⟨rec1, 5⟩)).evr.pending.length ∧ swf zeroByte hostUp.nvs.mem = true := by
  and_intros <;> decide +kernel

/-- RecorderEvents: an entry apart from the newest record with room and without, in both ring forms; one that folds; a
ring write that is due; a token that is due; a class that has held back. -/
theorem meets_RecorderEvents : (takenUp .note []).clk.power = true ∧ hostUp.evr.cur = none
    ∧ (takenUp .note []).evr.lostDue = false ∧ belowRec (takenUp .note []) = none
    ∧ (takenUp .note []).evr.pending.length < 1776 ∧ evrCode (takenUp .note []) ≠ 3
    ∧ evrCode (sizeUp 1 (takenUp .note [])) = 3 ∧ (vget State.bucket0 (sizeUp 1 (takenUp .note [])).evr.buckets 1).tokens ≠ 0
    ∧ (vget State.bucket0 (sizeUp 0 (takenUp .note [])).evr.buckets 1).tokens = 0
    ∧ 1776 ≤ (takenUp .note (List.replicate 1776 ⟨recFull, 5⟩)).evr.pending.length
    ∧ belowRec (takenUp .note [⟨recFull, 5⟩]) = some recFull
    ∧ foldsInto (recOf ⟨⟨0x1016, 0x0B, .note, false, 0, 0, 0, 1000000⟩, 100, 1, 100, false⟩ false) recFull = false
    ∧ foldsInto (recOf ⟨⟨0x1016, 0x0B, .note, false, 0, 0, 0, 1000000⟩, 100, 1, 100, false⟩ false) rec1 = true
    ∧ foldsInto (recOf ⟨⟨0x1016, 0x0B, .module, false, 0, 0, 0, 1000000⟩, 100, 1, 100, false⟩ false) rec1 = false
    ∧ (takenUp .note [⟨rec1, 5⟩]).evr.pending.getLast? = some ⟨rec1, 5⟩
    ∧ (let s := evrUp [⟨rec1, 5⟩]
       writesNow s = true ∧ s.evr.lostB.count = 0 ∧ swf zeroByte s.nvs.mem = true ∧ counter s 4 + 1 < 2 ^ 64)
    ∧ (let s := { up with clk := { up.clk with opSec := 100 } }
       s.evr.lastToken < tokenIndex s)
    ∧ tokenIndex State.reset ≤ State.reset.evr.lastToken
    ∧ (let s := { up with clk := { up.clk with opSec := 9 }
                          evr := { up.evr with buckets := vset up.evr.buckets 5 ⟨0, 3, 0x5001, 8⟩ } }
       (s.evr.buckets[5]).held ≠ 0 ∧ (s.evr.buckets[5]).sec < s.clk.opSec
         ∧ ∀ d : Fin 16, d ≠ 5 → (s.evr.buckets[d.val]).held = 0) := by
  and_intros <;> decide +kernel

/-- An operation of the journal open; operating seconds counted. -/
def jopUp (kind : BitVec 8) (chisel : Bool) : State :=
  { up with nvs := { up.nvs with jseq := 7, jop := some ⟨7, kind, chisel⟩ } }
def secUp (n ret : Nat) : State := { up with clk := { up.clk with opSec := n }, regs := [(0xC000C, w ret)] }

/-- StoreEvents: lockable pages at each end of their ranges and the pages beside them, an operation, each save due and
not due. -/
theorem meets_StoreEvents :
    (∀ p ∈ [64, 127, 192, 255], let s := withSes [] [(0xC0040, w p)] up
      hostReady 1 3 (ses []) s ∧ ((64 ≤ (reg 0xC0040 s).toNat % 256 ∧ (reg 0xC0040 s).toNat % 256 < 128)
        ∨ 192 ≤ (reg 0xC0040 s).toNat % 256))
    ∧ (∀ p ∈ [63, 128, 191], let s := withSes [] [(0xC0040, w p)] up
      ¬ ((64 ≤ (reg 0xC0040 s).toNat % 256 ∧ (reg 0xC0040 s).toNat % 256 < 128) ∨ 192 ≤ (reg 0xC0040 s).toNat % 256))
    ∧ up.nvs.jop = none ∧ (jopUp 2 false).nvs.jop = some ⟨7, 2, false⟩ ∧ (jopUp 2 true).nvs.jop = some ⟨7, 2, true⟩
    ∧ swf zeroByte (jopUp 2 true).nvs.mem = true
    ∧ (let s := secUp 10 10
       s.frm.state = .running ∧ (reg 0xC000C s).toNat % 2 ^ 12 = 10 ∧ s.nvs.retSec + 10 ≤ s.clk.opSec)
    ∧ ¬ (secUp 9 10).nvs.retSec + 10 ≤ (secUp 9 10).clk.opSec
    ∧ (secUp 60 0).nvs.opStoreSec + 60 ≤ (secUp 60 0).clk.opSec ∧ ¬ (secUp 59 0).nvs.opStoreSec + 60 ≤ (secUp 59 0).clk.opSec := by
  and_intros <;> decide +kernel

/-- Key slot 5 as given, the staged attribute word, the life cycle (1 PROVISION, 2 FIELD, 3 RETIRED), KEY_SLOT. -/
def keyUp (k : KeySlot) (lc : Nat) (attr : Word) : State :=
  let s := withSes [(0xE0010, 5)] [] up
  { s with key := { s.key with slots := vset s.key.slots 5 k, wrAttr := attr }
           nvs := { s.nvs with locked := s.nvs.locked ||| (if 2 ≤ lc then BitVec.twoPow 256 130 else 0)
                                         ||| (if 3 ≤ lc then BitVec.twoPow 256 131 else 0) } }
/-- A slot with an attribute word in a state; attribute words of type 1 (128 bits) for HOST, of type 4 with WORLD and
MGMT_SECURE. -/
def slotOf (attr : Word) (st : SlotState) : KeySlot := ⟨Vector.replicate 32 7, attr, 0, false, st⟩
def attrHost : Word := 0x00074101
/-- A write under way of slot 5. -/
def writing (attr : Word) (s : State) : State :=
  { s with key := { s.key with wr := some ⟨5, 0, .empty, attr, Vector.replicate 32 7, 1000000⟩ } }
def kses : Session := ses [(0xE0010, 5)]

theorem test_lifecycle : lifecycle (keyUp (State.key0 5) 1 0) = 1 ∧ lifecycle (keyUp (State.key0 5) 2 0) = 2
    ∧ lifecycle (keyUp (State.key0 5) 3 0) = 3 ∧ lifecycle { up with nvs := { up.nvs with locked := 0 } } = 0 := by
  and_intros <;> decide +kernel

/-- KeyCommands: a session that may and each way in which it may not; staged words that suit, do not suit, mix worlds. -/
theorem meets_KeyCommands : hostReady 1 0 kses (keyUp (State.key0 5) 1 attrHost)
    ∧ (sesReg 1 0xE0010 (keyUp (State.key0 5) 1 attrHost)).toNat % 64 = 5
    ∧ kses.role.val = 3 ∧ (keySlot (keyUp (State.key0 5) 1 attrHost) 5).state ≠ .locked
    ∧ (keyUp (State.key0 5) 1 attrHost).key.wrAttr.toNat % 16 = 1 ∧ (keyUp (State.key0 5) 1 attrHost).key.wrAttr.toNat / 16 % 64 = 16
    ∧ attrHost &&& 0xFF800000 = 0 ∧ ¬ (attrHost.getLsbD 15 = true ∧ attrHost &&& 0x6C00 ≠ 0) ∧ attrHost.getLsbD 22 = false
    ∧ (keySlot (keyUp (slotOf attrHost .locked) 1 attrHost) 5).state = .locked
    ∧ (keySlot (keyUp (slotOf 0x00078104 .valid) 2 attrHost) 5).attr.getLsbD 15 = true
    ∧ (keySlot (keyUp (State.key0 5) 2 0x00078104) 5).attr.getLsbD 15 = false
    ∧ (keyUp (State.key0 5) 2 0x00078104).key.wrAttr.getLsbD 15 = true
    ∧ (0x00071105 : Word).toNat % 16 = 5 ∧ (0x0007C104 : Word) &&& 0x6C00 ≠ 0 ∧ (0x00471101 : Word).getLsbD 22 = true
    ∧ (writing attrHost (keyUp (State.key0 5) 1 attrHost)).key.wr ≠ none := by
  and_intros <;> decide +kernel

/-- KeyEvents: a write that ends with each state of its slot; slots that a check finds bad; the generator. -/
theorem meets_KeyEvents :
    (let s := writing attrHost (keyUp (State.key0 5) 2 0)
     s.clk.power = true ∧ s.key.wr = some ⟨5, 0, .empty, attrHost, Vector.replicate 32 7, 1000000⟩
       ∧ attrHost.toNat % 16 ≤ 4 ∧ lifecycle s ≠ 3 ∧ tampHeld s = false)
    ∧ (let s := writing 0x00274101 (keyUp (State.key0 5) 2 0)
       let t := { s with rtc := { s.rtc with tamp := vset s.rtc.tamp 1 { State.tamper0 with latched := true, acted := true } } }
       tampHeld t = true ∧ (0x00274101 : Word).getLsbD 21 = true)
    ∧ up.key.wr = none
    ∧ ((keyUp (slotOf attrHost .valid) 1 0).key.slots[5]).state = .valid
    ∧ ((keyUp (slotOf attrHost .bad) 1 0).key.slots[5]).state = .bad
    ∧ (let s := { up with key := { up.key with rngCount := 2 ^ 20 } }
       2 ^ 20 ≤ s.key.rngCount ∧ s.key.rngOk = true)
    ∧ ({ up with key := { up.key with rngCount := 2 ^ 20 - 1 } }).key.rngCount < 2 ^ 20
    ∧ ({ up with key := { up.key with rngOk := false } }).key.rngOk = false ∧ heard 1 (ses []) hostUp := by
  and_intros <;> decide +kernel

/-- A key operation staged: code and slot, source, length. -/
def opUp (ctl src n : Word) : State := { withSes [] [(0xE0200, ctl), (0xE0204, src), (0xE0208, n)] up with
  key := { up.key with slots := vset up.key.slots 5 (slotOf attrHost .valid) } }

/-- KeyOperations: each operation that runs, and each way in which one is refused, at the ends of the ranges. -/
theorem meets_KeyOperations : hostReady 1 0 (ses []) (opUp 0 0x100000 0)
    ∧ (reg 0xE0200 (opUp 0x502 0x100000 12)).toNat % 4 = 2 ∧ (reg 0xE0200 (opUp 0x502 0x100000 12)).toNat / 256 % 64 = 5
    ∧ inTransfer (opUp 0 0x100000 0x100000) 0x100000 0x100000 = true ∧ inTransfer up 0x17FFFFC 8 = false
    ∧ (0x100001 : Nat) > 0x100000 ∧ (reg 0xE0208 (opUp 0x502 0x100000 11)).toNat % 2 ^ 25 = 11
    ∧ (let s := { opUp 0 0x100000 0 with key := { up.key with op := some ⟨0, 5, 0x100000, 3, 1000000⟩ } }
       s.key.op ≠ none ∧ s.clk.power = true)
    ∧ up.key.op = none
    ∧ keyServes (opUp 0x502 0x100000 12) 5 useHOST [1, 2] = true ∧ keyServes (opUp 0x501 0x100000 12) 5 useHOST [3] = false := by
  and_intros <;> decide +kernel

/-- SHA-256 of "abc" (the standard's worked value), through OP_DONE. -/
theorem test_sha : (let s := shPutW 0x100000 0x00636261 up
    let t := after (exec .opDone { s with key := { s.key with op := some ⟨0, 5, 0x100000, 3, 1000000⟩ } })
    t.key.opRes.toList.flatMap wordBytes = [0xba, 0x78, 0x16, 0xbf, 0x8f, 0x01, 0xcf, 0xea, 0x41, 0x41, 0x40, 0xde, 0x5d, 0xae,
      0x22, 0x23, 0xb0, 0x03, 0x61, 0xa3, 0x96, 0x17, 0x7a, 0x9c, 0xb4, 0x10, 0xff, 0x61, 0xf2, 0x00, 0x15, 0xad]) := by
  decide +kernel

/-- LifeCycle: PROVISION with the slots that FIELD needs and without, FIELD, RETIRED; the test port open and gated. -/
def fieldReady : State :=
  let s := keyUp (slotOf 0x00049204 .valid) 1 0
  { s with key := { s.key with slots := vset s.key.slots 6 (slotOf 0x00042203 .valid) } }
theorem meets_LifeCycle : hostReady 1 3 kses fieldReady ∧ lifecycle fieldReady = 1 ∧ swf zeroByte fieldReady.nvs.mem = true
    ∧ (fieldReady.key.slots[5]).state = .valid ∧ (fieldReady.key.slots[5]).attr.toNat % 16 = 4
    ∧ (fieldReady.key.slots[5]).attr &&& 0x49000 = 0x49000
    ∧ (fieldReady.key.slots[6]).state = .valid ∧ (fieldReady.key.slots[6]).attr.toNat % 16 = 3
    ∧ (fieldReady.key.slots[6]).attr &&& 0x42000 = 0x42000
    ∧ (∀ i : Fin 64, (up.key.slots[i.val]).state ≠ .valid)
    ∧ lifecycle (keyUp (State.key0 5) 2 0) = 2 ∧ (3#2 : BitVec 2).toNat = 2 + 1 ∧ lifecycle (keyUp (State.key0 5) 3 0) = 3
    ∧ (1#2 : BitVec 2).toNat ≠ 1 + 1
    ∧ (let port := fun (ir : TapInstr) (s : State) => { s with tap := ⟨true, ir⟩ }
       (port (.other 8) up).tap.trstN = true ∧ lifecycle (port (.other 8) up) ≤ 1
         ∧ (port .bypass (keyUp (State.key0 5) 2 0)).tap.ir = .bypass
         ∧ (port .idcode (keyUp (State.key0 5) 3 0)).tap.ir = .idcode
         ∧ (port .samplePreload (keyUp (State.key0 5) 2 0)).tap.ir = .samplePreload
         ∧ 2 ≤ lifecycle (port (.other 8) (keyUp (State.key0 5) 2 0)) ∧ up.tap.trstN = false) := by
  and_intros <;> decide +kernel

/-- A tamper input latched: acted on or not, its level active or not; a write, an operation under way. -/
def tamperUp (acted active : Bool) : State :=
  let s := keyUp (slotOf 0x00274101 .valid) 2 0
  { s with rtc := { s.rtc with tamp := vset s.rtc.tamp 2 { State.tamper0 with latched := true, acted := acted, active := active } } }
theorem meets_Tamper : (tamperUp false true).clk.power = true
    ∧ ((tamperUp false true).rtc.tamp[2]).latched = true ∧ ((tamperUp false true).rtc.tamp[2]).acted = false
    ∧ (∀ n : Fin 3, ((tamperUp true false).rtc.tamp[n.val]).latched = true → ((tamperUp true false).rtc.tamp[n.val]).acted = true)
    ∧ ((tamperUp true false).rtc.tamp[2]).active = false ∧ ((tamperUp true true).rtc.tamp[2]).active = true
    ∧ hostReady 1 3 kses (tamperUp true false) ∧ lifecycle (tamperUp true false) = 2
    ∧ lifecycle (keyUp (State.key0 5) 3 0) = 3 ∧ (writing attrHost (tamperUp false true)).key.wr ≠ none := by
  and_intros <;> decide +kernel

/-! ### Host link, updates, resets, doubt -/

/-- A slot that authenticates an ENGINEER, its reservation of SID 2, and a module that holds both. -/
def authKey : KeySlot := slotOf 0x00072203 .valid
def hello (at_ : Nat) : Hello := ⟨.hp, 0, 5, List.replicate 16 9, at_⟩
def authUp (at_ : Nat) : State :=
  let s := keyUp authKey 1 0
  { s with hl := { s.hl with hellos := vset s.hl.hellos 2 (some (hello at_)) } }
def allBusy : State := { up with hl := { up.hl with sessions := Vector.replicate 4 (some (ses [])) } }
def udp : Endpoint := .udp 0x0A000001 0x4F5A

/-- SessionsOpen: no SID free, the bootstrap path, the generator in order and failed, a reservation at its last moment
and past it. -/
theorem meets_SessionsOpen : up.clk.power = true ∧ epHeard .hp up = true ∧ throttled .hp up = false
    ∧ (∀ n : Fin 4, allBusy.hl.sessions[n.val] ≠ none) ∧ up.hl.sessions[3] = none ∧ up.hl.hellos[3] = none
    ∧ lifecycle up = 1 ∧ (∀ i : Fin 64, slotAuthOk i.val 3 up = false)
    ∧ up.key.rngOk = true ∧ ({ up with key := { up.key with rngOk := false } }).key.rngOk = false
    ∧ slotAuthOk 5 0 (authUp 1003000) = true ∧ slotAuthOk 5 3 (keyUp (slotOf 0x00072203 .bad) 1 0) = false
    ∧ (authUp 1003000).hl.hellos[2] = some (hello 1003000) ∧ up.clk.cyc ≤ 1003000 + 5 * cycSec
    ∧ (let s := { authUp 3000 with clk := { up.clk with cyc := 3000 + 5 * cycSec } }
       s.clk.cyc ≤ 3000 + 5 * cycSec ∧ ¬ s.clk.cyc + 1 ≤ 3000 + 5 * cycSec) := by
  and_intros <;> decide +kernel

/-- The AUTH that answers the challenge opens the session. -/
theorem test_auth : (let s := authUp 1003000
    let tag := hmac256 (slotKey s 5) (List.replicate 16 9 ++ [0, 5, 2])
    ((after (exec (.auth .hp 2 tag) s)).hl.sessions[2]).isSome = true
      ∧ ((after (exec (.auth .hp 2 (0 :: tag)) s)).hl.sessions[2]).isSome = false) := by
  decide +kernel

/-- SessionsClose: a session heard, a lock holder, the idle time at its end and before it, a throttle over and not. -/
theorem meets_SessionsClose : heard 1 (ses []) hostUp ∧ hostReady 1 2 (ses []) hostUp ∧ session 1 hostUp = some (ses [])
    ∧ sessionBusy 1 hostUp = false ∧ session 0 hostUp = none
    ∧ (let idle := max 1 ((reg 0x100004 hostUp).toNat / 256 % 256) * cycSec
       let s := { hostUp with clk := { hostUp.clk with cyc := 1000000 + idle } }
       (ses []).lastExec + idle ≤ s.clk.cyc ∧ hostUp.clk.cyc < (ses []).lastExec + idle)
    ∧ ({ hostUp with upd := { hostUp.upd with holder := some 1, sess := .downloaded } }).upd.holder = some 1
    ∧ (let s := { hostUp with hl := { hostUp.hl with eps := [stat 65 (some 5)] } }
       (epFind .hp s.hl.eps).throttledTo = some 5 ∧ s.clk.opSec ≤ 5
         ∧ 5 < ({ s with clk := { s.clk with opSec := 6 } }).clk.opSec) := by
  and_intros <;> decide +kernel

/-- ReadsAndWrites: each shape at its bounds, registers to the last block's end, each window, each gate. -/
theorem meets_ReadsAndWrites : heard 1 (ses []) hostUp
    ∧ ((0x110000 : Word).toNat / 0x10000 = 0x11 ∧ (0xFFFC : Word).toNat / 0x10000 ≠ ((0xFFFC : Word).toNat + 8 - 1) / 0x10000)
    ∧ winOf 0x0FFFFFFF = none ∧ winOf 0x10000000 = some (.shared, 0) ∧ winOf 0x117FFFFC = some (.shared, 0x17FFFFC)
    ∧ winOf 0x11800000 = none ∧ winOf 0x203FFFFC = some (.prog, 0x3FFFFC) ∧ winOf 0x301FFFFF = some (.nvs, 0x1FFFFF)
    ∧ winOf 0x43FFFFFF = some (.nor, 0x3FFFFFF) ∧ Win.size .shared < 0x17FFFFC + 8 ∧ Win.size .nor < 0x3FFFFFF + 2
    ∧ inTransfer hostUp 0x100000 64 = true ∧ inTransfer hostUp 0x17FFFFC 8 = false
    ∧ 2 ≤ (ses []).role.val ∧ hostUp.upd.recovery = false ∧ swf zeroByte hostUp.mem.shared = true
    ∧ winOf 0x301E8000 = some (.nvs, 0x1E8000) ∧ hostUp.sys.flush = .none ∧ swf zeroByte hostUp.nvs.mem = true
    ∧ (regWrite 1 0x10030 5 { up with hl := { up.hl with sessions := vset up.hl.sessions 1 (some { ses [] with role := 1 }) } }).1 = .denied ∧ Res.violates .denied = true
    ∧ (regWrite 1 0x10030 5 hostUp).1 = .ok
    ∧ (0x10FFFC : Word).toNat % 4 = 0 ∧ (0x10FFFC : Word).toNat < 0x110000 ∧ [(7 : Word)].length = 1
    ∧ (0x10FFFC : Word).toNat / 0x10000 = ((0x10FFFC : Word).toNat + 4 * 1 - 1) / 0x10000
    ∧ (writeWords 1 [5] 0x10030 0 false hostUp).res = .ok ∧ hostUp.nvs.ceGroups ++ hostUp.nvs.unc = []
    ∧ winOf 0x30003000 = some (.nvs, 192 * 64) ∧ hostUp.nvs.locked.getLsbD 192 = false
    ∧ (let s := { hostUp with nvs := { hostUp.nvs with locked := BitVec.twoPow 256 192 } }
       heard 1 (ses []) s ∧ s.sys.flush = .none ∧ s.nvs.locked.getLsbD (192 * 64 / 64) = true)
    ∧ (let s := { hostUp with sys := { hostUp.sys with flush := .doubt } }
       heard 1 (ses []) s ∧ s.sys.flush ≠ .none)
    ∧ (let s := { hostUp with plr := { hostUp.plr with state := .armed } }
       heard 1 (ses []) s ∧ s.plr.state = .armed ∧ swf zeroByte s.ln.prog = true
         ∧ winOf 0x203FFFFC = some (.prog, 0x3FFFFC)
         ∧ decide (0x20000 ≤ 0x3FFFFC % 0x40000) ≠ s.ln.half.getLsbD (0x3FFFFC / 0x40000)
         ∧ decide (0x20000 ≤ 0 % 0x40000) = s.ln.half.getLsbD (0 / 0x40000))
    ∧ (let s := withSes [] [] { up with upd := { up.upd with holder := some 1, sess := .downloading } }
       heard 1 (ses []) s ∧ s.upd.holder = some 1)
    ∧ (let s := { hostUp with upd := { hostUp.upd with recovery := true } }
       heard 1 (ses []) s ∧ s.upd.recovery = true) := by
  and_intros <;> decide +kernel

/-- A WRITE of the USER region stops at the end of its 64-byte page. -/
theorem test_user_page : (let u := after (exec (.write 1 1 0x301E803E [0x11, 0x22, 0x33]) hostUp)
    nvByte u 0x1E803E = 0x11 ∧ nvByte u 0x1E803F = 0x22 ∧ nvByte u 0x1E8040 = 0) := by
  and_intros <;> decide +kernel

/-- Requests: a heard session on HP and on UDP, its last reply kept, nothing but noise, a link that is not heard. -/
def udpSes : Session := { ses [] with ep := udp, lastSeq := some 7, lastReply := some ⟨7, 0, 1, 0, 0, 0, []⟩ }
def udpUp : State :=
  { up with hl := { up.hl with sessions := vset up.hl.sessions 1 (some udpSes), udpEn := true, ip := 0x0A000002 } }
theorem meets_Requests : hostUp.clk.power = true ∧ heard 1 (ses []) hostUp ∧ epHeard .hp hostUp = true
    ∧ (∃ ss, heard 1 ss udpUp ∧ ss.ep = udp ∧ epHeard udp udpUp = true ∧ ss.lastSeq = some 7 ∧ nextSeq ss = 8
        ∧ ss.lastReply = some ⟨7, 0, 1, 0, 0, 0, []⟩)
    ∧ epHeard udp hostUp = false ∧ linkDeaf hostUp = false ∧ throttled .hp hostUp = false
    ∧ (32767 < (0x8000#16).toNat ∧ 32767 < (0xFFFF#16).toNat) ∧ (∀ b ∈ ([0, 0xFF] : List Byte), b ≠ 0x5A#8)
    ∧ ((1 : Byte) ≠ 2#8 ∧ (1 : Byte) ≠ 3#8) := by
  refine ⟨by decide +kernel, by decide +kernel, by decide +kernel, ⟨udpSes, by and_intros <;> decide +kernel⟩, ?_⟩
  and_intros <;> decide +kernel

/-- The bytes of a READ of SYS_ID on HP, and its reply as the port drives it: magic, SEQ 0, OK, SID 1, four bytes. -/
theorem test_request_bytes : (let rq : List Byte := [2, 0x5A, 0x4F, 0, 0, 1, 0, 1, 0, 0, 0, 0, 0, 4, 0, 0, 0]
    let u := after (exec .replyFetch (after (exec (.request ⟨.hp, 0⟩ rq) hostUp)))
    u.hl.hpOut.take 7 = [1, 0x5A, 0x4F, 0, 0, 0, 1] ∧ (u.hl.hpOut.drop 13).take 4 = [4, 0, 0, 0] ∧ u.hl.hpOut.length = 21) := by
  and_intros <;> decide +kernel

/-- StationBus: an endpoint heard; UDP served and not. -/
theorem meets_StationBus : hostUp.clk.power = true ∧ epHeard .hp hostUp = true ∧ throttled .hp hostUp = false
    ∧ (udpUp.hl.udpEn = true ∧ udpUp.hl.ip ≠ 0 ∧ udpUp.upd.recovery = false) ∧ hostUp.hl.udpEn = false := by
  and_intros <;> decide +kernel

/-- A manifest whose shape the checks of R388 accept: six empty parts, a public key of zeros; at 0x100000. -/
def manifest : List (Nat × Byte) :=
  sputs zeroByte 0x100000 ([0x46, 0x4D, 0x51, 0x4D, 0x19, 0x24, 1, 0, 0, 0, 0, 0, 0, 0x10, 0, 0, 5, 6])
    ((List.range 6).foldl (fun m i => sputs zeroByte (0x100020 + 64 * i)
      [BitVec.ofNat 8 (i + 1), 0, 0, 0, 0, 0, 0, 0, 0, 0x10] m) [])
/-- The slot of its signer. -/
def signerSlot : KeySlot :=
  ⟨Vector.ofFn fun i => (sha256 (List.replicate 64 0)).getD i.val 0, 0x00079204, 0, false, .valid⟩
/-- Registers of an update command, the manifest in place, the state of the session and the lock. -/
def updUp (src len off : Word) (st : UpdSess) (holder : Option (Fin 4)) : State :=
  let s := withSes [(0xF0020, src), (0xF0024, len), (0xF0028, off)] [] up
  { s with mem := { s.mem with shared := manifest }, key := { s.key with slots := vset s.key.slots 5 signerSlot }
           upd := { s.upd with sess := st, holder := holder, total := 0x20000, nextOff := 0x1000 } }

/-- UpdateDownload: the lock held by another, an OPEN that is shut out and each of its checks, CHUNKs at the ends of their
ranges, the lapse at its end. -/
theorem meets_UpdateDownload :
    (∃ ss, heard 1 ss (updUp 0x100000 4096 0 .idle none) ∧ 2 ≤ ss.role.val)
    ∧ (updUp 0x100000 4096 0 .downloading (some 0)).upd.holder = some 0
    ∧ inTransfer (updUp 0x100000 4096 0 .idle none) 0x100000 4096 = true
    ∧ (sesReg 1 0xF0024 (updUp 0x100000 4092 0 .idle none)).toNat ≠ 4096
    ∧ inTransfer (updUp 0x17FF004 4096 0 .idle none) 0x17FF004 4096 = false
    ∧ manifestCheck up (sgets zeroByte up.mem.shared 0x100000 4096) = some 1
    ∧ (bankOf up (updBank up)).state = .empty
    ∧ (sesReg 1 0xF0028 (updUp 0x100000 4 0x1000 .downloading (some 1))).toNat
        = (updUp 0x100000 4 0x1000 .downloading (some 1)).upd.nextOff
    ∧ (let s := updUp 0 0x1F000 0x1000 .downloading (some 1)
       s.upd.nextOff + 0x1F000 ≤ s.upd.total ∧ ¬ s.upd.nextOff + 0x1F004 ≤ s.upd.total ∧ s.upd.total ≤ 0x1800000)
    ∧ swf norDefault up.upd.nor = true
    ∧ (let s := { up with upd := { up.upd with holder := some 1, lastReq := 1000 }, clk := { up.clk with cyc := 1000 + 60 * cycSec } }
       s.upd.lastReq + 60 * cycSec ≤ s.clk.cyc ∧ ¬ s.upd.lastReq + 60 * cycSec ≤ s.clk.cyc - 1) := by
  refine ⟨⟨ses [(0xF0020, 0x100000), (0xF0024, 4096), (0xF0028, 0)], by decide +kernel, by decide +kernel⟩, ?_⟩
  and_intros <;> decide +kernel

/-- The manifest passes, with its signer's slot. -/
theorem meets_UpdateDownload_manifest :
    manifestCheck (updUp 0x100000 4096 0 .idle none) (sgets zeroByte manifest 0x100000 4096) = none := by
  decide +kernel

/-- Both banks in a state, with a hash. -/
def bankUpd (st : BankState) (h : List Byte) : State :=
  let s := updUp 0x100000 4096 0 .idle none
  { s with upd := { s.upd with banks := Vector.replicate 2 ⟨st, h, 0, 0x18000⟩ } }

/-- An OPEN that passes every check; the bank empty, or with any hash, the manifest's among them. -/
theorem meets_UpdateDownload_opens (st : BankState) (h : List Byte) :
    lifecycle (bankUpd st h) ≠ 3 ∧ (bankUpd st h).upd.trial = false ∧ (bankUpd st h).upd.pending = false
    ∧ (bankUpd st h).upd.sess = .idle ∧ (bankUpd st h).mem.shared = manifest
    ∧ manifestCheck (bankUpd st h) (sgets zeroByte manifest 0x100000 4096) = none
    ∧ (∀ b ∈ [0, 1], (bankOf (bankUpd st h) b).state = st ∧ (bankOf (bankUpd st h) b).hash = h) := by
  have e : manifestCheck (bankUpd st h) (sgets zeroByte manifest 0x100000 4096)
    = manifestCheck (updUp 0x100000 4096 0 .idle none) (sgets zeroByte manifest 0x100000 4096) := rfl
  have l : lifecycle (bankUpd st h) = lifecycle up := rfl
  refine ⟨by rw [l]; decide +kernel, rfl, rfl, rfl, rfl, e.trans meets_UpdateDownload_manifest, ?_⟩
  intro b hb
  rcases List.mem_cons.mp hb with rfl | hb
  · exact ⟨rfl, rfl⟩
  · rcases List.mem_singleton.mp hb with rfl
    exact ⟨rfl, rfl⟩

/-- UpdateTrust: each state of the session that a command needs, the trial, the parts' hashes that hold or fail. -/
theorem meets_UpdateTrust : (∀ st ∈ [UpdSess.downloaded, .verified, .verifying, .idle], (updUp 0 0 0 st (some 1)).upd.sess = st)
    ∧ (∃ ss, heard 1 ss (updUp 0 0 0 .downloaded (some 1)) ∧ 2 ≤ ss.role.val)
    ∧ (let s := { hostUp with upd := { hostUp.upd with pending := true } }
       s.upd.pending = true ∧ s.upd.holder = none)
    ∧ (let s := { hostUp with upd := { hostUp.upd with trial := true, expired := true } }
       s.upd.trial = true ∧ s.upd.expired = true)
    ∧ hostUp.upd.trial = false
    ∧ (let s := { updUp 0 0 0 .verified (some 1) with upd := { (updUp 0 0 0 .verified (some 1)).upd with recovery := true } }
       session 1 s = some (ses [(0xF0020, 0), (0xF0024, 0), (0xF0028, 0)]) ∧ s.upd.recovery = true ∧ s.upd.sess = .verified
         ∧ counter s 3 + 1 < 2 ^ 64)
    ∧ (let s := { up with upd := { up.upd with trial := true, tstart := 1000 }, clk := { up.clk with opSec := 1600 } }
       s.upd.trial = true ∧ s.upd.expired = false ∧ s.upd.tstart + 600 ≤ s.clk.opSec ∧ ¬ s.upd.tstart + 600 ≤ s.clk.opSec - 1) := by
  refine ⟨by decide +kernel, ⟨ses [(0xF0020, 0), (0xF0024, 0), (0xF0028, 0)], by decide +kernel, by decide +kernel⟩, ?_⟩
  and_intros <;> decide +kernel

/-- The module with PFW asserted at cycle 1,003,000, at another cycle, its flush in a state. -/
def pfwUp (cyc : Nat) (f : FlushKind) : State :=
  { hostUp with pwr := ⟨some 0, 1003000⟩, clk := { hostUp.clk with cyc := cyc }, sys := { hostUp.sys with flush := f } }

/-- Resets: unpowered, commanded, supply returned 100 ms after the flush and PFW and one cycle earlier; power that goes
8 ms after PFW and earlier, with and without a flush under way. -/
theorem meets_Resets :
    (let s := { hostUp with clk := { hostUp.clk with power := false } }
     s.clk.power = false)
    ∧ (let s := { hostUp with sys := { hostUp.sys with resetCommanded := true } }
       s.clk.power = true ∧ s.sys.resetCommanded = true ∧ s.sys.flush = .none)
    ∧ (∀ cyc ∈ [1003000 + 100 * cycMs, 1003000 + 100 * cycMs - 1], let s := pfwUp cyc .none
       let t := { s with sys := { s.sys with flushed := true, flushedCyc := 1003000 } }
       t.clk.power = true ∧ t.pwr.pfw ≠ none ∧ t.sys.flushed = true
         ∧ (t.sys.flushedCyc + 100 * cycMs ≤ t.clk.cyc ∧ t.pwr.since + 100 * cycMs ≤ t.clk.cyc ↔ cyc = 1003000 + 100 * cycMs))
    ∧ up.pwr.pfw = none ∧ up.sys.resetCommanded = false
    ∧ (pfwUp 1003000 .none).pwr.since + 8 * cycMs ≤ (pfwUp (1003000 + 8 * cycMs) .none).clk.cyc
    ∧ (pfwUp (1003000 + 8 * cycMs) .powerFail).sys.flush ≠ .none
    ∧ ¬ (pfwUp (1003000 + 8 * cycMs - 1) .none).pwr.since + 8 * cycMs ≤ (pfwUp (1003000 + 8 * cycMs - 1) .none).clk.cyc := by
  and_intros <;> decide +kernel

/-- A doubt latched at an earlier cycle. -/
def doubted : State := { hostUp with sys := { hostUp.sys with latched := true, doubtCyc := 1002000 } }
/-- DoubtCauses: no doubt, an earlier one, plinth, a damaged block, a flush under way, GOOSE to be halted. -/
theorem meets_DoubtCauses : hostUp.clk.power = true ∧ hostUp.sys.latched = false ∧ hostUp.sys.plinth = false
    ∧ (doubted.sys.latched = true ∧ doubted.sys.doubtCyc ≠ doubted.clk.cyc) ∧ hostUp.pwr.pfw = none
    ∧ hostReady 1 2 (ses []) hostUp ∧ hostReady 1 2 (ses []) doubted
    ∧ (let s := { doubted with sys := { doubted.sys with plinth := true, flush := .doubt, badBlocks := [3], goosePending := true }
                               pwr := ⟨some 0, 0⟩ }
       s.sys.plinth = true ∧ s.sys.flush ≠ .none ∧ s.sys.badBlocks ≠ [] ∧ s.sys.goosePending = true ∧ s.pwr.pfw ≠ none
         ∧ drives s = true)
    ∧ ({ hostUp with sys := { hostUp.sys with plinth := true } }).sys.latched = false
    ∧ hostUp.sys.retired = false ∧ hostUp.sys.goosePending = false
    ∧ drives { doubted with hsb := { doubted.hsb with role := .standby } } = false
    ∧ (let s := { up with ne := { up.ne with gp := (vset up.ne.gp 0 { State.gp0 with state := .run }) } }
       (s.ne.gp[0]).state = .run ∧ (s.ne.gp[0]).last = none ∧ (s.ne.gp[1]).state ≠ .run) := by
  and_intros <;> decide +kernel

/-- FrontCommandRuns, StatusStaysCurrent: a queue, none; both parts of the backup counter's step; STATUS current;
an error of the management SRAM held. -/
theorem meets_FrontCommandRuns : ({ up with pending := [.tick, .guard] }).pending = .tick :: [.guard]
    ∧ up.pending = [] ∧ up.rtc.frac + 32768 < cycSec ∧ statusCurrent State.reset
    ∧ (let s := { up with rtc := { up.rtc with frac := cycSec - 1 }, clk := { up.clk with opCyc := cycSec - 1 } }
       cycSec ≤ s.rtc.frac + 32768 ∧ s.clk.opCyc + 1 = cycSec)
    ∧ 0 ≤ (up.clk.nt : Int) + 25000000000 + 25 * 0 ∧ up.mem.mgmtCe = []
    ∧ (let s := { up with mem := { up.mem with mgmtCe := [(0x100, true)] } }
       s.pending = [] ∧ s.clk.power = true ∧ s.mem.mgmtCe = [(0x100, true)] ∧ s.evr.cur = none ∧ s.evr.queue = []) := by
  and_intros <;> decide +kernel

/-! ### Frames, banks, network -/

/-- Frames before the first tick; a tick that is due one period on, and one that is late by more than 1 percent. -/
def firstUp : State := { State.reset with clk := { State.reset.clk with cyc := 400 }, tim := { State.reset.tim with state := .locked } }
def tickUp (cyc : Nat) (st : FrmState) : State :=
  { up with clk := { up.clk with cyc := cyc }, frm := { up.frm with state := st } }

/-- Lane 4 of the program in BACKGROUND, with a change, at the guard cycle. -/
def guardUp (f : Lane → Lane) : State :=
  modLane 4 (fun ln => f { ln with cls := 3, mode := .bg }) { progUp with clk := { up.clk with tickph := guardCyc up } }

/-- FrameEvents: due and not, each way a frame goes on or ends in doubt; BACKGROUND lanes at the guard with nothing under
way, with an access queued, and with an operation whose result traps. -/
theorem meets_FrameEvents : up.clk.power = true
    ∧ (firstUp.frm.state = .starting ∧ firstUp.sys.retired = false ∧ firstUp.upd.recovery = false ∧ firstUp.clk.cyc % 4 = 0
      ∧ firstUp.tim.state = .locked)
    ∧ (∀ st ∈ [FrmState.running, .halted], let s := tickUp 1083332 st
        s.frm.ticks ≠ 0 ∧ s.frm.state ≠ .starting ∧ s.tim.target ≤ s.clk.nt * rate s ∧ s.clk.cyc % 4 = 0)
    ∧ (tickUp 1083332 .running).frm.commitArmed = false ∧ (tickUp 1083332 .running).plr.swapF = none
    ∧ (tickUp 1083332 .running).ne.badDesc = none ∧ (tickUp 1083332 .running).sys.badRegs = [] ∧ inPlinth up = false ∧ hsbEn (tickUp 1083332 .running) = false
    ∧ ((((1083332 - 1000000) * rate up : Nat) : Int) - cycSec).natAbs * 100 ≤ cycSec
    ∧ cycSec < ((((1085000 - 1000000) * rate up : Nat) : Int) - cycSec).natAbs * 100
    ∧ (let s := { up with frm := { up.frm with assembled := false, windowOpen := false }, clk := { up.clk with tickph := 2400 } }
       s.frm.assembled = false ∧ mirrored s = false ∧ s.clk.tickph = 2400 ∧ s.frm.windowOpen = false ∧ s.sys.latched = false)
    ∧ (∀ i : Fin 16, entryFirst up i.val = none)
    ∧ (let s := { progUp with frm := { progUp.frm with windowOpen := false }, clk := { up.clk with tickph := 2400 }
                              plr := { progUp.plr with parityBad := [(3, 0)] } }
       s.frm.assembled = true ∧ s.clk.tickph = 2400 ∧ s.frm.windowOpen = false ∧ s.frm.state = .running
         ∧ entryFirst s 3 = some ⟨1, 0, 0, 3, 0, 4, 0x10, 0, 900, [(0, 5000), (1, 2500)]⟩
         ∧ entryBad s 3 ⟨1, 0, 0, 3, 0, 4, 0x10, 0, 900, [(0, 5000), (1, 2500)]⟩ = some 0)
    ∧ (let ln := (guardUp id).lanes[4]
       ln.mode = .bg ∧ ln.reqs = [] ∧ (∀ q ∈ ln.slots.toList, q.outstanding = false)
         ∧ elementUnderWay { ln with saving := true } = false ∧ firstTrap ln.trap ln.inflight = none)
    ∧ ((guardUp fun ln => { ln with reqs := [⟨0, .load 0 4 false, 0⟩] }).lanes[4]).reqs ≠ []
    ∧ (let s := guardUp fun ln => { ln with trap := 0x10, inflight := [⟨.fpu, 9, 0, 0, 0, 0x10, 0, 0⟩] }
       guardCyc s = s.clk.tickph ∧ s.frm.windowOpen = true ∧ s.frm.guardDone = false
         ∧ firstTrap (s.lanes[4]).trap (s.lanes[4]).inflight ≠ none)
    ∧ (let s := { progUp with clk := { up.clk with tickph := guardCyc up } }
       s.frm.windowOpen = true ∧ s.frm.guardDone = false ∧ schedule s 3 ≠ [] ∧ (s.lanes[3]).frameEnd = none ∧ schedule up 3 = []) := by
  and_intros <;> decide +kernel

/-- Lane 3 with a request at the head of its queue. -/
def reqUp (op : SharedOp) (addr since : Nat) : State := modLane 3 (fun ln => { ln with reqs := [⟨addr, op, since⟩] }) up
/-- Bank 8 with a turn in progress. -/
def bankUp (ptr : Fin 7) (left : Nat) (s : State) : State :=
  { s with mem := { s.mem with banks := vmod s.mem.banks 8 fun b => { b with ptr := ptr, left := left } } }

/-- BankEvents: a bank that has decided, its reserved slot, nobody waiting, each requester's turn, a cluster's turn that
goes on, a slot granted and due, the last access of a preempted lane among them. -/
theorem meets_BankEvents : (up.mem.banks[8]).lastCyc ≠ some up.clk.cyc ∧ up.clk.cyc % 20 ≠ 19
    ∧ ({ up with clk := { up.clk with cyc := 1003019 } }).clk.cyc % 20 = 19
    ∧ (up.mem.banks[8]).left = 0 ∧ (∀ c < 4, clusterWaiters up 8 c = [])
    ∧ (let s := reqUp (.load 0 4 false) (8 * bankSize) 1002990
       clusterWaiters s 8 0 = [3] ∧ (0 + 7 - ((s.mem.banks[8]).ptr.val + 1)) % 7 ≤ (4 + 7 - ((s.mem.banks[8]).ptr.val + 1)) % 7
         ∧ (bankUp 0 1 s).mem.banks[8].left = 1 ∧ (bankUp 0 1 s).mem.banks[8].ptr.val < 4
         ∧ clusterWaiters (bankUp 0 1 s) 8 0 ≠ [])
    ∧ (let s := modLane 3 (fun ln => { ln with slots := vset ln.slots 19 ⟨0, true, some (1003000, 7), false⟩ }) up
       ((s.lanes[3]).slots[19]).granted = some (1003000, 7) ∧ (1003000 : Nat) ≤ s.clk.cyc ∧ (s.lanes[3]).saving = false)
    ∧ (let s := modLane 3 (fun ln => { ln with
           saving := true, mode := .bg, slots := vset ln.slots 19 ⟨0, true, some (1003000, 7), false⟩ }) up
       (s.lanes[3]).saving = true ∧ (s.lanes[3]).mode = .bg ∧ (s.lanes[3]).reqs = [] ∧ elementUnderWay s.lanes[3] = false
         ∧ ∀ j : Fin 20, j ≠ 19 → ((s.lanes[3]).slots[j.val]).outstanding = false) := by
  and_intros <;> decide +kernel

/-- Pair 1 in a mode with both links at one speed, PTP on its ports, and configuration words of the objects. -/
def netUp (mode : Nat) (cfg : List (Nat × Word)) : State :=
  let s := { up with regs := [(0x60034, 0xC)], clk := { up.clk with cyc := 900000000 } }
  { s with ne := { s.ne with
    act := cfg
    pairs := vmod s.ne.pairs 1 fun p => { p with mode := mode, linkA := true, linkB := true, spdA := 2, spdB := 2 } } }
def frameOf (tag : RedTag) (len : Nat) (fcs : Bool) : EthFrame := ⟨len, fcs, 0x0CCD01, 0x0CCD02, tag, .other⟩

/-- PortEvents: no link; bad FCS and lengths at the bounds; each mode with first and second copies, trailers of wrong size
and LAN; a message for a group; forwarding; supervision; links at speeds that their interface runs at and not. -/
theorem meets_PortEvents : portLink up 2 = false ∧ portLink (netUp 0 []) 2 = true ∧ spdErr (nePairOf (netUp 1 []) 1) = false
    ∧ (nePairOf (netUp 1 []) 1).mode = 1 ∧ (nePairOf (netUp 2 []) 1).mode = 2
    ∧ (frameOf (.prp 7 true true) 64 true).len = 64 ∧ (63 < 64) ∧ (1528 < 1529)
    ∧ (frameOf (.prp 7 true false) 1528 true).tag = .prp 7 true false ∧ (frameOf (.prp 7 false true) 1528 true).len = 1528
    ∧ (frameOf (.hsr 7 false) 64 true).tag = .hsr 7 false ∧ (0x010CCD010001 : Nat) / 2 ^ 40 % 2 = 1
    ∧ (let s := modPair 1 (fun p => { p with dups := [(0x0CCD01, 7, 900000000 - 1)], fwdAB := [(0x0CCD01, 7, 700000000)] }) (netUp 2 [])
       (∃ e ∈ (nePairOf s 1).dups, e.1 = 0x0CCD01 ∧ e.2.1 = 7 ∧ s.clk.cyc < e.2.2 + 400 * cycMs)
         ∧ ¬ ∃ e ∈ (nePairOf s 1).fwdAB, e.1 = 0x0CCD01 ∧ e.2.1 = 7 ∧ s.clk.cyc < e.2.2 + 400 * cycMs)
    ∧ ((nePairOf (netUp 2 []) 1).linkA = true ∧ (nePairOf (netUp 2 []) 1).linkB = true)
    ∧ (nePairOf (netUp 2 []) 1).supCount = 0
    ∧ (let s := modPair 1 (fun p => { p with supCount := 1, supSent := 100000000 }) (netUp 2 [])
       (nePairOf s 1).supSent + 2000 * cycMs ≤ s.clk.cyc)
    ∧ (nePairOf up 1).mode = 0 ∧ portSpeed (netUp 0 []) 3 = 2
    ∧ ((nePairOf up 1).ifA = 0 ∧ true ≠ portLink up 2)
    ∧ (∀ c ∈ [0, 1, 2, 3], (nePairOf (modPair 1 (fun p => { p with ifB := c }) (netUp 0 [])) 1).ifB = c) := by
  and_intros <;> decide +kernel

/-- A frame whose source is the module's own address, with and without a supervision message; a foreign frame for another
node, whatever the own address is. -/
theorem meets_PortEvents_own :
    (∃ f : EthFrame, f.srcMac = ownMac (netUp 2 []) 2 ∧ f.payload ≠ .supervision)
    ∧ (∃ f : EthFrame, f.srcMac = ownMac (netUp 2 []) 2 ∧ f.payload = .supervision)
    ∧ ∃ f : EthFrame, f.tag = .hsr 7 true ∧ f.fcsOk = true ∧ 64 ≤ f.len ∧ f.len ≤ 1528
        ∧ f.srcMac ≠ ownMac (netUp 2 []) 2 ∧ f.dstMac ≠ ownMac (netUp 2 []) 2 :=
  ⟨⟨{ frameOf (.hsr 7 true) 64 true with srcMac := ownMac (netUp 2 []) 2 }, rfl, by decide⟩,
    ⟨{ frameOf (.hsr 7 true) 64 true with srcMac := ownMac (netUp 2 []) 2, payload := .supervision }, rfl, rfl⟩,
    ⟨{ frameOf (.hsr 7 true) 64 true with srcMac := ownMac (netUp 2 []) 2 + 1, dstMac := ownMac (netUp 2 []) 2 + 1 },
      rfl, rfl, by decide, by decide, Nat.succ_ne_self _, Nat.succ_ne_self _⟩⟩

/-- Stream 2 on pair 1 enabled (authentication of the given kind), and a message for it with one ASDU. -/
def svCfg (auth : Word) : List (Nat × Word) := [(0x200, 0x3 + 32 * auth), (0x202, 0x4001), (0x203, 0x01CD0400)]
def asdu (c : Nat) : SvAsdu := ⟨[], c, 1, none, 2, Vector.replicate 8 5, Vector.replicate 8 0⟩
def svMsg (as : List SvAsdu) : SvMsg := ⟨0x01CD0400, 0x4001, none, false, true, none, as⟩
def svUp (held : List Nat) (cut : Option Nat) : State :=
  let s := netUp 1 (svCfg 0)
  { s with ne := { s.ne with
             lastCut := cut, sv := vset s.ne.sv 2 { State.sv0 with state := .run, held := held.map fun j => (j, 0) } }
           tim := { s.tim with target := s.clk.nt * rate s + 10 ^ 19 } }

/-- SampledValues: selected and not, ill-formed, refused, authentication; in time, late, twice, out of window; the cut-off. -/
theorem meets_SampledValues :
    (let n := 946684800 * 4800
     svSelected 2 (svMsg [asdu 0]) (svUp [] none) = [2] ∧ svSelected 4 (svMsg [asdu 0]) (svUp [] none) = []
     ∧ neAccepts (svUp [] none) kSVSUB 2 none false (fun _ => true) = true
     ∧ authOk (svUp [] none) kSVSUB 2 none = true ∧ authOk (netUp 1 (svCfg 1)) kSVSUB 2 none = false
     ∧ neAccepts (svUp [] none) kSVSUB 2 none true (fun _ => true) = false
     ∧ (svUp [] none).clk.nt * rate (svUp [] none) / 10 ^ 19 = n
     ∧ (n % 4800 = 0 ∧ n ≤ n + 1 ∧ n + 1 < n + 4800) ∧ ((n - 64) % 4800 = 4736 ∧ n ≤ n - 64 + 64) ∧ (n - 65 + 64 < n)
     ∧ svHolds (svUp [n] none) 2 n = true ∧ svHolds (svUp [] none) 2 n = false ∧ (svUp [] (some n)).ne.lastCut = some n)
    ∧ ((svUp [] none).clk.cyc + cutCycles ≤ nextTickCyc (svUp [] none) ∧ cutOpen (svUp [] none) = true)
    ∧ ntCap (svUp [] none) * rate (svUp [] none) / 10 ^ 19 = 946684800 * 4800
    ∧ (let s := { svUp [] none with tim := { (svUp [] none).tim with target := 0 } }
       s.frm.state = .running ∧ s.sys.latched = false ∧ nextTickCyc s ≤ s.clk.cyc + cutCycles
         ∧ (s.ne.sv[2]).state = .run ∧ (s.ne.sv[0]).state = .off ∧ 1 ≤ s.frm.k + 1 - horizon s)
    ∧ (let s := { svUp [99] none with sys := { (svUp [] none).sys with latched := true } }
       ¬ s.sys.latched = false)
    ∧ (spdErr (nePairOf (modPair 1 (fun p => { p with spdA := 3 }) (svUp [] none)) 1) = true)
    ∧ ((svUp [99] none).ne.sv[2]).held.any (·.1 == 99) = true ∧ (∀ y ∈ ((svUp [99] none).ne.sv[2]).held, y.2 ≤ 0) := by
  and_intros <;> decide +kernel

/-- Subscription 5 on pair 1 enabled, in a state, its last message; a message for it; publication 6 waiting to repeat. -/
def gsCfg : List (Nat × Word) := [(0x10500, 3), (0x10502, 0x1001), (0x10503, 0x01CD0100)]
def gsUp (st : GsState) (stNum sqNum : Word) : State :=
  let s := netUp 1 gsCfg
  { s with ne := { s.ne with gs := vset s.ne.gs 5 { State.gs0 with state := st, st := stNum, sq := sqNum, tal := 10 }
                             gp := vset s.ne.gp 6 { State.gp0 with state := .run, last := some [1], nextN := 1, dueMs := 2 } }
           clk := { s.clk with tickph := 0 }, frm := { s.frm with ttick := 10 * 10 ^ 16 } }
def gsMsg (st sq : Word) : GooseMsg := ⟨0x01CD0100, 0x1001, none, [], false, false, false, 1, st, sq, 1000, 0, 0, none, some []⟩

/-- GooseMessages: selected and not, each check, each relation of the numbers, TAL at its end, also in the step of a new
message; a repetition due. -/
theorem meets_GooseMessages : gsSelected 2 (gsMsg 1 1) (gsUp .wait 0 0) = [5] ∧ gsSelected 4 (gsMsg 1 1) (gsUp .wait 0 0) = []
    ∧ neAccepts (gsUp .wait 0 0) kGSSUB 5 none false (fun _ => true) = true
    ∧ neAccepts (gsUp .wait 0 0) kGSSUB 5 none true (fun _ => true) = false
    ∧ authOk (gsUp .wait 0 0) kGSSUB 5 none = true
    ∧ gsDecode (gsUp .wait 0 0) 5 (some []) = some (List.replicate 32 0)
    ∧ gsDecode (gsUp .wait 0 0) 5 none = none ∧ State.gs0.members = List.replicate 32 0
    ∧ ((gsUp .valid 3 9).ne.gs[5]).state ≠ .wait
    ∧ ((9 - 9 : Word) = 0 ∧ ((8 - 9 : Word)).msb = true ∧ ((10 - 9 : Word)).msb = false)
    ∧ ((4 - 3 : Word).msb = false ∧ (2 - 3 : Word).msb = true ∧ (1 - 3 : Word).msb = true ∧ (5 : Word) ≠ 3 + 1)
    ∧ (let s := gsUp .valid 3 9
       s.frm.state = .running ∧ s.clk.tickph = 0 ∧ (s.ne.gs[5]).tAcc + (s.ne.gs[5]).tal * 10 ^ 16 ≤ s.frm.ttick
         ∧ ¬ (s.ne.gs[5]).tAcc + (s.ne.gs[5]).tal * 10 ^ 16 ≤ s.frm.ttick - 1
         ∧ gsAtTick s 5 = s.ne.gs[5] ∧ gsFresh s 5 = false ∧ tracks s = true ∧ nePair s kGOPUB 6 < 6
         ∧ spdErr (nePairOf s (nePair s kGOPUB 6)) = false
         ∧ drives s = true ∧ (s.ne.gp[6]).state = .run ∧ (s.ne.gp[6]).last ≠ none ∧ 0 < (s.ne.gp[6]).nextN
         ∧ (s.ne.gp[6]).tRel + (s.ne.gp[6]).dueMs * 10 ^ 16 ≤ s.frm.ttick)
    ∧ (let s := gsUp .valid 3 9
       let t := { s with ne := { s.ne with gsStepAt := tickStep s, gsStep := [(5, { s.ne.gs[5] with tal := 1 })] } }
       gsFresh t 5 = true ∧ (gsAtTick t 5).state = .valid
         ∧ (gsAtTick t 5).tAcc + (gsAtTick t 5).tal * 10 ^ 16 ≤ t.frm.ttick) := by
  and_intros <;> decide +kernel

/-- A module in a time state on source 2 (IRIG), valid; an IRIG frame one second after the last. -/
def timUp (st : TimState) (nt run : Nat) : State :=
  { up with clk := { up.clk with nt := nt, cyc := 3 * cycSec }
            tim := { up.tim with state := st, src := 2, irigLast := some (946684800 + 36), lockRun := run
                                 sources := vset up.tim.sources 1 ⟨2, true, 0, 2⟩ }
            regs := [(0x60004, 0x00180242)] }
def irig : IrigMsg := ⟨true, 0, 1, 0, 0, true, false, 0, 0⟩

/-- TimeSources: a good IRIG frame and bad ones, PPS edges at their bounds, a source at its timeout, the holdover limit with
and without its doubt, the PPS output's edges. -/
theorem meets_TimeSources : (timUp .locked State.ntStart 0).clk.power = true ∧ irigYear irig (timUp .locked State.ntStart 0) = some 0
    ∧ irigYear { irig with ext := false } (timUp .locked State.ntStart 0) = some 24
    ∧ irigYear { irig with ext := false } { up with regs := [(0x60004, 0)] } = none
    ∧ (irig.parityOk = true ∧ irig.tq % 16 ≠ 15)
    ∧ timSelect (timUp .acquiring State.ntStart 15) = 2 ∧ ((timUp .acquiring State.ntStart 15).tim.sources[1]).valid = true
    ∧ (let s := timUp .locked State.ntStart 0
       (s.tim.sources[1]).lastGood + 3 * cycSec ≤ s.clk.cyc)
    ∧ (let s := { up with tim := { up.tim with holdStart := some 0 }, clk := { up.clk with cyc := 5 * cycSec }
                          regs := [(0x6000C, 0x00020005)] }
       s.tim.holdLim = false ∧ inPlinth s = false ∧ (reg 0x6000C s).toNat % 2 ^ 16 = 5 ∧ 5 ≤ (s.clk.cyc - 0) / cycSec
         ∧ (reg 0x6000C s).toNat / 2 ^ 16 % 4 = 2 ∧ s.sys.latched = false)
    ∧ (let s := { up with regs := [(0x60074, 1)] }
       (reg 0x60074 s).toNat % 4 = 1 ∧ s.tim.ppsHigh = false ∧ s.clk.nt % 10 ^ 19 / 10 ^ 10 < 10 ∧ s.tim.ppsSec = none)
    ∧ (irig.parityOk = true ∧ irig.tq % 16 ≠ 15 ∧ (timUp .locked State.ntStart 0).tim.irigLast = some (946684800 + 36)
        ∧ irigTime irig 0 (timUp .locked State.ntStart 0) = (946684800 + 36 : Nat) + 1)
    ∧ (let s := timUp .acquiring State.ntStart 15
       (s.tim.sources[1]).valid = true ∧ s.tim.src = 2 ∧ s.tim.stepped = false ∧ (reg 0x60004 s).getLsbD 6 = true)
    ∧ (let s := { up with tim := { up.tim with ppsHigh := true, ppsEnd := 1003000 } }
       s.tim.ppsHigh = true ∧ s.tim.ppsEnd ≤ s.clk.cyc) := by
  and_intros <;> decide +kernel

/-- A clock, a PTP message from its sender, port 2 as slave with that clock. -/
def clock1 : PtpClock := ⟨128, 6, 0x21, 0x4E5D, 128, 7, 1, 0⟩
def ptpMsg (k : PtpKind) : PtpMsg := ⟨k, true, 2, 0, 0, 5, 0, 7, 0, false, 0, clock1, none⟩
def ptpUp (best : Option PtpClock) (sync pd : Option (Nat × BitVec 64 × Int × Nat)) : State :=
  let s := netUp 1 []
  let x : PtpPort := { State.ptp0 with
    best := best, sender := 7, sync := sync, pd := pd, seqTx := #v[0, 0, 6], master := true, syncInt := cycSec, annInt := cycSec }
  { s with clk := { s.clk with cyc := 3 * cycSec }
           tim := { s.tim with slave := some 2, ports := vset (vset s.tim.ports 2 x) 3 { x with best := some clock1, sender := 9 } } }

/-- PtpMessages: each check of R220 and each message that passes, on the slave's port and on its pair's other LAN;
transmission, LAN switch, receipt timeout at their times. -/
theorem meets_PtpMessages : ptpOn (ptpUp none none none) 2 = true ∧ ptpOn (ptpUp none none none) 5 = false
    ∧ (reg 0x60030 (ptpUp none none none)).toNat % 256 = 0
    ∧ ((ptpMsg .sync).lengthOk = true ∧ (ptpMsg .sync).version = 2 ∧ (ptpMsg .sync).domain = 0 ∧ (ptpMsg .sync).sdo = 0)
    ∧ (let s := ptpUp (some clock1) (some (5, 7, 100, 3 * cycSec)) (some (5, 7, 100, 2 * cycSec))
       s.tim.slave = some 2 ∧ (s.tim.ports[2]).sender = (ptpMsg .sync).source ∧ s.clk.cyc ≤ 3 * cycSec + cycSec
         ∧ s.clk.cyc ≤ 2 * cycSec + cycSec ∧ (s.tim.ports[2]).sync = some (5, 7, 100, 3 * cycSec)
         ∧ (s.tim.ports[2]).pd = some (5, 7, 100, 2 * cycSec) ∧ (ptpMsg .followUp).source = 7 ∧ (ptpMsg .followUp).seq = 5)
    ∧ (let s := ptpUp (some clock1) none none
       (nePairOf s 1).mode = 1 ∧ (s.tim.ports[3]).best ≠ none
         ∧ (s.tim.ports[3]).sender = ({ ptpMsg .sync with source := 9 } : PtpMsg).source ∧ (s.tim.ports[2]).sender ≠ 9)
    ∧ (0 ≤ (ptpMsg .announce).correction ∧ (ptpMsg .announce).correction ≤ 1000000000 ∧ (ptpMsg .announce).clock.steps < 255)
    ∧ ((ptpUp none none none).tim.ports[2]).best = none
    ∧ betterClock { clock1 with pri1 := 129 } clock1 = false ∧ betterClock { clock1 with pri1 := 127 } clock1 = true
    ∧ ((ptpUp none none none).tim.ports[2]).seqTx[2] = ((ptpMsg .pdelayResp).seq + 1) % 65536
    ∧ (({ ptpMsg .pdelayResp with seq := 6 } : PtpMsg).seq + 1) % 65536 ≠ ((ptpUp none none none).tim.ports[2]).seqTx[2]
    ∧ (let s := { ptpUp none none none with regs := [(0x60034, 0xC), (0x60030, 0x2000000)] }
       (reg 0x60030 s).getLsbD 25 = true ∧ ptpOn s 2 = true)
    ∧ (reg 0x60030 (ptpUp none none none)).getLsbD 25 = false
    ∧ portLink (ptpUp none none none) 2 = true ∧ ((ptpUp none none none).tim.ports[2]).master = true
    ∧ ((ptpUp none none none).tim.ports[2]).lastTx[2] + cycSec ≤ (ptpUp none none none).clk.cyc
    ∧ (let s := ptpUp (some clock1) none none
       (s.ne.pairs[1]).mode = 1 ∧ (s.tim.ports[3]).best ≠ none
         ∧ (s.tim.ports[2]).lastSync + 3 * (s.tim.ports[2]).syncInt ≤ s.clk.cyc
         ∧ (s.tim.ports[2]).annAt + 3 * (s.tim.ports[2]).annInt ≤ s.clk.cyc ∧ up.tim.slave = none)
    ∧ (let s := ptpUp (some clock1) none none
       let t := { s with tim := { s.tim with ports := vset s.tim.ports 3 State.ptp0 }, regs := [(0x60034, 0xC), (0x60030, 0)] }
       (∀ q : Fin 12, q ≠ 2 → (t.tim.ports[q.val]).best = none) ∧ (reg 0x60030 t).getLsbD 24 = false ∧ ptpOn t 2 = true) := by
  and_intros <;> decide +kernel

/-! ### Backup domain, field points, metering, CAN, hot standby -/

/-- The backup domain changed. -/
def rtcUp (f : Rtc → Rtc) : State := { hostUp with rtc := f hostUp.rtc }

/-- BackupDomain: a shift armed, on its way and absent; the boundary; a shift below 0; the alarm at, before and past its
value; tamper samples; an epoch record that agrees and none. -/
theorem meets_BackupDomain : hostUp.clk.power = true ∧ hostReady 1 2 (ses []) hostUp ∧ hostUp.rtc.shift = none
    ∧ hostUp.rtc.shadow = none ∧ (rtcUp fun r => { r with shadow := some (0, 1) }).rtc.shadow ≠ none
    ∧ (1#15 ≠ 0 ∧ 0x7FFF#15 ≠ 0)
    ∧ (let s := rtcUp fun r => { r with writes := [⟨0x70010, 0x00010005, 0⟩] }
       s.rtc.writes = [⟨0x70010, 0x00010005, 0⟩] ∧ (0x00010005 : Word).getLsbD 16 = true ∧ (0x00010005 : Word).toNat % 2 ^ 15 ≠ 0)
    ∧ (0x80000000 : Word).getLsbD 31 = true
    ∧ (let s := rtcUp fun r => { r with writes := [⟨0x70018, 0x80000001, 0⟩] }
       s.rtc.writes = [⟨0x70018, 0x80000001, 0⟩] ∧ hostReady 1 2 (ses []) s ∧ ∃ x ∈ s.rtc.writes, x.reg = 0x70018)
    ∧ (let s := rtcUp fun r => { r with shift := some 3 }
       hostReady 1 2 (ses []) s ∧ (tickFirst s).rtc.shift ≠ none ∧ s.rtc.xtal ≤ s.rtc.shiftAt)
    ∧ (tickFirst hostUp).rtc.shift = none ∧ (¬ ∃ x ∈ hostUp.rtc.writes, x.reg = 0x70010)
    ∧ (let s := rtcUp fun r => { r with count := 65536, shift := some (-5), alarm := some 65531, xtal := 9, shiftAt := 8 }
       s.rtc.count % 32768 = 0 ∧ s.rtc.shiftAt < s.rtc.xtal ∧ 0 ≤ (s.rtc.count : Int) + -5 ∧ (s.rtc.count : Int) + -5 < 2 ^ 48)
    ∧ (let s := rtcUp fun r => { r with count := 32768, shift := some 7, alarm := some 32775, xtal := 9 }
       s.rtc.count < 32775 ∧ ((32775 : Nat) : Int) ≤ s.rtc.count + 7 ∧ ¬ ((32775 : Nat) : Int) < s.rtc.count + 7)
    ∧ (let s := rtcUp fun r => { r with count := 0, shift := some (-1), xtal := 9, shiftAt := 8 }
       s.rtc.count % 32768 = 0 ∧ s.rtc.shiftAt < s.rtc.xtal ∧ (s.rtc.count : Int) + -1 < 0)
    ∧ (let s := rtcUp fun r => { r with count := 100, alarm := some 100, xtal := 9, alarmAt := 8 }
       s.rtc.alarm = some 100 ∧ shiftDue s.rtc = false ∧ s.rtc.alarmAt < s.rtc.xtal
         ∧ ({ s.rtc with alarmAt := 9 } : Rtc).xtal ≤ ({ s.rtc with alarmAt := 9 } : Rtc).alarmAt ∧ (100 : Nat) ≤ s.rtc.count ∧ ¬ (100 : Nat) < s.rtc.count)
    ∧ ({ hostUp with clk := { hostUp.clk with power := false } }).clk.power = false
    ∧ (let s := rtcUp fun r => { r with xtal := 32, tamp := vset r.tamp 0 { State.tamper0 with prev := true } }
       s.rtc.tampAt + 32 ≤ s.rtc.xtal ∧ hostUp.rtc.xtal < hostUp.rtc.tampAt + 32 ∧ s.rtc.tampCfg.getLsbD 0 = true
         ∧ (s.rtc.tamp[0]).prev = true ∧ (s.rtc.tamp[0]).latched = false)
    ∧ epochOf (putEpoch 946684800 hostUp.rtc).bkp = some 946684800 ∧ hostUp.tim.epochSec = none
    ∧ ((hostUp.clk.nt * 32768 / 10 ^ 19 : Nat) : Int) - (946684800 * 32768 + hostUp.rtc.count) = 0
    ∧ epochOf hostUp.rtc.bkp = none ∧ hostUp.rtc.count ≤ hostUp.clk.nt * 32768 / 10 ^ 19
    ∧ goOnWay hostUp.rtc = false
    ∧ hostUp.clk.nt * 32768 / 10 ^ 19 < 2 ^ 62 := by
  and_intros <;> decide +kernel

/-- A supplied and enabled output group 1, output 9 with a change, active settings of FIO. -/
def fioUp (f : FieldOut → FieldOut) (act : List (Nat × Word)) : State :=
  { up with act := act, fio := { up.fio with
    igSup := Vector.replicate 4 true, og := vset up.fio.og 1 ⟨true, true, true, false⟩
    ins := vset up.fio.ins 4 { State.in0 with wb := false }
    outs := vmod up.fio.outs 9 fun o => f { o with cmd := true, drive := true, code := 0 } } }

/-- FieldPoints: each event due at its bound and not; an off period beside a thermal shutdown; a 1 µs step with events. -/
theorem meets_FieldPoints : (fioUp id []).clk.power = true
    ∧ (let s := fioUp id [(0x90050, 100)]
       (s.fio.ins[4]).filtered ≠ true ∧ min 800 ((regAct (0x90040 + 4 * 4) s).toNat % 1024) * 10 = 1000)
    ∧ (let s := fioUp id [(0x90024, 0x10)]
       (regAct 0x90024 s).getLsbD 4 = true ∧ vget false s.fio.igSup (4 / 8) = true ∧ (s.fio.ins[4]).filtered = false)
    ∧ (fioUp id []).fio.igSup[0] = true ∧ up.fio.igSup[0] = false
    ∧ ((fioUp id []).fio.og[1]).supply = true ∧ ((fioUp id []).fio.og[0]).supply = false
    ∧ (let s := fioUp id []
       (s.fio.outs[9]).drive = true ∧ (s.fio.outs[9]).off = none ∧ (s.fio.og[1]).enabled = true ∧ (up.fio.outs[9]).drive = false)
    ∧ (let s := fioUp (fun o => { o with off := some (.overcurrent, 0), hot := true }) []
       (s.fio.outs[9]).off = some (.overcurrent, 0) ∧ (s.fio.outs[9]).hot = true ∧ s.clk.cyc < 0 + 100 * cycMs)
    ∧ (let s := fioUp (fun o => { o with hot := true }) []
       (s.fio.outs[9]).off = none ∧ (s.fio.outs[9]).hot = true ∧ ((fioUp id []).fio.outs[9]).hot = false)
    ∧ (let s := { fioUp (fun o => { o with off := some (.overcurrent, 0) }) [] with clk := { up.clk with cyc := 100 * cycMs } }
       (0 : Nat) + 100 * cycMs ≤ s.clk.cyc)
    ∧ ((fioUp id []).fio.outs[9]).lastChange + cycMs ≤ up.clk.cyc ∧ true = ((fioUp id []).fio.outs[9]).drive
    ∧ (let s := fioUp id [(0x90050, 100)]
       let t := { s with fio := { s.fio with usAt := s.clk.cyc / cycUs, usIns := [(4, State.in0)], usRuns := [(4, true, 999)] } }
       (999 < 1000) ∧ t.fio.usAt = t.clk.cyc / cycUs ∧ t.fio.usIns.any (·.1 == 4) = true ∧ s.fio.usAt ≠ s.clk.cyc / cycUs)
    ∧ (let s := fioUp id [(0x90024, 0x10)]
       let t := { s with fio := { s.fio with ins := vset s.fio.ins 4 { State.in0 with wb := true } } }
       (t.fio.ins[4]).wb = true ∧ (t.fio.ins[4]).filtered = false)
    ∧ codeRank (mismatch (fioUp id []) 9 false) < codeRank 0
    ∧ standing (fioUp id []) 9 = 0 ∧ codeRank 0 ≤ codeRank 0 ∧ codeRank 0 ≠ codeRank 8
    ∧ (fioUp id []).frm.hbCyc + 600 * cycUs ≤ (fioUp id []).clk.cyc := by
  and_intros <;> decide +kernel

/-- Metering in use: point 3 enabled with a change, a generator of it. -/
def eqUp (f : Point → Point) (g : PulseGen → PulseGen) : State :=
  let cfg : List (Nat × Word) := [(neKey 0 3 0, 0x3), (neKey 2 4 0, 0x301)]
  { hostUp with eq := { hostUp.eq with
    run := true, act := cfg, was := cfg, points := vmod hostUp.eq.points 3 f, gens := vmod hostUp.eq.gens 4 g } }

/-- Metering: a sample due, late and not, good and bad; a cycle's end within and at the end of an interval, with energy of
each sign; a latch with and without HOLD; pulses; a save in time and not. -/
theorem meets_Metering : (eqUp id id).clk.power = true ∧ (eqUp id id).eq.run = true ∧ (eqUp id id).frm.windowOpen = true
    ∧ (eqUp id id).eq.doneFrame = none ∧ ptEn (eqUp id id).eq.act 3 = true ∧ ptEn (eqUp id id).eq.act 0 = false
    ∧ (eqPoint (eqUp id id) 3).freerun = true ∧ (eqPoint (eqUp id id) 3).armed = false
    ∧ (∀ c ∈ ptChans (eqUp id id).eq.act 3, chanBad (eqUp id id) c 98 = false)
    ∧ chanBad (eqUp id id) 192 98 = true
    ∧ (let s := eqUp (fun p => { p with cycles := 49 }) id
       let t := { s with eq := { s.eq with doneFrame := some 100 } }
       ptN t.eq.was 3 = 50 ∧ (eqPoint t 3).cycles + 1 = 50 ∧ (eqPoint (eqUp id id) 3).cycles + 1 < 50
         ∧ t.eq.doneFrame = some t.frm.k)
    ∧ (let s := eqUp (fun p => { p with latched := some [7] }) id
       (eqPoint s 3).latched = some [7] ∧ s.eq.hold = false ∧ (eqPoint (eqUp id id) 3).latched = none
         ∧ ({ s with eq := { s.eq with hold := true } }).eq.hold = true)
    ∧ (let s := eqUp id fun x => { x with backlog := [48, 96], prevDue := some 0 }
       pgEn s.eq.act 4 = true ∧ (eqGen s 4).on = false ∧ (eqGen s 4).backlog = 48 :: [96] ∧ (eqGen s 4).offAt = none
         ∧ (48 : Nat) - 0 < 2 * ((pgWidthMs s.eq.act 4 * rate s + 999) / 1000))
    ∧ (let s := eqUp id fun x => { x with on := true, onAt := 51, width := 50 }
       (eqGen s 4).on = true ∧ (eqGen s 4).onAt + (eqGen s 4).width ≤ s.frm.k + 1)
    ∧ (let s := { eqUp id id with eq := { (eqUp id id).eq with saveDue := some 0 } }
       s.eq.saveDue = some 0 ∧ opMs s ≤ 0 + max 1 (min 3600 ((reg 0x80008 s).toNat % 4096)) * 1000)
    ∧ (let s := { eqUp id id with eq := { (eqUp id id).eq with saveDue := some 0 }, clk := { (eqUp id id).clk with opSec := 3601 } }
       s.eq.saveDue = some 0 ∧ 0 + max 1 (min 3600 ((reg 0x80008 s).toNat % 4096)) * 1000 < opMs s) := by
  and_intros <;> decide +kernel

/-- The instants of Metering: late when a nominal period has passed, not late before. -/
theorem meets_Metering_instants : (eqPoint (eqUp id id) 3).cycleEnd + eqPeriod (eqUp id id) ≤ instant (eqUp id id) 98
    ∧ ¬ (1 : Rat) + eqPeriod (eqUp id id) ≤ instant (eqUp id id) 98
    ∧ (let p := fun x : Rat => vset State.csum0.phases 0 { State.psum0 with p := x }
       (0 : Rat) ≤ (vget State.psum0 (p 3) 0).p ∧ (vget State.psum0 (p (-3)) 0).p < 0) := by
  and_intros <;> decide +kernel

/-- EnergyCommands: HOLD off and on, the last point and the first number beyond, FIELD, the end of HOLD. -/
theorem meets_EnergyCommands : hostReady 1 1 (ses []) hostUp ∧ hostReady 1 2 (ses []) (eqUp id id) ∧ hostUp.eq.hold = false
    ∧ (let s := { hostUp with eq := { hostUp.eq with hold := true, holdCyc := 0 }, clk := { hostUp.clk with cyc := 10 * cycSec } }
       s.eq.hold = true ∧ s.eq.holdCyc + 10 * cycSec ≤ s.clk.cyc ∧ hostReady 1 1 (ses []) s)
    ∧ ((96#7).toNat = 96 ∧ (95#7).toNat < 96) ∧ ptEn (eqUp id id).eq.act 3 = true ∧ ptEn (eqUp id id).eq.act 95 = false
    ∧ lifecycle hostUp = 1 ∧ 2 ≤ lifecycle (keyUp (State.key0 5) 2 0) := by
  and_intros <;> decide +kernel

/-- Controller 2 with a change. -/
def canUp (f : CanCtl → CanCtl) (act : List (Nat × Word)) : State :=
  { hostUp with act := act, can := ⟨vmod hostUp.can.ctl 2 fun c => f { c with state := .active }⟩ }
def pendBuf (idw : Word) : TxBuf := { State.txbuf0 with state := .pending, frame := { State.frame0 with idw := idw } }

def try2 (w : TxWhat) (committed : Bool) : Attempt := ⟨w, committed, 0, none⟩

/-- CanBus: a filter that passes and none; a candidate; an attempt open, committed, withdrawn in this CAN clock and an earlier
one; FD frames with a loop delay; errors at the bounds, further errors; each state; reference messages due, late and lost. -/
theorem meets_CanBus : (canUp id []).clk.power = true ∧ ((canUp id []).can.ctl[2]).state = .active
    ∧ ((canUp id []).can.ctl[2]).closing = false ∧ ((canUp id []).can.ctl[2]).attempt = none
    ∧ (let s := canUp id [(0xA8100, 0x80000123)]
       (regAct 0xA8100 s).getLsbD 31 = true
       ∧ ((0x123 : Word).toNat ^^^ (regAct 0xA8100 s).toNat) &&& ((regAct 0xA8104 s).toNat % 2 ^ 29) = 0
       ∧ (0x123 : Word).getLsbD 29 = (regAct 0xA8100 s).getLsbD 29 ∧ (regAct 0xA8104 s).getLsbD 30 = false
       ∧ (regAct 0xA8104 s).getLsbD 31 = false ∧ (∀ f < 32, (regAct (0xA8100 + 8 * f) (canUp id [])).getLsbD 31 = false))
    ∧ (let s := canUp (fun c => { c with bufs := vset c.bufs 1 (pendBuf 0x100) }) []
       (s.can.ctl[2]).bufs[1].state = .pending ∧ drives s = true ∧ s.sys.latched = false ∧ (s.can.ctl[2]).cfg.getLsbD 1 = false)
    ∧ (let s := canUp (fun c => { c with attempt := some (try2 (.buf 1) false), tec := 256, refDue := some 5 }) []
       (s.can.ctl[2]).attempt = some (try2 (.buf 1) false) ∧ (s.can.ctl[2]).tec ≤ 256 ∧ (s.can.ctl[2]).refDue.isSome = true)
    ∧ (let s := canUp (fun c => { c with attempt := some (try2 (.reference 5) true), state := .passive, tec := 129, refDue := some 5 }) []
       (s.can.ctl[2]).attempt = some (try2 (.reference 5) true) ∧ (s.can.ctl[2]).state = .passive ∧ 129 ≤ (s.can.ctl[2]).tec
         ∧ (s.can.ctl[2]).refDue = some 5)
    ∧ (let s := canUp (fun c => { c with attempt := some (try2 (.buf 1) false), closing := true }) []
       (s.can.ctl[2]).closing = true)
    ∧ (∀ clock ∈ [200600, 200599],
        let s := canUp (fun c => { c with withdrawn := some ⟨1, try2 (.buf 1) false, pendBuf 0x100, clock⟩ }) []
        (s.can.ctl[2]).attempt = none ∧ (s.can.ctl[2]).withdrawn = some ⟨1, try2 (.buf 1) false, pendBuf 0x100, clock⟩
          ∧ (clock = s.clk.cyc / 5 ↔ clock = 200600))
    ∧ (let s := canUp (fun c => { c with
           attempt := some (try2 (.buf 1) false), dbt := 0x10000000, bufs := vset c.bufs 1 (pendBuf 0x40000100) }) []
       (s.can.ctl[2]).dbt.getLsbD 28 = true ∧ (s.can.ctl[2]).bufs[1].frame.idw.getLsbD 30 = true ∧ (127 < 128))
    ∧ ((255 : Nat) < 248 + 8 ∧ ¬ (255 : Nat) < 247 + 8 ∧ (128 : Nat) ≤ 120 + 8 ∧ (119 : Nat) + 8 < 128)
    ∧ (let s := canUp (fun c => { c with errTx := some (.reference 5), refDue := some 5, tec := 250, cfg := 8 }) []
       (s.can.ctl[2]).errTx = some (.reference 5) ∧ (s.can.ctl[2]).attempt = none ∧ (s.can.ctl[2]).cfg.getLsbD 3 = true
         ∧ ((canUp (fun c => { c with cfg := 0 }) []).can.ctl[2]).cfg.getLsbD 3 = false)
    ∧ (∀ st ∈ [CanState.integrating, .recovering, .busOff], ((canUp (fun c => { c with state := st }) []).can.ctl[2]).state = st)
    ∧ (∀ r ∈ [126, 127], ((canUp (fun c => { c with state := .recovering, recv := r }) []).can.ctl[2]).recv = r)
    ∧ hostReady 1 1 (ses []) (canUp id [])
    ∧ (let s := canUp id [(0xA8044, 1)]
       (regAct 0xA8044 s).toNat % 4 = 1 ∧ (s.can.ctl[2]).lastCycle = none ∧ (s.can.ctl[2]).refDue = none)
    ∧ (let s := { canUp id [(0xA8044, 2)] with clk := { up.clk with cyc := 2 * tmCyc (canUp id [(0xA8044, 2)]) 2 * cycUs } }
       (regAct 0xA8044 s).toNat % 4 = 2 ∧ (s.can.ctl[2]).refLost = false
         ∧ (s.can.ctl[2]).refHeard + 2 * tmCyc s 2 * cycUs ≤ s.clk.cyc) := by
  and_intros <;> decide +kernel

/-- A paired module in a role, with a change. -/
def hsbUp (r : Role) (f : Hsb → Hsb) : State :=
  let s := withSes [] [(0xB0010, 116)] up
  { s with hsb := f { s.hsb with cfg := 0x3D, role := r, peerRole := some .standby, link := Vector.replicate 2 true } }
/-- A record of frame 100 of an ACTIVE module with no program, and no stream or subscription. -/
def record1 : Record where
  k := 100
  role := .active
  runHash := []
  chiselId := 0
  protoOk := true
  armed := none
  stagedCrc := []
  verdict := none
  mac := 0x0CCD01
  since := 5
  words := []
/-- The header of a message over link 0. -/
def head (q : Nat) (ok : Bool) : HsHead := ⟨0, 100, q, ok⟩

/-- SyncMessages: EN on and off, a CRC that holds and one that fails, a first copy and a later one, each role that a message
tells apart, the record at its latest moment and of another frame, transfer blocks in time and late, places of the transfer,
scans with and without the own CRCs, the beacon's conditions. -/
theorem meets_SyncMessages : up.clk.power = true ∧ hsbEn up = false
    ∧ hsbEn (hsbUp .standby id) = true ∧ (head 1 true).crcOk = true ∧ (head 1 false).crcOk = false
    ∧ (let s := hsbUp .standby fun h => { h with taken := [(100, 1)] }
       ((head 1 true).k, (head 1 true).seq) ∈ s.hsb.taken ∧ ((head 2 true).k, (head 2 true).seq) ∉ s.hsb.taken
         ∧ s.hsb.takenPrev = [])
    ∧ (∀ r ∈ [Role.alone, .active, .standby, .syncing, .diverged], (hsbUp r id).hsb.role = r)
    ∧ record1.k = (hsbUp .standby id).frm.k ∧ ({ record1 with k := 99 } : Record).k ≠ (hsbUp .standby id).frm.k
    ∧ ({ hsbUp .standby id with clk := { up.clk with tickph := 1800 } }).clk.tickph ≤ 1800
    ∧ 1024 ≥ (outputSet up).length ∧ runHash up = []
    ∧ stagedDiffer record1 up = false
    ∧ (99 + 1 = (hsbUp .syncing id).frm.k ∧ 98 + 1 ≠ (hsbUp .syncing id).frm.k)
    ∧ ({ hsbUp .syncing id with clk := { up.clk with tickph := 2399 } }).clk.tickph < 2400
    ∧ (0 + 4 * [1, 2].length ≤ 0x1800000 ∧ (0x6000000 : Nat) ≤ 0x6000000)
    ∧ (∀ r ∈ [Role.standby, .syncing, .alone], let s := hsbUp r fun h => { h with scanOwn := some (100, [7]) }
       s.hsb.scanOwn = some (100, [7]) ∧ [7] ≠ ([8] : List Word) ∧ (hsbUp r id).hsb.scanOwn = none)
    ∧ (hsbUp .standby id).plr.state = .empty ∧ (plrUp .placed []).plr.state = .placed ∧ up.plr.swapF = none
    ∧ (let s := hsbUp .syncing id
       s.clk.tickph ≤ 4000 ∧ s.hsb.cfg.getLsbD (2 + 3) = true ∧ w s.frm.k = 100) := by
  and_intros <;> decide +kernel

/-- A paired module whose tick is due. -/
def pairTick (r : Role) (f : Hsb → Hsb) : State :=
  { hsbUp r f with clk := { up.clk with cyc := 1083332, tickph := 83332 } }

/-- PairEvents: the image's deadline with and without a record; a compare due and each relation of the sets; the time-outs;
a tick with each cause; a handover in time, its cancel. -/
theorem meets_PairEvents :
    (let s := hsbUp .standby id
     s.clk.power = true ∧ s.frm.state = .running ∧ s.hsb.imageJudged = false ∧ 1800 ≤ s.clk.tickph ∧ s.hsb.record = none)
    ∧ (let s := hsbUp .standby fun h => { h with record := some record1 }
       s.hsb.record = some record1 ∧ (mirrorParts s record1).isSome = true)
    ∧ (let s := { hsbUp .standby fun h => { h with record := some record1 } with
         ne := { up.ne with sv := vset up.ne.sv 2 { State.sv0 with state := .run } } }
       (svSub s 2).state ≠ .off ∧ (record1.words.getD (16 + 2) 0).getLsbD 16 = false ∧ s.hsb.mirSv = []
         ∧ (mirrorParts s record1).isNone = true)
    ∧ (let o : OutSet := ⟨99, [(0, 7)], []⟩
       let s := hsbUp .standby fun h => { h with ownOut := some o, imageJudged := true, output := some ⟨99, [(0, 8)], []⟩, record := some record1 }
       s.hsb.ownOut = some o ∧ s.hsb.role = .standby ∧ s.hsb.ownPrev = false ∧ s.hsb.imageJudged = true ∧ s.hsb.roleK ≤ o.k ∧ s.hsb.compared = none ∧ o.k + 1 = s.frm.k
         ∧ (s.hsb.output.filter fun p => p.k == 99) ≠ none ∧ s.hsb.doubtAt = none)
    ∧ (let o : OutSet := ⟨99, [(0, 7)], []⟩
       let s := hsbUp .standby fun h => { h with ownOut := some o, imageJudged := true, ownPrev := true, record := some record1 }
       let t := { s with hsb := { s.hsb with ownPrev := false, output := none } }
       s.hsb.ownPrev = true ∧ s.hsb.record ≠ none ∧ t.hsb.output = none ∧ ({ s with hsb := { s.hsb with record := none } }).hsb.record = none)
    ∧ (let s := { hsbUp .syncing id with clk := { up.clk with cyc := 100 * 400000 + 0x10000 * 400000 } }
       s.hsb.seekFrom + max 100 (s.hsb.cfg.toNat / 2 ^ 16) * 400000 ≤ s.clk.cyc)
    ∧ (let s := hsbUp .syncing fun h => { h with agreed := true, xferDone := true, scanRun := 100000, xferFrom := some 0 }
       let t := { s with frm := { s.frm with k := 8192 } }
       t.hsb.xferFrom = some 0 ∧ t.hsb.agreed = true ∧ scanBlocks t ≤ t.hsb.scanRun ∧ 0 + 8192 ≤ t.frm.k)
    ∧ (let s := pairTick .syncing fun h => { h with agreed := true, ready := true }
       (s.hsb.ready && s.hsb.agreed) = true ∧ s.hsb.seekDone = false ∧ s.hsb.peerBeat = none)
    ∧ (let s := pairTick .diverged fun h => { h with heard := Vector.replicate 2 true }
       (s.hsb.heard[0] && s.hsb.heard[1]) = true ∧ s.hsb.role = .diverged)
    ∧ (let s := pairTick .alone fun h => { h with peerStart := true }
       s.hsb.peerStart = true ∧ s.hsb.dual = none)
    ∧ (let s := pairTick .standby id
       s.frm.ticks ≠ 0 ∧ s.tim.target ≤ s.clk.nt * rate s ∧ s.clk.cyc % 4 = 0 ∧ s.frm.commitArmed = false ∧ s.plr.swapF = none
         ∧ s.ne.badDesc = none ∧ s.sys.badRegs = [] ∧ hsbEn s = true
         ∧ ((((s.clk.cyc - s.frm.tickCyc) * rate s : Nat) : Int) - cycSec).natAbs * 100 ≤ cycSec)
    ∧ (let s := pairTick .standby fun h => { h with handover := some 101, hoCommitted := true, missRec := 1, doubtAt := some (1083332 - 400) }
       s.hsb.handover = some (s.frm.k + 1) ∧ 1 ≤ s.hsb.missRec ∧ (1083332 - 400) + 400 ≤ s.clk.cyc ∧ s.hsb.beaconNow = false)
    ∧ (let s := pairTick .active fun h => { h with missBeat := 1, dual := some false }
       s.hsb.heard[0] = false ∧ s.hsb.heard[1] = false ∧ 1 ≤ s.hsb.missBeat ∧ s.hsb.dual ≠ some true)
    ∧ (let s := hsbUp .active id
       hostReady 1 1 (ses []) s ∧ s.hsb.handover = none ∧ (reg 0xB0010 s).toNat + (reg 0xB0014 s).toNat * 2 ^ 32 = 116
         ∧ s.frm.ticks ≠ 0 ∧ s.frm.k + 16 ≤ 116 ∧ ¬ s.frm.k + 17 ≤ 116 ∧ s.hsb.role = .active ∧ s.hsb.peerRole = some .standby
         ∧ s.plr.swapF ≠ some 116)
    ∧ (let s := hsbUp .active fun h => { h with handover := some 102 }
       s.hsb.handover = some 102 ∧ s.frm.k + 1 < 102 ∧ (101 : Nat) ≤ s.frm.k + 1) := by
  and_intros <;> decide +kernel

/-! ### Ill-formed commands -/

/-- A start-up of 300 ms that finds nothing wrong. -/
def found : ResetIn := ⟨none, 0, 300, 300, 0, Vector.replicate 2 none, [], [], []⟩

/-- One term that each check of WellFormed refuses, and a frame in range that passes. -/
theorem test_ill_formed :
    Instr.wf (.chiselWrite 0 65 0) = false ∧ Instr.wf (.maquetteWrite 0 0x20400000 0) = false
    ∧ Instr.wf (.portFrame 0 { frameOf .none 64 true with srcMac := 2 ^ 48 }) = false
    ∧ Instr.wf (.portFrame 0 (frameOf (.prp 65536 true true) 64 true)) = false
    ∧ Instr.wf (.hsrForward 0 false (frameOf (.hsr 65536 true) 64 true)) = false
    ∧ Instr.wf (.portFrame 0 (frameOf (.hsr 65535 true) 64 true)) = true
    ∧ Instr.wf (.linkChange 0 true 4) = false
    ∧ Instr.wf (.svMessage 0 { svMsg [] with dmac := 2 ^ 48 }) = false ∧ Instr.wf (.svMessage 0 { svMsg [] with appid := 65536 }) = false
    ∧ Instr.wf (.svMessage 0 { svMsg [] with vlan := some 4096 }) = false ∧ Instr.wf (.svMessage 0 (svMsg [asdu 65536])) = false
    ∧ Instr.wf (.svMessage 0 (svMsg [{ asdu 0 with smpSynch := 256 }])) = false
    ∧ Instr.wf (.svMessage 0 (svMsg [{ asdu 0 with smpRate := some 65536 }])) = false
    ∧ Instr.wf (.gooseMessage 0 { gsMsg 1 1 with tal := 2 ^ 32 }) = false ∧ Instr.wf (.ptpMessage 0 { ptpMsg .sync with version := 16 }) = false
    ∧ Instr.wf (.ptpMessage 0 { ptpMsg .sync with sdo := 4096 }) = false ∧ Instr.wf (.ptpMessage 0 { ptpMsg .sync with domain := 256 }) = false
    ∧ Instr.wf (.ptpMessage 0 { ptpMsg .sync with seq := 65536 }) = false
    ∧ Instr.wf (.irigFrame { irig with year := 100 }) = false ∧ Instr.wf (.irigFrame { irig with day := 0 }) = false
    ∧ Instr.wf (.irigFrame { irig with day := 367 }) = false ∧ Instr.wf (.irigFrame { irig with sec := 86401 }) = false
    ∧ Instr.wf (.irigFrame { irig with tq := 16 }) = false
    ∧ Instr.wf (.domainWriteDone 0x70200) = false ∧ Instr.wf (.recordMsg (head 1 true) { record1 with k := 2 ^ 64 }) = false
    ∧ Instr.wf (.mirrorSv (head 1 true) 0 (2 ^ 64) (Vector.replicate 8 0)) = false
    ∧ Instr.wf (.mirrorGs (head 1 true) 0 0 (List.replicate 33 (0, 0))) = false
    ∧ Instr.wf (.mirrorCan (head 1 true) 0 0 (List.replicate 21 0)) = false ∧ Instr.wf (.xferMsg (head 1 true) 0 ⟨2, []⟩ false) = false
    ∧ Instr.wf (.xferMsg (head 1 true) (2 ^ 64) ⟨0, []⟩ false) = false ∧ Instr.wf (.scanMsg (head 1 true) 0 0 (List.replicate 257 0)) = false
    ∧ Instr.wf (.outputMsg (head 1 true) (2 ^ 64) [] []) = false
    ∧ Instr.wf .powerDown = true
    ∧ Instr.wf (.read 0 0 0 (2 ^ 32)) = false
    ∧ Instr.wf (.svMessage 0 { svMsg [] with auth := some ⟨256, false, [], [], []⟩ }) = false
    ∧ Instr.wf (.gooseMessage 0 { gsMsg 1 1 with auth := some ⟨1, false, [], [], List.replicate 256 0⟩ }) = false
    ∧ Instr.wf (.ptpMessage 0 { ptpMsg .sync with logInt := 128 }) = false
    ∧ Instr.wf (.portFrame 0 { frameOf .none 64 true with dstMac := 2 ^ 48 }) = false
    ∧ Instr.wf (.moduleReset { found with stestFail := some (7, 0) }) = false
    ∧ Instr.wf (.moduleReset { found with stestMs := 301 }) = false
    ∧ Instr.wf (.supplyReturnReset { found with nvCe := [4] }) = false
    ∧ Instr.wf (.moduleReset { found with nvUnc := [2 ^ 21] }) = false ∧ Instr.wf (.moduleReset found) = true := by
  and_intros <;> decide +kernel

/-! ### Worked examples of the manual -/

/-- The second message of R204's example: T1 = 2 ms, T0 = 1,000 ms, sqNum 1 goes with TAL 8 and the next is due at 6 ms. -/
theorem test_goose_retransmit : (let s := gsUp .valid 3 9
    let t := { s with ne := { s.ne with act := [(0x30601, 2 + 1000 * 1024)], pub := [(0x30601, 2 + 1000 * 1024)] } }
    let u := after (exec (.gooseRetransmit 6) t)
    (u.ne.gp[6]).sq = 1 ∧ (u.ne.gp[6]).dueMs = 6 ∧ u.ne.sent.any (fun x => match x.msg with
      | .goose p _ _ _ _ _ _ q tal _ _ _ => p == 6 && q == 1 && tal == 8
      | _ => false) = true) := by
  and_intros <;> decide +kernel

/-- R230's example: a shift of +200 at a second boundary skips the alarm, which fires late. -/
theorem test_shift_alarm : (let s := rtcUp fun r => { r with count := 0x01238000, alarm := some 0x01238064, shift := some 200, xtal := 9, shiftAt := 8 }
    let u := after (exec .shiftApply s)
    u.rtc.count = 0x012380C8 ∧ u.rtc.fire = 0x012380C8 ∧ u.rtc.evt.getLsbD 0 = true ∧ u.rtc.evt.getLsbD 1 = true
      ∧ u.rtc.alarm = none) := by
  and_intros <;> decide +kernel

/-- R228's example: the SECONDS view of 0x0001_E13A_4000. -/
theorem test_seconds_view : (let s := rtcUp fun r => { r with count := 0x1E13A4000, gen := 0x3A, view := true }
    (regRead 1 0x70000 s).1 = 0x0003C274 ∧ (regRead 1 0x70000 s).2.rtc.gen = 0x3B) := by
  and_intros <;> decide +kernel

/-- R262's example: an input that rose 120 us after T_k and held its filter's 2.00 ms is stamped with its rise. -/
theorem test_bounce_stamp : (let s := { fioUp id [(0x90050, 200)] with clk := { up.clk with nt := State.ntStart + 2123 * 10 ^ 13 } }
    let u := after (exec (.acceptedTransition 4 true 2000) s)
    (u.fio.ins[4]).filtered = true ∧ (u.fio.ins[4]).stamp = w (946684800 * 10 ^ 6 + 120)) := by
  and_intros <;> decide +kernel

/-- R173's example: the turn of cluster 0 opens at bank 5 with three lanes waiting and two left after the first grant. -/
theorem test_bank_turn : (let q : Nat → SharedReq := fun a => ⟨5 * bankSize + a, .load 0 4 false, 1009⟩
    let s := forAll [(0 : Nat), 1, 2] (fun l s => modLane (Fin.ofNat 16 l) (fun ln => { ln with reqs := [q (4 * l)] }) s)
      { up with clk := { up.clk with cyc := 1010 } }
    let u := after (exec (.bankGrant 5 true true true true) s)
    (u.mem.banks[5]).left = 2 ∧ (u.mem.banks[5]).ptr = 0 ∧ (u.lanes[0]).reqs = [] ∧ (u.lanes[1]).reqs ≠ []) := by
  and_intros <;> decide +kernel

end Sys2Proof.Tests
end

/-! ### The front of the queue and the lane cycle (R2, R18, R210, R213, R226, R227) -/
namespace Sys2Proof.Proofs

open Sys2Proof Sys2Proof.Machine Sys2Proof.Safety Sys2Proof.Laws

/-! #### What a step is -/

theorem step_of_front {s : State} {c : Instr} {rest : List Instr} (h : s.pending = c :: rest) :
    step s = exec c { s with pending := rest } := by
  unfold step; rw [h]

theorem step_of_no_command {s : State} (h : s.pending = []) : step s = .next (elapse s) := by
  unfold step; rw [h]

/-! #### The clocks over one lane cycle -/

theorem rtcElapse_between_ticks {r : Rtc} (h : r.frac + 32768 < cycSec) :
    rtcElapse r = { r with frac := r.frac + 32768 } := by
  simp only [rtcElapse, if_pos h]

theorem rtcElapse_at_tick {r : Rtc} (h : cycSec ≤ r.frac + 32768) :
    rtcElapse r = { r with frac := r.frac + 32768 - cycSec, count := (r.count + 1) % 2 ^ 48, xtal := r.xtal + 1 } := by
  simp only [rtcElapse, if_neg (Nat.not_lt.mpr h)]

/-- The rest of the backup domain is left alone. -/
theorem rtcElapse_only (r : Rtc) :
    rtcElapse r = { r with frac := (rtcElapse r).frac, count := (rtcElapse r).count, xtal := (rtcElapse r).xtal } := by
  rcases Nat.lt_or_ge (r.frac + 32768) cycSec with h | h
  · rw [rtcElapse_between_ticks h]
  · rw [rtcElapse_at_tick h]

/-- While network time stays on or after the PTP epoch, a lane cycle adds 2.5 ns at the rate correction (R213). -/
theorem ntElapse_of_nonneg {nt : Nat} {freq : Int} (h : 0 ≤ (nt : Int) + 25000000000 + 25 * freq) :
    (ntElapse nt freq : Int) = nt + 25000000000 + 25 * freq :=
  Int.toNat_of_nonneg h

/-! #### The management core's read of its SRAM -/

theorem mgmtRead_clean {s : State} (h : s.mem.mgmtCe = []) : mgmtRead s = s := by
  unfold mgmtRead; rw [h]

theorem mgmtRead_error {s : State} {a : Word} {secure : Bool} {l : List (Word × Bool)} (h : s.mem.mgmtCe = (a, secure) :: l) :
    mgmtRead s = note2 0x0013 srcSYS a (bitWord secure) { s with mem := { s.mem with mgmtCe := l } } := by
  unfold mgmtRead; rw [h]

/-- The word is corrected, and the recorder is what changes besides. -/
theorem mgmtRead_corrects {s : State} {a : Word} {secure : Bool} {l : List (Word × Bool)}
    (h : s.mem.mgmtCe = (a, secure) :: l) : ∃ v, mgmtRead s = { s with evr := v, mem := { s.mem with mgmtCe := l } } := by
  obtain ⟨v, hv⟩ := note_only _ _ _ _ _ _
  exact ⟨v, (mgmtRead_error h).trans hv⟩

/-- The idle intake of the recorder takes an entry at once (R332). -/
theorem raiseEntry_of_idle {e : Entry} {s : State} (hcur : s.evr.cur = none) (hqueue : s.evr.queue = []) :
    (raiseEntry e s).evr.cur = some (stamp e s) := by
  simp [raiseEntry, hcur, hqueue]

/-- With the intake idle, the entry of a corrected error is NOTE 0x0013 with its address and world (R18). -/
theorem mgmtRead_notes {s : State} {a : Word} {secure : Bool} {l : List (Word × Bool)} (h : s.mem.mgmtCe = (a, secure) :: l)
    (hcur : s.evr.cur = none) (hqueue : s.evr.queue = []) :
    ∃ x, (mgmtRead s).evr.cur = some x ∧ x.entry.code = 0x0013 ∧ x.entry.p0 = a ∧ x.entry.p1 = bitWord secure := by
  rw [mgmtRead_error h]
  exact ⟨_, raiseEntry_of_idle hcur hqueue, rfl, rfl, rfl⟩

/-- A read leaves everything but the recorder and the errors held alone. -/
theorem mgmtRead_only (s : State) : ∃ v l, mgmtRead s = { s with evr := v, mem := { s.mem with mgmtCe := l } } := by
  match h : s.mem.mgmtCe with
  | [] => exact ⟨s.evr, s.mem.mgmtCe, mgmtRead_clean h⟩
  | (_, _) :: l =>
    obtain ⟨v, hv⟩ := mgmtRead_corrects h
    exact ⟨v, l, hv⟩

@[simp] theorem mgmtRead_clk (s : State) : (mgmtRead s).clk = s.clk := by
  obtain ⟨v, l, h⟩ := mgmtRead_only s; rw [h]
@[simp] theorem mgmtRead_frm (s : State) : (mgmtRead s).frm = s.frm := by
  obtain ⟨v, l, h⟩ := mgmtRead_only s; rw [h]
@[simp] theorem mgmtRead_lanes (s : State) : (mgmtRead s).lanes = s.lanes := by
  obtain ⟨v, l, h⟩ := mgmtRead_only s; rw [h]
@[simp] theorem mgmtRead_rtc (s : State) : (mgmtRead s).rtc = s.rtc := by
  obtain ⟨v, l, h⟩ := mgmtRead_only s; rw [h]

/-! #### The lane cycle -/

theorem settle_only (s : State) : ∃ att, settle s = { s with att := att } := ⟨_, rfl⟩

/-- The state with its clocks one lane cycle on. -/
def clocksOn (s : State) : State := { s with clk := clkElapse s.clk s.tim.freq, rtc := rtcElapse s.rtc }

theorem elapse_powered {s : State} (h : s.clk.power = true) : elapse s = settle (mgmtRead (clocksOn s)) := by
  simp only [elapse, if_pos h, clocksOn]

theorem elapse_off {s : State} (h : s.clk.power = false) : elapse s = { s with rtc := rtcElapse s.rtc } := by
  unfold elapse; rw [if_neg (by simp [h])]

/-- With no error in the management SRAM, a lane cycle changes the clocks and the attention fields alone. -/
theorem elapse_clean {s : State} (h : s.mem.mgmtCe = []) :
    elapse s = { s with clk := (elapse s).clk, rtc := rtcElapse s.rtc, att := (elapse s).att } := by
  cases hp : s.clk.power with
  | true =>
    obtain ⟨att, hatt⟩ := settle_only (clocksOn s)
    rw [elapse_powered hp, mgmtRead_clean (s := clocksOn s) h, hatt, clocksOn]
  | false => rw [elapse_off hp]

theorem elapse_rtc (s : State) : (elapse s).rtc = rtcElapse s.rtc := by
  cases hp : s.clk.power with
  | true => rw [elapse_powered hp, settle_rtc, mgmtRead_rtc, clocksOn]
  | false => rw [elapse_off hp]

theorem elapse_clk {s : State} (hp : s.clk.power = true) : (elapse s).clk = clkElapse s.clk s.tim.freq := by
  rw [elapse_powered hp, settle_clk, mgmtRead_clk, clocksOn]

theorem elapse_frm (s : State) : (elapse s).frm = s.frm := by
  cases hp : s.clk.power with
  | true => rw [elapse_powered hp, settle_frm, mgmtRead_frm, clocksOn]
  | false => rw [elapse_off hp]

theorem elapse_lanes (s : State) : (elapse s).lanes = s.lanes := by
  cases hp : s.clk.power with
  | true => rw [elapse_powered hp, settle_lanes, mgmtRead_lanes, clocksOn]
  | false => rw [elapse_off hp]

theorem elapse_corrects {s : State} {a : Word} {secure : Bool} {l : List (Word × Bool)} (hp : s.clk.power = true)
    (h : s.mem.mgmtCe = (a, secure) :: l) : (elapse s).mem = { s.mem with mgmtCe := l } := by
  obtain ⟨v, hread⟩ := mgmtRead_corrects (s := clocksOn s) h
  rw [elapse_powered hp, settle_mem, hread, clocksOn]

theorem elapse_notes {s : State} {a : Word} {secure : Bool} {l : List (Word × Bool)} (hp : s.clk.power = true)
    (h : s.mem.mgmtCe = (a, secure) :: l) (hcur : s.evr.cur = none) (hqueue : s.evr.queue = []) :
    ∃ x, (elapse s).evr.cur = some x ∧ x.entry.code = 0x0013 ∧ x.entry.p0 = a ∧ x.entry.p1 = bitWord secure := by
  rw [elapse_powered hp, settle_evr]
  exact mgmtRead_notes (s := clocksOn s) h hcur hqueue

/-- The backup counter over a lane cycle: a part of a tick more, or the tick that completes (R226, R227). -/
theorem elapse_backup_counter (s : State) :
    (s.rtc.frac + 32768 < cycSec → (elapse s).rtc = { s.rtc with frac := s.rtc.frac + 32768 })
    ∧ (cycSec ≤ s.rtc.frac + 32768 → (elapse s).rtc.frac + cycSec = s.rtc.frac + 32768
        ∧ (elapse s).rtc.count = (s.rtc.count + 1) % 2 ^ 48 ∧ (elapse s).rtc.xtal = s.rtc.xtal + 1) := by
  rw [elapse_rtc]
  refine ⟨rtcElapse_between_ticks, fun h => ?_⟩
  rw [rtcElapse_at_tick h]
  exact ⟨Nat.sub_add_cancel h, rfl, rfl⟩

/-- The lane and network clocks of a powered module over a lane cycle (R2, R210, R213, R321). -/
theorem elapse_powered_clocks {s : State} (h : s.clk.power = true) :
    (elapse s).clk.cyc = s.clk.cyc + 1 ∧ (elapse s).clk.tickph = s.clk.tickph + 1 ∧ (elapse s).clk.power = true
    ∧ (0 ≤ (s.clk.nt : Int) + 25000000000 + 25 * s.tim.freq →
        ((elapse s).clk.nt : Int) = s.clk.nt + 25000000000 + 25 * s.tim.freq)
    ∧ (s.clk.opCyc + 1 = cycSec → (elapse s).clk.opSec = s.clk.opSec + 1)
    ∧ (s.clk.opCyc + 1 ≠ cycSec → (elapse s).clk.opSec = s.clk.opSec) := by
  rw [elapse_clk h]
  exact ⟨rfl, rfl, h, ntElapse_of_nonneg, fun hsec => if_pos hsec, fun hsec => if_neg hsec⟩

/-- Settles O42: a step with a command waiting is that command; else it is a lane cycle (the model's choice, log entry 1),
whose clocks follow R2, R210, R213, R226 and R227, and whose read of the management SRAM corrects and notes an error
(R18; its instant is the model's choice, log entry 8). -/
theorem frontCommandRuns : Obligations.FrontCommandRuns := by
  intro s
  refine ⟨fun c rest => step_of_front, fun hidle hclean => ?_, fun a b l hidle hp herr => ?_⟩
  · obtain ⟨hpart, htick⟩ := elapse_backup_counter s
    refine ⟨elapse s, step_of_no_command hidle, ?_, hpart, htick, elapse_powered_clocks, fun hoff => ?_⟩
    · have honly := elapse_clean hclean
      rw [rtcElapse_only, ← elapse_rtc] at honly
      exact honly
    · rw [elapse_off hoff]; exact ⟨rfl, rfl⟩
  · obtain ⟨hcyc, _⟩ := elapse_powered_clocks hp
    exact ⟨elapse s, step_of_no_command hidle, elapse_corrects hp herr, hcyc, elapse_lanes s, elapse_frm s,
      elapse_notes hp herr⟩

end Sys2Proof.Proofs

/-! ### Folds, indexed access, and what a MODULE doubt leaves alone (R25, R28) -/
namespace Sys2Proof.Proofs

open Sys2Proof Sys2Proof.Machine Sys2Proof.Safety Sys2Proof.Laws

/-- What each change of a fold leaves as it is, the whole fold does. -/
theorem foldl_keeps {σ α β : Type} {g : σ → α} {f : σ → β → σ} (h : ∀ s x, g (f s x) = g s) (xs : List β) (s : σ) :
    g (xs.foldl f s) = g s := by
  induction xs generalizing s with
  | nil => rfl
  | cons x xs ih => exact (ih (f s x)).trans (h s x)

theorem forAll_keeps {σ α : Type} {g : σ → α} {f : Nat → σ → σ} (h : ∀ i s, g (f i s) = g s) (is : List Nat) (s : σ) :
    g (forAll is f s) = g s := foldl_keeps (fun s i => h i s) is s

theorem vget_of_lt {α : Type} {n : Nat} (d : α) (v : Vector α n) {i : Nat} (h : i < n) : vget d v i = v[i] := dif_pos h
theorem vset_of_lt {α : Type} {n : Nat} (v : Vector α n) {i : Nat} (x : α) (h : i < n) : vset v i x = v.set i x := dif_pos h
theorem vmod_of_lt {α : Type} {n : Nat} (v : Vector α n) {i : Nat} (f : α → α) (h : i < n) : vmod v i f = v.set i (f v[i]) :=
  dif_pos h

/-- The state without the parts that a MODULE doubt may change: the latch, the lanes' modes, the transfer engine, metering, CAN,
the sync link, the recorder, FRM_STATE and the event word. -/
def besideDoubt (s : State) : State :=
  { s with
    sys := State.sys0, lanes := State.reset.lanes, mem := State.mem0, eq := State.eq0, can := State.reset.can, hsb := State.hsb0
    evr := State.evr0, persist := State.reset.persist
    frm := { s.frm with state := .starting, evwNext := 0, evwStep := 0, evwStepAt := 0 } }

theorem raiseEntry_besideDoubt (e : Entry) (s : State) : besideDoubt (raiseEntry e s) = besideDoubt s := by
  obtain ⟨v, h⟩ := raiseEntry_only e s; rw [h]; rfl

theorem assertEvw_besideDoubt (n : Nat) (s : State) : besideDoubt (assertEvw n s) = besideDoubt s := by
  unfold assertEvw; split <;> rfl

theorem pqEnd_besideDoubt (c : Nat) (ch : EqChan) (e : Rat) (b : Bool) (s : State) :
    besideDoubt (pqEnd c ch e b s) = besideDoubt s := by
  unfold pqEnd
  dsimp only
  split <;> exact raiseEntry_besideDoubt _ _

theorem eqStop_besideDoubt (s : State) : besideDoubt (eqStop s) = besideDoubt s := by
  unfold eqStop
  have hends := forAll_keeps (g := besideDoubt) (f := fun c s =>
    let ch := vget State.chan0 s.eq.chans c
    assertEvw 40 (pqEnd c ch ch.halfStart true
      { s with eq := { s.eq with chans := vset s.eq.chans c { ch with pq := .normal } } }))
    (fun c s => (assertEvw_besideDoubt _ _).trans (pqEnd_besideDoubt _ _ _ _ _))
    (where_ 192 fun c => (vget State.chan0 s.eq.chans c).pq ≠ .normal) s
  dsimp only at hends ⊢
  split <;> exact hends

theorem canStop_besideDoubt (s : State) : besideDoubt (canStop s) = besideDoubt s :=
  forAll_keeps (fun n => assertEvw_besideDoubt (30 + n)) _ _

theorem hsbDoubt_besideDoubt (code : BitVec 16) (s : State) : besideDoubt (hsbDoubt code s) = besideDoubt s := by
  unfold hsbDoubt; dsimp only; split <;> rfl

theorem latchDoubt_besideDoubt (bit : Nat) (code : BitVec 16) (s : State) :
    besideDoubt (latchDoubt bit code s) = besideDoubt s := by
  unfold latchDoubt
  dsimp only
  rw [hsbDoubt_besideDoubt, canStop_besideDoubt, eqStop_besideDoubt]
  rfl

theorem laterDoubt_besideDoubt (bit : Nat) (code : BitVec 16) (s : State) :
    besideDoubt (laterDoubt bit code s) = besideDoubt s := by
  unfold laterDoubt; dsimp only; split <;> rfl

theorem moduleDoubt_besideDoubt (bit : Nat) (code : BitVec 16) (src : BitVec 8) (a b c : Word) (s : State) :
    besideDoubt (moduleDoubt bit code src a b c s) = besideDoubt s := by
  unfold moduleDoubt
  rw [raiseEntry_besideDoubt]
  split
  · rfl
  · split
    · exact laterDoubt_besideDoubt ..
    · exact latchDoubt_besideDoubt ..

@[simp] theorem moduleDoubt_clk (bit : Nat) (code : BitVec 16) (src : BitVec 8) (a b c : Word) (s : State) :
    (moduleDoubt bit code src a b c s).clk = s.clk := (congrArg State.clk (moduleDoubt_besideDoubt bit code src a b c s) :)
@[simp] theorem moduleDoubt_ln (bit : Nat) (code : BitVec 16) (src : BitVec 8) (a b c : Word) (s : State) :
    (moduleDoubt bit code src a b c s).ln = s.ln := (congrArg State.ln (moduleDoubt_besideDoubt bit code src a b c s) :)
@[simp] theorem moduleDoubt_plr (bit : Nat) (code : BitVec 16) (src : BitVec 8) (a b c : Word) (s : State) :
    (moduleDoubt bit code src a b c s).plr = s.plr := (congrArg State.plr (moduleDoubt_besideDoubt bit code src a b c s) :)
@[simp] theorem moduleDoubt_frm_k (bit : Nat) (code : BitVec 16) (src : BitVec 8) (a b c : Word) (s : State) :
    (moduleDoubt bit code src a b c s).frm.k = s.frm.k :=
  (congrArg (fun t => t.frm.k) (moduleDoubt_besideDoubt bit code src a b c s) :)

/-- In plinth mode a cause touches no memory; else the latch is set. -/
theorem moduleDoubt_mem_or_latched (bit : Nat) (code : BitVec 16) (src : BitVec 8) (a b c : Word) (s : State) :
    (moduleDoubt bit code src a b c s).mem = s.mem ∨ (moduleDoubt bit code src a b c s).sys.latched = true := by
  by_cases hp : inPlinth s = true
  · left; unfold moduleDoubt; rw [if_pos hp, raiseEntry_mem]; rfl
  · right
    by_cases hl : s.sys.latched = true
    · unfold moduleDoubt laterDoubt
      rw [if_neg hp, if_pos hl, raiseEntry_sys]
      dsimp only
      split <;> exact hl
    · exact (moduleDoubt_first bit code src a b c s (by simpa using hl) (by simpa using hp)).1

end Sys2Proof.Proofs

/-! ### O25: maquette writes, LOADED and PLACED (R16, R60, R161 to R163) -/
namespace Sys2Proof.Proofs

open Sys2Proof Sys2Proof.Machine Sys2Proof.Safety Sys2Proof.Laws

/-! #### The write of one word to a maquette half -/

theorem wordBytes_length (x : Word) : (wordBytes x).length = 4 := leBytes_length 4 x.toNat

theorem wordBytes_getElem (x : Word) (i : Nat) (h : i < 4) :
    (wordBytes x)[i]'(by rw [wordBytes_length]; exact h) = byteOf x i := leBytes_byteOf x 4 (le_refl 4) i h

/-- The bytes of a word stored. -/
theorem stored_wordBytes (m : List (Nat × Byte)) (o : Nat) (x : Word) : stored m (sputs zeroByte o (wordBytes x) m) o 4 x :=
  stored_sputs m o 4 x (wordBytes x) (wordBytes_length x) fun i h => wordBytes_getElem x i h

/-- An aligned word lies in one bundle. -/
theorem bundle_of_word {o : Nat} (ho : o % 4 = 0) (k : Nat) : (o / 32 ≤ k ∧ k * 32 < o + 4) ↔ k = o / 32 := by omega

/-- A word written marks its bundle and makes its check whole. -/
theorem maquettePut_word {o : Nat} (ho : o % 4 = 0) (x : Word) (s : State) :
    maquettePut o (wordBytes x) s = { s with
      ln := { s.ln with prog := sputs zeroByte o (wordBytes x) s.ln.prog
                        badBundles := s.ln.badBundles.filter fun k => decide (k ≠ o / 32)
                        hostBundles := (s.ln.hostBundles.filter fun k => decide (k ≠ o / 32)) ++ [o / 32] }
      plr := if s.plr.state = .placed then { s.plr with state := .loaded, maq := none } else s.plr } := by
  have hlen : (o + 4 + 31) / 32 - o / 32 = 1 := by omega
  unfold maquettePut
  simp only [wordBytes_length, bundle_of_word ho, hlen, List.range_one, List.map_cons, List.map_nil, Nat.add_zero,
    ne_eq, decide_not]
  split <;> rfl

/-- What a host write through the window of R16 answers. -/
theorem maquetteWriteOp_window {a : Nat} (x : Word) (s : State) (hlo : 0x20000000 ≤ a) (hhi : a < 0x20400000)
    (hal : a % 4 = 0) : maquetteWriteOp a x s = maquetteWordOp (a - 0x20000000) x s := by
  unfold maquetteWriteOp
  rw [if_neg (by omega), if_neg (by omega)]

theorem maquetteWordOp_active {o : Nat} (x : Word) {s : State} (h : inActiveHalf s o = true) :
    maquetteWordOp o x s = (.denied, s) := by
  unfold maquetteWordOp; rw [if_pos h]

theorem maquetteWordOp_busy {o : Nat} (x : Word) {s : State} (h : inActiveHalf s o = false)
    (hst : s.plr.state = .placing ∨ s.plr.state = .armed) : maquetteWordOp o x s = (.busy, s) := by
  unfold maquetteWordOp
  rw [if_neg (by simp [h])]
  rcases hst with hst | hst <;> rw [hst]

theorem maquetteWordOp_takes {o : Nat} (x : Word) {s : State} (h : inActiveHalf s o = false)
    (hp : s.plr.state ≠ .placing) (ha : s.plr.state ≠ .armed) :
    maquetteWordOp o x s = (.ok, maquettePut o (wordBytes x) s) := by
  unfold maquetteWordOp
  rw [if_neg (by simp [h])]
  split
  · exact absurd ‹_› hp
  · exact absurd ‹_› ha
  · rfl

/-! #### LOADED and PLACED -/

theorem exec_loaded {s : State} (h : s.clk.power = true) :
    exec .loaded s = .next (settle (if s.plr.state = .loading then loadedEff s else s)) := act_powered _ h

theorem exec_placed {s : State} (h : s.clk.power = true) :
    exec .placed s = .next (settle (if s.plr.state = .placing then placedEff s else s)) := act_powered _ h

/-- The state without what a placement writes: the program halves and memory. -/
def besidePlacement (s : State) : State :=
  { s with mem := State.mem0, ln := { s.ln with prog := [], badBundles := [], hostBundles := [] } }

theorem putBundles_besidePlacement (xs : List (Nat × Nat × Nat)) (s : State) :
    besidePlacement (xs.foldl (fun s x => putBundle x s) s) = besidePlacement s :=
  foldl_keeps (g := besidePlacement) (fun s x => by unfold besidePlacement putBundle; rfl) xs s

theorem putInits_besidePlacement (bs : List Byte) (old new : List VarInfo) (s : State) :
    besidePlacement (putInits bs old new s) = besidePlacement s :=
  foldl_keeps (g := besidePlacement) (fun s v => by unfold besidePlacement shPut; rfl) _ s

/-- The accepted program in the maquette halves, with the initial values of its new variables (R60, R166). -/
def placedProgram (a : Armature) (s : State) : State :=
  let t := s.plr.nextCode.foldl (fun s x => putBundle x s) s
  putInits (slotBytes s (stagedSlot s)) (runVars t) a.vars t

theorem placedProgram_besidePlacement (a : Armature) (s : State) :
    besidePlacement (placedProgram a s) = besidePlacement s :=
  (putInits_besidePlacement ..).trans (putBundles_besidePlacement ..)

/-- The verdict of PLACED: the program placed, or the image refused. -/
def placedVerdict (s : State) : State :=
  match s.plr.maq with
  | none => { s with plr := { s.plr with state := .refused } }
  | some a => { placedProgram a s with plr := { (placedProgram a s).plr with state := .placed, maqHashOk := true } }

/-- The new report with its entry (R160). -/
def placedReport (s : State) : State :=
  let word := fun (i : Nat) => ((s.plr.nextReport.find? fun x => x.1 == i).map (·.2)).getD (0 : Word)
  note (BitVec.setWidth 16 (word 0)) srcPLR (word 1) (word 2) (word 3) { placedVerdict s with
    plr := { (placedVerdict s).plr with
      report := s.plr.nextReport, result := BitVec.setWidth 16 (word 0), nextReport := [], nextCode := [] } }

theorem placedEff_eq (s : State) : placedEff s = match maquetteBad (placedReport s) with
    | some (l, i) => laneFaultIn (!activeHalf (placedReport s) l.val) l ⟨0x100C, w i, none⟩ i false (placedReport s)
    | none => placedReport s := by
  unfold placedEff placedReport placedVerdict placedProgram
  cases s.plr.maq <;> rfl

/-- What the verdict leaves alone: the active halves, the batons and the frame, and all memory when it refuses. -/
theorem placedVerdict_leaves (s : State) :
    (placedVerdict s).plr = { s.plr with
        state := if s.plr.maq = none then .refused else .placed
        maqHashOk := if s.plr.maq = none then s.plr.maqHashOk else true }
    ∧ (placedVerdict s).ln.half = s.ln.half ∧ (placedVerdict s).ln.active = s.ln.active
    ∧ (placedVerdict s).ln.batons = s.ln.batons ∧ (placedVerdict s).frm.k = s.frm.k
    ∧ (s.plr.maq = none → (placedVerdict s).ln.prog = s.ln.prog ∧ (placedVerdict s).mem = s.mem) := by
  unfold placedVerdict
  cases hm : s.plr.maq with
  | none => exact ⟨rfl, rfl, rfl, rfl, rfl, fun _ => ⟨rfl, rfl⟩⟩
  | some a =>
    have h := placedProgram_besidePlacement a s
    have hplr : (placedProgram a s).plr = s.plr := (congrArg State.plr h :)
    refine ⟨?_, (congrArg (fun t => t.ln.half) h :), (congrArg (fun t => t.ln.active) h :),
      (congrArg (fun t => t.ln.batons) h :), (congrArg (fun t => t.frm.k) h :), fun hn => nomatch hn⟩
    dsimp only
    rw [hplr]
    rfl

theorem placedReport_leaves (s : State) :
    (placedReport s).plr = { s.plr with
        state := if s.plr.maq = none then .refused else .placed
        maqHashOk := if s.plr.maq = none then s.plr.maqHashOk else true
        report := s.plr.nextReport
        result := BitVec.setWidth 16 (((s.plr.nextReport.find? fun x => x.1 == 0).map (·.2)).getD 0)
        nextReport := [], nextCode := [] }
    ∧ (placedReport s).ln = (placedVerdict s).ln ∧ (placedReport s).frm = (placedVerdict s).frm
    ∧ (placedReport s).mem = (placedVerdict s).mem := by
  obtain ⟨hplr, -⟩ := placedVerdict_leaves s
  unfold placedReport note
  simp only [raiseEntry_plr, raiseEntry_ln, raiseEntry_frm, raiseEntry_mem, hplr, and_self]

/-- A fault latches LN_FAULT; the rest of the LN block, the placer and the frame number stand. -/
theorem laneFaultIn_leaves (half : Bool) (l : Fin 16) (f : LFault) (pc : Nat) (mac : Bool) (s : State) :
    (∃ v, (laneFaultIn half l f pc mac s).ln = { s.ln with fault := v })
    ∧ (laneFaultIn half l f pc mac s).plr = s.plr ∧ (laneFaultIn half l f pc mac s).frm.k = s.frm.k
    ∧ ((laneFaultIn half l f pc mac s).mem = s.mem ∨ (laneFaultIn half l f pc mac s).sys.latched = true) :=
  ⟨⟨_, moduleDoubt_ln ..⟩, moduleDoubt_plr .., moduleDoubt_frm_k .., moduleDoubt_mem_or_latched ..⟩

/-- PLACED beside its report: a bundle that the verifier finds damaged may make a doubt, and no more (R18). -/
theorem placedEff_leaves (s : State) :
    (∃ v, (placedEff s).ln = { (placedReport s).ln with fault := v }) ∧ (placedEff s).plr = (placedReport s).plr
    ∧ (placedEff s).frm.k = (placedReport s).frm.k
    ∧ ((placedEff s).mem = (placedReport s).mem ∨ (placedEff s).sys.latched = true) := by
  rw [placedEff_eq]
  split
  · exact laneFaultIn_leaves ..
  · exact ⟨⟨_, rfl⟩, rfl, rfl, .inl rfl⟩

/-- Settles O25: a word written to a maquette half by the rule of its half and of the placer's state (R16, R60, R162, R163);
the ends of LOADING and PLACING (R161, R162). -/
theorem placerEvents : Obligations.PlacerEvents := by
  intro sid ss s
  refine ⟨fun a x h hlo hhi hal => ?_, fun hpow => ⟨fun hl => ?_, fun hl => ?_, fun hp => ?_, fun hp => ?_⟩⟩
  · have hop := maquetteWriteOp_window x s hlo hhi hal
    refine ⟨fun hhalf hp ha => ⟨_, stored_wordBytes s.ln.prog (a - 0x20000000) x, ?_⟩, fun hhalf => ?_, fun hhalf hst => ?_⟩
    · have hput := maquettePut_word (o := a - 0x20000000) (by omega) x s
      exact host_ok h (hop.trans ((maquetteWordOp_takes x hhalf hp ha).trans (by rw [hput])))
    · exact host_no h (hop.trans (maquetteWordOp_active x hhalf)) (by decide) (by decide)
    · exact host_no h (hop.trans (maquetteWordOp_busy x hhalf hst)) (by decide) (by decide)
  · rw [exec_loaded hpow, if_pos hl]
    unfold loadedEff stagedSlot slotBase
    cases s.plr.runSlot <;> rfl
  · rw [exec_loaded hpow, if_neg hl]
  · rw [exec_placed hpow, if_neg hp]
  · rw [exec_placed hpow, if_pos hp]
    obtain ⟨hplr, hln, hfrm, hmem⟩ := placedReport_leaves s
    obtain ⟨-, hhalf, hactive, hbatons, hk, hrefused⟩ := placedVerdict_leaves s
    obtain ⟨⟨v, hlnE⟩, hplrE, hkE, hmemE⟩ := placedEff_leaves s
    rw [hln] at hlnE
    rw [hfrm] at hkE
    refine ⟨_, rfl, hplrE.trans hplr, ?_, ?_, ?_, hkE.trans hk, fun hn => ?_⟩
    · rw [settle_ln, hlnE]; exact hhalf
    · rw [settle_ln, hlnE]; exact hactive
    · rw [settle_ln, hlnE]; exact hbatons
    · obtain ⟨hprog, hsame⟩ := hrefused hn
      rw [settle_ln, hlnE]
      exact hmemE.imp (fun hm => ⟨hprog, hm.trans (hmem.trans hsame)⟩) id

end Sys2Proof.Proofs

/-! ### O27: the transfer engine (R179, R181, R183) -/
namespace Sys2Proof.Proofs

open Sys2Proof Sys2Proof.Machine Sys2Proof.Safety Sys2Proof.Laws

theorem teSlot_fin (s : State) (i : Fin 256) : teSlot s i.val = s.mem.te[i.val] := vget_of_lt _ _ i.isLt

theorem modTe_fin (i : Fin 256) (f : TeSlot → TeSlot) (s : State) :
    modTe i.val f s = { s with mem := { s.mem with te := s.mem.te.set i.val (f s.mem.te[i.val]) } } := by
  unfold modTe; rw [vmod_of_lt _ _ i.isLt]

/-- The memory state with a channel's queue and running slot given. -/
def memChan (fw : Bool) (q : List Nat) (r : Option Nat) (m : Mem) : Mem :=
  if fw then { m with fwQ := q, fwRun := r } else { m with hostQ := q, hostRun := r }

theorem setChan_eq (fw : Bool) (q : List Nat) (r : Option Nat) (s : State) :
    setChan fw q r s = { s with mem := memChan fw q r s.mem } := by
  cases fw <;> rfl

theorem memChan_te (fw : Bool) (q : List Nat) (r : Option Nat) (m : Mem) : (memChan fw q r m).te = m.te := by
  cases fw <;> rfl

/-! #### A descriptor taken -/

theorem exec_descriptorTake {s : State} (h : s.clk.power = true) (fw : Bool) : exec (.descriptorTake fw) s =
    .next (settle (whenever ((chanRun fw s).isNone && !s.mem.halted) (teTake fw) s)) := act_powered _ h

/-- The front of the queue becomes `x`, and the channel goes on with `run`. -/
theorem teTake_front {fw : Bool} {s : State} {i : Fin 256} {r : List Nat} (hq : chanQ fw s = i.val :: r)
    (hcrc : crcHolds s.mem.te[i.val] = true) :
    teTake fw s = { s with mem := { memChan fw r (if teCheck s s.mem.te[i.val] = .ok then some i.val else none) s.mem with
      te := s.mem.te.set i.val { s.mem.te[i.val] with
        state := if teCheck s s.mem.te[i.val] = .ok then .running else .refused } } } := by
  unfold teTake
  simp only [hq, teSlot_fin, hcrc, Bool.not_true, Bool.false_eq_true, if_false, modTe_fin, setChan_eq, memChan_te]
  by_cases hc : teCheck s s.mem.te[i.val] = .ok
  · simp only [hc, ne_eq, not_true_eq_false, if_false, if_true]
  · simp only [hc, ne_eq, not_false_eq_true, if_true, if_false]

theorem teTake_damaged {fw : Bool} {s : State} {i : Fin 256} {r : List Nat} (hq : chanQ fw s = i.val :: r)
    (hcrc : crcHolds s.mem.te[i.val] = false) :
    teTake fw s = moduleDoubt causeControl 0x3001 srcMEM (w i.val) (bitWord fw) 0 s := by
  unfold teTake
  simp only [hq, teSlot_fin, hcrc, Bool.not_false, if_true]

/-! #### A descriptor run -/

theorem winOf_shared {a : Nat} (hlo : 0x10000000 ≤ a) (hhi : a < 0x11800000) : winOf a = some (.shared, a - 0x10000000) := by
  unfold winOf sharedSize
  rw [if_pos (by omega)]

/-- A descriptor of the operation runs to its end (R181). -/
theorem teRun_ends {fw : Bool} {op : Nat} {f : TeSlot → State → Word × State} {s : State} {i : Fin 256}
    {m : List (Nat × Byte)} {x : Word} (hrun : chanRun fw s = some i.val) (hop : (s.mem.te[i.val]).op = op)
    (hf : f s.mem.te[i.val] s = (x, { s with mem := { s.mem with shared := m } })) :
    teRun fw op f s = { s with mem := { memChan fw (chanQ fw s) none s.mem with
      shared := m, te := s.mem.te.set i.val { s.mem.te[i.val] with state := .done, result := x } } } := by
  unfold teRun
  simp only [hrun, teSlot_fin, hop, if_true, hf, teDone, modTe_fin, setChan_eq, memChan_te]
  cases fw <;> rfl

theorem sgets_length {β : Type} (d : Nat → β) (m : List (Nat × β)) (k n : Nat) : (sgets d m k n).length = n := by
  induction n generalizing k with
  | zero => rfl
  | succ n ih => simp [sgets, ih]

theorem sgets_getElem {β : Type} (d : Nat → β) (m : List (Nat × β)) (k n i : Nat) (h : i < (sgets d m k n).length) :
    (sgets d m k n)[i] = sget d m (k + i) := by
  induction n generalizing k i with
  | zero => simp [sgets] at h
  | succ n ih =>
    cases i with
    | zero => rfl
    | succ i =>
      have hi : i < (sgets d m (k + 1) n).length := by simpa [sgets] using h
      simpa [sgets, Nat.add_assoc, Nat.add_comm 1] using ih (k + 1) i hi

/-- A copy of a run of bytes within one memory. -/
theorem sget_copied {m : List (Nat × Byte)} (hm : swf zeroByte m = true) (a b k j : Nat) :
    sget zeroByte (sputs zeroByte b (sgets zeroByte m a k) m) j
      = if b ≤ j ∧ j < b + k then sget zeroByte m (a + (j - b)) else sget zeroByte m j := by
  rw [sget_sputs j _ b hm]
  simp only [sgets_length, sgets_getElem]
  split <;> rfl

/-- The bytes of a range, copied to a range that shares none with it. -/
def copied (m m' : List (Nat × Byte)) (a b len : Nat) : Prop :=
  swf zeroByte m' = true ∧ ∀ j, sget zeroByte m' j =
    if b ≤ j ∧ j < b + len then sget zeroByte m (a + (j - b)) else sget zeroByte m j

/-- COPY line by line: lines enough for the range copy the whole of it. -/
theorem teCopyLines_shared (n a b len : Nat) (s : State) (hn : len = 0 ∨ a % 32 + len ≤ 32 * n)
    (hdis : a + len ≤ b ∨ b + len ≤ a) (hm : swf zeroByte s.mem.shared = true) :
    ∃ m, teCopyLines n .shared a .shared b len s = { s with mem := { s.mem with shared := m } }
      ∧ copied s.mem.shared m a b len := by
  induction n generalizing a b len s with
  | zero => exact ⟨s.mem.shared, rfl, hm, fun j => by rw [if_neg (by omega)]⟩
  | succ n ih =>
    unfold teCopyLines
    by_cases h0 : len = 0
    · rw [if_pos h0]
      exact ⟨s.mem.shared, rfl, hm, fun j => by rw [if_neg (by omega)]⟩
    · rw [if_neg h0]
      have hk : min len (32 - a % 32) ≤ len := Nat.min_le_left _ _
      have hn' : len - min len (32 - a % 32) = 0 ∨
        (a + min len (32 - a % 32)) % 32 + (len - min len (32 - a % 32)) ≤ 32 * n := by omega
      generalize min len (32 - a % 32) = k at hk hn' ⊢
      obtain ⟨m, hlines, hwf, hread⟩ := ih (a + k) (b + k) (len - k) (shPut b (sgets zeroByte s.mem.shared a k) s) hn'
        (by omega) (swf_sputs _ _ hm)
      refine ⟨m, hlines, hwf, fun j => ?_⟩
      rw [hread j, shPut_mem]
      dsimp only
      rw [sget_copied hm, sget_copied hm]
      by_cases hj : b + k ≤ j ∧ j < b + len
      · rw [if_pos (by omega), if_neg (by omega), if_pos (by omega), show a + k + (j - (b + k)) = a + (j - b) by omega]
      · rw [if_neg (by omega)]
        by_cases hj' : b ≤ j ∧ j < b + k
        · rw [if_pos hj', if_pos (by omega)]
        · rw [if_neg hj', if_neg (by omega)]

theorem teCopyEff_shared {d : TeSlot} {s : State} (hs : 0x10000000 ≤ d.src ∧ d.src + d.len ≤ 0x11800000 ∧ 0 < d.len)
    (hd : 0x10000000 ≤ d.dst ∧ d.dst + d.len ≤ 0x11800000 ∧ 0 < d.len)
    (hdis : d.src - 0x10000000 + d.len ≤ d.dst - 0x10000000 ∨ d.dst - 0x10000000 + d.len ≤ d.src - 0x10000000)
    (hm : swf zeroByte s.mem.shared = true) :
    ∃ m, teCopyEff d s = (w d.len, { s with mem := { s.mem with shared := m } })
      ∧ copied s.mem.shared m (d.src - 0x10000000) (d.dst - 0x10000000) d.len := by
  obtain ⟨hs1, hs2, hpos⟩ := hs
  obtain ⟨hd1, hd2, -⟩ := hd
  obtain ⟨m, hlines, hcopied⟩ := teCopyLines_shared (d.len / 32 + 2) (d.src - 0x10000000) (d.dst - 0x10000000) d.len s
    (by omega) hdis hm
  refine ⟨m, ?_, hcopied⟩
  unfold teCopyEff
  simp only [winOf_shared hs1 (by omega), winOf_shared hd1 (by omega), hlines]

/-! #### FILL and CRC -/

theorem wordsBytes_replicate_length (n : Nat) (x : Word) : (wordsBytes (List.replicate n x)).length = 4 * n := by
  induction n with
  | zero => rfl
  | succ n ih =>
    rw [List.replicate_succ, wordsBytes, List.flatMap_cons, List.length_append, wordBytes_length]
    rw [wordsBytes] at ih
    omega

theorem wordsBytes_replicate_getElem (n : Nat) (x : Word) (i : Nat) (h : i < (wordsBytes (List.replicate n x)).length) :
    (wordsBytes (List.replicate n x))[i] = byteOf x (i % 4) := by
  induction n generalizing i with
  | zero => simp [wordsBytes] at h
  | succ n ih =>
    have hcons : wordsBytes (List.replicate (n + 1) x) = wordBytes x ++ wordsBytes (List.replicate n x) := by
      rw [List.replicate_succ, wordsBytes, List.flatMap_cons]; rfl
    simp only [hcons] at h ⊢
    by_cases hi : i < 4
    · rw [List.getElem_append_left (by rw [wordBytes_length]; exact hi), wordBytes_getElem x i hi, Nat.mod_eq_of_lt hi]
    · rw [List.getElem_append_right (by rw [wordBytes_length]; omega), ih, wordBytes_length]
      congr 1
      omega

theorem teFillEff_shared {d : TeSlot} {s : State} (hd : 0x10000000 ≤ d.dst ∧ d.dst + d.len ≤ 0x11800000 ∧ 0 < d.len) :
    teFillEff d s = (w d.len, { s with mem := { s.mem with
      shared := sputs zeroByte (d.dst - 0x10000000) (wordsBytes (List.replicate (d.len / 4) d.val)) s.mem.shared } }) := by
  obtain ⟨hd1, hd2, hpos⟩ := hd
  unfold teFillEff
  simp only [winOf_shared hd1 (by omega)]
  rfl

theorem sget_filled {m : List (Nat × Byte)} (hm : swf zeroByte m = true) {len : Nat} (hlen : len % 4 = 0) (b : Nat) (x : Word)
    (j : Nat) : sget zeroByte (sputs zeroByte b (wordsBytes (List.replicate (len / 4) x)) m) j
      = if b ≤ j ∧ j < b + len then byteOf x ((j - b) % 4) else sget zeroByte m j := by
  have hl : 4 * (len / 4) = len := by omega
  rw [sget_sputs j _ b hm]
  simp only [wordsBytes_replicate_length, wordsBytes_replicate_getElem, hl]
  split <;> rfl

theorem teCrcEff_shared {d : TeSlot} {s : State} (hs : 0x10000000 ≤ d.src ∧ d.src + d.len ≤ 0x11800000 ∧ 0 < d.len) :
    teCrcEff d s = (crc32c (sgets zeroByte s.mem.shared (d.src - 0x10000000) d.len), s) := by
  obtain ⟨hs1, hs2, hpos⟩ := hs
  unfold teCrcEff
  simp only [winOf_shared hs1 (by omega)]
  rfl

/-- Settles O27: descriptors taken by their CRC-16 and the checks, and what FILL, COPY and CRC leave (R179, R181, R183). That
a descriptor's bytes move in one step is the model's choice (log entry 30). -/
theorem transferEngine : Obligations.TransferEngine := by
  intro fw s hpow q cur chan
  have hq : chanQ fw s = q := rfl
  have hcur : chanRun fw s = cur := rfl
  have hchan : ∀ r run, memChan fw r run s.mem = chan r run := fun _ _ => rfl
  refine ⟨fun i r hfront hidle hgo => ?_, fun hno => ?_, fun i hrun => ?_⟩
  · have hdue : ((chanRun fw s).isNone && !s.mem.halted) = true := by rw [hcur, hidle, hgo]; rfl
    have htake : exec (.descriptorTake fw) s = .next (settle (teTake fw s)) := by
      rw [exec_descriptorTake hpow, hdue, whenever_true]
    dsimp only
    refine ⟨fun hcrc hok => ?_, fun hcrc hbad => ?_, fun hcrc hl hp => ⟨_, htake, ?_⟩⟩
    · rw [htake, teTake_front (hq.trans hfront) hcrc, if_pos hok, if_pos hok, hchan]
    · rw [htake, teTake_front (hq.trans hfront) hcrc, if_neg hbad, if_neg hbad, hchan]
    · rw [teTake_damaged (hq.trans hfront) hcrc]
      obtain ⟨hlatched, hfirst, hcause, hcyc, -⟩ :=
        moduleDoubt_first causeControl 0x3001 srcMEM (w i.val) (bitWord fw) 0 s hl hp
      refine ⟨hlatched, hfirst, ?_, hcyc⟩
      rw [settle_sys, hcause]
      simp [setBit, causeControl]
  · rw [exec_descriptorTake hpow]
    rcases hno with hempty | hbusy | hhalt
    · unfold whenever teTake
      rw [hq, hempty]
      split <;> rfl
    · obtain ⟨j, hj⟩ := Option.ne_none_iff_exists'.mp hbusy
      rw [hcur, hj]; rfl
    · rw [hhalt, Bool.not_true, Bool.and_false]; rfl
  · have hrun' : chanRun fw s = some i.val := hrun
    dsimp only
    refine ⟨fun hop hs hd hdis hm => ?_, fun hop hd hlen hm => ?_, fun hop hs => ?_⟩
    · obtain ⟨m, heff, hwf, hread⟩ := teCopyEff_shared hs hd hdis hm
      exact ⟨m, (act_powered _ hpow).trans (by rw [teRun_ends hrun' hop heff]; rfl), hwf, hread⟩
    · exact ⟨_, (act_powered _ hpow).trans (by rw [teRun_ends hrun' hop (teFillEff_shared hd)]; rfl), swf_sputs _ _ hm,
        sget_filled hm hlen _ _⟩
    · exact (act_powered _ hpow).trans (by rw [teRun_ends hrun' hop (teCrcEff_shared hs)]; rfl)

end Sys2Proof.Proofs

/-! ### O55: the field points (R25, R260, R262 to R268) -/
namespace Sys2Proof.Proofs

open Sys2Proof Sys2Proof.Machine Sys2Proof.Safety Sys2Proof.Laws

/-! #### What a row of the field points leaves alone -/

/-- The state without the field outputs, and without what a code that shows adds: recorder, rate rows, event word, FIO_EVT. -/
def besideOuts (s : State) : State :=
  { s with
    evr := State.evr0, rl := [], frm := { s.frm with evwNext := 0, evwStep := 0, evwStepAt := 0 }
    fio := { s.fio with outs := State.fio0.outs, evt := 0 } }

/-- A rate-limited NOTE leaves what its entry leaves. -/
theorem rlNote_keeps {α : Type} {g : State → α} {mk : Word → State → State} (hrl : ∀ s rl, g { s with rl := rl } = g s)
    (hmk : ∀ x s, g (mk x s) = g s) (obj code : Nat) (s : State) : g (rlNote obj code mk s) = g s := by
  unfold rlNote
  dsimp only
  split_ifs
  · exact (hmk _ _).trans (hrl _ _)
  · exact hrl _ _

theorem raiseEntry_besideOuts (e : Entry) (s : State) : besideOuts (raiseEntry e s) = besideOuts s := by
  obtain ⟨v, h⟩ := raiseEntry_only e s; rw [h]; rfl

theorem assertEvw_besideOuts (n : Nat) (s : State) : besideOuts (assertEvw n s) = besideOuts s := by
  unfold assertEvw; split <;> rfl

theorem modOut_besideOuts (n : Nat) (f : FieldOut → FieldOut) (s : State) : besideOuts (modOut n f s) = besideOuts s := by
  unfold besideOuts modOut; rfl

theorem fout_modOut {n m : Nat} (hn : n < 16) (hm : m < 16) (f : FieldOut → FieldOut) (s : State) :
    fout (modOut n f s) m = if m = n then f (fout s m) else fout s m := by
  unfold fout modOut
  rw [vget_of_lt _ _ hm, vget_of_lt _ _ hm, vmod_of_lt _ _ hn, Vector.getElem_set]
  by_cases h : n = m
  · subst h; simp
  · rw [if_neg h, if_neg (Ne.symm h)]

theorem fout_settle (s : State) (n : Nat) : fout (settle s) n = fout s n := rfl

theorem modOut_self {n : Nat} (hn : n < 16) {f : FieldOut → FieldOut} {s : State} (h : f (fout s n) = fout s n) :
    modOut n f s = s := by
  have hv : (s.fio.outs).set n (f s.fio.outs[n]) = s.fio.outs := by
    rw [fout, vget_of_lt _ _ hn] at h
    rw [h, Vector.set_getElem_self]
  unfold modOut
  rw [vmod_of_lt _ _ hn, hv]

/-! #### Codes (R267) -/

/-- An output on which the condition of code `c` arises: the code shows unless one above it stands. -/
def showing (c : Nat) (o : FieldOut) : FieldOut := { o with code := if codeRank c < codeRank o.code then c else o.code }

/-- An output that takes a code, whatever its entry and its events touch. -/
theorem setCode_keeps {α : Type} {g : State → α} (hevt : ∀ s, g (fioEvt 1 s) = g s)
    (hrl : ∀ s rl, g { s with rl := rl } = g s) (hentry : ∀ e s, g (raiseEntry e s) = g s)
    (hevw : ∀ s, g (assertEvw 43 s) = g s) {n c : Nat} {s : State} (h : (fout s n).code ≠ c) :
    g (setCode n c s) = g (modOut n (fun o => { o with code := c }) s) := by
  unfold setCode
  simp only [if_neg h]
  split
  · exact hevw _
  · split
    · exact (hevt _).trans ((rlNote_keeps hrl (fun _ _ => hentry _ _) _ _ _).trans (hevw _))
    · exact (rlNote_keeps hrl (fun _ _ => hentry _ _) _ _ _).trans (hevw _)

theorem setCode_besideOuts (n c : Nat) (s : State) : besideOuts (setCode n c s) = besideOuts s := by
  by_cases h : (fout s n).code = c
  · unfold setCode; simp only [if_pos h]
  · exact (setCode_keeps (fun _ => rfl) (fun _ _ => rfl) raiseEntry_besideOuts (assertEvw_besideOuts 43) h).trans
      (modOut_besideOuts _ _ _)

theorem fout_setCode {n m : Nat} (hn : n < 16) (hm : m < 16) (c : Nat) (s : State) :
    fout (setCode n c s) m = if m = n then { fout s m with code := c } else fout s m := by
  rw [← fout_modOut hn hm (fun o => { o with code := c }) s]
  by_cases h : (fout s n).code = c
  · rw [modOut_self hn (by rw [← h])]
    unfold setCode; simp only [if_pos h]
  · refine setCode_keeps (g := fun t => fout t m) (fun _ => rfl) (fun _ _ => rfl) (fun e s => ?_) (fun s => ?_) h
    · unfold fout; rw [raiseEntry_fio]
    · unfold fout; rw [assertEvw_fio]

theorem raiseCode_besideOuts (n c : Nat) (s : State) : besideOuts (raiseCode n c s) = besideOuts s := by
  unfold raiseCode
  split
  · exact setCode_besideOuts n c s
  · rfl

theorem fout_raiseCode {n m : Nat} (hn : n < 16) (hm : m < 16) (c : Nat) (s : State) :
    fout (raiseCode n c s) m = if m = n then showing c (fout s m) else fout s m := by
  unfold raiseCode showing
  by_cases h : m = n
  · subst h
    rw [if_pos rfl]
    split
    · rw [fout_setCode hm hm, if_pos rfl]
    · rfl
  · rw [if_neg h]
    split
    · rw [fout_setCode hn hm, if_neg h]
    · rfl

theorem codeRank_eq_zero {c : Nat} (h : codeRank c = 0) : c = 6 := by
  unfold codeRank at h
  split at h
  · rfl
  all_goals exact absurd h (by decide)

/-- Nothing stands above code 6. -/
theorem showing_supply (o : FieldOut) : showing 6 o = { o with code := 6 } := by
  unfold showing
  by_cases h : codeRank 6 < codeRank o.code
  · rw [if_pos h]
  · have h6 : codeRank 6 = 0 := rfl
    rw [if_neg h, codeRank_eq_zero (c := o.code) (by omega)]

/-! #### The channels of a group -/

theorem mem_channels {g m : Nat} : m ∈ channels g ↔ m / 8 = g := by
  simp only [channels, List.mem_cons, List.not_mem_nil, or_false]
  omega

theorem channels_nodup (g : Nat) : (channels g).Nodup := by
  simp [channels]

/-- A row that makes one change of every channel of a list. -/
theorem forAll_channels {f : Nat → State → State} {F : Nat → FieldOut → FieldOut}
    (hrest : ∀ n s, besideOuts (f n s) = besideOuts s)
    (hout : ∀ n < 16, ∀ s, ∀ m < 16, fout (f n s) m = if m = n then F s.clk.cyc (fout s m) else fout s m)
    (is : List Nat) (hnd : is.Nodup) (hlt : ∀ n ∈ is, n < 16) (s : State) :
    besideOuts (forAll is f s) = besideOuts s
    ∧ ∀ m < 16, fout (forAll is f s) m = if m ∈ is then F s.clk.cyc (fout s m) else fout s m := by
  refine ⟨forAll_keeps hrest is s, fun m hm => ?_⟩
  induction is generalizing s with
  | nil => rfl
  | cons i is ih =>
    obtain ⟨hi, hnd⟩ := List.nodup_cons.mp hnd
    have hclk : (f i s).clk = s.clk := (congrArg State.clk (hrest i s) :)
    have htail := ih hnd (fun n hn => hlt n (List.mem_cons_of_mem _ hn)) (f i s)
    rw [hout i (hlt i List.mem_cons_self) s m hm, hclk] at htail
    refine htail.trans ?_
    by_cases hmi : m = i
    · subst hmi; simp [hi]
    · simp [hmi]

/-- What stands after a row that touches the outputs alone. -/
theorem besideOuts_leaves {s t : State} (h : besideOuts t = besideOuts s) :
    ((settle t).mem = s.mem ∧ (settle t).lanes = s.lanes ∧ (settle t).sys = s.sys ∧ (settle t).eq = s.eq)
    ∧ t.fio.og = s.fio.og ∧ t.clk = s.clk :=
  ⟨⟨(congrArg State.mem h :), (congrArg State.lanes h :), (congrArg State.sys h :), (congrArg State.eq h :)⟩,
    (congrArg (fun u => u.fio.og) h :), (congrArg State.clk h :)⟩

/-! #### Transitions (R262, R263) -/

theorem usOpen_eq (s : State) : usOpen s = { s with fio := { s.fio with
    usAt := s.clk.cyc / cycUs
    usIns := if s.fio.usAt = s.clk.cyc / cycUs then s.fio.usIns else []
    usRuns := if s.fio.usAt = s.clk.cyc / cycUs then s.fio.usRuns else [] } } := by
  unfold usOpen usStep
  by_cases h : s.fio.usAt = s.clk.cyc / cycUs
  · simp only [← h, if_true]
  · simp only [if_neg h]

/-- A level held for less than the filter time is kept as a run. -/
theorem judgeRun_short {n held : Nat} {level : Bool} {s : State} (h : held < filtUs s n) :
    judgeRun n level held s = { s with fio := { s.fio with
      usAt := s.clk.cyc / cycUs
      usIns := if s.fio.usAt = s.clk.cyc / cycUs then s.fio.usIns else []
      usRuns := (n, level, held) :: (if s.fio.usAt = s.clk.cyc / cycUs then s.fio.usRuns else []) } } := by
  unfold judgeRun
  rw [usOpen_eq]
  exact if_neg (Nat.not_le.mpr h)

/-- A level held for the filter time is the input's level. -/
theorem judgeRun_accepted {n held : Nat} {level : Bool} {s : State} (hn : n < 32) (h : filtUs s n ≤ held) :
    judgeRun n level held s = { s with fio := { s.fio with
      ins := s.fio.ins.set n { s.fio.ins[n] with
        filtered := level, chg := true, multi := (s.fio.ins[n]).chg
        stamp := w ((ntAgo s (held * cycUs) - 3 * 10 ^ 13).toNat / 10 ^ 13) }
      usAt := s.clk.cyc / cycUs
      usRuns := if s.fio.usAt = s.clk.cyc / cycUs then s.fio.usRuns else []
      usIns := if (if s.fio.usAt = s.clk.cyc / cycUs then s.fio.usIns else []).any (·.1 == n)
        then (if s.fio.usAt = s.clk.cyc / cycUs then s.fio.usIns else [])
        else (n, s.fio.ins[n]) :: (if s.fio.usAt = s.clk.cyc / cycUs then s.fio.usIns else []) } } := by
  unfold judgeRun
  rw [usOpen_eq]
  refine (if_pos h).trans ?_
  generalize (if s.fio.usAt = s.clk.cyc / cycUs then s.fio.usIns else []) = olds
  generalize (if s.fio.usAt = s.clk.cyc / cycUs then s.fio.usRuns else []) = runs
  have hfresh : usFresh { s with fio := { s.fio with usAt := s.clk.cyc / cycUs, usIns := olds, usRuns := runs } } n
      = olds.any (·.1 == n) := by simp [usFresh, usStep]
  simp only [hfresh, acceptTransition, modIn, fin_, vget_of_lt _ _ hn, vmod_of_lt _ _ hn]
  cases olds.any (·.1 == n) <;> rfl

/-! #### Wire break (R264) -/

/-- The state without the recorder and the event word. -/
def besideNotes (s : State) : State :=
  { s with evr := State.evr0, frm := { s.frm with evwNext := 0, evwStep := 0, evwStepAt := 0 } }

theorem raiseEntry_besideNotes (e : Entry) (s : State) : besideNotes (raiseEntry e s) = besideNotes s := by
  obtain ⟨v, h⟩ := raiseEntry_only e s; rw [h]; rfl

theorem assertEvw_besideNotes (n : Nat) (s : State) : besideNotes (assertEvw n s) = besideNotes s := by
  unfold assertEvw; split <;> rfl

/-- What stands after a row that adds entries and events to a change of the field points. -/
theorem besideNotes_leaves {s t : State} {fio : Fio} (h : besideNotes t = besideNotes { s with fio := fio }) :
    ((settle t).mem = s.mem ∧ (settle t).lanes = s.lanes ∧ (settle t).sys = s.sys ∧ (settle t).eq = s.eq)
    ∧ (settle t).fio = fio :=
  ⟨⟨(congrArg State.mem h :), (congrArg State.lanes h :), (congrArg State.sys h :), (congrArg State.eq h :)⟩,
    (congrArg State.fio h :)⟩

/-- A bit of FIO_EVT sets, whatever entry and event go with it. -/
theorem fioEvt_besideNotes (n : Nat) {s t : State} (h : besideNotes t = besideNotes s) :
    besideNotes (fioEvt n t) = besideNotes (fioEvt n s) := (congrArg (fioEvt n) h :)

/-- WB of an input sets, with FIO_EVT.0, or clears. -/
theorem setWb_besideNotes {n : Nat} (hn : n < 32) (on : Bool) (s : State) :
    besideNotes (setWb n on s) = besideNotes { s with fio := { s.fio with
      ins := s.fio.ins.set n { s.fio.ins[n] with wb := on }, evt := if on then s.fio.evt ||| 1 else s.fio.evt } } := by
  have hin : modIn n (fun i => { i with wb := on }) s =
      { s with fio := { s.fio with ins := s.fio.ins.set n { s.fio.ins[n] with wb := on } } } := by
    unfold modIn; rw [vmod_of_lt _ _ hn]
  unfold setWb
  rw [hin]
  cases on with
  | false => exact (raiseEntry_besideNotes _ _).trans (assertEvw_besideNotes _ _)
  | true => exact fioEvt_besideNotes 0 ((raiseEntry_besideNotes _ _).trans (assertEvw_besideNotes _ _))

theorem judgeWb_breaks {n ua : Nat} {s : State} (hua : ua < 150) (hwb : (fin_ s n).wb = false) :
    judgeWb n ua s = setWb n true s := by
  unfold judgeWb; exact if_pos ⟨hua, by rw [hwb]; rfl⟩

theorem judgeWb_heals {n ua : Nat} {s : State} (hua : 300 ≤ ua) (hwb : (fin_ s n).wb = true) :
    judgeWb n ua s = setWb n false s := by
  unfold judgeWb
  exact (if_neg (by simp [hwb])).trans (if_pos ⟨hua, hwb⟩)

theorem judgeWb_idle {n ua : Nat} {s : State} (hb : ¬ (ua < 150 ∧ (fin_ s n).wb = false))
    (hh : ¬ (300 ≤ ua ∧ (fin_ s n).wb = true)) : judgeWb n ua s = s := by
  unfold judgeWb
  exact (if_neg (by simpa using hb)).trans (if_neg hh)

/-! #### Supplies (R260) -/

theorem ogrp_fin (s : State) (g : Fin 2) : ogrp s g.val = s.fio.og[g.val] := vget_of_lt _ _ g.isLt

theorem modOg_fin (g : Fin 2) (f : OutGroup → OutGroup) (s : State) :
    modOg g.val f s = { s with fio := { s.fio with og := s.fio.og.set g.val (f s.fio.og[g.val]) } } := by
  unfold modOg; rw [vmod_of_lt _ _ g.isLt]

theorem supplyLost_input (g : Fin 4) {s : State} (h : s.fio.igSup[g.val] = true) :
    besideNotes (supplyLost g.val s) = besideNotes { s with fio := { s.fio with
      igSup := s.fio.igSup.set g.val false, evt := s.fio.evt ||| 4 } } := by
  unfold supplyLost
  rw [if_pos g.isLt, vget_of_lt _ _ g.isLt, if_pos h, vset_of_lt _ _ g.isLt]
  exact fioEvt_besideNotes 2 ((assertEvw_besideNotes _ _).trans (raiseEntry_besideNotes _ _))

theorem supplyLost_input_idle (g : Fin 4) {s : State} (h : s.fio.igSup[g.val] = false) : supplyLost g.val s = s := by
  unfold supplyLost
  rw [if_pos g.isLt, vget_of_lt _ _ g.isLt, if_neg (by simp [h])]

theorem besideNotes_withFio {s t : State} (h : besideNotes t = besideNotes s) (fio : Fio) :
    besideNotes { t with fio := fio } = besideNotes { s with fio := fio } :=
  (congrArg (fun u : State => { u with fio := fio }) h :)

/-- The entry and the event of a supply that is back. -/
theorem supplyNoted_besideNotes (s : State) : besideNotes (assertEvw 44 (noteU 0x7021 srcFIO s)) = besideNotes s :=
  (assertEvw_besideNotes _ _).trans (raiseEntry_besideNotes _ _)

theorem supplyBack_input (g : Fin 4) {s : State} (h : s.fio.igSup[g.val] = false) :
    besideNotes (supplyBack g.val s) = besideNotes { s with fio := { s.fio with igSup := s.fio.igSup.set g.val true } } := by
  have hfio : (assertEvw 44 (noteU 0x7021 srcFIO s)).fio = s.fio := (congrArg State.fio (supplyNoted_besideNotes s) :)
  unfold supplyBack
  dsimp only
  rw [if_pos g.isLt, vget_of_lt _ _ g.isLt, if_neg (by simp [h]), vset_of_lt _ _ g.isLt, hfio]
  exact besideNotes_withFio (supplyNoted_besideNotes s) _

theorem supplyBack_input_idle (g : Fin 4) {s : State} (h : s.fio.igSup[g.val] = true) : supplyBack g.val s = s := by
  unfold supplyBack
  dsimp only
  rw [if_pos g.isLt, vget_of_lt _ _ g.isLt, if_pos h]

theorem supplyBack_output (g : Fin 2) {s : State} (h : (s.fio.og[g.val]).supply = false) :
    besideNotes (supplyBack (4 + g.val) s) = besideNotes { s with fio := { s.fio with
      og := s.fio.og.set g.val { s.fio.og[g.val] with supply := true } } } := by
  have hfio : (assertEvw 44 (noteU 0x7021 srcFIO s)).fio = s.fio := (congrArg State.fio (supplyNoted_besideNotes s) :)
  unfold supplyBack
  dsimp only
  rw [if_neg (by omega), Nat.add_sub_cancel_left, ogrp_fin, if_neg (by simp [h]), modOg_fin, hfio]
  exact besideNotes_withFio (supplyNoted_besideNotes s) _

theorem supplyBack_output_idle (g : Fin 2) {s : State} (h : (s.fio.og[g.val]).supply = true) :
    supplyBack (4 + g.val) s = s := by
  unfold supplyBack
  dsimp only
  rw [if_neg (by omega), Nat.add_sub_cancel_left, ogrp_fin, if_pos h]

/-! #### Rows that open every switch of a group -/

/-- An output whose command in force becomes off. -/
def opened (cyc : Nat) (o : FieldOut) : FieldOut :=
  { o with cmd := false, drive := false, lastChange := if o.drive then cyc else o.lastChange }

theorem fout_cmdOff {n m : Nat} (hn : n < 16) (hm : m < 16) (s : State) :
    fout (cmdOff n s) m = if m = n then opened s.clk.cyc (fout s m) else fout s m := fout_modOut hn hm _ s

theorem cmdOff_besideOuts (n : Nat) (s : State) : besideOuts (cmdOff n s) = besideOuts s := modOut_besideOuts _ _ _

/-- The switches of a group open with a code. -/
theorem groupOpens (c : Nat) (g : Fin 2) (s : State) :
    besideOuts (forAll (channels g.val) (fun n s => raiseCode n c (cmdOff n s)) s) = besideOuts s
    ∧ ∀ m < 16, fout (forAll (channels g.val) (fun n s => raiseCode n c (cmdOff n s)) s) m =
        if m / 8 = g.val then showing c (opened s.clk.cyc (fout s m)) else fout s m := by
  obtain ⟨hrest, hout⟩ := forAll_channels (f := fun n s => raiseCode n c (cmdOff n s))
    (F := fun cyc o => showing c (opened cyc o))
    (fun n s => (raiseCode_besideOuts _ _ _).trans (cmdOff_besideOuts _ _))
    (fun n hn s m hm => by
      rw [fout_raiseCode hn hm, fout_cmdOff hn hm]
      by_cases h : m = n
      · simp only [if_pos h]
      · simp only [if_neg h])
    (channels g.val) (channels_nodup _) (fun n hn => by have := mem_channels.mp hn; omega) s
  exact ⟨hrest, fun m hm => by rw [hout m hm]; simp only [mem_channels]⟩

end Sys2Proof.Proofs

/-! #### The rows of the field outputs (R25, R260, R265 to R268) -/
namespace Sys2Proof.Proofs

open Sys2Proof Sys2Proof.Machine Sys2Proof.Safety Sys2Proof.Laws

/-- L+ of an output group is lost: its entry and event, and the group without supply, before the switches open. -/
def supplyGone (g : Nat) (s : State) : State :=
  if (ogrp s g).supply then fioEvt 2 (assertEvw 44 (localU 0x7020 srcFIO (modOg g (fun o => { o with supply := false }) s)))
  else s

theorem supplyGone_leaves (g : Fin 2) (s : State) :
    besideOuts (supplyGone g.val s) = besideOuts { s with fio := { s.fio with
      og := s.fio.og.set g.val { s.fio.og[g.val] with supply := false } } }
    ∧ (supplyGone g.val s).fio.outs = s.fio.outs := by
  unfold supplyGone
  rw [ogrp_fin, modOg_fin]
  split
  · refine ⟨?_, ?_⟩
    · exact ((assertEvw_besideOuts _ _).trans (raiseEntry_besideOuts _ _) :)
    · unfold fioEvt
      rw [assertEvw_fio, localU, localDoubt, raiseEntry_fio]
  · rename_i hs
    have hself : ({ s.fio.og[g.val] with supply := false } : OutGroup) = s.fio.og[g.val] := by
      rw [show false = (s.fio.og[g.val]).supply from (Bool.eq_false_iff.mpr hs).symm]
    rw [hself, Vector.set_getElem_self]
    exact ⟨rfl, rfl⟩

theorem supplyLost_output (g : Fin 2) (s : State) :
    besideOuts (supplyLost (4 + g.val) s) = besideOuts { s with fio := { s.fio with
      og := s.fio.og.set g.val { s.fio.og[g.val] with supply := false } } }
    ∧ ∀ m < 16, fout (supplyLost (4 + g.val) s) m =
        if m / 8 = g.val then { opened s.clk.cyc (fout s m) with code := 6 } else fout s m := by
  have hlost : supplyLost (4 + g.val) s =
      forAll (channels g.val) (fun n s => raiseCode n 6 (cmdOff n s)) (supplyGone g.val s) := by
    unfold supplyLost supplyGone
    rw [if_neg (by omega), Nat.add_sub_cancel_left]
  obtain ⟨hrest, houts⟩ := supplyGone_leaves g s
  obtain ⟨hgroup, hout⟩ := groupOpens 6 g (supplyGone g.val s)
  have hclk : (supplyGone g.val s).clk = s.clk := (congrArg State.clk hrest :)
  rw [hlost]
  refine ⟨hgroup.trans hrest, fun m hm => ?_⟩
  rw [hout m hm, hclk, showing_supply, fout, houts]
  rfl

/-! #### Off periods -/

theorem outOn_iff (s : State) (n : Nat) : outOn s n = true ↔ (fout s n).drive = true ∧ (fout s n).off = none
    ∧ (fout s n).hot = false ∧ (ogrp s (n / 8)).enabled = true ∧ (ogrp s (n / 8)).supply = true := by
  simp [outOn, inOff, and_assoc]

/-- An output with a retry counted. -/
def counted (cyc : Nat) (o : FieldOut) : FieldOut := { o with retries := min 65535 (o.retries + 1), lastChange := cyc }

/-- An off period of a channel begins, with its code. -/
theorem offCode_leaves {n : Nat} (hn : n < 16) (c : Nat) (f : FieldOut → FieldOut) (s : State) :
    besideOuts (raiseCode n c (offCount n f s)) = besideOuts s
    ∧ ∀ m < 16, fout (raiseCode n c (offCount n f s)) m =
        if m = n then showing c (f (counted s.clk.cyc (fout s m))) else fout s m := by
  refine ⟨(raiseCode_besideOuts _ _ _).trans (modOut_besideOuts _ _ _), fun m hm => ?_⟩
  have hcount : fout (offCount n f s) m = if m = n then f (counted s.clk.cyc (fout s m)) else fout s m :=
    fout_modOut hn hm _ s
  rw [fout_raiseCode hn hm, hcount]
  by_cases h : m = n
  · simp only [if_pos h]
  · simp only [if_neg h]

/-- An overload of a group: an off period of each of its channels. -/
theorem groupOvl_leaves (g : Fin 2) (s : State) :
    besideOuts (forAll (channels g.val) (fun n s => raiseCode n 7 (offPeriod .groupOvl n s)) s) = besideOuts s
    ∧ ∀ m < 16, fout (forAll (channels g.val) (fun n s => raiseCode n 7 (offPeriod .groupOvl n s)) s) m =
        if m / 8 = g.val then showing 7 { counted s.clk.cyc (fout s m) with off := some (.groupOvl, s.clk.cyc) }
        else fout s m := by
  have hrest : ∀ n s, besideOuts (raiseCode n 7 (offPeriod .groupOvl n s)) = besideOuts s := fun n s =>
    (raiseCode_besideOuts _ _ _).trans (modOut_besideOuts _ _ _)
  obtain ⟨hall, hout⟩ := forAll_channels (f := fun n s => raiseCode n 7 (offPeriod .groupOvl n s))
    (F := fun cyc o => showing 7 { counted cyc o with off := some (.groupOvl, cyc) })
    hrest (fun n hn s => (offCode_leaves hn 7 _ s).2)
    (channels g.val) (channels_nodup _) (fun n hn => by have := mem_channels.mp hn; omega) s
  exact ⟨hall, fun m hm => by rw [hout m hm]; simp only [mem_channels]⟩

/-- An output whose off period has ended takes its command, unless the other goes on. -/
def retried (s : State) (n : Nat) (o : FieldOut) : FieldOut :=
  if inOff o then o else { o with
    lastChange := s.clk.cyc
    drive := o.cmd && drives s && (ogrp s (n / 8)).enabled && (ogrp s (n / 8)).supply && !s.sys.latched }

/-- The end of an off period changes outputs and the group's overload alone. -/
theorem retry_only (n : Nat) (s : State) : ∃ og, retry n s = { s with fio := { s.fio with
    outs := vmod s.fio.outs n (retried s n), og := og } } := ⟨_, rfl⟩

/-- An off period of an output is over. -/
theorem retry_after {n : Nat} (hn : n < 16) (f : FieldOut → FieldOut) (s : State) :
    ((settle (retry n (modOut n f s))).mem = s.mem ∧ (settle (retry n (modOut n f s))).lanes = s.lanes
      ∧ (settle (retry n (modOut n f s))).sys = s.sys ∧ (settle (retry n (modOut n f s))).eq = s.eq)
    ∧ ∀ m < 16, fout (retry n (modOut n f s)) m = if m = n then retried s n (f (fout s m)) else fout s m := by
  obtain ⟨og, h⟩ := retry_only n (modOut n f s)
  refine ⟨by rw [h]; exact ⟨rfl, rfl, rfl, rfl⟩, fun m hm => ?_⟩
  have hswitch : fout (retry n (modOut n f s)) m = fout (modOut n (retried (modOut n f s) n) (modOut n f s)) m := by
    rw [h]; rfl
  have hsame : retried (modOut n f s) n = retried s n := by unfold retried modOut drives ogrp; rfl
  rw [hswitch, hsame, fout_modOut hn hm, fout_modOut hn hm]
  by_cases hmn : m = n
  · simp only [if_pos hmn]
  · simp only [if_neg hmn]

/-! #### Readback (R267) -/

/-- An output whose terminal shows a level. -/
def sensed (s : State) (n : Nat) (rb : Bool) (o : FieldOut) : FieldOut :=
  { o with ext := if outOn s n = rb then none else some rb }

/-- A readback differs from the command in force, 1 ms after the last change. -/
def rbDiffers (o : FieldOut) (cyc : Nat) (rb : Bool) : Prop := o.lastChange + cycMs ≤ cyc ∧ rb ≠ o.drive

theorem mismatch_of_agrees {s : State} {n : Nat} {rb : Bool} (h : ¬ rbDiffers (fout s n) s.clk.cyc rb) : mismatch s n rb = 0 := by
  unfold mismatch
  exact if_pos (by by_contra hc; exact h ⟨by omega, fun e => hc (.inr e)⟩)

theorem mismatch_of_differs {s : State} {n : Nat} {rb : Bool} (h : rbDiffers (fout s n) s.clk.cyc rb) :
    mismatch s n rb = if (fout s n).drive then 5 else if (fout s n).par then 4 else 3 := by
  obtain ⟨hlate, hne⟩ := h
  unfold mismatch
  refine (if_neg (by rintro (hc | hc) <;> [omega; exact hne hc])).trans ?_
  cases (fout s n).drive <;> rfl

/-- OUTPUT_DIAG: the readback is taken, and a difference arises as a code. -/
theorem outputDiag_leaves {n : Nat} (hn : n < 16) (rb : Bool) (s : State) :
    besideOuts (outputDiag n rb s) = besideOuts s
    ∧ (∀ m < 16, m ≠ n → fout (outputDiag n rb s) m = fout s m)
    ∧ (¬ rbDiffers (fout s n) s.clk.cyc rb → fout (outputDiag n rb s) n = sensed s n rb (fout s n))
    ∧ (rbDiffers (fout s n) s.clk.cyc rb → fout (outputDiag n rb s) n = showing (mismatch s n rb) (sensed s n rb (fout s n))) := by
  by_cases hd : rbDiffers (fout s n) s.clk.cyc rb
  · have hne : mismatch s n rb ≠ 0 := by
      rw [mismatch_of_differs hd]
      cases (fout s n).drive <;> cases (fout s n).par <;> decide
    have heff : outputDiag n rb s = raiseCode n (mismatch s n rb) (modOut n (sensed s n rb) s) := if_neg hne
    rw [heff]
    refine ⟨(raiseCode_besideOuts _ _ _).trans (modOut_besideOuts _ _ _), fun m hm hmn => ?_, fun h => absurd hd h, fun _ => ?_⟩
    · rw [fout_raiseCode hn hm, if_neg hmn, fout_modOut hn hm, if_neg hmn]
    · rw [fout_raiseCode hn hn, if_pos rfl, fout_modOut hn hn, if_pos rfl]
  · have heff : outputDiag n rb s = modOut n (sensed s n rb) s := if_pos (mismatch_of_agrees hd)
    rw [heff]
    exact ⟨modOut_besideOuts _ _ _, fun m hm hmn => by rw [fout_modOut hn hm, if_neg hmn],
      fun _ => by rw [fout_modOut hn hn, if_pos rfl], fun h => absurd h hd⟩

/-- The highest condition that stands. -/
def standingCode (s : State) (n : Nat) (rb : Bool) : Nat :=
  if standing s n ≠ 0 then standing s n else mismatch s n rb

/-- DIAG_CLEAR: the readback is taken, and the highest condition left shows where the present code outranks it. -/
theorem diagClear_leaves {n : Nat} (hn : n < 16) (rb : Bool) (s : State) :
    besideOuts (diagClear n rb s) = besideOuts s
    ∧ (∀ m < 16, m ≠ n → fout (diagClear n rb s) m = fout s m)
    ∧ fout (diagClear n rb s) n = { sensed s n rb (fout s n) with
        code := if codeRank (fout s n).code < codeRank (standingCode s n rb) then standingCode s n rb else (fout s n).code } := by
  have hcode : (fout (modOut n (sensed s n rb) s) n).code = (fout s n).code := by rw [fout_modOut hn hn, if_pos rfl]; rfl
  have heff : diagClear n rb s = if codeRank (fout s n).code < codeRank (standingCode s n rb)
      then setCode n (standingCode s n rb) (modOut n (sensed s n rb) s) else modOut n (sensed s n rb) s := by
    rw [← hcode]; rfl
  rw [heff]
  split
  · refine ⟨(setCode_besideOuts _ _ _).trans (modOut_besideOuts _ _ _), fun m hm hmn => ?_, ?_⟩
    · rw [fout_setCode hn hm, if_neg hmn, fout_modOut hn hm, if_neg hmn]
    · rw [fout_setCode hn hn, if_pos rfl, fout_modOut hn hn, if_pos rfl]
  · exact ⟨modOut_besideOuts _ _ _, fun m hm hmn => by rw [fout_modOut hn hm, if_neg hmn],
      by rw [fout_modOut hn hn, if_pos rfl]; rfl⟩

/-! #### The monostable (R268) -/

theorem raiseCode_evt3 (n c : Nat) (s : State) : (raiseCode n c s).fio.evt.getLsbD 3 = s.fio.evt.getLsbD 3 := by
  unfold raiseCode
  split
  · by_cases h : (fout s n).code = c
    · unfold setCode; simp only [if_pos h]
    · refine setCode_keeps (g := fun t => t.fio.evt.getLsbD 3) (fun t => ?_) (fun _ _ => rfl) (fun e t => ?_) (fun t => ?_) h
      · simp [fioEvt, setBit]
      · simp only [raiseEntry_fio]
      · simp only [assertEvw_fio]
  · rfl

theorem runout_leaves (g : Fin 2) (s : State) :
    besideOuts (runout g.val s) = besideOuts { s with fio := { s.fio with
      og := s.fio.og.set g.val { s.fio.og[g.val] with enabled := false, hbOut := true } } }
    ∧ (runout g.val s).fio.evt.getLsbD 3 = true
    ∧ ∀ m < 16, fout (runout g.val s) m = if m / 8 = g.val then showing 8 (opened s.clk.cyc (fout s m)) else fout s m := by
  have heff : runout g.val s = forAll (channels g.val) (fun n s => raiseCode n 8 (cmdOff n s)) (fioEvt 3 { s with fio := { s.fio with
      og := s.fio.og.set g.val { s.fio.og[g.val] with enabled := false, hbOut := true } } }) := by
    unfold runout; rw [modOg_fin]
  obtain ⟨hrest, hout⟩ := groupOpens 8 g (fioEvt 3 { s with fio := { s.fio with
      og := s.fio.og.set g.val { s.fio.og[g.val] with enabled := false, hbOut := true } } })
  rw [heff]
  refine ⟨hrest, ?_, hout⟩
  refine (forAll_keeps (g := fun t => t.fio.evt.getLsbD 3) (fun n t => raiseCode_evt3 n 8 (cmdOff n t)) _ _).trans ?_
  simp [fioEvt, setBit]

end Sys2Proof.Proofs

/-! #### O55 assembled -/
namespace Sys2Proof.Proofs

open Sys2Proof Sys2Proof.Machine Sys2Proof.Safety Sys2Proof.Laws

/-! What each row with a condition answers in a powered module. -/

/-- Transitions of an input (R262, R263). -/
theorem acceptedTransition_settles {s : State} (hp : s.clk.power = true) (n : Fin 32) (level : Bool) (held : Nat) :
    exec (.acceptedTransition n level held) s =
      .next (settle (whenever ((s.fio.ins[n.val]).filtered != level) (judgeRun n.val level held) s)) := by
  have hfin : fin_ s n.val = s.fio.ins[n.val] := vget_of_lt _ _ n.isLt
  rw [← hfin]; exact act_powered _ hp

/-- A wire break is judged only of a supplied open input with detection on (R264). -/
theorem wireBreak_settles {s : State} (hp : s.clk.power = true) (n : Fin 32) (ua : Nat) :
    exec (.wireBreak n ua) s = .next (settle (whenever ((regAct 0x90024 s).getLsbD n.val && vget false s.fio.igSup (n.val / 8)
      && !(s.fio.ins[n.val]).filtered) (judgeWb n.val ua) s)) := by
  have hfin : fin_ s n.val = s.fio.ins[n.val] := vget_of_lt _ _ n.isLt
  rw [← hfin]; exact act_powered _ hp

theorem overcurrent_settles {s : State} (hp : s.clk.power = true) (n : Fin 16) : exec (.overcurrent n) s =
    .next (settle (whenever (outOn s n.val) (fun s => raiseCode n.val 1 (offPeriod .overcurrent n.val s)) s)) :=
  act_powered _ hp

theorem thermalShutdown_settles {s : State} (hp : s.clk.power = true) (n : Fin 16) : exec (.thermalShutdown n) s =
    .next (settle (whenever (outOn s n.val) (fun s => raiseCode n.val 2 (offCount n.val (fun o => { o with hot := true }) s)) s)) :=
  act_powered _ hp

theorem groupOverload_settles {s : State} (hp : s.clk.power = true) (g : Fin 2) : exec (.groupOverload g) s =
    .next (settle (whenever ((channels g.val).any (outOn s))
      (fun s => forAll (channels g.val) (fun n s => raiseCode n 7 (offPeriod .groupOvl n s))
        (modOg g.val (fun o => { o with ovl := true }) s)) s)) := act_powered _ hp

/-- The off period of an output is over at this cycle. -/
def offOver (o : FieldOut) (cyc : Nat) : Bool :=
  match o.off with
  | some (_, t) => decide (t + 100 * cycMs ≤ cyc)
  | none => false

theorem offOver_iff (o : FieldOut) (cyc : Nat) : offOver o cyc = true ↔ ∃ x, o.off = some x ∧ x.2 + 100 * cycMs ≤ cyc := by
  unfold offOver
  cases o.off <;> simp

theorem outputRetry_settles {s : State} (hp : s.clk.power = true) (n : Fin 16) : exec (.outputRetry n) s =
    .next (settle (whenever (offOver (fout s n.val) s.clk.cyc)
      (fun s => retry n.val (modOut n.val (fun o => { o with off := none }) s)) s)) := by
  show execOutputRetry n s = _
  unfold execOutputRetry offOver
  exact act_powered _ hp

theorem switchCooled_settles {s : State} (hp : s.clk.power = true) (n : Fin 16) : exec (.switchCooled n) s =
    .next (settle (whenever (fout s n.val).hot
      (fun s => retry n.val (modOut n.val (fun o => { o with hot := false }) s)) s)) := by
  show execSwitchCooled n s = _
  unfold execSwitchCooled
  exact act_powered _ hp

theorem outputDiag_settles {s : State} (hp : s.clk.power = true) (n : Fin 16) (rb : Bool) :
    exec (.outputDiag n rb) s = .next (settle (outputDiag n.val rb s)) := by
  show execOutputDiag n rb s = _
  unfold execOutputDiag
  exact act_powered _ hp

theorem diagClear_settles {s : State} (hp : s.clk.power = true) (n : Fin 16) (rb : Bool) :
    exec (.diagClear n rb) s = .next (settle (diagClear n.val rb s)) := by
  show execDiagClear n rb s = _
  unfold execDiagClear
  exact act_powered _ hp

theorem monostableRunout_settles {s : State} (hp : s.clk.power = true) (g : Fin 2) : exec (.monostableRunout g) s =
    .next (settle (whenever ((s.fio.og[g.val]).enabled && decide (s.frm.hbCyc + 600 * cycUs ≤ s.clk.cyc)) (runout g.val) s)) := by
  rw [← ogrp_fin]
  show execMonostableRunout g s = _
  unfold execMonostableRunout
  exact act_powered _ hp

/-- WB of a judged input changes. -/
theorem judgeWb_changes (n : Fin 32) {ua : Nat} {s : State}
    (h : (ua < 150 ∧ (s.fio.ins[n.val]).wb = false) ∨ (300 ≤ ua ∧ (s.fio.ins[n.val]).wb = true)) :
    besideNotes (judgeWb n.val ua s) = besideNotes { s with fio := { s.fio with
      ins := s.fio.ins.set n.val { s.fio.ins[n.val] with wb := !(s.fio.ins[n.val]).wb }
      evt := if (s.fio.ins[n.val]).wb then s.fio.evt else s.fio.evt ||| 1 } } := by
  have hfin : fin_ s n.val = s.fio.ins[n.val] := vget_of_lt _ _ n.isLt
  rcases h with ⟨hua, hwb⟩ | ⟨hua, hwb⟩
  · rw [judgeWb_breaks hua (by rw [hfin]; exact hwb), setWb_besideNotes n.isLt, hwb]; rfl
  · rw [judgeWb_heals hua (by rw [hfin]; exact hwb), setWb_besideNotes n.isLt, hwb]; rfl

/-- Settles O55: transitions and wire breaks of inputs, supplies, off periods, diagnosis and monostable of outputs (R25, R260,
R262 to R268). A run kept for its 1 µs step, a terminal that follows its switch until a readback row, and what DIAG_CLEAR
reports are the model's choice (log entry 41). -/
theorem fieldPoints : Obligations.FieldPoints := by
  intro s hp idle out grp keeps shows on counts opens ends
  have hon : ∀ n, on n ↔ outOn s n = true := fun n => (outOn_iff s n).symm
  refine ⟨fun n level held => ?_, fun n ua => ?_, fun g => ?_, fun g => ?_, fun n => ?_, fun g => ?_, fun n => ?_,
    fun n rb => ?_, fun g => ?_⟩
  · have hexec := acceptedTransition_settles hp n level held
    refine ⟨fun h => ?_, fun h hlt => ?_, fun h hle => ?_⟩
    · exact hexec.trans (by rw [h, bne_self_eq_false]; rfl)
    · rw [bne_iff_ne.mpr h, whenever_true, judgeRun_short hlt] at hexec; exact hexec
    · rw [bne_iff_ne.mpr h, whenever_true, judgeRun_accepted n.isLt hle] at hexec; exact hexec
  · have hexec := wireBreak_settles hp n ua
    intro i seen breaks heals
    refine ⟨fun hb hh => ?_, fun h => ?_⟩
    · refine hexec.trans (congrArg (fun t => Host.Outcome.next (settle t)) ?_)
      unfold whenever
      split
      · rename_i hseen
        have hseen' : seen := by simpa only [Bool.and_eq_true, Bool.not_eq_true', and_assoc] using hseen
        have hfin : fin_ s n.val = i := vget_of_lt _ _ n.isLt
        exact judgeWb_idle (fun hc => hb ⟨hseen', hc.1, hfin ▸ hc.2⟩) (fun hc => hh ⟨hseen', hc.1, hfin ▸ hc.2⟩)
      · rfl
    · obtain ⟨hcond, hch⟩ : seen ∧ ((ua < 150 ∧ i.wb = false) ∨ (300 ≤ ua ∧ i.wb = true)) :=
        h.elim (fun h => ⟨h.1, .inl h.2⟩) (fun h => ⟨h.1, .inr h.2⟩)
      obtain ⟨hreg, hsup, hopen⟩ := hcond
      obtain ⟨hkeeps, hfio⟩ := besideNotes_leaves (judgeWb_changes n hch)
      refine ⟨_, hexec.trans ?_, hkeeps, ?_, ?_⟩
      · rw [hreg, hsup, hopen]; rfl
      · rw [hfio]
      · rw [hfio]
  · have hlt : g.val < 4 := g.isLt
    refine ⟨fun h => ?_, fun h => ?_, fun h => ?_, fun h => ?_⟩
    · exact act_idle hp (supplyLost_input_idle g h)
    · exact act_idle hp (supplyBack_input_idle g h)
    · exact ⟨_, act_powered _ hp, besideNotes_leaves (supplyLost_input g h)⟩
    · exact ⟨_, act_powered _ hp, besideNotes_leaves (supplyBack_input g h)⟩
  · refine ⟨?_, fun h => act_idle hp (supplyBack_output_idle g h), fun h =>
      ⟨_, act_powered _ hp, besideNotes_leaves (supplyBack_output g h)⟩⟩
    obtain ⟨hrest, hout⟩ := supplyLost_output g s
    obtain ⟨hkeeps, hog, -⟩ := besideOuts_leaves hrest
    refine ⟨_, act_powered _ hp, hkeeps, ?_, fun m hm hg => (hout m hm).trans (if_pos hg),
      fun m hm hg => (hout m hm).trans (if_neg hg)⟩
    exact (ogrp_fin _ g).trans (by simp only [settle_fio, hog, Vector.getElem_set_self])
  · rw [hon]
    have hover := overcurrent_settles hp n
    have hthermal := thermalShutdown_settles hp n
    refine ⟨fun h => ?_, fun h => ?_⟩
    · rw [Bool.not_eq_true] at h
      rw [h, whenever_false] at hover hthermal
      exact ⟨hover, hthermal⟩
    · rw [h, whenever_true] at hover hthermal
      obtain ⟨hrest, hout⟩ := offCode_leaves n.isLt 1 (fun o => { o with off := some (.overcurrent, s.clk.cyc) }) s
      obtain ⟨hrest', hout'⟩ := offCode_leaves n.isLt 2 (fun o => { o with hot := true }) s
      exact ⟨⟨_, hover, (besideOuts_leaves hrest).1, (hout n n.isLt).trans (if_pos rfl),
          fun m hm hne => (hout m hm).trans (if_neg hne)⟩,
        ⟨_, hthermal, (besideOuts_leaves hrest').1, (hout' n n.isLt).trans (if_pos rfl),
          fun m hm hne => (hout' m hm).trans (if_neg hne)⟩⟩
  · intro any
    have hany : any ↔ (channels g.val).any (outOn s) = true := by
      have hlt := g.isLt
      simp only [List.any_eq_true, mem_channels, ← hon, any]
      exact ⟨fun ⟨n, _, hg, ho⟩ => ⟨n, hg, ho⟩, fun ⟨n, hg, ho⟩ => ⟨n, by omega, hg, ho⟩⟩
    have hexec := groupOverload_settles hp g
    rw [hany]
    refine ⟨fun h => ?_, fun h => ?_⟩
    · rw [Bool.not_eq_true] at h
      rw [h, whenever_false] at hexec
      exact hexec
    · rw [h, whenever_true] at hexec
      obtain ⟨hrest, hout⟩ := groupOvl_leaves g (modOg g.val (fun o => { o with ovl := true }) s)
      obtain ⟨hkeeps, hog, -⟩ := besideOuts_leaves hrest
      refine ⟨_, hexec, hkeeps, ?_, fun m hm hg => (hout m hm).trans (if_pos hg),
        fun m hm hg => (hout m hm).trans (if_neg hg)⟩
      refine (congrArg OutGroup.ovl (ogrp_fin _ g) :).trans ?_
      rw [settle_fio, hog, modOg_fin]
      simp only [Vector.getElem_set_self]
  · have hfout : fout s n.val = s.fio.outs[n.val] := vget_of_lt _ _ n.isLt
    have hretry := outputRetry_settles hp n
    have hcooled := switchCooled_settles hp n
    rw [hfout] at hretry hcooled
    refine ⟨fun x hx hle => ?_, fun h => ?_, fun h => ?_, fun h => ?_⟩
    · obtain ⟨hkeeps, hout⟩ := retry_after n.isLt (fun o => { o with off := none }) s
      rw [(offOver_iff _ _).mpr ⟨x, hx, hle⟩, whenever_true] at hretry
      refine ⟨_, hretry, hkeeps, ?_, fun m hm hne => (hout m hm).trans (if_neg hne)⟩
      rw [← hfout]
      exact (hout n n.isLt).trans (if_pos rfl)
    · have hnot : offOver s.fio.outs[n.val] s.clk.cyc = false := by
        rw [← Bool.not_eq_true, offOver_iff]
        rintro ⟨x, hx, hle⟩
        exact absurd (h x hx) (Nat.not_lt.mpr hle)
      rw [hnot, whenever_false] at hretry
      exact hretry
    · obtain ⟨hkeeps, hout⟩ := retry_after n.isLt (fun o => { o with hot := false }) s
      rw [h, whenever_true] at hcooled
      refine ⟨_, hcooled, hkeeps, ?_, fun m hm hne => (hout m hm).trans (if_neg hne)⟩
      rw [← hfout]
      exact (hout n n.isLt).trans (if_pos rfl)
    · rw [h, whenever_false] at hcooled
      exact hcooled
  · have hfout : fout s n.val = s.fio.outs[n.val] := vget_of_lt _ _ n.isLt
    obtain ⟨hdiag, hdiagOther, hagrees, hdiffers⟩ := outputDiag_leaves n.isLt rb s
    obtain ⟨hclear, hclearOther, hclearOut⟩ := diagClear_leaves n.isLt rb s
    rw [hfout] at hagrees hclearOut
    have hdiffers : rbDiffers (fout s n.val) s.clk.cyc rb → _ := fun h => (hdiffers h).trans (by rw [mismatch_of_differs h])
    rw [hfout] at hdiffers
    unfold standingCode at hclearOut
    refine ⟨fun h => ?_, fun h => ?_, fun h => ?_, fun h => ?_⟩
    · exact ⟨_, outputDiag_settles hp n rb, (besideOuts_leaves hdiag).1, (fout_settle _ _).trans (hagrees h),
        fun m hm hne => (fout_settle _ _).trans (hdiagOther m hm hne)⟩
    · exact ⟨_, outputDiag_settles hp n rb, (besideOuts_leaves hdiag).1, (fout_settle _ _).trans (hdiffers h),
        fun m hm hne => (fout_settle _ _).trans (hdiagOther m hm hne)⟩
    · refine ⟨_, diagClear_settles hp n rb, (besideOuts_leaves hclear).1, (fout_settle _ _).trans (hclearOut.trans ?_),
        fun m hm hne => (fout_settle _ _).trans (hclearOther m hm hne)⟩
      rw [if_neg (Nat.not_lt.mpr h)]; rfl
    · refine ⟨_, diagClear_settles hp n rb, (besideOuts_leaves hclear).1, (fout_settle _ _).trans (hclearOut.trans ?_),
        fun m hm hne => (fout_settle _ _).trans (hclearOther m hm hne)⟩
      rw [if_pos h]; rfl
  · have hexec := monostableRunout_settles hp g
    intro o due
    have hdue : due ↔ (o.enabled && decide (s.frm.hbCyc + 600 * cycUs ≤ s.clk.cyc)) = true := by simp [due]
    rw [hdue]
    refine ⟨fun h => ?_, fun h => ?_⟩
    · rw [Bool.not_eq_true] at h
      rw [h, whenever_false] at hexec
      exact hexec
    · rw [h, whenever_true] at hexec
      obtain ⟨hrest, hevt, hout⟩ := runout_leaves g s
      obtain ⟨hkeeps, hog, -⟩ := besideOuts_leaves hrest
      refine ⟨_, hexec, hkeeps, (ogrp_fin _ g).trans ?_, hevt, fun m hm hg => (hout m hm).trans (if_pos hg),
        fun m hm hg => (hout m hm).trans (if_neg hg)⟩
      simp only [settle_fio, hog, Vector.getElem_set_self]
      rfl

end Sys2Proof.Proofs

/-! ### O38: READ and WRITE (R15 to R17, R177, R178, R312, R314, R322, R365, R366) -/
namespace Sys2Proof.Proofs

open Sys2Proof Sys2Proof.Machine Sys2Proof.Safety Sys2Proof.Laws

/-! #### A request judged -/

/-- A request whose answer follows its command (R347): it is owed. -/
theorem session_later {sid : Fin 4} {op : State → Done} {ss : Session} {s : State} (h : heard sid ss s)
    (hl : (op s).res = .later) : act (sessionDo sid.val op) s = .next (settle { (op s).state with
      hl := { (op s).state.hl with owed := some ⟨ss.ep, sid, nextSeq ss, (op s).len, true⟩ } }) := by
  obtain ⟨h1, h2, h3, h4⟩ := h
  have hsid : Fin.ofNat 4 sid.val = sid := Fin.ext (Nat.mod_eq_of_lt sid.isLt)
  unfold act sessionDo finishDone finishRequest
  simp only [h1, h2, h3, h4, if_true, Bool.false_eq_true, if_false, hl, hsid]

/-- A request judged, by what it does. -/
theorem session_done {sid : Fin 4} {op : State → Done} {ss : Session} {s : State} (h : heard sid ss s) {d : Done}
    (hd : op s = d) (hres : d.res ≠ .later) :
    act (sessionDo sid.val op) s = .next (answered sid ss d.res d.len d.payload d.state) := by
  subst hd; exact session_ok h hres

/-- READ and WRITE as the session executes them. -/
def readDo (sid : Fin 4) (sp : Fin 2) (a : Word) (n : Nat) (s : State) : Done :=
  if 1024 < n then stopped .badLen s else readOp sid.val sp.val a.toNat n s
def writeDo (sid : Fin 4) (sp : Fin 2) (a : Word) (bs : List Byte) (s : State) : Done :=
  if 1024 < bs.length then stopped .badLen s else writeOp sid.val sp.val a.toNat bs s

theorem read_answers {sid : Fin 4} {ss : Session} {s : State} (h : heard sid ss s) (sp : Fin 2) (a : Word) {n : Nat}
    (hn : n ≤ 1024) {d : Done} (hd : readOp sid.val sp.val a.toNat n s = d) (hres : d.res ≠ .later) :
    exec (.read sid sp a n) s = .next (answered sid ss d.res d.len d.payload d.state) :=
  session_done h ((if_neg (Nat.not_lt.mpr hn)).trans hd) hres

theorem write_answers {sid : Fin 4} {ss : Session} {s : State} (h : heard sid ss s) (sp : Fin 2) (a : Word) {bs : List Byte}
    (hn : bs.length ≤ 1024) {d : Done} (hd : writeOp sid.val sp.val a.toNat bs s = d) (hres : d.res ≠ .later) :
    exec (.write sid sp a bs) s = .next (answered sid ss d.res d.len d.payload d.state) :=
  session_done h ((if_neg (Nat.not_lt.mpr hn)).trans hd) hres

theorem write_owed {sid : Fin 4} {ss : Session} {s : State} (h : heard sid ss s) (sp : Fin 2) (a : Word) {bs : List Byte}
    (hn : bs.length ≤ 1024) {d : Done} (hd : writeOp sid.val sp.val a.toNat bs s = d) (hres : d.res = .later) :
    exec (.write sid sp a bs) s = .next (settle { d.state with
      hl := { d.state.hl with owed := some ⟨ss.ep, sid, nextSeq ss, d.len, true⟩ } }) := by
  have hdo : writeDo sid sp a bs s = d := (if_neg (Nat.not_lt.mpr hn)).trans hd
  rw [← hdo] at hres ⊢
  exact session_later h hres

/-- More than 1,024 bytes. -/
theorem request_tooLong {sid : Fin 4} {ss : Session} {s : State} (h : heard sid ss s) (sp : Fin 2) (a : Word) {n : Nat}
    {bs : List Byte} (hn : 1024 < n) (hbs : 1024 < bs.length) :
    exec (.read sid sp a n) s = .next (turnedAway sid ss .badLen s)
    ∧ exec (.write sid sp a bs) s = .next (turnedAway sid ss .badLen s) :=
  have hres : (stopped .badLen s).res ≠ .later :=
    show Res.badLen ≠ .later by decide
  ⟨session_done h (if_pos hn) hres, session_done h (if_pos hbs) hres⟩

/-! #### Shapes (R15 to R17, R365) -/

theorem regShape_badLen {a n : Nat} (h : a % 4 ≠ 0 ∨ n % 4 ≠ 0 ∨ n < 4 ∨ 256 < n) : regShape a n = .badLen := if_pos h

theorem regShape_badSpace {a n : Nat} (hn : a % 4 = 0 ∧ n % 4 = 0 ∧ 4 ≤ n ∧ n ≤ 256)
    (h : 0x110000 ≤ a ∨ a / 0x10000 ≠ (a + n - 1) / 0x10000) : regShape a n = .badSpace :=
  (if_neg (by omega)).trans (if_pos h)

theorem regShape_ok {a n : Nat} (hn : a % 4 = 0 ∧ n % 4 = 0 ∧ 4 ≤ n ∧ n ≤ 256) (ha : a < 0x110000)
    (h : a / 0x10000 = (a + n - 1) / 0x10000) : regShape a n = .ok :=
  (if_neg (by omega)).trans (if_neg (by omega))

theorem readOp_reg_stopped {sid a n : Nat} {r : Res} {s : State} (h : regShape a n = r) (hr : r ≠ .ok) :
    readOp sid 0 a n s = stopped r s := by
  unfold readOp
  rw [if_pos rfl]
  split
  · exact absurd (h.symm.trans ‹_›) hr
  · rw [h]

theorem writeOp_reg_stopped {sid a : Nat} {bs : List Byte} {r : Res} {s : State} (h : regShape a bs.length = r)
    (hr : r ≠ .ok) : writeOp sid 0 a bs s = stopped r s := by
  unfold writeOp
  rw [if_pos rfl]
  split
  · exact absurd (h.symm.trans ‹_›) hr
  · rw [h]

theorem aligned_iff (x : Win) : x.aligned = true ↔ x = .shared ∨ x = .prog := by
  cases x <;> simp [Win.aligned]

theorem memShape_outside {a n : Nat} (h : winOf a = none) : memShape a n = .badSpace := by
  unfold memShape; rw [h]

theorem memShape_within {a n : Nat} {x : Win} {o : Nat} (h : winOf a = some (x, o)) : memShape a n =
    if (x = .shared ∨ x = .prog) ∧ (a % 4 ≠ 0 ∨ n % 4 ≠ 0) then .badLen else if x.size < o + n then .badSpace else .ok := by
  unfold memShape
  simp only [h, aligned_iff]

theorem memShape_ok {a n : Nat} {x : Win} {o : Nat} (h : winOf a = some (x, o)) (hsize : o + n ≤ x.size)
    (hal : x = .shared ∨ x = .prog → a % 4 = 0 ∧ n % 4 = 0) : memShape a n = .ok := by
  rw [memShape_within h, if_neg (fun hc => by have := hal hc.1; omega), if_neg (by omega)]

theorem readOp_mem_stopped {sid a n : Nat} {r : Res} {s : State} (h : memShape a n = r) (hr : r ≠ .ok) :
    readOp sid 1 a n s = stopped r s := by
  unfold readOp
  rw [if_neg (by decide), h]
  cases r with
  | ok => exact absurd rfl hr
  | _ => rfl

theorem writeOp_mem_stopped {sid a : Nat} {bs : List Byte} {r : Res} {s : State} (h : memShape a bs.length = r)
    (hr : r ≠ .ok) : writeOp sid 1 a bs s = stopped r s := by
  unfold writeOp
  rw [if_neg (by decide), h]
  cases r with
  | ok => exact absurd rfl hr
  | _ => rfl

/-! #### Registers (R366) -/

theorem leNat_leBytes_word (x : Word) : BitVec.ofNat 32 (leNat (wordBytes x)) = x := by
  apply BitVec.eq_of_toNat_eq
  have hx := x.isLt
  simp only [wordBytes, leBytes, leNat, BitVec.toNat_ofNat]
  omega

/-- The words of the bytes of words. -/
theorem bytesWords_wordsBytes (xs : List Word) : bytesWords xs.length (wordsBytes xs) = xs := by
  induction xs with
  | nil => rfl
  | cons x xs ih =>
    have hcons : wordsBytes (x :: xs) = wordBytes x ++ wordsBytes xs := List.flatMap_cons
    rw [List.length_cons, bytesWords, hcons, List.take_left' (wordBytes_length x), List.drop_left' (wordBytes_length x), ih,
      leNat_leBytes_word]

theorem wordsBytes_length (xs : List Word) : (wordsBytes xs).length = 4 * xs.length := by
  induction xs with
  | nil => rfl
  | cons x xs ih =>
    have hcons : wordsBytes (x :: xs) = wordBytes x ++ wordsBytes xs := List.flatMap_cons
    rw [hcons, List.length_append, wordBytes_length, ih, List.length_cons]
    omega

/-- A READ of the UPD block by the holder of the update lock counts as a request of it (R387). -/
theorem touchBlock_eq (sid : Fin 4) (a : Nat) (s : State) : touchBlock sid.val a s =
    if a / 0x10000 = 15 ∧ s.upd.holder = some sid then { s with upd := { s.upd with lastReq := s.clk.cyc } } else s := by
  have hholder : s.upd.holder.map (·.val) = some sid.val ↔ s.upd.holder = some sid := by
    cases s.upd.holder <;> simp [Fin.ext_iff]
  unfold touchBlock updTouch
  by_cases hb : a / 0x10000 = 15
  · by_cases hh : s.upd.holder = some sid
    · rw [if_pos hb, if_pos (hholder.mpr hh), if_pos ⟨hb, hh⟩]; rfl
    · rw [if_pos hb, if_neg (fun h => hh (hholder.mp h)), if_neg (fun h => hh h.2)]
  · rw [if_neg hb, if_neg (fun h => hb h.1)]

theorem readOp_reg {sid : Fin 4} {a n : Nat} {s : State} (h : regShape a (4 * n) = .ok) :
    readOp sid.val 0 a (4 * n) s = ⟨.ok, 4 * n, (readWords sid.val n a (touchBlock sid.val a s)).1,
      (readWords sid.val n a (touchBlock sid.val a s)).2⟩ := by
  unfold readOp
  rw [if_pos rfl, h, Nat.mul_div_cancel_left n (by decide)]

theorem writeOp_reg {sid : Fin 4} {a : Nat} {xs : List Word} {s : State} (h : regShape a (4 * xs.length) = .ok) :
    writeOp sid.val 0 a (wordsBytes xs) s = writeWords sid.val xs a 0 false s := by
  unfold writeOp
  rw [if_pos rfl, wordsBytes_length, h, Nat.mul_div_cancel_left _ (by decide), bytesWords_wordsBytes]

theorem writeWords_cons {sid a d : Nat} {o : Bool} {x : Word} {xs : List Word} {u v : State} {r : Res}
    (h : regWrite sid a x u = (r, v)) : writeWords sid (x :: xs) a d o u =
      if r = .ok then writeWords sid xs (a + 4) (d + 4) o v
      else if r = .later then writeWords sid xs (a + 4) (d + 4) true v else ⟨r, d, [], v⟩ := by
  rw [writeWords, h]
  cases r <;> rfl

/-- A stopped request carries no payload, whatever word it stopped at. -/
theorem writeWords_payload (sid : Nat) (xs : List Word) (a d : Nat) (o : Bool) (u : State) :
    (writeWords sid xs a d o u).payload = [] := by
  induction xs generalizing a d o u with
  | nil => rfl
  | cons x xs ih =>
    rw [writeWords_cons (r := (regWrite sid a x u).1) (v := (regWrite sid a x u).2) rfl]
    split
    · exact ih ..
    · split
      · exact ih ..
      · rfl

/-! #### Windows (R16, R17) -/

theorem readOp_mem {sid a n : Nat} {x : Win} {o : Nat} {s : State} (h : winOf a = some (x, o)) (hs : memShape a n = .ok) :
    readOp sid 1 a n s = ⟨.ok, n, winBytes s x o n, if x = .nvs then nvDecode o n s else s⟩ := by
  unfold readOp
  rw [if_neg (by decide), hs, h]
  rfl

theorem winBytes_length (s : State) (x : Win) (o n : Nat) : (winBytes s x o n).length = n := by
  cases x <;> simp [winBytes, sgets_length]

/-- A byte of a window as a READ shows it. -/
def winByte (s : State) : Win → Nat → Byte
  | .shared, p => sget zeroByte s.mem.shared p
  | .prog, p => sget zeroByte s.ln.prog p
  | .nvs, p => nvByte s p
  | .nor, p => norRead s p

theorem winBytes_getElem? (s : State) (x : Win) (o : Nat) {n i : Nat} (hi : i < n) :
    (winBytes s x o n)[i]? = some (winByte s x (o + i)) := by
  rw [List.getElem?_eq_getElem (by rw [winBytes_length]; exact hi)]
  cases x <;> simp [winBytes, winByte, sgets_getElem, nvByte]

/-- WRITE of a window by its kind and the session's role. -/
theorem writeOp_mem {sid a : Nat} {bs : List Byte} {x : Win} {o : Nat} {s : State} (h : winOf a = some (x, o))
    (hs : memShape a bs.length = .ok) : writeOp sid 1 a bs s =
      if s.upd.recovery ∨ x = .nor then stopped .denied s
      else if x = .nvs then nvsWrite sid o bs s
      else if sesRole sid s < roleENGINEER then stopped .denied s
      else if x = .shared then sharedWrite o bs s
      else progWrite o bs s := by
  unfold writeOp
  rw [if_neg (by decide), hs, h]

/-! #### The parameter store read and written (R312 to R314, R322) -/

/-- The state without what a decoding of the store reports: recorder, rate rows, the counts and flags of errors. -/
def besideDecode (s : State) : State :=
  { s with evr := State.evr0, rl := [], nvs := { s.nvs with ceCnt := 0, evt := 0, ueAddr := 0 } }

theorem raiseEntry_besideDecode (e : Entry) (s : State) : besideDecode (raiseEntry e s) = besideDecode s := by
  obtain ⟨v, h⟩ := raiseEntry_only e s; rw [h]; rfl

theorem nvReport_besideDecode (ce unc : List Nat) (s : State) : besideDecode (nvReport ce unc s) = besideDecode s := by
  unfold nvReport
  refine (foldl_keeps (g := besideDecode) (fun s g => ?_) unc _).trans
    (foldl_keeps (g := besideDecode) (fun s g => ?_) ce s)
  · exact (raiseEntry_besideDecode _ _).trans rfl
  · exact (rlNote_keeps (g := besideDecode) (fun _ _ => rfl) (fun _ _ => raiseEntry_besideDecode _ _) _ _ _).trans rfl

theorem nvDecode_besideDecode (a n : Nat) (s : State) : besideDecode (nvDecode a n s) = besideDecode s :=
  nvReport_besideDecode _ _ s

theorem nvMerge_besideDecode (a n : Nat) (s : State) : besideDecode (nvMerge a n s) = besideDecode s := by
  unfold nvMerge
  dsimp only
  split <;> split <;> simp only [nvDecode_besideDecode]

/-- No group of the range with an error: nothing to report. -/
theorem nvDecode_clean {o n : Nat} {s : State} (h : ∀ g ∈ s.nvs.ceGroups ++ s.nvs.unc, g + 8 ≤ o ∨ o + n ≤ g) :
    nvDecode o n s = s := by
  have hnone : ∀ gs, (∀ g ∈ gs, g + 8 ≤ o ∨ o + n ≤ g) → groupsIn o n gs = [] := by
    intro gs hgs
    refine List.filter_eq_nil_iff.mpr fun g hg => ?_
    have := hgs g hg
    simp only [decide_eq_true_eq]
    omega
  unfold nvDecode
  rw [hnone s.nvs.ceGroups fun g hg => h g (List.mem_append_left _ hg),
    hnone s.nvs.unc fun g hg => h g (List.mem_append_right _ hg)]
  rfl

/-- The first `n` bytes of a list written, and what each address then reads. -/
theorem sget_put_take {m : List (Nat × Byte)} (hm : swf zeroByte m = true) (o n : Nat) (bs : List Byte) (hn : n ≤ bs.length)
    (b : Nat) : sget zeroByte (sputs zeroByte o (bs.take n) m) b
      = if o ≤ b ∧ b < o + n then bs.getD (b - o) 0 else sget zeroByte m b := by
  have hlen : (bs.take n).length = n := by rw [List.length_take]; omega
  rw [sget_sputs b _ o hm]
  by_cases h : o ≤ b ∧ b < o + n
  · rw [dif_pos (by omega), if_pos h, List.getElem_take, List.getD_eq_getElem _ _ (by omega)]
  · rw [dif_neg (by omega), if_neg h]

theorem sget_put {m : List (Nat × Byte)} (hm : swf zeroByte m = true) (o : Nat) (bs : List Byte) (b : Nat) :
    sget zeroByte (sputs zeroByte o bs m) b
      = if o ≤ b ∧ b < o + bs.length then bs.getD (b - o) 0 else sget zeroByte m b := by
  have h := sget_put_take hm o bs.length bs (le_refl _) b
  rwa [List.take_length] at h

theorem regionRole_eq (o : Nat) :
    regionRole o = if 0x1E8000 ≤ o then 2 else if 192 * 64 ≤ o ∧ o < 0x4000 then 3 else 4 := rfl

theorem sesRole_of_session {sid : Fin 4} {ss : Session} {s : State} (h : session sid.val s = some ss) :
    sesRole sid.val s = ss.role.val := by
  unfold sesRole; rw [h]

/-- A write to the store that is refused or held off (R312, R322, R324). -/
theorem nvsWrite_role {sid o : Nat} {bs : List Byte} {s : State} (h : sesRole sid s < regionRole o) :
    nvsWrite sid o bs s = stopped .denied s := if_pos h

theorem nvsWrite_busy {sid o : Nat} {bs : List Byte} {s : State} (h : regionRole o ≤ sesRole sid s) (hf : s.sys.flush ≠ .none) :
    nvsWrite sid o bs s = stopped .busy s := (if_neg (Nat.not_lt.mpr h)).trans (if_pos hf)

theorem nvsWrite_locked {sid o : Nat} {bs : List Byte} {s : State} (h : regionRole o ≤ sesRole sid s) (hf : s.sys.flush = .none)
    (hl : o < 0x4000 ∧ s.nvs.locked.getLsbD (o / 64) = true) : nvsWrite sid o bs s = stopped .denied s :=
  (if_neg (Nat.not_lt.mpr h)).trans ((if_neg (not_not.mpr hf)).trans (if_pos hl))

/-- The state after a write to the store, up to the end of its page (R314). -/
def nvsAfter (sid o : Nat) (bs : List Byte) (s : State) : State :=
  let n := min bs.length (64 - o % 64)
  modSession sid (fun ss => { ss with lastWrCount := n, lastWrPage := o / 64 }) (nvPut o (bs.take n) (nvMerge o n s))

theorem nvsWrite_stores {sid o : Nat} {bs : List Byte} {s : State} (h : regionRole o ≤ sesRole sid s) (hf : s.sys.flush = .none)
    (hl : o < 0x4000 → s.nvs.locked.getLsbD (o / 64) = false) :
    nvsWrite sid o bs s = ⟨.ok, min bs.length (64 - o % 64), [], nvsAfter sid o bs s⟩ :=
  (if_neg (Nat.not_lt.mpr h)).trans ((if_neg (not_not.mpr hf)).trans
    (if_neg fun hc => by rw [hl hc.1] at hc; exact absurd hc.2 (by decide)))

/-- It stores exactly its bytes. -/
theorem nvsAfter_stores {sid o : Nat} {bs : List Byte} {s : State} (hm : swf zeroByte s.nvs.mem = true) :
    (∀ b, nvByte (nvsAfter sid o bs s) b
      = if o ≤ b ∧ b < o + min bs.length (64 - o % 64) then bs.getD (b - o) 0 else nvByte s b)
    ∧ (nvsAfter sid o bs s).lanes = s.lanes ∧ (nvsAfter sid o bs s).frm = s.frm ∧ (nvsAfter sid o bs s).mem = s.mem
    ∧ (nvsAfter sid o bs s).key = s.key := by
  unfold nvsAfter
  have hn : min bs.length (64 - o % 64) ≤ bs.length := Nat.min_le_left _ _
  generalize min bs.length (64 - o % 64) = n at hn ⊢
  have hkept := nvMerge_besideDecode o n s
  have hmem : (nvMerge o n s).nvs.mem = s.nvs.mem := (congrArg (fun t => t.nvs.mem) hkept :)
  refine ⟨fun b => ?_, (congrArg State.lanes hkept :), (congrArg State.frm hkept :), (congrArg State.mem hkept :),
    (congrArg State.key hkept :)⟩
  have hput := sget_put_take hm o n bs hn b
  rw [← hmem] at hput
  exact hput.trans (by rw [hmem]; rfl)

/-! #### Lane program memory written (R16, R17, R163) -/

/-- A range touches an active half just when one of its bytes lies in one. -/
theorem touchesActive_iff (s : State) (o len : Nat) : touchesActive s o len = true
    ↔ ∃ i < len, decide (0x20000 ≤ (o + i) % 0x40000) = s.ln.half.getLsbD ((o + i) / 0x40000) := by
  have hhalf : ∀ p, inActiveHalf s (p / 0x20000 * 0x20000) = true
      ↔ decide (0x20000 ≤ p % 0x40000) = s.ln.half.getLsbD (p / 0x40000) := by
    intro p
    have hd : decide (p / 0x20000 * 0x20000 % 0x40000 ≥ 0x20000) = decide (0x20000 ≤ p % 0x40000) :=
      decide_eq_decide.mpr (by omega)
    have hl : p / 0x20000 * 0x20000 / 0x40000 = p / 0x40000 := by omega
    rw [inActiveHalf, beq_iff_eq, hd, hl]
    rfl
  unfold touchesActive
  simp only [Bool.and_eq_true, bne_iff_ne, ne_eq, List.any_eq_true, List.mem_range, decide_eq_true_eq]
  constructor
  · rintro ⟨hlen, i, hi, hend, hact⟩
    refine ⟨(o / 0x20000 + i) * 0x20000 - o, by omega, ?_⟩
    rcases Nat.eq_zero_or_pos i with rfl | hpos
    · have h0 : o + ((o / 0x20000 + 0) * 0x20000 - o) = o := by omega
      rw [h0, ← hhalf]
      exact hact
    · have hb : o + ((o / 0x20000 + i) * 0x20000 - o) = (o / 0x20000 + i) * 0x20000 := by omega
      rw [hb, ← hhalf, Nat.mul_div_cancel _ (by decide)]
      exact hact
  · rintro ⟨i, hi, hact⟩
    refine ⟨by omega, (o + i) / 0x20000 - o / 0x20000, by omega, by omega, ?_⟩
    have hb : o / 0x20000 + ((o + i) / 0x20000 - o / 0x20000) = (o + i) / 0x20000 := by omega
    rw [hb, hhalf]
    exact hact

theorem progWrite_active {o : Nat} {bs : List Byte} {s : State} (h : touchesActive s o bs.length = true) :
    progWrite o bs s = stopped .denied s := if_pos h

theorem progWrite_busy {o : Nat} {bs : List Byte} {s : State} (h : ¬ touchesActive s o bs.length = true)
    (hst : s.plr.state = .placing ∨ s.plr.state = .armed) : progWrite o bs s = stopped .busy s :=
  (if_neg h).trans (if_pos hst)

theorem progWrite_stores {o : Nat} {bs : List Byte} {s : State} (h : ¬ touchesActive s o bs.length = true)
    (hp : s.plr.state ≠ .placing) (ha : s.plr.state ≠ .armed) :
    progWrite o bs s = ⟨.ok, bs.length, [], if bs = [] then s else maquettePut o bs s⟩ :=
  (if_neg h).trans (if_neg fun hc => hc.elim hp ha)

theorem sharedWrite_outside {o : Nat} {bs : List Byte} {s : State} (h : inTransfer s o bs.length = false) :
    sharedWrite o bs s = stopped .denied s := if_neg (by simp [h])

theorem sharedWrite_stores {o : Nat} {bs : List Byte} {s : State} (h : inTransfer s o bs.length = true) :
    sharedWrite o bs s = ⟨.ok, bs.length, [], shPut o bs s⟩ := if_pos h

/-- What a write to lane program memory leaves. -/
theorem progStored {o : Nat} {bs : List Byte} {s : State} :
    let t := if bs = [] then s else maquettePut o bs s
    (swf zeroByte s.ln.prog = true → ∀ b, sget zeroByte t.ln.prog b
      = if o ≤ b ∧ b < o + bs.length then bs.getD (b - o) 0 else sget zeroByte s.ln.prog b)
    ∧ t.lanes = s.lanes ∧ t.frm = s.frm ∧ t.nvs = s.nvs ∧ t.mem = s.mem := by
  intro t
  by_cases hbs : bs = []
  · have ht : t = s := if_pos hbs
    rw [ht, hbs]
    exact ⟨fun _ b => by rw [if_neg (by simp)], rfl, rfl, rfl, rfl⟩
  · have ht : t = maquettePut o bs s := if_neg hbs
    rw [ht]
    unfold maquettePut
    dsimp only
    split <;> exact ⟨fun hm b => sget_put hm o bs b, rfl, rfl, rfl, rfl⟩

/-- Settles O38: READ and WRITE by the shapes of R15 to R17 and R365, registers word by word (R366), the windows by R16, R163,
R177, R178, R312, R314 and R322. The order in which a request is judged is the model's choice (log entries 23, 27 and 62). -/
theorem readsAndWrites : Obligations.ReadsAndWrites := by
  intro sid ss s h
  have hsession := h.2.1
  have hok : Res.ok ≠ .later := by decide
  refine ⟨fun sp a n bs hn hbs => request_tooLong h sp a hn hbs, fun a bs hlen r hr => ?_, fun a bs hlen r hr => ?_,
    fun a n xs hal hlt hpos hmax hxs hblock => ?_, fun a n u => ⟨rfl, rfl⟩,
    fun a d o x xs u v r => ⟨rfl, writeWords_cons⟩, fun a x o n hwin hn hsize hal => ?_, fun o n => nvDecode_clean,
    fun a x o bs hwin hlen hsize hal => ?_⟩
  · have hshape : regShape a.toNat bs.length = r ∧ r ≠ .ok ∧ r ≠ .later := by
      rcases hr with ⟨hbad, rfl⟩ | ⟨h1, h2, h3, h4, hbad, rfl⟩
      · exact ⟨regShape_badLen hbad, by decide, by decide⟩
      · exact ⟨regShape_badSpace ⟨h1, h2, h3, h4⟩ hbad, by decide, by decide⟩
    obtain ⟨hshape, hstop, hlater⟩ := hshape
    exact ⟨read_answers h 0 a hlen (readOp_reg_stopped hshape hstop) hlater,
      write_answers h 0 a hlen (writeOp_reg_stopped hshape hstop) hlater⟩
  · have hshape : memShape a.toNat bs.length = r ∧ r ≠ .ok ∧ r ≠ .later := by
      rcases hr with ⟨hout, rfl⟩ | ⟨x, o, hwin, hbad, rfl⟩ | ⟨x, o, hwin, hgood, hpast, rfl⟩
      · exact ⟨memShape_outside hout, by decide, by decide⟩
      · exact ⟨(memShape_within hwin).trans (if_pos hbad), by decide, by decide⟩
      · exact ⟨(memShape_within hwin).trans ((if_neg hgood).trans (if_pos hpast)), by decide, by decide⟩
    obtain ⟨hshape, hstop, hlater⟩ := hshape
    exact ⟨read_answers h 1 a hlen (readOp_mem_stopped hshape hstop) hlater,
      write_answers h 1 a hlen (writeOp_mem_stopped hshape hstop) hlater⟩
  · have hshape : regShape a.toNat (4 * n) = .ok := regShape_ok (by omega) hlt hblock
    subst hxs
    have hbytes : (wordsBytes xs).length ≤ 1024 := by rw [wordsBytes_length]; omega
    have hread := read_answers h 0 a (by omega) (readOp_reg hshape) hok
    rw [touchBlock_eq] at hread
    refine ⟨hread, fun hres => ?_, fun hres => write_owed h 0 a hbytes (writeOp_reg hshape) hres⟩
    have hwrite := write_answers h 0 a hbytes (writeOp_reg hshape) hres
    rw [writeWords_payload] at hwrite
    exact hwrite
  · have hshape := memShape_ok hwin hsize hal
    have hread := read_answers h 1 a hn (readOp_mem hwin hshape) hok
    refine ⟨winBytes s x o n, hread, winBytes_length s x o n, fun i hi => ?_⟩
    rw [winBytes_getElem? s x o hi]
    cases x <;> rfl
  · have hshape := memShape_ok hwin hsize hal
    have hop := writeOp_mem (sid := sid.val) (s := s) hwin hshape
    have hrole := sesRole_of_session hsession
    have hno : ∀ r, r ≠ .later → writeOp sid.val 1 a.toNat bs s = stopped r s →
        exec (.write sid 1 a bs) s = .next (turnedAway sid ss r s) := fun r hr hw => write_answers h 1 a hlen hw hr
    have htakes : ∀ n t, writeOp sid.val 1 a.toNat bs s = ⟨.ok, n, [], t⟩ →
        exec (.write sid 1 a bs) s = .next (answered sid ss .ok n [] t) := fun n t hw =>
      write_answers h 1 a hlen hw hok
    intro no busy takes n lowest active
    have hactive : touchesActive s o bs.length = true ↔ active := touchesActive_iff s o bs.length
    refine ⟨fun hc => hno _ (by decide) (hop.trans (if_pos hc)), fun hrec hx => ?_, fun hrec hx hlow => ?_,
      fun hrec hx hrole2 => ?_, fun hrec hx hrole2 => ?_⟩
    · subst hx
      rw [if_neg (by simp [hrec]), if_pos rfl] at hop
      have hlowest : regionRole o = lowest := regionRole_eq o
      rw [← hlowest, ← hrole]
      exact ⟨fun hl => hno _ (by decide) (hop.trans (nvsWrite_role hl)),
        fun hl hf => hno _ (by decide) (hop.trans (nvsWrite_busy hl hf)),
        fun hl hf ho hpage => hno _ (by decide) (hop.trans (nvsWrite_locked hl hf ⟨ho, hpage⟩)),
        fun hl hf hpage hm => ⟨_, htakes _ _ (hop.trans (nvsWrite_stores hl hf hpage)), nvsAfter_stores hm⟩⟩
    · have hx' : x ≠ .nor ∧ x ≠ .nvs := by rcases hx with rfl | rfl <;> exact ⟨by decide, by decide⟩
      rw [if_neg (by simp [hrec, hx'.1]), if_neg hx'.2, if_pos (by rw [hrole]; exact hlow)] at hop
      exact hno _ (by decide) hop
    · subst hx
      rw [if_neg (by simp [hrec]), if_neg (by decide), if_neg (by rw [hrole]; exact Nat.not_lt.mpr hrole2), if_pos rfl] at hop
      exact ⟨fun hout => hno _ (by decide) (hop.trans (sharedWrite_outside hout)),
        fun hin => ⟨_, htakes _ _ (hop.trans (sharedWrite_stores hin)), fun hm b => sget_put hm o bs b, rfl, rfl, rfl, rfl⟩⟩
    · subst hx
      rw [if_neg (by simp [hrec]), if_neg (by decide), if_neg (by rw [hrole]; exact Nat.not_lt.mpr hrole2),
        if_neg (by decide)] at hop
      rw [← hactive]
      exact ⟨fun hact => hno _ (by decide) (hop.trans (progWrite_active hact)),
        fun hact hst => hno _ (by decide) (hop.trans (progWrite_busy hact hst)),
        fun hact hp ha => ⟨_, htakes _ _ (hop.trans (progWrite_stores hact hp ha)), progStored⟩⟩

end Sys2Proof.Proofs

/-! ### MODULE doubt, first and later, and STATUS (R22, R25, R28, R372) -/
namespace Sys2Proof.Proofs

open Sys2Proof Sys2Proof.Machine Sys2Proof.Safety Sys2Proof.Laws

/-- SYS after a cause in doubt or in plinth mode: its bit is set. -/
def withCause (bit : Nat) (s : State) : State := { s with sys := { s.sys with cause := setBit s.sys.cause bit } }

/-- The causes that only add their bit: in plinth mode, in a later cycle than t_d, or behind a lower cause number. -/
def addsOnly (bit : Nat) (s : State) : Prop :=
  inPlinth s = true ∨ s.sys.latched = true ∧ (s.sys.doubtCyc ≠ s.clk.cyc ∨ s.sys.firstBit ≤ bit)

theorem moduleDoubt_addsOnly {bit : Nat} (code : BitVec 16) (src : BitVec 8) (a b c : Word) {s : State} (h : addsOnly bit s) :
    ∃ v, moduleDoubt bit code src a b c s = { withCause bit s with evr := v } := by
  have hlater : s.sys.latched = true → (s.sys.doubtCyc ≠ s.clk.cyc ∨ s.sys.firstBit ≤ bit) →
      laterDoubt bit code s = withCause bit s := by
    intro _ hfirst
    have hno : ¬ (s.clk.cyc = s.sys.doubtCyc ∧ bit < s.sys.firstBit ∧ ¬ s.sys.flushed) := by
      rintro ⟨hcyc, hbit, -⟩
      exact hfirst.elim (fun h => h hcyc.symm) (fun h => absurd hbit (by omega))
    unfold laterDoubt withCause
    exact if_neg hno
  unfold moduleDoubt
  by_cases hp : inPlinth s = true
  · rw [if_pos hp]
    exact raiseEntry_only _ (plinthDoubt bit s)
  · obtain ⟨hl, hfirst⟩ := h.resolve_left hp
    rw [if_neg hp, if_pos hl, hlater hl hfirst]
    exact raiseEntry_only _ _

/-- SYS as the first cause latches it. -/
def latchedSys (bit : Nat) (code : BitVec 16) (s : State) : Sys :=
  { s.sys with
    firstCause := code, firstBit := bit, latched := true, cause := setBit s.sys.cause bit, doubtFrame := kLow s
    doubtPhase := if booting s then 0 else w s.clk.tickph, doubtCyc := s.clk.cyc, flush := flushFor bit
    doubtBeforeFirst := booting s, goosePending := !booting s }

theorem moduleDoubt_sys_first (bit : Nat) (code : BitVec 16) (src : BitVec 8) (a b c : Word) {s : State}
    (hl : s.sys.latched = false) (hp : inPlinth s = false) :
    (moduleDoubt bit code src a b c s).sys = latchedSys bit code s := by
  have hstops : ∀ x, (hsbDoubt code (canStop (eqStop (teStop x)))).sys = x.sys := fun x =>
    ((((teStop_same x).trans (eqStop_same _)).trans (canStop_same _)).trans (hsbDoubt_same code _)).sys
  unfold moduleDoubt latchDoubt
  rw [if_neg (by simp [hp]), if_neg (by simp [hl]), raiseEntry_sys]
  exact hstops _

/-- Causes of one number, one after another: from the second on they change the recorder alone. -/
theorem forAll_addsOnly {bit : Nat} {f : Nat → State → State}
    (hf : ∀ i s, addsOnly bit s → ∃ v, f i s = { withCause bit s with evr := v }) (is : List Nat) {s : State}
    (h : addsOnly bit s) (hset : withCause bit s = s) : ∃ v, forAll is f s = { s with evr := v } := by
  induction is generalizing s with
  | nil => exact ⟨s.evr, rfl⟩
  | cons i is ih =>
    obtain ⟨v, hv⟩ := hf i s h
    rw [hset] at hv
    obtain ⟨u, hu⟩ := ih (s := { s with evr := v }) h (by
      have := congrArg (fun t : State => { t with evr := v }) hset
      exact this)
    exact ⟨u, by rw [show forAll (i :: is) f s = forAll is f (f i s) from rfl, hv, hu]⟩

theorem setBit_idem {n : Nat} (v : BitVec n) (i : Nat) : setBit (setBit v i) i = setBit v i := by
  unfold setBit; rw [BitVec.or_assoc, BitVec.or_self]

/-! ### Bits of STATUS -/

theorem shifted_bit (c : Bool) (i j : Nat) (hj : j < 16) :
    (if c then (1#16) <<< i else 0).getLsbD j = (c && decide (i = j)) := by
  cases c
  · simp
  · rw [if_pos rfl, ← BitVec.twoPow_eq, BitVec.getLsbD_twoPow]
    simp only [Bool.true_and]
    by_cases h : i = j <;> simp [h, hj]

theorem status_doubt (s : State) : (status s).getLsbD 1 = s.sys.latched := by
  unfold status
  simp only [BitVec.getLsbD_or, shifted_bit _ _ _ (show 1 < 16 by decide)]
  simp

theorem status_plinth (s : State) : (status s).getLsbD 2 = (s.sys.plinth || s.sys.retired) := by
  unfold status
  simp only [BitVec.getLsbD_or, shifted_bit _ _ _ (show 2 < 16 by decide)]
  simp

end Sys2Proof.Proofs

/-! ### What the recorder, the records and a flush leave alone (R315 to R317, R324, R325, R331 to R337) -/
namespace Sys2Proof.Proofs

open Sys2Proof Sys2Proof.Machine Sys2Proof.Safety Sys2Proof.Laws

section Sparse
variable {β : Type} [DecidableEq β]

/-- A write leaves every other key of a list alone, in canonical form or not. -/
theorem sget_sput_other {d : Nat → β} {k j : Nat} (v : β) (hj : j ≠ k) (m : List (Nat × β)) :
    sget d (sput d k v m) j = sget d m j := by
  induction m with
  | nil => unfold sput; split <;> simp [sget, hj]
  | cons x m ih =>
    obtain ⟨k', v'⟩ := x
    unfold sput
    by_cases hlt : k < k'
    · rw [if_pos hlt]
      by_cases hd : v = d k <;> simp [hd, sget, hj]
    · rw [if_neg hlt]
      by_cases heq : k = k'
      · subst heq
        by_cases hd : v = d k <;> simp [hd, sget, hj]
      · rw [if_neg heq]
        simp [sget, ih]

theorem sget_sputs_other {d : Nat → β} {j : Nat} (vs : List β) {k : Nat} (hj : j < k ∨ k + vs.length ≤ j) (m : List (Nat × β)) :
    sget d (sputs d k vs m) j = sget d m j := by
  induction vs generalizing k m with
  | nil => rfl
  | cons v vs ih =>
    simp only [List.length_cons] at hj
    exact (ih (by omega) _).trans (sget_sput_other v (by omega) m)

omit [DecidableEq β] in
theorem sgets_congr {d : Nat → β} {m m' : List (Nat × β)} {k n : Nat} (h : ∀ j, k ≤ j → j < k + n → sget d m' j = sget d m j) :
    sgets d m' k n = sgets d m k n := by
  induction n generalizing k with
  | zero => rfl
  | succ n ih =>
    show sget d m' k :: _ = sget d m k :: _
    rw [h k (le_refl k) (by omega), ih fun j h1 h2 => h j (by omega) (by omega)]

end Sparse

/-- The state without the parts that records and flushes write: the parameter store, the recorder, the decoded copies, the
attention generation, the staged slot's identity, the update state and the free values drawn. -/
def besideStore (s : State) : State :=
  { s with
    nvs := State.nvs0, evr := State.evr0, persist := State.reset.persist, att := State.reset.att, upd := State.reset.upd
    plr := { s.plr with slotId := Vector.replicate 2 none }, fresh := 0 }

/-- The same, with the bytes of the flush-complete marker. -/
def besideMarker (s : State) : State × List Byte := (besideStore s, nvBytes s nvMARKER 64)

theorem besideMarker_eq {s t : State} (h : besideStore t = besideStore s) (hm : t.nvs.mem = s.nvs.mem) :
    besideMarker t = besideMarker s := by
  unfold besideMarker nvBytes; rw [h, hm]

theorem besideStore_of {s t : State} (h : besideMarker t = besideMarker s) : besideStore t = besideStore s :=
  congrArg Prod.fst h

theorem nvPut_besideStore (a : Nat) (bs : List Byte) (s : State) : besideStore (nvPut a bs s) = besideStore s := rfl

/-- A change of SYS and of the host link goes with it. -/
theorem besideStore_with {s t : State} (h : besideStore t = besideStore s) (f : Clk → Sys → Sys) (g : Hl → Hl) :
    besideStore { t with sys := f t.clk t.sys, hl := g t.hl } = besideStore { s with sys := f s.clk s.sys, hl := g s.hl } :=
  congrArg (fun u : State => { u with sys := f u.clk u.sys, hl := g u.hl }) h

/-- A write beside the marker. -/
theorem nvPut_besideMarker {a : Nat} {bs : List Byte} (h : nvMARKER + 64 ≤ a ∨ a + bs.length ≤ nvMARKER) (s : State) :
    besideMarker (nvPut a bs s) = besideMarker s := by
  have hbytes : nvBytes (nvPut a bs s) nvMARKER 64 = nvBytes s nvMARKER 64 :=
    sgets_congr fun j h1 h2 => sget_sputs_other bs (by omega) s.nvs.mem
  exact Prod.ext rfl hbytes

theorem modEvr_besideMarker (f : Evr → Evr) (s : State) : besideMarker (modEvr f s) = besideMarker s := rfl

theorem modNvs_besideMarker {f : Nvs → Nvs} (h : ∀ v, (f v).mem = v.mem) (s : State) :
    besideMarker (modNvs f s) = besideMarker s := besideMarker_eq rfl (h s.nvs)

theorem raiseEntry_besideMarker (e : Entry) (s : State) : besideMarker (raiseEntry e s) = besideMarker s := by
  obtain ⟨v, h⟩ := raiseEntry_only e s; rw [h]; rfl

/-! ### The intake -/

theorem newEntry_besideMarker (sev : Nat) (s : State) : besideMarker (newEntry sev s) = besideMarker s := by
  unfold newEntry; split_ifs <;> rfl

theorem pend_besideMarker (r : Rec) (s : State) : besideMarker (pend r s) = besideMarker s :=
  newEntry_besideMarker _ _

theorem recAt_above (s : State) (n : Nat) : nvMARKER + 64 ≤ recAt s n := by
  unfold recAt nvMARKER nvRING; omega

theorem putBelow_besideMarker (r : Rec) (s : State) : besideMarker (putBelow r s) = besideMarker s := by
  unfold putBelow
  split
  · exact nvPut_besideMarker (.inl (recAt_above _ _)) s
  · rfl

theorem placeOwn_besideMarker (code : BitVec 16) (a b c : Word) (s : State) :
    besideMarker (placeOwn code a b c s) = besideMarker s := by
  unfold placeOwn
  split
  · exact pend_besideMarker _ _
  · rfl

theorem takeToken_besideMarker {cls : Nat} {s t : State} (h : takeToken cls s = some t) : besideMarker t = besideMarker s := by
  unfold takeToken at h
  dsimp only at h
  split at h
  · cases h
  · cases h; rfl

theorem accept_besideMarker (t : Taken) (s : State) : besideMarker (accept t s) = besideMarker s := by
  have hfresh : ∀ (cap : Nat) (b : Bool), besideMarker (if cap ≤ s.evr.pending.length
      then modEvr (loseB t.entry.code) s
      else if b = true then
        match takeToken (t.entry.code.toNat / 4096) s with
        | some s => pend (recOf t false) s
        | none => holdBack (t.entry.code.toNat / 4096) t.entry.code s
      else pend (recOf t false) s) = besideMarker s := by
    intro cap b
    split
    · rfl
    · split
      · split
        · rename_i s' h
          exact (pend_besideMarker _ s').trans (takeToken_besideMarker h)
        · rfl
      · exact pend_besideMarker _ s
  unfold accept
  dsimp only
  split
  · exact hfresh _ _
  · split
    · split
      · exact (newEntry_besideMarker _ _).trans (putBelow_besideMarker _ s)
      · exact hfresh _ _
    · exact hfresh _ _

theorem intake_besideMarker (s : State) : besideMarker (intake s) = besideMarker s := by
  unfold intake
  split
  · rfl
  · rename_i t _
    have haccept := accept_besideMarker t (modEvr (fun v => { v with cur := none }) s)
    have hreport : ∀ u, besideMarker (if u.evr.lostDue then reportLostQ u else u) = besideMarker u := by
      intro u
      split
      · exact placeOwn_besideMarker _ _ _ _ _
      · rfl
    have hboth := (hreport _).trans haccept
    dsimp only
    split
    · exact hboth
    · exact (modEvr_besideMarker _ _).trans hboth

theorem drainIntake_besideMarker (s : State) : besideMarker (drainIntake s) = besideMarker s :=
  foldl_keeps (fun s _ => intake_besideMarker s) _ s

/-! ### Records and counters -/

theorem nextCopy_lt (size rid : Nat) (places : List Nat) (s : State) : (nextCopy size rid places s).1 < 2 := by
  unfold nextCopy
  split <;> (dsimp only; omega)

theorem recPlaces_above (kind : Nat) {n : Nat} (h : n < 2) : nvMARKER + 64 ≤ (recPlaces kind).getD n 0 := by
  have hplace : ∀ c, nvMARKER + 64 ≤ 0x28000 + 512 * ((Config.recordPlace + 2 * kind + c) % 1024) := by
    intro c; unfold nvMARKER; omega
  match n, h with
  | 0, _ => exact hplace 0
  | 1, _ => exact hplace 1

theorem recordPut_besideMarker (kind : Nat) (jseq : Word) (s : State) :
    besideMarker (recordPut kind jseq s) = besideMarker s := by
  unfold recordPut
  exact nvPut_besideMarker (.inl (recPlaces_above kind (nextCopy_lt _ _ _ _))) _

theorem retainPlaces_above {n : Nat} (h : n < 2) : nvMARKER + 64 ≤ retainPlaces.getD n 0 := by
  match n, h with
  | 0, _ => decide
  | 1, _ => decide

theorem putRetain_besideMarker (jseq : Word) (s : State) : besideMarker (putRetain jseq s) = besideMarker s := by
  unfold putRetain
  exact nvPut_besideMarker (.inl (retainPlaces_above (nextCopy_lt _ _ _ _))) _

theorem ringPut_besideMarker (r value : Nat) (s : State) : besideMarker (ringPut r value s) = besideMarker s := by
  unfold ringPut
  dsimp only
  rw [modNvs_besideMarker, nvPut_besideMarker (.inl ?_)]
  · unfold nvMARKER nvCOUNTERS; omega
  · exact fun _ => rfl

theorem updRelease_besideMarker (s : State) : besideMarker (updRelease s) = besideMarker s := by
  have hdrop : besideMarker (if s.upd.sess = .verified
      then modBank (updBank s) (fun b => { b with state := .complete }) s else s) = besideMarker s := by
    split
    · exact recordPut_besideMarker _ _ _
    · rfl
  unfold updRelease
  exact (besideMarker_eq rfl rfl).trans hdrop

theorem updLapse_besideMarker (sid : Nat) (s : State) : besideMarker (updLapse sid s) = besideMarker s :=
  (updRelease_besideMarker _).trans (raiseEntry_besideMarker _ _)

/-- The host link without a session. -/
def withoutSession (sid : Nat) (h : Hl) : Hl :=
  { h with
    sessions := vset h.sessions sid none
    owed := h.owed.map fun o => if o.sid.val = sid then { o with live := false } else o }

/-- Closing changes the host link beside the records; the session's place is empty. -/
theorem closeSession_besideMarker (sid reason : Nat) (s : State) : ∃ v : Hl,
    besideMarker (closeSession sid reason s) = besideMarker { s with hl := v } ∧ v.sessions = vset s.hl.sessions sid none := by
  unfold closeSession
  split
  · rename_i h
    refine ⟨s.hl, rfl, ?_⟩
    unfold session vget at h
    unfold vset
    split
    · rename_i hlt
      rw [dif_pos hlt] at h
      rw [← h, Vector.set_getElem_self]
    · rfl
  · rename_i ss _
    have hlapse : ∀ t, besideMarker (if t.upd.holder.map (·.val) = some sid then updLapse sid t else t) = besideMarker t := by
      intro t
      split
      · exact updLapse_besideMarker sid t
      · rfl
    have hboth := (hlapse (note 0xC002 srcHL (w sid) (w reason) (w ss.role.val) s)).trans (raiseEntry_besideMarker _ s)
    exact ⟨withoutSession sid s.hl,
      congrArg (fun x : State × List Byte => ({ x.1 with hl := withoutSession sid x.1.hl }, x.2)) hboth, rfl⟩

/-! ### The parts of a flush -/

theorem slotRoles_besideMarker (s : State) : besideMarker (slotRoles s) = besideMarker s := by
  unfold slotRoles; split <;> rfl

theorem journalCopies_besideMarker (op : JOp) (s : State) : besideMarker (journalCopies op s) = besideMarker s := by
  have hswap : besideMarker (if op.kind = 1 then slotRoles (putRetain op.jseq (recordPut recROLES op.jseq s)) else s)
      = besideMarker s := by
    split
    · rw [slotRoles_besideMarker, putRetain_besideMarker, recordPut_besideMarker]
    · rfl
  unfold journalCopies
  dsimp only
  split
  · exact (recordPut_besideMarker _ _ _).trans hswap
  · exact hswap

theorem journalCommit_besideMarker (s : State) : besideMarker (journalCommit s) = besideMarker s := by
  unfold journalCommit
  split
  · rfl
  · exact (nvPut_besideMarker (.inr (by decide)) _).trans
      ((besideMarker_eq rfl rfl).trans (journalCopies_besideMarker _ s))

theorem flushJournal_besideMarker (s : State) : besideMarker (flushJournal s) = besideMarker s := by
  unfold flushJournal
  split
  · rfl
  · split
    · exact journalCommit_besideMarker s
    · rfl

theorem flushEnergy_besideMarker (s : State) : besideMarker (flushEnergy s) = besideMarker s := by
  unfold flushEnergy putSave
  exact nvPut_besideMarker (.inl (by decide)) _

theorem flushRecords_besideMarker (s : State) : besideMarker (flushRecords s) = besideMarker s :=
  foldl_keeps (fun s x => nvPut_besideMarker (.inl (by unfold nvMARKER nvRFLUSH; omega)) s) _ s

theorem flushPart_besideMarker {i : Nat} (h : i < 4) (s : State) : besideMarker (flushPart i s) = besideMarker s := by
  unfold flushPart
  match i, h with
  | 0, _ => exact flushJournal_besideMarker s
  | 1, _ => exact flushEnergy_besideMarker s
  | 2, _ =>
    show besideMarker (if flushRetains s = true then putRetain 0 s else s) = besideMarker s
    split
    · exact putRetain_besideMarker 0 s
    · rfl
  | 3, _ => exact flushRecords_besideMarker s

theorem opStore_besideMarker (s : State) : besideMarker (opStore s) = besideMarker s := by
  unfold opStore
  rw [modNvs_besideMarker, ringPut_besideMarker]
  exact fun _ => rfl

theorem flushMarker_besideStore (parts : Nat) (s : State) : besideStore (flushMarker parts s) = besideStore s := by
  unfold flushMarker
  dsimp only
  rw [nvPut_besideStore]
  exact besideStore_of (opStore_besideMarker s)

theorem flushPart_besideStore (i : Nat) (s : State) : besideStore (flushPart i s) = besideStore s := by
  by_cases h : i < 4
  · exact besideStore_of (flushPart_besideMarker h s)
  · obtain ⟨j, rfl⟩ : ∃ j, i = j + 4 := ⟨i - 4, by omega⟩
    exact flushMarker_besideStore _ s

theorem flushUpTo_besideStore (n : Nat) (s : State) : besideStore (flushUpTo n s) = besideStore s :=
  (forAll_keeps flushPart_besideStore _ _).trans (besideStore_of (drainIntake_besideMarker s))

end Sys2Proof.Proofs

/-! ### Causes of MODULE doubt (R22 to R30) -/
namespace Sys2Proof.Proofs

open Sys2Proof Sys2Proof.Machine Sys2Proof.Safety Sys2Proof.Laws

/-- The doubt that a first cause of a number and code leaves: latched in this cycle, every lane stopped, a flush begun. -/
def inDoubt (s u : State) (code : BitVec 16) (bit : Nat) : Prop :=
  u.sys.latched = true ∧ u.sys.firstCause = code
  ∧ u.sys.cause = s.sys.cause ||| BitVec.twoPow 10 bit ∧ u.sys.doubtCyc = s.clk.cyc ∧ u.frm.state = stateInDoubt s
  ∧ u.sys.flush = (if bit = 4 then FlushKind.powerFail else FlushKind.doubt)
  ∧ (∀ i : Fin 16, (u.lanes[i.val]).mode = .stopped) ∧ (status u).getLsbD 1 = true ∧ u.frm.k = s.frm.k

/-- A later cause: its bit is set, the lanes and the frame go on as they are. -/
def laterCause (s u : State) (bit : Nat) : Prop :=
  u.sys.latched = true ∧ u.sys.firstCause = s.sys.firstCause
  ∧ u.sys.cause = s.sys.cause ||| BitVec.twoPow 10 bit ∧ u.lanes = s.lanes ∧ u.frm = s.frm

/-- What a command does that raises a MODULE cause: the first, one in doubt, one in plinth mode without doubt. -/
def raisesCause (s : State) (c : Instr) (code : BitVec 16) (bit : Nat) : Prop :=
  (s.sys.latched = false → s.sys.plinth = false → s.sys.retired = false → ∃ u, exec c s = .next u ∧ inDoubt s u code bit)
  ∧ (s.sys.latched = true → s.sys.doubtCyc ≠ s.clk.cyc → ∃ u, exec c s = .next u ∧ laterCause s u bit)
  ∧ (s.sys.latched = false → s.sys.plinth = true ∨ s.sys.retired = true → ∃ u, exec c s = .next u
      ∧ u.sys = { s.sys with cause := s.sys.cause ||| BitVec.twoPow 10 bit } ∧ u.frm = s.frm)

theorem inPlinth_false {s : State} (h1 : s.sys.plinth = false) (h2 : s.sys.retired = false) : inPlinth s = false := by
  simp [inPlinth, h1, h2]

theorem inPlinth_true {s : State} (h : s.sys.plinth = true ∨ s.sys.retired = true) : inPlinth s = true := by
  simpa [inPlinth] using h

/-- SYS, FRM_STATE, the frame number and the stopped lanes are what makes the doubt. -/
theorem inDoubt_of {s u : State} {code : BitVec 16} {bit : Nat} (hsys : ∃ m, u.sys = { latchedSys bit code s with mgmtRestarted := m })
    (hstate : u.frm.state = stateInDoubt s) (hk : u.frm.k = s.frm.k) (hstop : ∀ i : Fin 16, (u.lanes[i.val]).mode = .stopped) :
    inDoubt s u code bit := by
  obtain ⟨m, hsys⟩ := hsys
  refine ⟨by rw [hsys]; rfl, by rw [hsys]; rfl, by rw [hsys]; rfl, by rw [hsys]; rfl, hstate, by rw [hsys]; rfl, hstop, ?_, hk⟩
  rw [status_doubt, hsys]; rfl

theorem inDoubt_settle {s u : State} {code : BitVec 16} {bit : Nat} (h : inDoubt s u code bit) : inDoubt s (settle u) code bit := by
  obtain ⟨hl, hc, hb, hcyc, hst, hf, hstop, -, hk⟩ := h
  exact ⟨hl, hc, hb, hcyc, hst, hf, hstop, (status_doubt _).trans hl, hk⟩

section Cause
variable (bit : Nat) (code : BitVec 16) (src : BitVec 8) (a b c : Word) {s : State}

theorem inDoubt_moduleDoubt (hl : s.sys.latched = false) (hp : inPlinth s = false) :
    inDoubt s (moduleDoubt bit code src a b c s) code bit := by
  obtain ⟨-, -, -, -, hstate, -, hstop⟩ := moduleDoubt_first bit code src a b c s hl hp
  exact inDoubt_of ⟨_, moduleDoubt_sys_first bit code src a b c hl hp⟩ hstate (moduleDoubt_frm_k ..) hstop

theorem laterCause_moduleDoubt (hl : s.sys.latched = true) (hcyc : s.sys.doubtCyc ≠ s.clk.cyc) :
    laterCause s (moduleDoubt bit code src a b c s) bit := by
  obtain ⟨v, h⟩ := moduleDoubt_addsOnly code src a b c (bit := bit) (.inr ⟨hl, .inl hcyc⟩)
  rw [h]; exact ⟨hl, rfl, rfl, rfl, rfl⟩

theorem plinthCause_moduleDoubt (hp : inPlinth s = true) :
    (moduleDoubt bit code src a b c s).sys = { s.sys with cause := s.sys.cause ||| BitVec.twoPow 10 bit }
    ∧ (moduleDoubt bit code src a b c s).frm = s.frm := by
  obtain ⟨v, h⟩ := moduleDoubt_addsOnly code src a b c (bit := bit) (.inl hp)
  rw [h]; exact ⟨rfl, rfl⟩

end Cause

/-- A command whose effect leads to `u`, where `u` is what each case calls for. -/
theorem raisesCause_of {s u : State} {c : Instr} {code : BitVec 16} {bit : Nat} (hexec : exec c s = .next (settle u))
    (hfirst : s.sys.latched = false → inPlinth s = false → inDoubt s u code bit)
    (hlater : s.sys.latched = true → s.sys.doubtCyc ≠ s.clk.cyc → laterCause s u bit)
    (hplinth : inPlinth s = true → u.sys = { s.sys with cause := s.sys.cause ||| BitVec.twoPow 10 bit } ∧ u.frm = s.frm) :
    raisesCause s c code bit :=
  ⟨fun hl h1 h2 => ⟨_, hexec, inDoubt_settle (hfirst hl (inPlinth_false h1 h2))⟩,
    fun hl hcyc => ⟨_, hexec, hlater hl hcyc⟩,
    fun _ hp => ⟨_, hexec, hplinth (inPlinth_true hp)⟩⟩

/-- A command that raises one cause. -/
theorem raisesCause_moduleDoubt {s : State} {i : Instr} {bit : Nat} {code : BitVec 16} {src : BitVec 8} {a b c : Word}
    (hexec : exec i s = .next (settle (moduleDoubt bit code src a b c s))) : raisesCause s i code bit :=
  raisesCause_of hexec (inDoubt_moduleDoubt bit code src a b c) (laterCause_moduleDoubt bit code src a b c)
    (plinthCause_moduleDoubt bit code src a b c)

/-! ### PFW, rails, memory errors, clocks -/

theorem pfw_raises {s : State} (hp : s.clk.power = true) (src : Fin 2) (h : s.pwr.pfw = none) :
    raisesCause s (.pfw src) 0x0020 4 := by
  have hexec : exec (.pfw src) s = .next (settle (pfwAssert src.val s)) := by
    show execPfw src s = _
    unfold execPfw
    rw [act_powered _ hp, h]
    rfl
  exact raisesCause_of hexec
    (inDoubt_moduleDoubt _ _ _ _ _ _ (s := { s with pwr := ⟨some src.val, s.clk.cyc⟩ }))
    (laterCause_moduleDoubt _ _ _ _ _ _ (s := { s with pwr := ⟨some src.val, s.clk.cyc⟩ }))
    (plinthCause_moduleDoubt _ _ _ _ _ _ (s := { s with pwr := ⟨some src.val, s.clk.cyc⟩ }))

theorem pfw_idle {s : State} (hp : s.clk.power = true) (src : Fin 2) (h : s.pwr.pfw ≠ none) :
    exec (.pfw src) s = .next (settle s) := by
  show execPfw src s = _
  unfold execPfw
  obtain ⟨x, hx⟩ := Option.ne_none_iff_exists'.mp h
  exact act_idle hp (by rw [hx]; rfl)

theorem supplyRail_raises {s : State} (hp : s.clk.power = true) (rail : Word) : raisesCause s (.supplyRail rail) 0x0021 4 :=
  raisesCause_moduleDoubt (act_powered _ hp)

theorem mgmtSramUe_raises {s : State} (hp : s.clk.power = true) (a : Word) (b : Bool) :
    raisesCause s (.mgmtSramUe a b) 0x0012 2 :=
  raisesCause_moduleDoubt (act_powered _ hp)

theorem clockLoss_raises {s : State} (hp : s.clk.power = true) (x : Nat) :
    raisesCause s (.clockLoss (.tcxo x)) 0x5030 5 ∧ raisesCause s (.clockLoss (.pll x)) 0x5031 5
    ∧ raisesCause s (.clockLoss (.interval x)) 0x5032 5 :=
  ⟨raisesCause_moduleDoubt (act_powered _ hp), raisesCause_moduleDoubt (act_powered _ hp),
    raisesCause_moduleDoubt (act_powered _ hp)⟩

/-! ### The scrubber -/

/-- The check of every block that fails. -/
def scrubBlocks (s : State) : State :=
  forAll s.sys.badBlocks (fun b s => moduleDoubt causeControl 0x0011 (blockSource b) (w b) 0xFFFFFFFF 0 s) s

theorem scrub_settles {s : State} (hp : s.clk.power = true) : exec .blockCrcScrub s = .next (settle (scrubBlocks s)) := by
  show execBlockCrcScrub s = _
  unfold execBlockCrcScrub
  exact act_powered _ hp

theorem withCause_fixed {bit : Nat} {s : State} (h : setBit s.sys.cause bit = s.sys.cause) : withCause bit s = s := by
  unfold withCause; rw [h]

/-- After the first failing block the others change the recorder alone. -/
theorem scrubBlocks_cons {s : State} {b : Nat} {bs : List Nat} (h : s.sys.badBlocks = b :: bs)
    (hadds : addsOnly 2 (moduleDoubt causeControl 0x0011 (blockSource b) (w b) 0xFFFFFFFF 0 s))
    (hset : setBit (moduleDoubt causeControl 0x0011 (blockSource b) (w b) 0xFFFFFFFF 0 s).sys.cause 2
      = (moduleDoubt causeControl 0x0011 (blockSource b) (w b) 0xFFFFFFFF 0 s).sys.cause) :
    ∃ v, scrubBlocks s = { moduleDoubt causeControl 0x0011 (blockSource b) (w b) 0xFFFFFFFF 0 s with evr := v } := by
  unfold scrubBlocks
  rw [h]
  exact forAll_addsOnly (fun i s hs => moduleDoubt_addsOnly _ _ _ _ _ hs) bs hadds (withCause_fixed hset)

theorem scrub_raises {s : State} (hp : s.clk.power = true) (h : s.sys.badBlocks ≠ []) :
    raisesCause s .blockCrcScrub 0x0011 2 := by
  obtain ⟨b, bs, hbs⟩ := List.exists_cons_of_ne_nil h
  have hadds : ∀ hs : addsOnly 2 s, ∃ v, scrubBlocks s = { withCause 2 s with evr := v } := by
    intro hs
    obtain ⟨v, hv⟩ := moduleDoubt_addsOnly 0x0011 (blockSource b) (w b) 0xFFFFFFFF 0 hs
    obtain ⟨x, hx⟩ := scrubBlocks_cons hbs (by rw [show causeControl = 2 from rfl, hv]; exact hs)
      (by rw [show causeControl = 2 from rfl, hv]; exact setBit_idem _ _)
    exact ⟨x, by rw [hx, show causeControl = 2 from rfl, hv]⟩
  refine raisesCause_of (scrub_settles hp) (fun hl hpl => ?_) (fun hl hcyc => ?_) (fun hpl => ?_)
  · have hsys := moduleDoubt_sys_first causeControl 0x0011 (blockSource b) (w b) 0xFFFFFFFF 0 hl hpl
    obtain ⟨x, hx⟩ := scrubBlocks_cons hbs (.inr (by rw [hsys]; exact ⟨rfl, .inr (le_refl 2)⟩))
      (by rw [hsys]; exact setBit_idem _ _)
    obtain ⟨d1, d2, d3, d4, d5, d6, d7, -, d9⟩ :=
      inDoubt_moduleDoubt causeControl 0x0011 (blockSource b) (w b) 0xFFFFFFFF 0 hl hpl
    rw [hx]
    exact ⟨d1, d2, d3, d4, d5, d6, d7, (status_doubt _).trans d1, d9⟩
  · obtain ⟨v, hv⟩ := hadds (.inr ⟨hl, .inl hcyc⟩)
    rw [hv]; exact ⟨hl, rfl, rfl, rfl, rfl⟩
  · obtain ⟨v, hv⟩ := hadds (.inl hpl)
    rw [hv]; exact ⟨rfl, rfl⟩

theorem scrub_idle {s : State} (hp : s.clk.power = true) (h : s.sys.badBlocks = []) :
    exec .blockCrcScrub s = .next (settle s) := by
  rw [scrub_settles hp]
  unfold scrubBlocks
  rw [h]
  rfl

/-! ### The watchdog (R29) -/

theorem closeAll_besideStore (is : List Nat) (s : State) : ∃ v : Hl,
    besideStore (forAll is (fun sid s => closeSession sid (Config.choice 32 s.clk.cyc) s) s) = besideStore { s with hl := v }
    ∧ v.sessions = is.foldl (fun x i => vset x i none) s.hl.sessions := by
  induction is generalizing s with
  | nil => exact ⟨s.hl, rfl, rfl⟩
  | cons i is ih =>
    obtain ⟨v1, h1, e1⟩ := closeSession_besideMarker i (Config.choice 32 s.clk.cyc) s
    have h1 := besideStore_of h1
    have hhl := (congrArg State.hl h1 :)
    obtain ⟨v2, h2, e2⟩ := ih (closeSession i (Config.choice 32 s.clk.cyc) s)
    refine ⟨v2, h2.trans (congrArg (fun t : State => { t with hl := v2 }) h1 :), e2.trans ?_⟩
    show _ = is.foldl _ (vset s.hl.sessions i none)
    rw [show (closeSession i (Config.choice 32 s.clk.cyc) s).hl = v1 from hhl, e1]

theorem vset_all_four {α : Type} (x : Vector (Option α) 4) :
    (List.range 4).foldl (fun x i => vset x i none) x = Vector.replicate 4 none := by
  show vset (vset (vset (vset x 0 none) 1 none) 2 none) 3 none = _
  apply Vector.ext
  intro i hi
  rw [Vector.getElem_replicate]
  unfold vset
  rw [dif_pos (by decide), dif_pos (by decide), dif_pos (by decide), dif_pos (by decide)]
  simp only [Vector.getElem_set]
  split_ifs
  · rfl
  · rfl
  · rfl
  · rfl
  · omega

/-- A restart of the management core closes every session and leaves everything else but the records alone. -/
theorem mgmtRestart_besideStore (s : State) : ∃ v : Hl,
    besideStore (mgmtRestart s) = besideStore { s with hl := v, sys := { s.sys with mgmtRestarted := true } }
    ∧ v.sessions = Vector.replicate 4 none := by
  obtain ⟨v, h, e⟩ := closeAll_besideStore (List.range 4) s
  refine ⟨{ v with hellos := Vector.replicate 4 none, owed := none }, ?_, e.trans (vset_all_four _)⟩
  unfold mgmtRestart
  exact besideStore_with h (fun _ y => { y with mgmtRestarted := true })
    (fun v => { v with hellos := Vector.replicate 4 none, owed := none })

theorem watchdog_plinth {s : State} (hpl : inPlinth s = true) :
    watchdog s = moduleDoubt causeWatchdog 0x0030 srcSYS 0 0 0 s := if_pos hpl

theorem watchdog_restarts {s : State} (hpl : inPlinth s = false) :
    watchdog s = mgmtRestart (moduleDoubt causeWatchdog 0x0030 srcSYS 0 0 0 s) := if_neg (by simp [hpl])

theorem watchdog_raises {s : State} (hp : s.clk.power = true) : raisesCause s .watchdog 0x0030 7 := by
  refine raisesCause_of (u := watchdog s) (act_powered _ hp) (fun hl hpl => ?_) (fun hl hcyc => ?_) (fun hpl => ?_)
  · rw [watchdog_restarts hpl]
    obtain ⟨-, -, -, -, hstate, -, hstop⟩ := moduleDoubt_first causeWatchdog 0x0030 srcSYS 0 0 0 s hl hpl
    have hsys := moduleDoubt_sys_first causeWatchdog 0x0030 srcSYS 0 0 0 hl hpl
    obtain ⟨v, h, -⟩ := mgmtRestart_besideStore (moduleDoubt causeWatchdog 0x0030 srcSYS 0 0 0 s)
    refine inDoubt_of ⟨true, (congrArg State.sys h :).trans ?_⟩ ((congrArg (fun t => t.frm.state) h :).trans hstate)
      ((congrArg (fun t => t.frm.k) h :).trans (moduleDoubt_frm_k ..)) ?_
    · exact congrArg (fun y : Sys => { y with mgmtRestarted := true }) hsys
    · have hlanes : (mgmtRestart (moduleDoubt causeWatchdog 0x0030 srcSYS 0 0 0 s)).lanes
          = (moduleDoubt causeWatchdog 0x0030 srcSYS 0 0 0 s).lanes := (congrArg State.lanes h :)
      rw [hlanes]; exact hstop
  · obtain ⟨d1, d2, d3, d4, d5⟩ := laterCause_moduleDoubt causeWatchdog 0x0030 srcSYS 0 0 0 hl hcyc
    cases hpl : inPlinth s with
    | true => rw [watchdog_plinth hpl]; exact ⟨d1, d2, d3, d4, d5⟩
    | false =>
      rw [watchdog_restarts hpl]
      obtain ⟨v, h, -⟩ := mgmtRestart_besideStore (moduleDoubt causeWatchdog 0x0030 srcSYS 0 0 0 s)
      have hsys := (congrArg State.sys h :)
      exact ⟨(congrArg (fun t => t.sys.latched) h :).trans d1, (congrArg (fun t => t.sys.firstCause) h :).trans d2,
        (congrArg (fun t => t.sys.cause) h :).trans d3, (congrArg State.lanes h :).trans d4, (congrArg State.frm h :).trans d5⟩
  · rw [watchdog_plinth hpl]
    exact plinthCause_moduleDoubt causeWatchdog 0x0030 srcSYS 0 0 0 hpl

theorem watchdog_closes {s : State} (hp : s.clk.power = true) (hpl : inPlinth s = false) : ∃ u, exec .watchdog s = .next u
    ∧ u.hl.sessions = Vector.replicate 4 none ∧ u.sys.mgmtRestarted = true := by
  obtain ⟨v, h, e⟩ := mgmtRestart_besideStore (moduleDoubt causeWatchdog 0x0030 srcSYS 0 0 0 s)
  refine ⟨settle (watchdog s), act_powered _ hp, ?_, ?_⟩
  · rw [watchdog_restarts hpl]
    exact (congrArg (fun t => t.hl.sessions) h :).trans e
  · rw [watchdog_restarts hpl]
    exact (congrArg (fun t => t.sys.mgmtRestarted) h :)

/-! ### HOST_RESET (R30) -/

/-- The state that the answer to HOST_RESET follows. -/
def resetCommanded (sid : Fin 4) (s : State) : State :=
  let u := moduleDoubt causeHostReset 0x0031 srcSYS (w sid.val) (w (sesRole sid.val s)) 0 s
  { u with sys := { u.sys with resetCommanded := true } }

theorem hostReset_answered {s : State} {sid : Fin 4} {ss : Session} (h : hostReady sid 2 ss s) :
    exec (.hostReset sid) s = .next (answered sid ss .ok 4 [] (resetCommanded sid s)) := host_ok h rfl

theorem resetCommanded_first {s : State} (sid : Fin 4) (hl : s.sys.latched = false) (hp : inPlinth s = false) :
    inDoubt s (resetCommanded sid s) 0x0031 9 := by
  obtain ⟨d1, d2, d3, d4, d5, d6, d7, -, d9⟩ :=
    inDoubt_moduleDoubt causeHostReset 0x0031 srcSYS (w sid.val) (w (sesRole sid.val s)) 0 hl hp
  exact ⟨d1, d2, d3, d4, d5, d6, d7, (status_doubt _).trans d1, d9⟩

theorem resetCommanded_later {s : State} (sid : Fin 4) (hl : s.sys.latched = true) (hcyc : s.sys.doubtCyc ≠ s.clk.cyc) :
    laterCause s (resetCommanded sid s) 9 :=
  laterCause_moduleDoubt causeHostReset 0x0031 srcSYS (w sid.val) (w (sesRole sid.val s)) 0 hl hcyc

/-! ### Plinth mode (R25 step 6, R27) -/

theorem flushAll_besideStore (s : State) : besideStore (flushAll s)
    = besideStore { s with sys := { s.sys with flushed := true, flushedCyc := s.clk.cyc, flush := .none } } := by
  unfold flushAll
  exact besideStore_with (flushUpTo_besideStore 5 s)
    (fun c y => { y with flushed := true, flushedCyc := c.cyc, flush := .none }) id

theorem flushComplete_settles {s : State} (hp : s.clk.power = true) (h : s.sys.flush ≠ .none) :
    exec .flushComplete s = .next (settle (plinth s)) := by
  show execFlushComplete s = _
  unfold execFlushComplete
  rw [act_powered _ hp, decide_eq_true h, whenever_true]

theorem pubStop_halts (s : State) : (∀ i : Fin 8, ((pubStop s).ne.sp[i.val]).state ≠ .run)
    ∧ ∀ i : Fin 64, ((pubStop s).ne.gp[i.val]).state ≠ .run := by
  unfold pubStop vmap
  refine ⟨fun i => ?_, fun i => ?_⟩ <;>
  · dsimp only
    rw [Vector.getElem_ofFn]
    split
    · exact nofun
    · assumption

/-- Plinth mode, entered with the flush done. -/
def enterPlinth (t : State) : State := { pubStop t with sys := { t.sys with plinth := true } }

theorem status_enterPlinth (t : State) : (status (settle (enterPlinth t))).getLsbD 2 = true := status_plinth _

theorem flushComplete_plinth {s : State} (hp : s.clk.power = true) (h : s.sys.flush ≠ .none) :
    ∃ u, exec .flushComplete s = .next u ∧ u.sys.plinth = true ∧ u.sys.flushed = true
      ∧ u.sys.flush = .none ∧ (status u).getLsbD 2 = true ∧ u.lanes = s.lanes ∧ u.frm = s.frm ∧ u.mem = s.mem
      ∧ (∀ i : Fin 8, (u.ne.sp[i.val]).state ≠ .run) ∧ (∀ i : Fin 64, (u.ne.gp[i.val]).state ≠ .run) := by
  have hflush := flushAll_besideStore s
  have hsys := (congrArg State.sys hflush :)
  have hlanes := (congrArg State.lanes hflush :)
  have hfrm := (congrArg State.frm hflush :)
  have hmem := (congrArg State.mem hflush :)
  refine ⟨settle (enterPlinth (flushAll s)), flushComplete_settles hp h, ?_⟩
  revert hsys hlanes hfrm hmem
  generalize flushAll s = t
  intro hsys hlanes hfrm hmem
  obtain ⟨hsp, hgp⟩ := pubStop_halts t
  exact ⟨rfl, (congrArg Sys.flushed hsys :), (congrArg Sys.flush hsys :), status_enterPlinth t, hlanes, hfrm, hmem, hsp, hgp⟩

theorem flushComplete_idle {s : State} (hp : s.clk.power = true) (h : s.sys.flush = .none) :
    exec .flushComplete s = .next (settle s) := by
  show execFlushComplete s = _
  unfold execFlushComplete
  exact act_idle hp (by rw [h]; rfl)

/-! ### The last GOOSE message (R25 step 4, R205) -/

/-- The state without the GOOSE publications and what sending changes. -/
def besideGoose (s : State) : State :=
  { s with
    ne := { s.ne with pairs := State.reset.ne.pairs, portCnt := State.reset.ne.portCnt, sent := [], gp := State.reset.ne.gp }
    fresh := 0 }

theorem besideGoose_same {s t : State} (h : besideGoose t = besideGoose s) :
    t.sys = s.sys ∧ t.lanes = s.lanes ∧ t.frm = s.frm ∧ t.ne.sv = s.ne.sv ∧ t.ne.gs = s.ne.gs :=
  ⟨(congrArg State.sys h :), (congrArg State.lanes h :), (congrArg State.frm h :), (congrArg (fun u => u.ne.sv) h :),
    (congrArg (fun u => u.ne.gs) h :)⟩

theorem pairSend_besideGoose (pair port : Nat) (h : TxHead) (m : TxMsg) (s : State) :
    besideGoose (pairSend pair port h m s) = besideGoose s ∧ (pairSend pair port h m s).ne.gp = s.ne.gp := by
  unfold pairSend
  split
  · exact ⟨rfl, rfl⟩
  · have hcount : ∀ (cs : List (Nat × SentTag)) (t : State),
        besideGoose (cs.foldl (fun s c => portInc c.1 1 s) t) = besideGoose t
        ∧ (cs.foldl (fun s c => portInc c.1 1 s) t).ne.gp = t.ne.gp := fun cs t =>
      ⟨foldl_keeps (f := fun s (c : Nat × SentTag) => portInc c.1 1 s) (fun s c => rfl) cs t,
        foldl_keeps (f := fun s (c : Nat × SentTag) => portInc c.1 1 s) (g := fun t : State => t.ne.gp) (fun s c => rfl) cs t⟩
    exact ⟨(hcount _ _).1, (hcount _ _).2⟩

theorem gpQueue_besideGoose (i tal : Nat) (ms : List Word) (s : State) :
    besideGoose (gpQueue i tal ms s) = besideGoose s
    ∧ ∃ n, (gpQueue i tal ms s).ne.gp = vmod s.ne.gp i fun p => { p with sent := p.sent + n } := by
  unfold gpQueue pubQueue neQueue
  dsimp only
  split
  · obtain ⟨h, hgp⟩ := pairSend_besideGoose (nePair (modGp i (fun p => { p with sent := p.sent + sentOne s (nePair s kGOPUB i) }) s)
        kGOPUB i) (nePort (modGp i (fun p => { p with sent := p.sent + sentOne s (nePair s kGOPUB i) }) s) kGOPUB i) _ _ _
    exact ⟨h, _, hgp⟩
  · exact ⟨rfl, _, rfl⟩

/-- What the last message does to a publication. -/
def lastSent (p p' : GoPub) : Prop :=
  (p.state ≠ .run → p' = p)
  ∧ (p.state = .run → p'.state = .halted ∧ p'.nextN = 0 ∧ (p.last = none → p'.st = p.st)
    ∧ (p.last ≠ none → p'.sq = 0 ∧ p'.st = if p.st + 1 = 0 then 1 else p.st + 1))

theorem getElem_vmod {α : Type} {n : Nat} (v : Vector α n) (f : α → α) (i j : Fin n) :
    (vmod v i.val f)[j.val] = if j = i then f v[i.val] else v[j.val] := by
  rw [vmod_of_lt v f i.isLt, Vector.getElem_set]
  by_cases h : j = i
  · subst h; simp
  · rw [if_neg (fun he => h (Fin.ext he.symm)), if_neg h]

/-- A running publication that has sent a message sends it again as a new state (R205). -/
theorem gpLast_sends {s : State} {i : Fin 64} (hrun : (s.ne.gp[i.val]).state = .run) (hlast : (s.ne.gp[i.val]).last ≠ none) :
    besideGoose (gpLast i.val s) = besideGoose s
    ∧ ∃ n t iv, (gpLast i.val s).ne.gp = vmod s.ne.gp i.val fun p =>
        { p with st := nextSt p.st, sq := 0, tRel := t, interval := iv, sent := p.sent + n, state := .halted, nextN := 0 } := by
  have hget : goPub s i.val = s.ne.gp[i.val] := vget_of_lt _ _ i.isLt
  unfold gpLast
  dsimp only
  rw [hget, if_pos hrun, if_pos (Option.isSome_iff_ne_none.mpr hlast)]
  obtain ⟨hbeside, n, hgp⟩ := gpQueue_besideGoose i.val (2 * gpT1 s i.val) (lastMembers s i.val)
    (modGp i.val (fun p => { p with st := nextSt p.st, sq := 0, tRel := ntCap s, interval := gpT1 s i.val }) s)
  refine ⟨hbeside, n, ntCap s, gpT1 s i.val, ?_⟩
  refine (congrArg (fun v => vmod v i.val fun p : GoPub => { p with state := .halted, nextN := 0 }) hgp).trans ?_
  apply Vector.ext
  intro j hj
  have hmod := fun (v : Vector GoPub 64) f => getElem_vmod v f i ⟨j, hj⟩
  dsimp only at hmod
  simp only [modGp, hmod, getElem_vmod, if_true]
  split <;> rfl

/-- One publication of the 64 stops, with its last message where it has sent one. -/
theorem gpLast_one (i : Fin 64) (s : State) : besideGoose (gpLast i.val s) = besideGoose s
    ∧ (∀ j : Fin 64, j ≠ i → (gpLast i.val s).ne.gp[j.val] = s.ne.gp[j.val])
    ∧ lastSent s.ne.gp[i.val] (gpLast i.val s).ne.gp[i.val] := by
  have hget : goPub s i.val = s.ne.gp[i.val] := vget_of_lt _ _ i.isLt
  by_cases hrun : (s.ne.gp[i.val]).state = .run
  · by_cases hlast : (s.ne.gp[i.val]).last = none
    · have hgp : gpLast i.val s = modGp i.val (fun p => { p with state := .halted, nextN := 0 }) s := by
        unfold gpLast
        dsimp only
        rw [hget, if_pos hrun, if_neg (by simp [hlast])]
      rw [hgp]
      refine ⟨rfl, fun j hj => (getElem_vmod _ _ i j).trans (if_neg hj), fun h => absurd hrun h, fun _ => ?_⟩
      unfold modGp
      rw [getElem_vmod, if_pos rfl]
      exact ⟨rfl, rfl, fun _ => rfl, fun h => absurd hlast h⟩
    · obtain ⟨hbeside, n, t, iv, hgp⟩ := gpLast_sends hrun hlast
      refine ⟨hbeside, fun j hj => ?_, fun h => absurd hrun h, fun _ => ?_⟩
      · rw [hgp]
        exact (getElem_vmod _ _ i j).trans (if_neg hj)
      · rw [hgp, getElem_vmod, if_pos rfl]
        exact ⟨rfl, rfl, fun h => absurd h hlast, fun _ => ⟨rfl, rfl⟩⟩
  · have hsame : gpLast i.val s = s := by
      unfold gpLast
      dsimp only
      rw [hget, if_neg hrun]
    rw [hsame]
    exact ⟨rfl, fun _ _ => rfl, fun _ => rfl, fun h => absurd h hrun⟩

/-- Each publication of a list without repeats stops once; the others stand as they are. -/
theorem gpLast_all {is : List Nat} (hlt : ∀ i ∈ is, i < 64) (hnodup : is.Nodup) (s : State) :
    besideGoose (forAll is gpLast s) = besideGoose s
    ∧ ∀ j : Fin 64, if j.val ∈ is then lastSent s.ne.gp[j.val] (forAll is gpLast s).ne.gp[j.val]
      else (forAll is gpLast s).ne.gp[j.val] = s.ne.gp[j.val] := by
  induction is generalizing s with
  | nil => exact ⟨rfl, fun j => rfl⟩
  | cons i is ih =>
    obtain ⟨hi, hnodup⟩ := List.nodup_cons.mp hnodup
    have hi64 := hlt i List.mem_cons_self
    obtain ⟨hbeside, hother, hlast⟩ := gpLast_one ⟨i, hi64⟩ s
    obtain ⟨hrest, hall⟩ := ih (fun x hx => hlt x (List.mem_cons_of_mem _ hx)) hnodup (gpLast i s)
    refine ⟨hrest.trans hbeside, fun j => ?_⟩
    show if j.val ∈ i :: is then lastSent _ (forAll is gpLast (gpLast i s)).ne.gp[j.val]
      else (forAll is gpLast (gpLast i s)).ne.gp[j.val] = _
    have hj := hall j
    by_cases hji : j = ⟨i, hi64⟩
    · subst hji
      rw [if_neg hi] at hj
      rw [if_pos List.mem_cons_self, hj]
      exact hlast
    · have hne : j.val ≠ i := fun h => hji (Fin.ext h)
      rw [hother j hji] at hj
      simpa only [List.mem_cons, hne, false_or] using hj

theorem doubtGoose_settles {s : State} (hp : s.clk.power = true) : exec .doubtGoose s = .next (settle (doubtGoose s)) :=
  act_powered doubtGoose hp

/-- The last GOOSE messages of a driving module in doubt, sent once. -/
theorem doubtGoose_once {s : State} (hp : s.clk.power = true) (hpend : s.sys.goosePending = true) :
    ∃ u, exec .doubtGoose s = .next u ∧ u.sys = { s.sys with goosePending := false }
      ∧ u.lanes = s.lanes ∧ u.frm = s.frm ∧ u.ne.sv = s.ne.sv ∧ u.ne.gs = s.ne.gs
      ∧ (drives s = false → u.ne = s.ne)
      ∧ (drives s = true → ∀ i : Fin 64, lastSent s.ne.gp[i.val] u.ne.gp[i.val]) := by
  refine ⟨_, doubtGoose_settles hp, ?_⟩
  unfold doubtGoose
  rw [hpend, whenever_true]
  dsimp only
  have hdrives : drives { s with sys := { s.sys with goosePending := false } } = drives s := rfl
  rw [hdrives]
  cases hd : drives s with
  | false => exact ⟨rfl, rfl, rfl, rfl, rfl, fun _ => rfl, nofun⟩
  | true =>
    rw [if_pos rfl]
    obtain ⟨hbeside, hall⟩ := gpLast_all (is := List.range 64) (fun i hi => List.mem_range.mp hi) List.nodup_range
      { s with sys := { s.sys with goosePending := false } }
    obtain ⟨hsys, hlanes, hfrm, hsv, hgs⟩ := besideGoose_same hbeside
    have hlast := fun i : Fin 64 => (if_pos (List.mem_range.mpr i.isLt)).mp (hall i)
    revert hsys hlanes hfrm hsv hgs hlast
    generalize forAll (List.range 64) gpLast { s with sys := { s.sys with goosePending := false } } = t
    exact fun hsys hlanes hfrm hsv hgs hlast => ⟨hsys, hlanes, hfrm, hsv, hgs, nofun, fun _ i => hlast i⟩

theorem doubtGoose_idle {s : State} (hp : s.clk.power = true) (h : s.sys.goosePending = false) :
    exec .doubtGoose s = .next (settle s) := by
  rw [doubtGoose_settles hp]
  unfold doubtGoose
  rw [h, whenever_false]

/-- Settles O46: each command raises its cause as the doubt's own lemmas say, the first time, in doubt and in plinth mode; a
flush under way ends in plinth mode and the last GOOSE messages go out once (R18, R22 to R30, R205, R215, R324, R401). That the
state stays STARTING before the first tick is log 17 (DEDUCED), that the watchdog in plinth mode only adds its bit log 54, and
that DOUBT_GOOSE acts once and in a driving module only log 57: there the clauses say what the model chose. -/
theorem doubtCauses : Obligations.DoubtCauses := by
  unfold Obligations.DoubtCauses
  intro s hp doubt later raises
  refine ⟨fun src h => pfw_raises hp src h, fun src h => pfw_idle hp src h, fun rail => supplyRail_raises hp rail,
    fun h1 h2 => ⟨watchdog_raises hp, watchdog_closes hp (inPlinth_false h1 h2)⟩, fun _ => watchdog_raises hp,
    fun a b => mgmtSramUe_raises hp a b, fun x => clockLoss_raises hp x, fun h => scrub_idle hp h, fun h => scrub_raises hp h,
    fun sid ss h => ⟨_, hostReset_answered h, rfl, fun hl h1 h2 => resetCommanded_first sid hl (inPlinth_false h1 h2),
      fun hl hcyc => resetCommanded_later sid hl hcyc⟩,
    fun h => flushComplete_idle hp h, fun h => flushComplete_plinth hp h, fun h => doubtGoose_idle hp h, fun h => ?_⟩
  obtain ⟨u, hexec, hsys, hlanes, hfrm, hsv, hgs, hquiet, hlast⟩ := doubtGoose_once hp h
  exact ⟨u, hexec, hsys, hlanes, hfrm, hsv, hgs, hquiet, fun hd i => hlast hd i⟩

end Sys2Proof.Proofs

/-! ### A tick of a halted module: a pending step of the time rebases the CAN cycles (R213, R285) -/
namespace Sys2Proof.Proofs

open Sys2Proof Sys2Proof.Machine Sys2Proof.Safety Sys2Proof.Laws

/-- A standby module in doubt, at a tick that is due, with a step of the time pending and no cycle begun on its CAN buses. -/
def stepPending : State :=
  { State.reset with
    clk := { State.reset.clk with power := true, cyc := 0 }
    frm := { State.reset.frm with ticks := 1, state := .halted }
    hsb := { State.hsb0 with role := .standby }
    tim := { State.reset.tim with stepPend := some 0, target := 0 }
    can := ⟨Vector.replicate 4 { State.can0 with lastCycle := none }⟩ }

theorem assertEvw_beside_frm (n : Nat) (s : State) : ∃ f, assertEvw n s = { s with frm := f } := by
  unfold assertEvw; split <;> exact ⟨_, rfl⟩

theorem realignJudge_beside (k : Nat) (s : State) :
    (realignJudge k s).tim.stepPend = s.tim.stepPend ∧ (realignJudge k s).can = s.can := by
  unfold realignJudge
  dsimp only
  split
  · exact ⟨rfl, rfl⟩
  · obtain ⟨f, hf⟩ := assertEvw_beside_frm 37 s
    rw [hf]; exact ⟨rfl, rfl⟩

theorem realignNote_beside (was : Bool) (s : State) :
    (realignNote was s).tim.stepPend = s.tim.stepPend ∧ (realignNote was s).can = s.can := by
  unfold realignNote
  split
  · obtain ⟨v, hv⟩ := note_only 0x5005 srcTIM (un 0x5005 0 s) (un 0x5005 1 s) (un 0x5005 2 s) s
    unfold noteU
    rw [hv]; exact ⟨rfl, rfl⟩
  · exact ⟨rfl, rfl⟩

theorem tickTime_stepPend (k : Nat) (s : State) : (tickTime k s).tim.stepPend = s.tim.stepPend := by
  unfold tickTime modFrm
  exact (realignNote_beside _ _).1.trans (realignJudge_beside k s).1

theorem tickAim_can (k : Nat) {s : State} (h : s.tim.stepPend.isSome = true) :
    (tickAim k s).can = (cyclesRebase (stepApply s)).can := by
  have hjudge : ∀ t, (modTim (fun x => { x with target := nextTarget (realignNote t.tim.realign (realignJudge k t)) k })
      (realignNote t.tim.realign (realignJudge k t))).can = t.can := fun t =>
    (modTim_can _ _).trans ((realignNote_beside _ _).2.trans (realignJudge_beside k t).2)
  unfold tickAim
  rw [if_pos h]
  exact hjudge (cyclesRebase (stepApply s))

theorem cyclesRebase_lastCycle (s : State) : ((cyclesRebase s).can.ctl[0]).lastCycle = some (cycleIndex s 0) := by
  unfold cyclesRebase vmap
  simp only [Vector.getElem_ofFn]

/-- The step is applied, and every controller's cycle counts from the new time. -/
theorem tickAim_lastCycle (k : Nat) {s : State} (h : s.tim.stepPend.isSome = true) :
    ((tickAim k s).can.ctl[0]).lastCycle ≠ none := by
  rw [tickAim_can k h, cyclesRebase_lastCycle]
  exact Option.some_ne_none _

theorem neDoubtTick_tim (k sync : Nat) {s : State} (h : drives s = false) : (neDoubtTick k sync s).tim = s.tim := by
  unfold neDoubtTick
  rw [if_neg (by rw [show drives (pubSettings s) = drives s from rfl, h]; exact fun hd => Bool.false_ne_true hd.1)]
  rfl

theorem haltedTick_lastCycle (k : Nat) {s : State} (hd : drives s = false) (h : s.tim.stepPend.isSome = true) :
    ((haltedTick k s).can.ctl[0]).lastCycle ≠ none := by
  unfold haltedTick
  dsimp only
  refine tickAim_lastCycle k ?_
  rw [tickTime_stepPend]
  refine (congrArg (fun t : Tim => t.stepPend.isSome) (neDoubtTick_tim k _ ?_)).trans h
  exact hd

theorem tick_halted {s : State} (h : s.frm.state = .halted) : tick s = haltedTick (s.frm.k + 1) (newFrame s) :=
  if_neg (by unfold running; rw [h]; decide)

theorem tick_settles {s : State} (hp : s.clk.power = true) (h1 : s.frm.ticks ≠ 0) (h2 : s.frm.state ≠ .starting)
    (h3 : s.tim.target ≤ s.clk.nt * rate s) (h4 : s.clk.cyc % 4 = 0) : exec .tick s = .next (settle (tick s)) := by
  have hdue : (s.frm.ticks ≠ 0 && s.frm.state != .starting && tickDue s) = true := by simp [tickDue, h1, h2, h3, h4]
  show execTick s = _
  unfold execTick
  rw [act_powered _ hp, hdue, whenever_true]

/-- Refutes O47: in a halted module a tick with a step of the time pending applies it and rebases the cycle counts of the CAN
controllers (R213, R285), so that the CAN block is not as before, although no CAN buffer has changed. -/
theorem not_frameEvents : ¬ Obligations.FrameEvents := by
  unfold Obligations.FrameEvents
  intro h
  have hstate := h stepPending rfl
  dsimp only at hstate
  obtain ⟨-, -, -, hhalted, -⟩ := hstate
  have hdue : (0 : Nat) ≤ stepPending.clk.nt * rate stepPending := Nat.zero_le _
  obtain ⟨u, hexec, -, -, -, -, -, hcan, -⟩ := hhalted ⟨by decide, by decide, hdue, rfl⟩ rfl
  have htick : exec .tick stepPending = .next (settle (tick stepPending)) :=
    tick_settles rfl (by decide) (by decide) hdue rfl
  have hu : u = settle (tick stepPending) := (Host.Outcome.next.inj (hexec.symm.trans htick))
  have hlast := haltedTick_lastCycle (stepPending.frm.k + 1) (s := newFrame stepPending) rfl rfl
  rw [← tick_halted (s := stepPending) rfl] at hlast
  rw [hu, settle_can] at hcan
  rw [hcan] at hlast
  exact hlast rfl

end Sys2Proof.Proofs

/-! ### What every step of start-up keeps (R381 to R384) -/
namespace Sys2Proof.Proofs

open Sys2Proof Sys2Proof.Machine Sys2Proof.Safety Sys2Proof.Laws

/-- What start-up leaves as the reset has made it: the queue, the cycle, the command of a reset, the frame's state, the host
link's sessions and owed answer, the supply, and the registers. -/
def startup (s : State) :=
  (s.pending, s.clk.power, s.clk.cyc, s.sys.resetCommanded, s.frm.ticks, s.frm.state, s.hl.sessions, s.hl.owed, s.pwr, s.regs)

theorem startup_of_store {s t : State} (h : besideStore t = besideStore s) : startup t = startup s :=
  (congrArg startup h :)
theorem startup_of_marker {s t : State} (h : besideMarker t = besideMarker s) : startup t = startup s :=
  startup_of_store (besideStore_of h)
theorem startup_of_decode {s t : State} (h : besideDecode t = besideDecode s) : startup t = startup s :=
  (congrArg startup h :)

/-! ### Entries, bits and blocks -/

theorem raiseEntry_startup (e : Entry) (s : State) : startup (raiseEntry e s) = startup s := by
  obtain ⟨v, h⟩ := raiseEntry_only e s; rw [h]; rfl
theorem note_startup (c : BitVec 16) (src : BitVec 8) (a b d : Word) (s : State) : startup (note c src a b d s) = startup s :=
  raiseEntry_startup _ s
theorem assertEvw_startup (n : Nat) (s : State) : startup (assertEvw n s) = startup s := by
  unfold assertEvw; split <;> rfl
theorem modNvs_startup (f : Nvs → Nvs) (s : State) : startup (modNvs f s) = startup s := rfl
theorem modUpd_startup (f : Upd → Upd) (s : State) : startup (modUpd f s) = startup s := rfl
theorem modKey_startup (f : Key → Key) (s : State) : startup (modKey f s) = startup s := rfl
theorem modEvr_startup (f : Evr → Evr) (s : State) : startup (modEvr f s) = startup s := rfl
theorem modEq_startup (f : EqEng → EqEng) (s : State) : startup (modEq f s) = startup s := rfl
theorem modRtc_startup (f : Rtc → Rtc) (s : State) : startup (modRtc f s) = startup s := rfl
theorem nvPut_startup (a : Nat) (bs : List Byte) (s : State) : startup (nvPut a bs s) = startup s := rfl
theorem shPut_startup (a : Nat) (bs : List Byte) (s : State) : startup (shPut a bs s) = startup s := rfl
theorem nvDecode_startup (a n : Nat) (s : State) : startup (nvDecode a n s) = startup s :=
  startup_of_decode (nvDecode_besideDecode a n s)
theorem recordPut_startup (kind : Nat) (j : Word) (s : State) : startup (recordPut kind j s) = startup s :=
  startup_of_marker (recordPut_besideMarker kind j s)
theorem modRecord_startup (f : Upd → Upd) (s : State) : startup (modRecord f s) = startup s := recordPut_startup _ _ _
theorem ringPut_startup (r v : Nat) (s : State) : startup (ringPut r v s) = startup s :=
  startup_of_marker (ringPut_besideMarker r v s)
theorem ringInc_startup (r : Nat) (s : State) : startup (ringInc r s) = startup s := ringPut_startup _ _ _
theorem accept_startup (t : Taken) (s : State) : startup (accept t s) = startup s :=
  startup_of_marker (accept_besideMarker t s)
theorem drainIntake_startup (s : State) : startup (drainIntake s) = startup s :=
  startup_of_marker (drainIntake_besideMarker s)
theorem unpark_startup (ts : List Taken) (s : State) : startup (unpark ts s) = startup s :=
  foldl_keeps (fun s t => accept_startup t s) ts s
theorem pend_startup (r : Rec) (s : State) : startup (pend r s) = startup s := startup_of_marker (pend_besideMarker r s)

/-! ### The store's own steps -/

theorem nvReport_startup (ce unc : List Nat) (s : State) : startup (nvReport ce unc s) = startup s :=
  startup_of_decode (nvReport_besideDecode ce unc s)

theorem readCopies_startup (size : Nat) (places : List Nat) (s : State) : startup (readCopies size places s) = startup s :=
  foldl_keeps (fun s _ => nvDecode_startup _ _ s) places s

theorem recordBad_startup (rid size : Nat) (places : List Nat) (s : State) :
    startup (recordBad rid size places s) = startup s := by
  unfold recordBad
  split
  · exact note_startup _ _ _ _ _ _
  · rfl

theorem recordJudge_startup (kind : Nat) (s : State) : startup (recordJudge kind s) = startup s :=
  (recordBad_startup _ _ _ _).trans (readCopies_startup _ _ s)

theorem ringsScan_startup (s : State) : startup (ringsScan s) = startup s := by
  refine (forAll_keeps (g := startup) (fun r t => ?_) (List.range 8) _).trans (nvDecode_startup nvCOUNTERS 0x20000 s)
  dsimp only
  split
  · exact note_startup _ _ _ _ _ _
  · rfl

theorem journalNote_startup (s : State) : startup (journalNote s) = startup s := by
  unfold journalNote
  split
  · rfl
  · exact note_startup _ _ _ _ _ _
  · exact note_startup _ _ _ _ _ _

theorem alarmNote_startup (s : State) : startup (alarmNote s) = startup s := by
  unfold alarmNote
  split
  · exact raiseEntry_startup _ _
  · rfl

theorem lostNote_startup (s : State) : startup (lostNote s) = startup s := by
  unfold lostNote
  split
  · exact raiseEntry_startup _ _
  · rfl

/-! ### The bank that boots -/

theorem takePending_startup (s : State) : startup (takePending s) = startup s := by
  unfold takePending
  split
  · exact modRecord_startup _ s
  · rfl

theorem rollback_startup (reason : Nat) (s : State) : startup (rollback reason s) = startup s :=
  (note_startup _ _ _ _ _ _).trans (modRecord_startup _ s)

theorem trialStart_startup (s : State) : startup (trialStart s) = startup s := by
  unfold trialStart
  split
  · rfl
  · dsimp only
    split
    · exact (rollback_startup _ _).trans (ringInc_startup _ s)
    · refine (note_startup _ _ _ _ _ _).trans ((modUpd_startup _ _).trans ?_)
      split
      · exact (modRecord_startup _ _).trans (ringInc_startup _ s)
      · exact ringInc_startup _ s

theorem romRecovery_startup (r : ResetIn) (s : State) : startup (romRecovery r s) = startup s := note_startup _ _ _ _ _ _

theorem selectBank_startup (r : ResetIn) (s : State) : startup (selectBank r s) = startup s := by
  unfold selectBank
  dsimp only
  split
  · rfl
  · split
    · split
      · exact rollback_startup 2 s
      · exact (romRecovery_startup r _).trans (rollback_startup 2 s)
    · split
      · exact (note_startup _ _ _ _ _ _).trans ((modUpd_startup _ _).trans (modRecord_startup _ s))
      · exact romRecovery_startup r s

theorem loadParts_startup (s : State) : startup (loadParts s) = startup s := rfl

theorem selfTest_startup (r : ResetIn) (s : State) : startup (selfTest r s) = startup s :=
  forAll_keeps (fun _ _ => note_startup _ _ _ _ _ _) _ _

theorem retireErase_startup (s : State) : startup (retireErase s) = startup s :=
  forAll_keeps (fun _ _ => modKey_startup _ _) _ s

/-! ### Restores -/

theorem readSettings_startup (s : State) : startup (readSettings s) = startup s := rfl

theorem clearEvr_startup (h r o : Nat) (s : State) : startup (clearEvr h r o s) = startup s :=
  (pend_startup _ _).trans (recordPut_startup _ _ _)

theorem ringWrite_startup (s : State) : startup (ringWrite s) = startup s := by
  unfold ringWrite
  split
  · rfl
  · dsimp only
    split
    · exact (pend_startup _ _).trans ((modEvr_startup _ _).trans ((modEvr_startup _ _).trans
        ((ringPut_startup _ _ _).trans (nvPut_startup _ _ s))))
    · exact (modEvr_startup _ _).trans ((ringPut_startup _ _ _).trans (nvPut_startup _ _ s))

theorem restoreSlots_startup (skip n i copied skipped : Nat) (s : State) :
    startup (restoreSlots skip n i copied skipped s).2.2 = startup s := by
  induction n generalizing i copied skipped s with
  | zero => rfl
  | succ n ih =>
    unfold restoreSlots
    dsimp only
    split_ifs
    · exact nvDecode_startup _ _ s
    · exact (ih _ _ _ _).trans (nvDecode_startup _ _ s)
    · exact (ih _ _ _ _).trans ((ringPut_startup _ _ _).trans ((nvPut_startup _ _ _).trans (nvDecode_startup _ _ s)))

theorem evrRestore_startup (marker : Option (Word × Nat)) (s : State) : startup (evrRestore marker s) = startup s := by
  have hsize : ∀ want : Fin 4, startup (match s.evr.size with
      | none => recordPut recRECORDER 0 (modEvr (fun v => { v with size := some want }) s)
      | some old =>
        if old = want then s
        else clearEvr (evrNextN s - evrOldestN s) 1 (Machine.sizeOf old.val) (modEvr (fun v => { v with size := some want }) s))
      = startup s := by
    intro want
    split
    · exact recordPut_startup _ _ _
    · split
      · rfl
      · exact clearEvr_startup _ _ _ _
  have hwrites : ∀ (n : Nat) (t : State), startup ((List.range n).foldl (fun s _ => ringWrite s) t) = startup t :=
    fun n t => foldl_keeps (fun s _ => ringWrite_startup s) _ t
  have hflag : ∀ (n : Nat) (t : State), startup (evrEvt n t) = startup t := fun _ t => modEvr_startup _ t
  unfold evrRestore
  cases marker <;>
  · dsimp only
    simp only [apply_ite startup, hflag, note_startup, restoreSlots_startup, ite_self]
    exact (hwrites _ _).trans (hsize _)

theorem takeSave_startup (x : EqSave) (s : State) : startup (takeSave x s) = startup s := modEq_startup _ s
theorem fillSnaps_startup (s : State) : startup (fillSnaps s) = startup s := modEq_startup _ s
theorem energyGap_startup (q : Word) (s : State) : startup (energyGap q s) = startup s :=
  (note_startup _ _ _ _ _ _).trans (modEq_startup _ s)

theorem restoreEnergy_startup (s : State) : startup (restoreEnergy s) = startup s := by
  have hread : startup (recordBad energyRid 0x3000 ((List.range 5).map savePlace)
      (readCopies 0x3000 ((List.range 5).map savePlace) s)) = startup s :=
    (recordBad_startup _ _ _ _).trans (readCopies_startup _ _ s)
  unfold restoreEnergy
  dsimp only
  revert hread
  generalize recordBad energyRid 0x3000 ((List.range 5).map savePlace)
      (readCopies 0x3000 ((List.range 5).map savePlace) s) = t
  intro hread
  split
  · split
    · exact ((fillSnaps_startup _).trans (takeSave_startup _ t)).trans hread
    · exact hread
  · split
    · exact hread
    · split
      · exact ((fillSnaps_startup _).trans ((energyGap_startup _ _).trans (takeSave_startup _ t))).trans hread
      · exact ((fillSnaps_startup _).trans (energyGap_startup _ t)).trans hread

theorem restoreRetained_startup (s : State) : startup (restoreRetained s) = startup s := by
  have hread : startup (recordBad (ridOf 1) 0x10000 retainPlaces (readCopies 0x10000 retainPlaces s)) = startup s :=
    (recordBad_startup _ _ _ _).trans (readCopies_startup _ _ s)
  unfold restoreRetained
  dsimp only
  revert hread
  generalize recordBad (ridOf 1) 0x10000 retainPlaces (readCopies 0x10000 retainPlaces s) = t
  intro hread
  split
  · exact hread
  · refine (foldl_keeps (g := startup) (fun s v => ?_) _ t).trans hread
    split
    · exact shPut_startup _ _ s
    · rfl

theorem carryEdges_startup (old new : List EdgeInfo) (s : State) : startup (carryEdges old new s) = startup s := rfl

theorem startProgram_startup (bs : List Byte) (code : List (Nat × Nat × Nat)) (a : Armature) (s : State) :
    startup (startProgram bs code a s) = startup s := by
  have hinits : ∀ t, startup (putInits bs [] a.vars t) = startup t := fun t =>
    foldl_keeps (fun s _ => shPut_startup _ _ s) _ t
  have hcode : ∀ (f : State → Nat × Nat × Nat → Ln) (t : State),
      startup (code.foldl (fun s x => { s with ln := f s x }) t) = startup t := fun f t =>
    foldl_keeps (g := startup) (f := fun s x => { s with ln := f s x }) (fun _ _ => rfl) code t
  have hplr : ∀ (t : State) (v : Plr), startup { t with plr := v } = startup t := fun _ _ => rfl
  unfold startProgram
  exact (carryEdges_startup _ _ _).trans ((hinits _).trans ((hplr _ _).trans (hcode _ s)))

theorem refuseProgram_startup (id : Word) (code item : Nat) (s : State) : startup (refuseProgram id code item s) = startup s :=
  note_startup _ _ _ _ _ _

theorem loadProgram_startup (s : State) : startup (loadProgram s) = startup s := by
  unfold loadProgram
  dsimp only
  split
  · rfl
  · split
    · split <;> exact startProgram_startup _ _ _ _
    · split
      · exact refuseProgram_startup _ _ _ s
      · split
        · exact refuseProgram_startup _ _ _ _
        · split
          · exact refuseProgram_startup _ _ _ _
          · exact startProgram_startup _ _ _ _

theorem hsbSend_startup (m : HsbMsg) (s : State) : startup (hsbSend m s) = startup s := by
  unfold hsbSend; split <;> rfl

theorem svLost_startup (i : Nat) (s : State) : startup (svLost i s) = startup s :=
  (assertEvw_startup _ _).trans (rlNote_keeps (g := startup) (fun _ _ => rfl) (fun _ _ => note_startup _ _ _ _ _ _) _ _ _)

theorem gsWait_startup (i : Nat) (s : State) : startup (gsWait i s) = startup s := by
  unfold gsWait gsChanged
  dsimp only
  split
  · rfl
  · exact hsbSend_startup _ _

theorem startStreams_startup (s : State) : startup (startStreams s) = startup s :=
  (forAll_keeps (fun i s => gsWait_startup i s) _ _).trans
    (forAll_keeps (fun i s => (drainIntake_startup _).trans (svLost_startup i s)) _ s)

theorem placerStart_startup (s : State) : startup (placerStart s) = startup s := rfl

/-! ### The backup domain while start-up takes its time -/

theorem rtcEvt_startup (n : Nat) (s : State) : startup (rtcEvt n s) = startup s := modRtc_startup _ s

theorem fireAt_startup (c v : Nat) (s : State) : startup (fireAt c v s) = startup s := by
  unfold fireAt
  simp only [apply_ite startup, assertEvw_startup, rtcEvt_startup, modRtc_startup, ite_self]

theorem shiftApply_startup (d : Int) (s : State) : startup (shiftApply d s) = startup s := by
  have hfire : ∀ (p : Nat → Prop) [DecidablePred p] (c : Nat) (t : State), startup (match t.rtc.alarm with
      | some a => if p a then fireAt c a t else t
      | none => t) = startup t := by
    intro p _ c t
    split
    · split
      · exact fireAt_startup _ _ _
      · rfl
    · rfl
  have hnote : ∀ (c : Prop) [Decidable c] (x : Word) (t : State), startup (if c then note1 0x5023 srcRTC x t else t) = startup t := by
    intro c _ x t
    split
    · exact note_startup _ _ _ _ _ _
    · rfl
  unfold shiftApply
  dsimp only
  split
  · rfl
  · refine (hnote _ _ _).trans ?_
    refine (hfire (fun a => a ≤ _) _ _).trans ((modRtc_startup _ _).trans ((modRtc_startup _ _).trans ?_))
    exact (hfire (fun a => d < 0 ∧ a ≤ s.rtc.count) _ _).trans (modRtc_startup _ s)

theorem tickFirst_startup (s : State) : startup (tickFirst s) = startup s := by
  have hshift : startup (shiftNow s) = startup s := by
    unfold shiftNow
    split
    · split
      · exact shiftApply_startup _ s
      · rfl
    · rfl
  unfold tickFirst alarmNow
  split
  · split
    · exact (fireAt_startup _ _ _).trans hshift
    · exact hshift
  · exact hshift

theorem modTamp_startup (n : Nat) (f : Tamper → Tamper) (s : State) : startup (modTamp n f s) = startup s := modRtc_startup _ s

theorem tampSample_startup (closed : BitVec 3) (n : Nat) (s : State) : startup (tampSample closed n s) = startup s := by
  unfold tampSample
  simp only [apply_ite startup, assertEvw_startup, modTamp_startup, ite_self]

theorem tampAll_startup (closed : BitVec 3) (s : State) : startup (tampAll closed s) = startup s :=
  (forAll_keeps (fun n s => tampSample_startup closed n s) _ _).trans ((modRtc_startup _ _).trans (tickFirst_startup s))

theorem rtcEvent_startup (closed : BitVec 3) (s : State) : startup (rtcEvent closed s) = startup s := by
  have hwrites : ∀ (ws : List DomWrite) (t : State),
      startup (ws.foldl (fun s x => modRtc (domDone x.reg) s) t) = startup t := fun ws t =>
    foldl_keeps (fun _ _ => modRtc_startup _ _) ws t
  unfold rtcEvent
  dsimp only
  split
  · exact (tampAll_startup _ _).trans ((hwrites _ _).trans (tickFirst_startup s))
  · exact (hwrites _ _).trans (tickFirst_startup s)

theorem rtcRun_startup (closed : BitVec 3) (fuel n : Nat) (s : State) : startup (rtcRun closed fuel n s) = startup s := by
  have hgo : ∀ fuel n k s, startup (rtcRun.go closed fuel n k s) = startup s := by
    intro fuel
    induction fuel with
    | zero => exact fun n k s => modRtc_startup _ s
    | succ fuel ih =>
      intro n k s
      unfold rtcRun.go
      dsimp only
      split
      · exact modRtc_startup _ s
      · exact (ih _ _ _).trans ((rtcEvent_startup _ _).trans (modRtc_startup _ s))
  exact hgo fuel n 0 s

theorem bootTime_startup (r : ResetIn) (s : State) : startup (bootTime r s) = startup s := by
  have hpass : ∀ (a b : Nat) (x : Rtc) (y : Tim),
      startup { s with clk := { s.clk with opSec := a, opCyc := b }, rtc := x, tim := y } = startup s := fun _ _ _ _ => rfl
  simp only [bootTime, rtcRun_startup, hpass]

theorem epochStart_startup (s : State) : startup (epochStart s) = startup s := by
  have htime : ∀ (n : Nat) (x : Rtc), startup { s with clk := { s.clk with nt := n }, rtc := x } = startup s := fun _ _ => rfl
  unfold epochStart
  split
  · split
    · exact htime _ s.rtc
    · exact htime _ _
  · exact htime _ s.rtc

end Sys2Proof.Proofs

/-! ### The start-up as a whole (R30, R321, R381, R402) -/
namespace Sys2Proof.Proofs

open Sys2Proof Sys2Proof.Machine Sys2Proof.Safety Sys2Proof.Laws

/-- A module that is starting up: at lane cycle 0, before its first tick, with no session and no reset commanded, its queue and
registers given. -/
def StartsUp (p : List Instr) (g : List (Nat × Word)) (s : State) : Prop :=
  startup s = (p, true, 0, false, 0, .starting, Vector.replicate 4 none, none, State.reset.pwr, g)

section
variable {p : List Instr} {g : List (Nat × Word)} {s : State}

theorem StartsUp.sessions (h : StartsUp p g s) : s.hl.sessions = Vector.replicate 4 none :=
  (congrArg (fun x => x.2.2.2.2.2.2.1) h :)
theorem StartsUp.owed (h : StartsUp p g s) : s.hl.owed = none := (congrArg (fun x => x.2.2.2.2.2.2.2.1) h :)
theorem StartsUp.ticks (h : StartsUp p g s) : s.frm.ticks = 0 := (congrArg (fun x => x.2.2.2.2.1) h :)
theorem StartsUp.state (h : StartsUp p g s) : s.frm.state = .starting := (congrArg (fun x => x.2.2.2.2.2.1) h :)
theorem StartsUp.commanded (h : StartsUp p g s) : s.sys.resetCommanded = false := (congrArg (fun x => x.2.2.2.1) h :)

theorem StartsUp.pending (h : StartsUp p g s) : s.pending = p := (congrArg Prod.fst h :)
theorem StartsUp.power (h : StartsUp p g s) : s.clk.power = true := (congrArg (fun x => x.2.1) h :)
theorem StartsUp.cyc (h : StartsUp p g s) : s.clk.cyc = 0 := (congrArg (fun x => x.2.2.1) h :)
theorem StartsUp.pfw (h : StartsUp p g s) : s.pwr.pfw = none := (congrArg (fun x => x.2.2.2.2.2.2.2.2.1.pfw) h :)
theorem StartsUp.regs (h : StartsUp p g s) : s.regs = g := (congrArg (fun x => x.2.2.2.2.2.2.2.2.2) h :)

theorem StartsUp.same {t : State} (h : StartsUp p g s) (ht : startup t = startup s) : StartsUp p g t := ht.trans h

/-! ### Steps that find no session and no answer owed -/

theorem forAll_fixed {σ : Type} {f : Nat → σ → σ} {s : σ} (h : ∀ i, f i s = s) (is : List Nat) : forAll is f s = s := by
  induction is with
  | nil => rfl
  | cons i is ih => exact (congrArg (forAll is f) (h i)).trans ih

theorem session_none (h : s.hl.sessions = Vector.replicate 4 none) (sid : Nat) : session sid s = none := by
  unfold session vget
  rw [h]
  split
  · exact Vector.getElem_replicate _
  · rfl

theorem closeUnfit_none (h : s.hl.sessions = Vector.replicate 4 none) : closeUnfit s = s := by
  unfold closeUnfit
  exact forAll_fixed (fun sid => by rw [session_none h sid]) _

theorem answerOwed_none (r : Res) (h : s.hl.owed = none) : answerOwed r s = s := by
  unfold answerOwed; rw [h]

theorem answerOwed_startsUp (r : Res) (h : StartsUp p g s) : StartsUp p g (answerOwed r s) := by
  rw [answerOwed_none r h.owed]; exact h

theorem eraseSlot_startup (i : Nat) (s : State) : startup (eraseSlot i s) = startup s := modKey_startup _ s

theorem abortOps_startsUp (h : StartsUp p g s) : StartsUp p g (abortOps s) := by
  have hop : ∀ t : State, startup (match t.key.op with
      | none => t
      | some o => keyEvt 3 (note 0xB031 srcKEY (w o.op) (w o.slot) 0
          (modKey (fun k => { k with op := none, opState := .aborted }) t))) = startup t := by
    intro t
    split
    · rfl
    · exact (modKey_startup _ _).trans ((note_startup _ _ _ _ _ _).trans (modKey_startup _ t))
  have hsess : ∀ t : State, startup (if t.upd.sess = .verifying then modUpd (fun u => { u with sess := .downloaded }) t else t)
      = startup t := by
    intro t; split <;> rfl
  have hboth := h.same ((hsess _).trans (hop s))
  unfold abortOps
  dsimp only
  split
  · exact hboth
  · rename_i x _
    have herase : ∀ (c : Bool) (t : State), startup (if c = true then eraseSlot x.slot t else t) = startup t := by
      intro c t
      split
      · exact eraseSlot_startup _ t
      · rfl
    exact answerOwed_startsUp _ (hboth.same ((herase _ _).trans (modKey_startup _ _)))

theorem tamperSlots_startup (s : State) : startup (tamperSlots s) = startup s :=
  (modKey_startup _ _).trans (forAll_keeps eraseSlot_startup _ s)

theorem tamperAct_startsUp (h : StartsUp p g s) : StartsUp p g (tamperAct s) := by
  unfold tamperAct
  dsimp only
  split
  · exact h
  · have habort : StartsUp p g (abortOps
        { s with rtc := { s.rtc with tamp := s.rtc.tamp.map fun t => { t with acted := t.acted || t.latched } } }) :=
      abortOps_startsUp (h.same rfl)
    have hrecords := habort.same ((forAll_keeps (g := startup) (f := tamperRecord) (fun n s => raiseEntry_startup _ s)
      (tampNew s) _).trans ((modKey_startup (fun k => { k with evt := setBit k.evt 1 }) _).trans (tamperSlots_startup _)))
    rw [show ∀ t, keyEvt 1 t = modKey (fun k => { k with evt := setBit k.evt 1 }) t from fun _ => rfl,
      closeUnfit_none hrecords.sessions]
    exact hrecords

theorem bootTamper_startsUp (good : Bool) (h : StartsUp p g s) : StartsUp p g (bootTamper good s) :=
  tamperAct_startsUp (h.same rfl)

theorem recheck_startsUp (i : Nat) (h : StartsUp p g s) : StartsUp p g (recheck i s) := by
  unfold recheck
  dsimp only
  split
  · unfold foundBad
    have hnote := h.same ((modKey_startup (fun k => { k with evt := setBit k.evt 0 }) _).trans
      ((note_startup 0xB001 srcKEY (w i) (keySlot s i).attr 0 _).trans
        (modKey_startup (fun k => { k with slots := vmod k.slots i fun k => { k with state := .bad } }) s)))
    exact (congrArg (StartsUp p g) (closeUnfit_none hnote.sessions)).mpr hnote
  · exact h.same (modKey_startup _ s)

/-! ### A doubt before the first tick -/

theorem laterDoubt_startup (bit : Nat) (code : BitVec 16) (s : State) : startup (laterDoubt bit code s) = startup s := by
  unfold laterDoubt; dsimp only; split <;> rfl

theorem moduleDoubt_startsUp (bit : Nat) (code : BitVec 16) (src : BitVec 8) (a b c : Word) (h : StartsUp p g s) :
    StartsUp p g (moduleDoubt bit code src a b c s) := by
  by_cases hfirst : s.sys.latched = false ∧ inPlinth s = false
  · obtain ⟨hl, hp⟩ := hfirst
    have hbeside := moduleDoubt_besideDoubt bit code src a b c s
    have hsys := moduleDoubt_sys_first bit code src a b c hl hp
    obtain ⟨-, -, -, -, hstate, -, -⟩ := moduleDoubt_first bit code src a b c s hl hp
    have hstarting : stateInDoubt s = s.frm.state := (if_pos h.ticks).trans h.state.symm
    have hkept : startup { moduleDoubt bit code src a b c s with
        sys := State.sys0, frm := { (moduleDoubt bit code src a b c s).frm with state := .starting } }
        = startup { s with sys := State.sys0, frm := { s.frm with state := .starting } } := (congrArg startup hbeside :)
    refine h.same ?_
    have hcommanded : (moduleDoubt bit code src a b c s).sys.resetCommanded = s.sys.resetCommanded := by rw [hsys]; rfl
    have hfrm : (moduleDoubt bit code src a b c s).frm.state = s.frm.state := hstate.trans hstarting
    unfold startup at hkept ⊢
    simp only [Prod.mk.injEq] at hkept ⊢
    obtain ⟨h1, h2, h3, -, h5, -, h7, h8, h9, h10⟩ := hkept
    exact ⟨h1, h2, h3, hcommanded, h5, hfrm, h7, h8, h9, h10⟩
  · refine h.same ?_
    unfold moduleDoubt
    refine (raiseEntry_startup _ _).trans ?_
    split
    · rfl
    · split
      · exact laterDoubt_startup _ _ s
      · rename_i hp hl
        exact absurd ⟨by simpa using hl, by simpa using hp⟩ hfirst

theorem checkLoad_startsUp (h : StartsUp p g s) : StartsUp p g (checkLoad s) := by
  unfold checkLoad
  split
  · exact moduleDoubt_startsUp _ _ _ _ _ _ h
  · exact h

theorem selfTestFail_startsUp (r : ResetIn) (h : StartsUp p g s) : StartsUp p g (selfTestFail r s) := by
  unfold selfTestFail
  split
  · exact h
  · rename_i step arg _
    have hdoubt := moduleDoubt_startsUp causeSelfTest (BitVec.ofNat 16 (0xD010 + step)) srcUPD (w step) arg 0 h
    dsimp only
    split
    · exact hdoubt.same (modRecord_startup _ _)
    · exact hdoubt

/-! ### The steps in order -/

theorem parked_startsUp {f : State → State} (hf : ∀ s, StartsUp p g s → StartsUp p g (f s)) {x : List Taken × State}
    (h : StartsUp p g x.2) : StartsUp p g (parked f x).2 := (hf x.2 h).same (modEvr_startup _ _)

theorem parked_keeps {f : State → State} (hf : ∀ s, startup (f s) = startup s) {x : List Taken × State}
    (h : StartsUp p g x.2) : StartsUp p g (parked f x).2 := parked_startsUp (fun s hs => hs.same (hf s)) h

theorem parkedAll_startsUp {f : Nat → State → State} (hf : ∀ i s, StartsUp p g s → StartsUp p g (f i s)) (is : List Nat)
    {x : List Taken × State} (h : StartsUp p g x.2) : StartsUp p g (parkedAll is f x).2 := by
  induction is generalizing x with
  | nil => exact h
  | cons i is ih => exact ih (parked_startsUp (hf i) h)

/-- The end of the steps, of a module that boots and of one in ROM recovery. -/
theorem bootEnd_startsUp (r : ResetIn) {x : List Taken × State} (h : StartsUp p g x.2) : StartsUp p g
    (if x.2.upd.recovery then x
      else parkedAll [recCHISEL, recSETTINGS, recRECORDER, recROLES] recordJudge (parked (selfTest r) x)).2 := by
  split
  · exact h
  · exact parkedAll_startsUp (fun k _ hs => hs.same (recordJudge_startup k _)) _ (parked_keeps (selfTest_startup r) h)

theorem bootSteps_startsUp (r : ResetIn) (good : Bool) (ce unc : List Nat) (h : StartsUp p g s) :
    StartsUp p g (bootSteps r good ce unc s).2 := by
  have hretire : ∀ t, startup (if lifecycle t = 3 then retireErase t else t) = startup t := by
    intro t
    split
    · exact retireErase_startup t
    · rfl
  unfold bootSteps
  dsimp only
  refine bootEnd_startsUp r (parked_keeps loadParts_startup ?_)
  refine parkedAll_startsUp (fun i _ => recheck_startsUp i) (List.range 64) (parked_keeps (fun t => modKey_startup _ t) ?_)
  refine parked_keeps (selectBank_startup r) (parked_keeps trialStart_startup (parked_keeps takePending_startup
    (parked_keeps (recordJudge_startup recUPDATE) ?_)))
  refine parked_keeps hretire ?_
  refine parked_keeps lostNote_startup (parked_keeps alarmNote_startup ?_)
  refine parked_startsUp (f := bootTamper good) (fun _ hs => bootTamper_startsUp good hs) ?_
  refine parked_keeps journalNote_startup ?_
  exact parked_keeps (ringInc_startup ringPOWER)
    (parked_keeps ringsScan_startup (parked_keeps (nvReport_startup ce unc) h))

theorem bootRestore_startsUp (r : ResetIn) (marker : Option (Word × Nat)) (ts : List Taken) (h : StartsUp p g s) :
    StartsUp p g (bootRestore r marker ts s) := by
  have hretired : ∀ t, startup (if lifecycle t = 3 then { t with sys := { t.sys with retired := true } } else t) = startup t := by
    intro t; split <;> rfl
  have hrecorder := h.same ((drainIntake_startup _).trans ((unpark_startup ts _).trans
    ((evrRestore_startup marker _).trans (readSettings_startup s))))
  have henergy := hrecorder.same ((drainIntake_startup _).trans (restoreEnergy_startup _))
  have hprogram := henergy.same ((startStreams_startup _).trans ((drainIntake_startup _).trans (loadProgram_startup _)))
  have hretained := hprogram.same ((hretired _).trans ((placerStart_startup _).trans
    ((drainIntake_startup _).trans (restoreRetained_startup _))))
  unfold bootRestore
  exact (selfTestFail_startsUp r (checkLoad_startsUp hretained)).same (drainIntake_startup _)

end

/-! ### The state that a reset starts from -/

theorem bootBase_startsUp (r : ResetIn) (s : State) : StartsUp s.pending (settingsValue s).1 (bootBase r s) := by
  unfold StartsUp bootBase
  generalize settingsValue s = v
  rfl

theorem nvFound_startup (r : ResetIn) (s : State) : startup (nvFound r s) = startup s := modNvs_startup _ s

theorem settleJournal_startup (s : State) : startup (settleJournal s) = startup s := by
  have hrollback : ∀ t, startup (journalRollback t) = startup t := fun t =>
    (modNvs_startup _ _).trans ((nvPut_startup _ _ _).trans (foldl_keeps (fun _ _ => nvPut_startup _ _ _) _ t))
  have hcommit : ∀ t, startup (if t.nvs.jop.isSome then journalCommit t else nvPut (nvJOURNAL + 8) (leBytes 8 2) t) = startup t := by
    intro t
    split
    · exact startup_of_marker (journalCommit_besideMarker t)
    · rfl
  have hjrnl := modNvs_startup (fun v => { v with jrnl := 0 }) s
  unfold settleJournal
  dsimp only
  split
  · split
    · exact (modNvs_startup _ _).trans hjrnl
    · exact ((modNvs_startup _ _).trans (nvPut_startup _ _ _)).trans hjrnl
  · split
    · exact (modNvs_startup _ _).trans ((modNvs_startup _ _).trans hjrnl)
    · split
      · exact (modNvs_startup _ _).trans ((hcommit _).trans ((modNvs_startup _ _).trans hjrnl))
      · exact (hrollback _).trans ((modNvs_startup _ _).trans hjrnl)

theorem readMarker_startup (s : State) : startup (readMarker s).2 = startup s := by
  unfold readMarker
  dsimp only
  split
  · exact (nvPut_startup _ _ _).trans (modNvs_startup _ s)
  · exact modNvs_startup _ s

/-- The store as start-up reads it: its journal settled, its marker read. -/
def storeRead (r : ResetIn) (s : State) : State := (readMarker (settleJournal (nvFound r s))).2

theorem storeRead_pending (r : ResetIn) (s : State) : (storeRead r s).pending = s.pending :=
  (congrArg Prod.fst ((readMarker_startup _).trans ((settleJournal_startup _).trans (nvFound_startup r s))) :)

theorem settingsValue_stored (s : State) : ∀ x ∈ (settingsValue s).1, storedRow x.1 = true := by
  unfold settingsValue
  split
  · exact fun x hx => (List.mem_filter.mp hx).2
  · exact fun x hx => absurd hx List.not_mem_nil

theorem boot_startsUp (r : ResetIn) (s : State) : StartsUp s.pending (settingsValue (storeRead r s)).1 (boot r s) := by
  have hbase := bootBase_startsUp r (storeRead r s)
  rw [storeRead_pending] at hbase
  have hrest : ∀ (marker : Option (Word × Nat)) (x : List Taken × State),
      StartsUp s.pending (settingsValue (storeRead r s)).1 x.2 → StartsUp s.pending (settingsValue (storeRead r s)).1
        (if x.2.upd.recovery then drainIntake (unpark x.1 x.2) else bootRestore r marker x.1 x.2) := by
    intro marker x hx
    split
    · exact hx.same ((drainIntake_startup _).trans (unpark_startup _ _))
    · exact bootRestore_startsUp r marker x.1 hx
  have hlast : ∀ t, startup (settle (modNvs (fun v => { v with retSec := t.clk.opSec, opStoreSec := t.clk.opSec })
      (modUpd (fun u => { u with bootMs := if t.sys.latched then 0 else r.bootMs })
        { t with att := ⟨0, Vector.replicate 4 0, 0x0008#16⟩ }))) = startup t := fun _ => rfl
  have hcan : ∀ t, startup (cyclesRebase t) = startup t := fun _ => rfl
  unfold boot bootStore
  dsimp only
  refine StartsUp.same ?_
    ((hlast _).trans ((hcan _).trans ((epochStart_startup _).trans (bootTime_startup r _))))
  exact hrest _ _ (bootSteps_startsUp r _ _ _ hbase)

end Sys2Proof.Proofs

/-! ### A flush cut short, and the resets (R30, R315, R326, R381, R401, R402) -/
namespace Sys2Proof.Proofs

open Sys2Proof Sys2Proof.Machine Sys2Proof.Safety Sys2Proof.Laws

theorem forAll_keeps_mem {σ α : Type} {g : σ → α} {f : Nat → σ → σ} {is : List Nat} (h : ∀ i ∈ is, ∀ s, g (f i s) = g s) (s : σ) :
    g (forAll is f s) = g s := by
  induction is generalizing s with
  | nil => rfl
  | cons i is ih =>
    exact (ih (fun j hj => h j (List.mem_cons_of_mem _ hj)) (f i s)).trans (h i List.mem_cons_self s)

theorem nvBytes_length (s : State) (a n : Nat) : (nvBytes s a n).length = n := sgets_length _ _ _ _

/-- The bytes of the marker, one by one. -/
theorem nvByte_of_marker {s t : State} (h : nvBytes t nvMARKER 64 = nvBytes s nvMARKER 64) {a : Nat} (h1 : nvMARKER ≤ a)
    (h2 : a < nvMARKER + 64) : nvByte t a = nvByte s a := by
  have hget : ∀ u : State, (nvBytes u nvMARKER 64)[a - nvMARKER]? = some (nvByte u a) := by
    intro u
    have hlt : a - nvMARKER < (nvBytes u nvMARKER 64).length := by rw [nvBytes_length]; omega
    rw [List.getElem?_eq_getElem hlt]
    refine congrArg some ((sgets_getElem _ _ _ _ _ hlt).trans ?_)
    exact congrArg (sget zeroByte u.nvs.mem) (by omega)
  exact Option.some.inj ((hget t).symm.trans ((congrArg (·[a - nvMARKER]?) h).trans (hget s)))

/-- A group that a part changes lies beside the marker, where the part leaves the marker's bytes alone. -/
theorem groupReached_beside {cut : PowerCut} {s t : State} {g : Nat} (h : groupReached cut s t g = true)
    (hm : nvBytes t nvMARKER 64 = nvBytes s nvMARKER 64) : nvMARKER + 64 ≤ g ∨ g + 8 ≤ nvMARKER := by
  unfold groupReached at h
  simp only [Bool.and_eq_true, beq_iff_eq, Bool.not_eq_true'] at h
  obtain ⟨⟨hg, hdiff⟩, -⟩ := h
  by_contra hin
  have hmark : nvMARKER = 0x4400 := rfl
  have hsame : nvBytes s g 8 = nvBytes t g 8 :=
    sgets_congr fun j h1 h2 => (nvByte_of_marker hm (by omega) (by omega)).symm
  unfold groupSame at hdiff
  rw [hsame, beq_self_eq_true] at hdiff
  exact Bool.noConfusion hdiff

theorem tornPart_besideStore (cut : PowerCut) (s t : State) : besideStore (tornPart cut s t) = besideStore s := by
  unfold tornPart
  refine (forAll_keeps (g := besideStore) (fun g u => ?_) _ _).trans
    (forAll_keeps (g := besideStore) (fun g u => nvPut_besideStore g (nvBytes t g 8) u) _ s)
  rfl

theorem tornPart_besideMarker (cut : PowerCut) {s t : State} (h : nvBytes t nvMARKER 64 = nvBytes s nvMARKER 64) :
    besideMarker (tornPart cut s t) = besideMarker s := by
  have hwritten : besideMarker (forAll (cut.written.filter (groupReached cut s t)) (fun g x => nvPut g (nvBytes t g 8) x) s)
      = besideMarker s := by
    refine forAll_keeps_mem (fun g hg u => nvPut_besideMarker ?_ u) s
    rw [nvBytes_length]
    exact groupReached_beside (List.mem_filter.mp hg).2 h
  unfold tornPart
  refine (forAll_keeps_mem (g := besideMarker) (fun g hg u => ?_) _).trans hwritten
  refine (modNvs_besideMarker (fun _ => rfl) _).trans (nvPut_besideMarker ?_ u)
  rw [List.length_map, List.length_range]
  exact groupReached_beside (Bool.and_eq_true_iff.mp (List.mem_filter.mp hg).2).1 h

theorem flushBefore_besideMarker (n : Nat) (s : State) : besideMarker (flushBefore n s) = besideMarker s := by
  unfold flushBefore
  split
  · refine (nvPut_besideMarker (.inr ?_) _).trans (flushPart_besideMarker (by decide) s)
    rw [nvBytes_length]; decide
  · rfl

/-- Lanes, frame and memory stand as they are when a flush is cut short. -/
theorem flushCut_besideStore (cut : PowerCut) (s : State) : besideStore (flushCut cut s) = besideStore s := by
  unfold flushCut
  exact (tornPart_besideStore _ _ _).trans
    ((besideStore_of (flushBefore_besideMarker _ _)).trans (flushUpTo_besideStore _ s))

/-- Before its last part no byte of the marker is written. -/
theorem flushCut_besideMarker {cut : PowerCut} (h : cut.parts < 4) (s : State) :
    besideMarker (flushCut cut s) = besideMarker s := by
  have hn : min 4 cut.parts < 4 := by omega
  have hup : besideMarker (flushUpTo (min 4 cut.parts) s) = besideMarker s := by
    unfold flushUpTo
    refine (forAll_keeps_mem (fun i hi u => flushPart_besideMarker ?_ u) _).trans (drainIntake_besideMarker s)
    have := List.mem_range.mp hi
    omega
  have hbefore := flushBefore_besideMarker (min 4 cut.parts) (flushUpTo (min 4 cut.parts) s)
  have hpart := flushPart_besideMarker hn (flushUpTo (min 4 cut.parts) s)
  unfold flushCut
  exact (tornPart_besideMarker cut (congrArg Prod.snd (hpart.trans hbefore.symm))).trans (hbefore.trans hup)

/-! ### Power loss -/

/-- The hold-up store can have run out. -/
theorem holdUpOver_iff (s : State) : holdUpOver s = true ↔ s.pwr.pfw ≠ none ∧ s.pwr.since + 8 * cycMs ≤ s.clk.cyc := by
  unfold holdUpOver
  rw [Bool.and_eq_true, decide_eq_true_iff, Option.isSome_iff_ne_none]

theorem powerDown_settles {s : State} (hp : s.clk.power = true) :
    exec .powerDown s = .next (settle (whenever (holdUpOver s) powerLost s)) := by
  show execPowerDown s = _
  unfold execPowerDown
  exact act_powered _ hp

theorem powerDown_off {s : State} (hp : s.clk.power = false) : exec .powerDown s = .next s := by
  show execPowerDown s = _
  unfold execPowerDown
  exact act_off _ hp

theorem powerLost_whole {s : State} (h : s.sys.flush = .none) :
    powerLost s = { s with clk := { s.clk with power := false } } := by
  unfold powerLost; rw [h]; rfl

theorem powerLost_cut {s : State} (h : s.sys.flush ≠ .none) :
    powerLost s = { flushCut (cutOf s) s with clk := { (flushCut (cutOf s) s).clk with power := false } } := by
  unfold powerLost
  rw [if_neg (by simpa using h)]

/-- Power lost while a flush is under way. -/
theorem powerLost_flushing {s : State} (h : s.sys.flush ≠ .none) :
    (powerLost s).clk = { s.clk with power := false } ∧ (powerLost s).sys = s.sys ∧ (powerLost s).lanes = s.lanes
    ∧ (powerLost s).frm = s.frm ∧ (powerLost s).mem = s.mem ∧ (powerLost s).rtc = s.rtc
    ∧ (4 ≤ (cutOf s).parts ∨ ∀ a, 0x4400 ≤ a → a < 0x4440 → nvByte (powerLost s) a = nvByte s a) := by
  rw [powerLost_cut h]
  have hmarker : 4 ≤ (cutOf s).parts ∨ nvBytes (flushCut (cutOf s) s) nvMARKER 64 = nvBytes s nvMARKER 64 :=
    (Nat.lt_or_ge (cutOf s).parts 4).symm.imp_right fun hlt => congrArg Prod.snd (flushCut_besideMarker hlt s)
  have hstore := flushCut_besideStore (cutOf s) s
  revert hmarker hstore
  generalize flushCut (cutOf s) s = t
  intro hmarker hstore
  refine ⟨congrArg (fun c : Clk => { c with power := false }) (congrArg State.clk hstore :), (congrArg State.sys hstore :),
    (congrArg State.lanes hstore :), (congrArg State.frm hstore :), (congrArg State.mem hstore :),
    (congrArg State.rtc hstore :), hmarker.imp_right fun hm a h1 h2 => nvByte_of_marker hm h1 h2⟩

/-! ### The resets -/

theorem moduleReset_next (r : ResetIn) (s : State) :
    exec (.moduleReset r) s = .next (if resetDue s then boot r s else s) := rfl

theorem supplyReturnReset_next (r : ResetIn) (s : State) :
    exec (.supplyReturnReset r) s = .next (if returnDue s then boot r s else s) := rfl

theorem resetDue_iff (s : State) :
    resetDue s = true ↔ s.clk.power = false ∨ s.sys.resetCommanded = true ∧ s.sys.flush = .none := by
  unfold resetDue
  simp only [Bool.or_eq_true, Bool.not_eq_true', Bool.and_eq_true, beq_iff_eq]

theorem returnDue_iff (s : State) :
    returnDue s = true ↔ s.clk.power = true ∧ s.pwr.pfw ≠ none ∧ s.sys.flushed = true
      ∧ s.sys.flushedCyc + 100 * cycMs ≤ s.clk.cyc ∧ s.pwr.since + 100 * cycMs ≤ s.clk.cyc := by
  have hmax : max s.sys.flushedCyc s.pwr.since + 100 * cycMs ≤ s.clk.cyc
      ↔ s.sys.flushedCyc + 100 * cycMs ≤ s.clk.cyc ∧ s.pwr.since + 100 * cycMs ≤ s.clk.cyc := by omega
  unfold returnDue
  rw [Bool.and_eq_true, Bool.and_eq_true, Bool.and_eq_true, decide_eq_true_iff, Option.isSome_iff_ne_none, hmax]
  simp only [and_assoc]

/-- Settles O45: a reset that is due leaves what `boot_startsUp` says, the others nothing changed; power that goes leaves
everything, or a flush cut short (R30, R226, R321, R367, R381, R400 to R402). The 100 ms counted from PFW and the marker are
log 55 and 65 (DEDUCED), the settings read from their parsed record log 45, the cut flush log 46 and the unpowered state log 55:
there the clauses say what the model chose. -/
theorem resets : Obligations.Resets := by
  unfold Obligations.Resets
  intro r s restarts commanded returned
  have hboot : ∀ o, o = .next (boot r s) → restarts o := by
    intro o ho
    have h := boot_startsUp r s
    refine ⟨boot r s, ho, h.power, h.cyc, h.ticks, ?_, h.pfw, h.commanded, h.pending, h.sessions, h.regs, ?_⟩
    · rw [h.state]; decide
    · rw [h.regs]; exact settingsValue_stored _
  refine ⟨fun h => hboot _ ?_, fun hp h => ?_, fun h => hboot _ ?_, fun h => ?_, fun hp hs hf => ?_, fun hp hs hf => ?_,
    fun hp hs => ?_, powerDown_off⟩
  · rw [moduleReset_next, if_pos ((resetDue_iff s).mpr h)]
  · rw [moduleReset_next, if_neg]
    exact fun hd => ((resetDue_iff s).mp hd).elim (fun h0 => Bool.noConfusion (hp.symm.trans h0)) h
  · rw [supplyReturnReset_next, if_pos ((returnDue_iff s).mpr h)]
  · rw [supplyReturnReset_next, if_neg (fun hd => h ((returnDue_iff s).mp hd))]
  · exact (powerDown_settles hp).trans (by rw [(holdUpOver_iff s).mpr hs, whenever_true, powerLost_whole hf])
  · exact ⟨settle (powerLost s), (powerDown_settles hp).trans (by rw [(holdUpOver_iff s).mpr hs, whenever_true]),
      powerLost_flushing hf⟩
  · exact (powerDown_settles hp).trans
      (by rw [Bool.eq_false_iff.mpr (fun hd => hs ((holdUpOver_iff s).mp hd)), whenever_false])

end Sys2Proof.Proofs

/-! ### O43: the module after reset (R3, R41, R76, R162, R212, R228, R287, R293, R367, R372, R373) -/
namespace Sys2Proof.Proofs

open Sys2Proof Sys2Proof.Machine Sys2Proof.Safety Sys2Proof.Laws

/-- Every lane starts as `lane0`, every CAN controller as `can0`, every transfer slot as `te0`. -/
theorem reset_lane (i : Fin 16) : State.reset.lanes[i.val] = State.lane0 := Vector.getElem_replicate _
theorem reset_can (i : Fin 4) : State.reset.can.ctl[i.val] = State.can0 := Vector.getElem_replicate _
theorem reset_te (i : Fin 256) : State.reset.mem.te[i.val] = State.te0 := Vector.getElem_replicate _

/-- No register has been written, so each reads its reset value. -/
theorem reset_reg (a : Nat) : reg a State.reset = regReset a := rfl

/-- Of the sources of STATUS the role ALONE alone stands (R372): no tamper input is latched, no key slot is BAD. -/
theorem reset_status : status State.reset = 0x0008 := by decide

/-- Settles O43: the factory module before its first tick, field by field (R3, R41, R76, R162, R212, R228, R287, R293, R367,
R373 and the register tables). That no program is placed is the model's choice (log entry 3), as is the 0 of a register to which
the manual gives no reset value (log entry 6). -/
theorem resetState : Obligations.ResetState := by
  obtain ⟨hshared, hprog, hscratch, hnvs, hnor, -⟩ := (memory_wf_iff State.reset).mp memory_wf_reset
  refine ⟨rfl, rfl, rfl, rfl, rfl, rfl, reset_status, fun _ => reset_status.symm, rfl, rfl, rfl, rfl, rfl, rfl,
    fun i => ⟨?_, ?_, hscratch i⟩, rfl, rfl, fun i => ?_, fun i => ?_, reset_reg, hshared, hprog, hnvs, hnor⟩
  · rw [reset_lane]; rfl
  · rw [reset_lane]; rfl
  · rw [reset_can]; rfl
  · rw [reset_te]; rfl

end Sys2Proof.Proofs

/-! ### O21: reads that latch, draw or clear, and the clearing commands (R34, R39, R45, R50, R76, R175, R210, R350, R373) -/
namespace Sys2Proof.Proofs

open Sys2Proof Sys2Proof.Machine Sys2Proof.Safety Sys2Proof.Laws

/-! #### What each read answers and leaves -/

/-- A capture of network time drops the odd nanosecond (R210): its nanoseconds within the second are even. -/
theorem ntCap_ns (s : State) : ntCap s % ntSec / ntNs = s.clk.nt % 10 ^ 19 / 10 ^ 10 / 2 * 2 := by
  unfold ntCap ntSec ntNs
  omega

theorem timNowOp_eq (s : State) : timNowOp s = (w (s.clk.nt % 10 ^ 19 / 10 ^ 10 / 2 * 2),
    { s with tim := { s.tim with nowShadow := s.clk.nt / 10 ^ 19 % 2 ^ 48 } }) := by
  unfold timNowOp; rw [ntCap_ns]; rfl

/-- The bits risen for a session are read and cleared; STATUS that is current adds none (R373). -/
theorem attnRoseOp_current (sid : Fin 4) {s : State} (h : s.att.last = status s) :
    attnRoseOp sid.val s = (BitVec.setWidth 32 s.att.rose[sid.val],
      { s with att := { s.att with rose := s.att.rose.set sid.val 0 } }) := by
  unfold attnRoseOp
  rw [settle_current h]
  simp only [vget_of_lt _ _ sid.isLt, vset_of_lt _ _ sid.isLt]
  rfl

theorem drawRng_running {s : State} (h : s.key.rngOk = true) : drawRng s =
    (Config.rng s.fresh, { s with key := { s.key with rngCount := s.key.rngCount + 1 }, fresh := s.fresh + 1 }) := if_pos h

theorem drawRng_failed {s : State} (h : s.key.rngOk = false) : drawRng s = (0, s) := if_neg (by simp [h])

/-- A read with an effect, told by what the effect is. -/
theorem read_gives {sid : Fin 4} {op : State → Word × State} {ss : Session} {s t : State} {x : Word} (h : heard sid ss s)
    (e : op s = (x, t)) : act (hostReadDo sid.val op) s = .next (answered sid ss .ok 4 (wordBytes x) t) := by
  rw [read_ok h, e]

/-! #### The clearing commands -/

/-- A change that does not ask for the element's number is the library's map. -/
theorem vmap_const {α β : Type} {n : Nat} (v : Vector α n) (f : α → β) : vmap v (fun _ x => f x) = v.map f := by
  apply Vector.ext
  intro i hi
  simp [vmap]

theorem lnClrMaxOp_eq (s : State) :
    lnClrMaxOp s = (.ok, { s with lanes := s.lanes.map fun x => { x with stallMax := 0 } }) := by
  unfold lnClrMaxOp always modLanes; simp only [vmap_const]

theorem canClrCntOp_eq (n : Fin 4) (s : State) : canClrCntOp n.val s =
    (.ok, { s with can := ⟨s.can.ctl.set n.val { s.can.ctl[n.val] with cnt := Vector.replicate 8 0 }⟩ }) := by
  unfold canClrCntOp always modCan; rw [vmod_of_lt _ _ n.isLt]

theorem neClrCntOp_eq (s : State) : neClrCntOp s = (.ok, { s with
    ne := { s.ne with
      portCnt := Vector.replicate 12 (Vector.replicate 8 0)
      sv := s.ne.sv.map fun x => { x with cnt := Vector.replicate 9 0 }
      gs := s.ne.gs.map fun x => { x with cnt := Vector.replicate 7 0 }
      sp := s.ne.sp.map fun x => { x with sent := 0 }
      gp := s.ne.gp.map fun x => { x with sent := 0 } }
    tim := { s.tim with cnt := Vector.replicate 12 (Vector.replicate 8 0) } }) := by
  unfold neClrCntOp always; simp only [vmap_const]

/-- Host events of one 10 ns step are kept together; those of a later step begin a new set beside the earlier ones (R39). -/
theorem hostEventOp_sameStep (mask : Word) {s : State} (h : s.frm.hostStepAt = s.clk.cyc / 4) : hostEventOp mask s =
    (.ok, { s with frm := { s.frm with hostStep := s.frm.hostStep ||| mask } }) := congrArg (Prod.mk Res.ok) (if_pos h)

theorem hostEventOp_laterStep (mask : Word) {s : State} (h : s.frm.hostStepAt ≠ s.clk.cyc / 4) : hostEventOp mask s =
    (.ok, { s with frm := { s.frm with
      hostEvt := s.frm.hostEvt ||| s.frm.hostStep, hostStep := mask, hostStepAt := s.clk.cyc / 4 } }) :=
  congrArg (Prod.mk Res.ok) (if_neg h)

/-- Settles O21: what a read with an effect answers and leaves (R34, R50, R210, R373, NVS_CNT_LO, KEY_RNG), what a clearing
command clears, and how host events are kept (R39). -/
theorem latchesAndClears : Obligations.LatchesAndClears := by
  refine ⟨fun sid ss s h => ⟨read_ok h, read_ok h, read_gives h (timNowOp_eq s), read_ok h,
      fun hcur => read_gives h (attnRoseOp_current sid hcur), fun hrng => read_gives h (drawRng_running hrng),
      fun hrng => read_gives h (drawRng_failed hrng)⟩,
    fun sid ss s mask n h => ⟨host_ok h rfl, host_ok h (lnClrMaxOp_eq s), host_ok h rfl, host_ok h rfl,
      host_ok h (canClrCntOp_eq n s), host_ok h (neClrCntOp_eq s), fun hstep => host_ok h (hostEventOp_sameStep mask hstep),
      fun hstep => host_ok h (hostEventOp_laterStep mask hstep)⟩⟩

end Sys2Proof.Proofs

/-! ### O22: arming and cancelling a commit (R47 to R49, R144, R306) -/
namespace Sys2Proof.Proofs

open Sys2Proof Sys2Proof.Machine Sys2Proof.Safety Sys2Proof.Laws

theorem booting_iff (s : State) : booting s = true ↔ s.frm.ticks = 0 := beq_iff_eq

/-- A module that is not paired sends its peer no command; no change that leaves the HSB block alone pairs it. -/
theorem sendControl_unpaired (c : Control) {s t : State} (h : paired s = false) (ht : t.hsb = s.hsb) : sendControl c t = t := by
  have hp : paired t = false := by unfold paired; rw [ht]; exact h
  exact if_neg (by simp [hp])

/-- The chisel identity of an arm for frame `f` agrees with the programs: with the running one, or with the one that swaps in
with the arm (R144). -/
abbrev chiselAgrees (f : Nat) (s : State) : Prop :=
  ∀ a, s.plr.run = some a → stagedId s = a.chiselId
    ∨ (s.plr.swapF = some f ∧ ∃ m, s.plr.maq = some m ∧ m.chiselId = stagedId s)

theorem chiselArmBad_eq_false_iff (f : Nat) (s : State) : chiselArmBad f s = false ↔ chiselAgrees f s := by
  unfold chiselArmBad runNames chiselAgrees
  cases s.plr.run with
  | none => simp
  | some a => cases s.plr.maq <;> simp [or_iff_not_imp_left]

/-! #### The verdict on an arm -/

theorem armVerdict_standby (f : Nat) (g : BitVec 5) {s : State} (h : s.hsb.role = .standby) : armVerdict f g s = .denied :=
  if_pos h

theorem armVerdict_armed (f : Nat) (g : BitVec 5) {s : State} (hr : s.hsb.role ≠ .standby) (h : s.frm.commitArmed = true) :
    armVerdict f g s = .busy := (if_neg hr).trans (if_pos h)

/-- Past the role and with nothing armed, the frame decides first, then the chisel identity. -/
theorem armVerdict_unarmed (f : Nat) (g : BitVec 5) {s : State} (hr : s.hsb.role ≠ .standby) (h : s.frm.commitArmed = false)
    (hp : paired s = false) : armVerdict f g s = if s.frm.ticks = 0 ∨ f ≤ s.frm.k + 1 then .late
      else if g.getLsbD 4 = true ∧ chiselArmBad f s = true then .denied else .ok := by
  unfold armVerdict
  simp only [hr, h, hp, booting_iff, if_false, Bool.false_eq_true, false_and]

theorem armVerdict_late {f : Nat} (g : BitVec 5) {s : State} (hr : s.hsb.role ≠ .standby) (h : s.frm.commitArmed = false)
    (hp : paired s = false) (hl : ¬ (s.frm.ticks ≠ 0 ∧ s.frm.k + 2 ≤ f)) : armVerdict f g s = .late := by
  rw [armVerdict_unarmed f g hr h hp, if_pos (by omega)]

/-- In time, the arm stands exactly when a CHISEL group agrees (R144). -/
theorem armVerdict_inTime {f : Nat} (g : BitVec 5) {s : State} (hr : s.hsb.role ≠ .standby) (h : s.frm.commitArmed = false)
    (hp : paired s = false) (ht : s.frm.ticks ≠ 0 ∧ s.frm.k + 2 ≤ f) :
    armVerdict f g s = if g.getLsbD 4 = true ∧ chiselArmBad f s = true then .denied else .ok := by
  rw [armVerdict_unarmed f g hr h hp, if_neg (by omega)]

theorem armVerdict_agrees {f : Nat} {g : BitVec 5} {s : State} (hr : s.hsb.role ≠ .standby) (h : s.frm.commitArmed = false)
    (hp : paired s = false) (ht : s.frm.ticks ≠ 0 ∧ s.frm.k + 2 ≤ f) (ha : g.getLsbD 4 = true → chiselAgrees f s) :
    armVerdict f g s = .ok := by
  rw [armVerdict_inTime g hr h hp ht, if_neg]
  rintro ⟨hg, hbad⟩
  rw [(chiselArmBad_eq_false_iff f s).mpr (ha hg)] at hbad
  exact Bool.noConfusion hbad

theorem armVerdict_disagrees {f : Nat} {g : BitVec 5} {s : State} (hr : s.hsb.role ≠ .standby) (h : s.frm.commitArmed = false)
    (hp : paired s = false) (ht : s.frm.ticks ≠ 0 ∧ s.frm.k + 2 ≤ f) (ha : ¬ (g.getLsbD 4 = true → chiselAgrees f s)) :
    armVerdict f g s = .denied := by
  rw [armVerdict_inTime g hr h hp ht, if_pos]
  rw [Classical.not_imp, ← chiselArmBad_eq_false_iff, Bool.not_eq_false] at ha
  exact ha

/-! #### What the two commands answer -/

/-- LAST_LATE as a command leaves it. -/
abbrev withLate (b : Bool) (s : State) : State := { s with frm := { s.frm with lastLate := b } }

theorem commitArmOp_ok {g : BitVec 5} {s : State} (hp : paired s = false) (hv : armVerdict (regPair 0x10030 s) g s = .ok) :
    commitArmOp g s = (.ok, { setReg 0x10038 (BitVec.setWidth 32 g) s with frm := { s.frm with
      commitArmed := true, commitGroups := g, commitF := regPair 0x10030 s, committed := false, lastLate := false } }) := by
  unfold commitArmOp
  simp only [hv, if_true]
  exact congrArg (Prod.mk Res.ok) (sendControl_unpaired _ hp rfl)

theorem commitArmOp_no {g : BitVec 5} {s : State} {r : Res} (hv : armVerdict (regPair 0x10030 s) g s = r) (hr : r ≠ .ok) :
    commitArmOp g s = (r, withLate (r == .late) s) := by
  unfold commitArmOp
  simp only [hv, hr, if_false]

theorem commitCancelOp_idle {s : State} (h : s.frm.commitArmed = false) : commitCancelOp s = (.ok, withLate false s) := by
  unfold commitCancelOp; rw [h]; rfl

theorem commitCancelOp_inTime {s : State} (hp : paired s = false) (h : s.frm.commitArmed = true)
    (ht : s.frm.k + 1 < s.frm.commitF) :
    commitCancelOp s = (.ok, { s with frm := { s.frm with commitArmed := false, committed := false, lastLate := false } }) := by
  unfold commitCancelOp
  rw [if_neg (by simp [h]), if_neg (by omega)]
  exact congrArg (Prod.mk Res.ok) (sendControl_unpaired _ hp rfl)

theorem commitCancelOp_late {s : State} (h : s.frm.commitArmed = true) (hl : s.frm.commitF ≤ s.frm.k + 1) :
    commitCancelOp s = (.late, withLate true s) := by
  unfold commitCancelOp
  rw [if_neg (by simp [h]), if_pos hl]

/-- Settles O22: COMMIT_ARM by role, arm under way, frame and chisel identity, COMMIT_CANCEL by the frame of the arm (R47 to R49,
R144). That a STANDBY module denies the arm, the order BUSY, LATE, DENIED, LATE before the first tick and OK of a cancel with
nothing armed are deduced (log entry 19), not the manual's words; that an arm stands while the empty program runs is the model's
choice (log entry 62). -/
theorem commits : Obligations.Commits := by
  intro sid ss g s h hp f late arms agrees
  refine ⟨fun hr hc ht ha => host_ok h (commitArmOp_ok hp (armVerdict_agrees hr hc hp ht ha)),
    fun hr hc => host_no h (commitArmOp_no (armVerdict_armed _ g hr hc) (by decide)) (by decide) (by decide),
    fun hr hc hl => host_no h (commitArmOp_no (armVerdict_late g hr hc hp hl) (by decide)) (by decide) (by decide),
    fun hd => ?_, fun hc => host_ok h (commitCancelOp_idle hc), fun hc ht => host_ok h (commitCancelOp_inTime hp hc ht),
    fun hc hl => host_no h (commitCancelOp_late hc hl) (by decide) (by decide)⟩
  have hv : armVerdict (regPair 0x10030 s) g s = .denied := by
    by_cases hr : s.hsb.role = .standby
    · exact armVerdict_standby _ g hr
    · obtain ⟨hc, ht, ha⟩ := hd.resolve_left hr
      exact armVerdict_disagrees hr hc hp ht ha
  exact host_no h (commitArmOp_no hv (by decide)) (by decide) (by decide)

end Sys2Proof.Proofs

/-! ### O24: the placer's commands (R50, R146, R161 to R164, R168) -/
namespace Sys2Proof.Proofs

open Sys2Proof Sys2Proof.Machine Sys2Proof.Safety Sys2Proof.Laws

/-! #### The slot that does not hold the running image -/

/-- The staged slot is emptied in NOR, with what the placer holds of it (R162, R378). -/
theorem emptySlot_eq (s : State) :
    let slot := if s.plr.runSlot then 0 else 1
    let base := if s.plr.runSlot then 0x3000000 else 0x3400000
    emptySlot s = { s with
      upd := { s.upd with nor := sclear base (base + 0x400000) s.upd.nor }
      plr := { s.plr with slotId := vset s.plr.slotId slot none, maq := none } } := by
  unfold emptySlot stagedSlot slotBase
  cases s.plr.runSlot <;> rfl

theorem runSlot_toNat (s : State) : s.plr.runSlot.toNat = if s.plr.runSlot then 1 else 0 := by
  cases s.plr.runSlot <;> rfl

theorem mem_three {α : Type} {a x y z : α} : a ∈ [x, y, z] ↔ a = x ∨ a = y ∨ a = z := by simp

/-! #### LOAD -/

/-- States in which LOAD is judged (R163). -/
abbrev loads (st : PlrState) : Prop := st ∈ [PlrState.empty, .loaded, .placed, .refused]

theorem loads_iff (st : PlrState) : loads st ↔ st = .empty ∨ st = .loaded ∨ st = .placed ∨ st = .refused :=
  List.mem_cons.trans (or_congr_right mem_three)

theorem loadOp_refused {s : State} (hst : loads s.plr.state) {c : Nat}
    (hc : loadCheck (loadBytes s) (reg 0x3000C s).toNat s.frm.rate = some c) :
    loadOp s = (.ok, note (BitVec.ofNat 16 c) srcPLR (headerId s) (w (c - 0x2000)) 0
      { s with plr := { s.plr with result := BitVec.ofNat 16 c } }) := by
  unfold loadOp
  rcases (loads_iff _).mp hst with hst | hst | hst | hst <;> simp only [hst, hc]

theorem loadOp_accepted {s : State} (hst : loads s.plr.state)
    (hc : loadCheck (loadBytes s) (reg 0x3000C s).toNat s.frm.rate = none) :
    loadOp s = (.ok, { emptySlot s with plr := { (emptySlot s).plr with
      state := .loading, loadAddr := (reg 0x30008 s).toNat, loadLen := (loadBytes s).length, since := s.clk.cyc } }) := by
  unfold loadOp
  rcases (loads_iff _).mp hst with hst | hst | hst | hst <;> simp only [hst, hc] <;> rfl

theorem loadOp_busy {s : State} (hst : s.plr.state = .placing ∨ s.plr.state = .armed) : loadOp s = (.busy, s) := by
  unfold loadOp
  rcases hst with hst | hst <;> rw [hst]

theorem loadOp_loading {s : State} (hst : s.plr.state = .loading) : loadOp s = (.denied, s) := by
  unfold loadOp; rw [hst]

/-! #### PLACE and DISCARD -/

/-- States in which the staged slot holds an image that the placer is not at work on. -/
abbrev holdsImage (st : PlrState) : Prop := st ∈ [PlrState.loaded, .placed, .refused]

/-- A placement begins: it is kept for its end, and the last report stands (R162). -/
theorem runPlacement_begins (s : State) : ∃ p : Plr, runPlacement s = { s with plr := p, fresh := s.fresh + 1 }
    ∧ p.state = .placing ∧ p.since = s.clk.cyc ∧ p.report = s.plr.report ∧ p.run = s.plr.run ∧ p.slotId = s.plr.slotId := by
  unfold runPlacement
  dsimp only
  split
  · exact ⟨_, rfl, rfl, rfl, rfl, rfl, rfl⟩
  · split <;> exact ⟨_, rfl, rfl, rfl, rfl, rfl, rfl⟩

theorem placeOp_begins {s : State} (hst : holdsImage s.plr.state) : placeOp s = (.ok, runPlacement s) := by
  unfold placeOp
  rcases mem_three.mp hst with hst | hst | hst <;> rw [hst]

theorem placeOp_empty {s : State} (hst : s.plr.state = .empty) : placeOp s = (.denied, s) := by
  unfold placeOp; rw [hst]

theorem placeOp_busy {s : State} (hst : s.plr.state ∈ [PlrState.loading, .placing, .armed]) : placeOp s = (.busy, s) := by
  unfold placeOp
  rcases mem_three.mp hst with hst | hst | hst <;> rw [hst]

theorem discardOp_empties {s : State} (hst : holdsImage s.plr.state) :
    discardOp s = (.ok, { emptySlot s with plr := { (emptySlot s).plr with state := .empty } }) := by
  unfold discardOp
  rcases mem_three.mp hst with hst | hst | hst <;> rw [hst]

theorem discardOp_armed {s : State} (hst : s.plr.state = .armed) : discardOp s = (.busy, s) := by
  unfold discardOp; rw [hst]

theorem discardOp_denied {s : State} (hst : s.plr.state ∈ [PlrState.empty, .loading, .placing]) :
    discardOp s = (.denied, s) := by
  unfold discardOp
  rcases mem_three.mp hst with hst | hst | hst <;> rw [hst]

/-! #### SWAP and CANCEL -/

/-- F ends every cycle of the running program: its longest cycle, counted from k0, divides the way to F (R50). -/
abbrev cycleEnds (f : Nat) (s : State) : Prop :=
  let cycle := if progS s ≠ 0 then progS s else progM s
  cycle = 0 ∨ (s.frm.k0 ≤ f ∧ cycle ∣ f - s.frm.k0)

theorem endsCycles_iff (f : Nat) (s : State) : endsCycles f s = true ↔ cycleEnds f s := by
  unfold endsCycles cycleEnds
  simp only [Bool.or_eq_true, Bool.and_eq_true, beq_iff_eq, decide_eq_true_eq, Nat.dvd_iff_mod_eq_zero]

/-- The maquette was placed for the active or for the staged chisel table (R164). -/
abbrev maqFits (s : State) : Prop := ∃ a, s.plr.maq = some a ∧ (a.chiselId = activeId s ∨ a.chiselId = stagedId s)

theorem maqChiselOk_iff (s : State) : maqChiselOk s = true ↔ maqFits s := by
  unfold maqChiselOk maqFits
  cases s.plr.maq <;> simp

/-- The frame is too near, or there is none before the first tick. -/
abbrev swapSoon (f : Nat) (s : State) : Prop := s.frm.ticks = 0 ∨ f < s.frm.k + 16

theorem swapVerdict_refused (f : Nat) {s : State} (h : s.plr.state ≠ .placed ∨ s.hsb.role = .standby) :
    swapVerdict f s = .denied := if_pos h

theorem swapVerdict_soon {f : Nat} {s : State} (hst : s.plr.state = .placed) (hr : s.hsb.role ≠ .standby) (h : swapSoon f s) :
    swapVerdict f s = .late := by
  unfold swapVerdict
  rw [if_neg (by simp [hst, hr]), if_pos (h.imp_left (booting_iff s).mpr)]

/-- In time, the swap is armed exactly when F ends the cycles and the maquette fits. -/
theorem swapVerdict_inTime {f : Nat} {s : State} (hst : s.plr.state = .placed) (hr : s.hsb.role ≠ .standby)
    (hp : paired s = false) (h : ¬ swapSoon f s) :
    swapVerdict f s = if cycleEnds f s ∧ maqFits s then .ok else .denied := by
  unfold swapVerdict
  rw [if_neg (by simp [hst, hr]), if_neg (fun hs => h (hs.imp_left (booting_iff s).mp))]
  simp only [← endsCycles_iff, ← maqChiselOk_iff, hp]
  cases endsCycles f s <;> cases maqChiselOk s <;> rfl

theorem swapOp_ok {s : State} (hp : paired s = false) (hv : swapVerdict (regPair 0x30014 s) s = .ok) :
    swapOp s = (.ok, { s with plr := { s.plr with state := .armed, swapF := some (regPair 0x30014 s), swapDone := false } }) := by
  unfold swapOp
  simp only [hv]
  exact congrArg (Prod.mk Res.ok) (sendControl_unpaired _ hp rfl)

theorem swapOp_no {s : State} {r : Res} (hv : swapVerdict (regPair 0x30014 s) s = r) (hr : r ≠ .ok) : swapOp s = (r, s) := by
  unfold swapOp
  simp only [hv]

/-- A swap that is not too late to cancel is disarmed with its NOTE (R161, R164). -/
theorem swapCancelOp_disarms {s : State} {g : Nat} (hp : paired s = false) (hg : s.plr.swapF = some g) (ht : s.frm.k + 1 < g) :
    swapCancelOp s = (.ok, disarmSwap s) := by
  unfold swapCancelOp
  simp only [hg]
  rw [if_neg (by omega)]
  exact congrArg (Prod.mk Res.ok) (sendControl_unpaired _ hp (raiseEntry_hsb ..))

theorem swapCancelOp_late {s : State} {g : Nat} (hg : s.plr.swapF = some g) (hl : g ≤ s.frm.k + 1) :
    swapCancelOp s = (.late, s) := by
  unfold swapCancelOp
  simp only [hg, if_pos hl]

theorem swapCancelOp_idle {s : State} (hg : s.plr.swapF = none) : swapCancelOp s = (.denied, s) := by
  unfold swapCancelOp
  simp only [hg]

theorem uncacheOp_eq (s : State) : uncacheOp s =
    (.ok, { s with plr := { s.plr with cache := vset s.plr.cache (if s.plr.runSlot then 1 else 0) none } }) := by
  rw [← runSlot_toNat]; rfl

/-- Settles O24: LOAD, PLACE, SWAP, CANCEL, DISCARD and UNCACHE by the placer's state (R50, R146, R161 to R164, R168). That a
STANDBY module denies SWAP, that SWAP is LATE before the first tick, and that LATE comes before DENIED of frame and chisel
identity, are deduced (log entry 19), not the manual's words. -/
theorem placerCommands : Obligations.PlacerCommands := by
  intro sid ss s h hp st ok busy denied late slot base emptied f cycle fits soon word
  have hok : ∀ {op : RegOp} {t : State}, op s = (.ok, t) → act (hostDo sid.val 2 op) s = ok t := fun e => host_ok h e
  have hbusy : ∀ {op : RegOp}, op s = (.busy, s) → act (hostDo sid.val 2 op) s = busy :=
    fun e => host_no h e (by decide) (by decide)
  have hdenied : ∀ {op : RegOp}, op s = (.denied, s) → act (hostDo sid.val 2 op) s = denied :=
    fun e => host_no h e (by decide) (by decide)
  have hlate : ∀ {op : RegOp}, op s = (.late, s) → act (hostDo sid.val 2 op) s = late :=
    fun e => host_no h e (by decide) (by decide)
  have hempty : ∀ x, { emptySlot s with plr := { (emptySlot s).plr with state := x } } = emptied x := by
    intro x; rw [emptySlot_eq]
  refine ⟨fun hst => ⟨fun c hc => hok (loadOp_refused hst hc), fun hc => hok ?_⟩, fun hst => hbusy (loadOp_busy hst),
    fun hst => hdenied (loadOp_loading hst), fun hst => ?_, fun hst => hdenied (placeOp_empty hst),
    fun hst => hbusy (placeOp_busy hst), fun hst hr ht hfit => ?_,
    fun hst hr hs => hlate (swapOp_no (swapVerdict_soon hst hr hs) (by decide)),
    fun hd => hdenied (swapOp_no ?_ (by decide)), fun g hg ht => hok (swapCancelOp_disarms hp hg ht),
    fun g hg hl => hlate (swapCancelOp_late hg hl), fun hg => hdenied (swapCancelOp_idle hg),
    fun hst => hok ((discardOp_empties hst).trans (by rw [hempty])), fun hst => hbusy (discardOp_armed hst),
    fun hst => hdenied (discardOp_denied hst), hok (uncacheOp_eq s)⟩
  · rw [loadOp_accepted hst hc, emptySlot_eq]
  · obtain ⟨p, hrun, hp⟩ := runPlacement_begins s
    exact ⟨p, hok ((placeOp_begins hst).trans (by rw [hrun])), hp⟩
  · have hv : swapVerdict f s = .ok := (swapVerdict_inTime hst hr hp ht).trans (if_pos hfit)
    exact hok (swapOp_ok hp hv)
  · by_cases hx : s.plr.state ≠ .placed ∨ s.hsb.role = .standby
    · exact swapVerdict_refused _ hx
    · rw [not_or, not_ne_iff] at hx
      obtain ⟨hst, hr⟩ := hx
      obtain ⟨ht, hfit⟩ := (hd.resolve_left (not_not.mpr hst)).resolve_left hr
      exact (swapVerdict_inTime hst hr hp ht).trans (if_neg hfit)

end Sys2Proof.Proofs

/-! ### O48: the decision of a bank, and granted data that returns (R71, R85, R171 to R175) -/
namespace Sys2Proof.Proofs

open Sys2Proof Sys2Proof.Machine Sys2Proof.Safety Sys2Proof.Laws

/-! #### One bank changed -/

/-- The state with bank `b` as given. -/
def withBank (b : Fin 32) (k : Bank) (s : State) : State :=
  { s with mem := { s.mem with banks := s.mem.banks.set b.val k } }

@[simp] theorem withBank_clk (b : Fin 32) (k : Bank) (s : State) : (withBank b k s).clk = s.clk := rfl
@[simp] theorem withBank_lanes (b : Fin 32) (k : Bank) (s : State) : (withBank b k s).lanes = s.lanes := rfl
@[simp] theorem withBank_shared (b : Fin 32) (k : Bank) (s : State) : (withBank b k s).mem.shared = s.mem.shared := rfl
@[simp] theorem withBank_bank (b : Fin 32) (k : Bank) (s : State) : (withBank b k s).mem.banks[b.val] = k :=
  Vector.getElem_set_self ..
@[simp] theorem withBank_withBank (b : Fin 32) (k k' : Bank) (s : State) : withBank b k' (withBank b k s) = withBank b k' s := by
  simp only [withBank, Vector.set_set]

/-- The model's change of a bank by a function of it. -/
theorem modBank_eq_withBank (b : Fin 32) (f : Bank → Bank) (s : State) :
    { s with mem := { s.mem with banks := vmod s.mem.banks b.val f } } = withBank b (f s.mem.banks[b.val]) s := by
  rw [vmod_of_lt _ _ b.isLt, withBank]

theorem clusterWaiters_eq (s : State) (b : Fin 32) (c : Nat) : clusterWaiters s b.val c =
    ((List.range 4).map fun i => 4 * c + (vget 0 s.mem.banks[b.val].lastLane c + 1 + i) % 4).filter
      fun l => (headFor s b.val l).isSome := by
  rw [clusterWaiters, vget_of_lt _ _ b.isLt]

/-- Which lanes wait on a bank depends on the bank by its last grants alone. -/
theorem clusterWaiters_withBank {b : Fin 32} {k : Bank} {s : State} (h : k.lastLane = s.mem.banks[b.val].lastLane) (c : Nat) :
    clusterWaiters (withBank b k s) b.val c = clusterWaiters s b.val c := by
  rw [clusterWaiters_eq, clusterWaiters_eq, withBank_bank, h]; rfl

theorem waits_withBank {b : Fin 32} {k : Bank} {s : State} (h : k.lastLane = s.mem.banks[b.val].lastLane) (ag : Agents) :
    waits (withBank b k s) b.val ag = waits s b.val ag := by
  funext r
  unfold waits
  split
  · rfl
  · rfl
  · rfl
  · rw [clusterWaiters_withBank h]

/-- A cluster waits by its lanes, an agent by its flag. -/
theorem waits_iff (s : State) (b : Nat) (ag : Agents) {r : Nat} (hr : r < 7) : waits s b ag r = true ↔
    (r < 4 ∧ clusterWaiters s b r ≠ []) ∨ (r = 4 ∧ ag.ne = true) ∨ (r = 5 ∧ ag.eq = true) ∨ (r = 6 ∧ ag.te = true) := by
  interval_cases r <;> simp [waits]

/-! #### The turn that the bank takes (R174) -/

theorem nextTurn_none {s : State} {b : Nat} {ag : Agents} {p : Nat} (h : ∀ x < 7, waits s b ag x = false) :
    nextTurn s b ag p = none := by
  rw [nextTurn, List.find?_eq_none]
  intro x hx
  obtain ⟨i, -, rfl⟩ := List.mem_map.mp hx
  simp [h _ (Nat.mod_lt _ (by decide : 0 < 7))]

/-- The requester nearest after the last turn is the one that the search meets first. -/
theorem nextTurn_nearest {s : State} {b : Nat} {ag : Agents} {p r : Nat} (hp : p < 7) (hr : r < 7)
    (hw : waits s b ag r = true)
    (hmin : ∀ x < 7, waits s b ag x = true → (r + 7 - (p + 1)) % 7 ≤ (x + 7 - (p + 1)) % 7) :
    nextTurn s b ag p = some r := by
  have hpos : (p + 1 + (r + 7 - (p + 1)) % 7) % 7 = r := by omega
  have hfound : (List.range 7).find? (waits s b ag ∘ fun i => (p + 1 + i) % 7) = some ((r + 7 - (p + 1)) % 7) := by
    refine List.find?_range_eq_some.mpr ⟨by rw [Function.comp_apply, hpos]; exact hw, by simp; omega, fun j hj => ?_⟩
    by_contra hwj
    have := hmin _ (Nat.mod_lt _ (by decide : 0 < 7)) (by simpa using hwj)
    omega
  rw [nextTurn, List.find?_map, hfound, Option.map_some, hpos]

/-! #### The lane of a cluster that is granted (R173) -/

/-- From when a lane waits on a bank. -/
def headSince (s : State) (b l : Nat) : Nat :=
  match headFor s b l with
  | some r => r.since
  | none => s.clk.cyc + 1

theorem headSince_of_head {s : State} {b l : Nat} {r : SharedReq} (h : headFor s b l = some r) : headSince s b l = r.since := by
  rw [headSince, h]

theorem longest_cons (s : State) (b l : Nat) (t : List Nat) : longest s b (l :: t) =
    some ((longest s b t).elim l fun m => if headSince s b m < headSince s b l then m else l) := by
  rw [longest]
  cases longest s b t with
  | none => rfl
  | some m =>
    rw [Option.elim_some, apply_ite some]
    rfl

/-- Of lanes that wait one is found, and none of them waits longer. -/
theorem longest_spec (s : State) (b : Nat) {ls : List Nat} (h : ls ≠ []) :
    ∃ l ∈ ls, longest s b ls = some l ∧ ∀ m ∈ ls, headSince s b l ≤ headSince s b m := by
  induction ls with
  | nil => exact absurd rfl h
  | cons x t ih =>
    rw [longest_cons]
    by_cases ht : t = []
    · subst ht; exact ⟨x, by simp, rfl, by simp⟩
    · obtain ⟨m, hm, hlong, hmin⟩ := ih ht
      rw [hlong, Option.elim_some]
      by_cases hlt : headSince s b m < headSince s b x
      · rw [if_pos hlt]
        exact ⟨m, .tail _ hm, rfl, List.forall_mem_cons.mpr ⟨hlt.le, hmin⟩⟩
      · rw [if_neg hlt]
        exact ⟨x, .head _, rfl, List.forall_mem_cons.mpr ⟨le_rfl, fun y hy => (not_lt.mp hlt).trans (hmin y hy)⟩⟩

theorem longest_withBank (b : Fin 32) (k : Bank) (s : State) (b' : Nat) (ls : List Nat) :
    longest (withBank b k s) b' ls = longest s b' ls := by
  induction ls with
  | nil => rfl
  | cons l t ih => rw [longest_cons, longest_cons, ih]; rfl

/-- A lane competes with the head of its queue, once that has come to wait. -/
theorem headFor_eq_some_iff (s : State) (b : Nat) (l : Fin 16) (r : SharedReq) : headFor s b l.val = some r ↔
    (∃ rest, (s.lanes[l.val]).reqs = r :: rest) ∧ r.addr / bankSize = b ∧ r.since ≤ s.clk.cyc := by
  rw [headFor, vget_of_lt _ _ l.isLt]
  cases (s.lanes[l.val]).reqs with
  | nil => simp
  | cons q t =>
    simp only [Option.ite_none_right_eq_some, Option.some.injEq, List.cons.injEq, exists_and_left, exists_eq', and_true]
    constructor
    · rintro ⟨h, rfl⟩; exact ⟨rfl, h⟩
    · rintro ⟨rfl, h⟩; exact ⟨h, rfl⟩

/-- The lanes that wait are the lanes of the cluster that compete, whatever lane the round begins with. -/
theorem mem_clusterWaiters {s : State} {b c l : Nat} :
    l ∈ clusterWaiters s b c ↔ l / 4 = c ∧ (headFor s b l).isSome = true := by
  rw [clusterWaiters, List.mem_filter]
  refine and_congr_left fun _ => ?_
  rw [List.mem_map]
  generalize vget 0 _ c = last
  constructor
  · rintro ⟨i, -, rfl⟩; omega
  · rintro rfl
    exact ⟨(l + 3 * (last + 1)) % 4, by simp; omega, by omega⟩

/-- The lane that a cluster's turn grants: it competes, and no lane of the cluster waits longer for this bank. -/
theorem longest_of_cluster {s : State} {b : Fin 32} {c : Nat} (hc : c < 4) (h : clusterWaiters s b.val c ≠ []) :
    ∃ (l : Fin 16) (r : SharedReq) (rest : List SharedReq), longest s b.val (clusterWaiters s b.val c) = some l.val
      ∧ l.val / 4 = c ∧ headFor s b.val l.val = some r ∧ (s.lanes[l.val]).reqs = r :: rest
      ∧ r.addr / bankSize = b.val ∧ r.since ≤ s.clk.cyc
      ∧ ∀ (m : Fin 16) q t, m.val / 4 = c → (s.lanes[m.val]).reqs = q :: t → q.addr / bankSize = b.val → r.since ≤ q.since := by
  obtain ⟨l, hl, hlong, hmin⟩ := longest_spec s b.val h
  obtain ⟨hlc, hhead⟩ := mem_clusterWaiters.mp hl
  obtain ⟨r, hr⟩ := Option.isSome_iff_exists.mp hhead
  lift l to Fin 16 using by omega
  obtain ⟨⟨rest, hreqs⟩, haddr, hsince⟩ := (headFor_eq_some_iff ..).mp hr
  refine ⟨l, r, rest, hlong, hlc, hr, hreqs, haddr, hsince, fun m q t hmc hq hqa => ?_⟩
  by_cases hqs : q.since ≤ s.clk.cyc
  · have hm := (headFor_eq_some_iff s b.val m q).mpr ⟨⟨t, hq⟩, hqa, hqs⟩
    have := hmin m.val (mem_clusterWaiters.mpr ⟨hmc, by rw [hm]; rfl⟩)
    rwa [headSince_of_head hr, headSince_of_head hm] at this
  · omega

/-! #### A lane's access that is granted (R172) -/

/-- The return slot of an access, the cycle in which it completes, and its data. -/
def grantOf (b l : Nat) (r : SharedReq) (s : State) : Nat × Nat × Word :=
  match r.op with
  | .load slot n q => (slot, s.clk.cyc + accessTime l b, loaded q (shRead s r.addr n))
  | .store slot _ v => (slot, s.clk.cyc + 1, v)

/-- The lane once its head access is granted. -/
def grantedLane (cyc : Nat) (g : Nat × Nat × Word) (ln : Lane) : Lane :=
  { ln with reqs := nextHead cyc ln.reqs.tail, slots := vmod ln.slots g.1 fun q => { q with granted := some g.2 } }

/-- The bank once it has granted lane `l` its head request. -/
def grantedBank (cyc l : Nat) (r : SharedReq) (bk : Bank) : Bank :=
  { bk with lastLane := vset bk.lastLane (l / 4) (l % 4), waitMax := max bk.waitMax (cyc + 1 - r.since) }

/-- Shared memory once the access is granted: a store is written. -/
def grantedShared (r : SharedReq) (m : List (Nat × Byte)) : List (Nat × Byte) :=
  match r.op with
  | .load .. => m
  | .store _ n v => sputs zeroByte r.addr (leBytes n v.toNat) m

theorem nextHead_length (cyc : Nat) (rs : List SharedReq) : (nextHead cyc rs).length = rs.length := by
  cases rs <;> rfl

theorem markClass_only (a : Nat) (s : State) : ∃ f : Machine.Frm, markClass a s = { s with frm := f } := by
  unfold markClass
  dsimp only
  split <;> split <;> exact ⟨_, rfl⟩

/-- What a grant leaves: the bank, the lane, the memory that a store writes, and the notes that a store leaves for its class
and its posts. -/
theorem grantLane_only {s : State} {b : Fin 32} {l : Fin 16} {r : SharedReq} (h : headFor s b.val l.val = some r) :
    ∃ (f : Machine.Frm) (p : Ln),
      grantLane b.val l.val s = { s with
        mem := { s.mem with
          shared := grantedShared r s.mem.shared
          banks := s.mem.banks.set b.val (grantedBank s.clk.cyc l.val r s.mem.banks[b.val]) }
        lanes := s.lanes.set l.val (grantedLane s.clk.cyc (grantOf b.val l.val r s) s.lanes[l.val])
        frm := f, ln := p } := by
  rw [← vmod_of_lt _ _ l.isLt, ← vset_of_lt _ _ b.isLt, ← vget_of_lt State.bank0 _ b.isLt, grantLane, h]
  obtain ⟨addr, op, since⟩ := r
  cases op with
  | load slot n q => exact ⟨_, _, rfl⟩
  | store slot n v =>
    dsimp only
    rw [(markClass_only ..).choose_spec]
    exact ⟨_, _, rfl⟩

/-- A store of at most a word writes exactly its bytes. -/
theorem stored_leBytes (m : List (Nat × Byte)) (a : Nat) {n : Nat} (hn : n ≤ 4) (v : Word) :
    stored m (sputs zeroByte a (leBytes n v.toNat) m) a n v :=
  stored_sputs m a n v _ (leBytes_length ..) fun i h => leBytes_byteOf v n hn i h

theorem grantedLane_reqs_length (cyc : Nat) (g : Nat × Nat × Word) {ln : Lane} {r : SharedReq} {rest : List SharedReq}
    (h : ln.reqs = r :: rest) : (grantedLane cyc g ln).reqs.length = rest.length := by
  rw [grantedLane, h]; exact nextHead_length cyc rest

theorem grantedLane_slot (cyc : Nat) {g : Nat × Nat × Word} {i : Fin 20} (h : i.val = g.1) (ln : Lane) :
    ((grantedLane cyc g ln).slots[i.val]).granted = some g.2 := by
  rw [grantedLane, ← h]
  dsimp only
  rw [getElem_vmod, if_pos rfl]

/-! #### The decision (R174, R175) -/

/-- The bank as it decides: its cycle is used up, and the agents that wait are known. -/
def askedBank (cyc : Nat) (ag : Agents) (bk : Bank) : Bank := agentsWait cyc ag { bk with lastCyc := some cyc }

/-- The bank with one grant more. -/
def countGrant (bk : Bank) : Bank := { bk with grantsCur := bk.grantsCur + 1 }

/-- A turn of requester `r`: an agent's request is counted as granted, a cluster's longest waiting lane is. -/
def giveTurn (b : Fin 32) (ag : Agents) (r : Nat) (s : State) : State :=
  if 4 ≤ r then
    (if waits s b.val ag r then withBank b (countGrant (agentGranted s.clk.cyc (r - 4) s.mem.banks[b.val])) s else s)
  else (longest s b.val (clusterWaiters s b.val r)).elim s fun l =>
    withBank b (countGrant (grantLane b.val l s).mem.banks[b.val]) (grantLane b.val l s)

theorem decideBank_eq (b : Fin 32) (ag : Agents) (s : State) : decideBank b.val ag s =
    let bk := askedBank s.clk.cyc ag s.mem.banks[b.val]
    if s.clk.cyc % 20 = 19 ∧ ag.mgmt = true then withBank b (countGrant (agentGranted s.clk.cyc 3 bk)) s
    else if 0 < bk.left then giveTurn b ag bk.ptr.val (withBank b { bk with left := bk.left - 1 } s)
    else (nextTurn s b.val ag bk.ptr.val).elim (withBank b bk s) fun t =>
      giveTurn b ag t (withBank b { bk with
        ptr := Fin.ofNat 7 t, left := (if t < 4 then (clusterWaiters s b.val t).length else 1) - 1 } s) := by
  unfold decideBank
  extract_lets put count agent give asked bk bk'
  have hput : ∀ f t, put f t = withBank b (f t.mem.banks[b.val]) t := fun f t => modBank_eq_withBank b f t
  have hcount : ∀ t, count t = withBank b (countGrant t.mem.banks[b.val]) t := hput countGrant
  have hagent : ∀ i t, agent i t = withBank b (countGrant (agentGranted t.clk.cyc i t.mem.banks[b.val])) t := by
    intro i t
    change count (put _ t) = _
    rw [hcount, hput, withBank_bank, withBank_withBank]
  have hgive : ∀ r t, give r t = giveTurn b ag r t := by
    intro r t
    change (if 4 ≤ r then (if waits t b.val ag r then agent (r - 4) t else t) else _) = _
    rw [giveTurn, hagent]
    refine congrArg _ ?_
    cases longest t b.val (clusterWaiters t b.val r) with
    | none => rfl
    | some l => exact hcount _
  have hasked : asked = withBank b bk' s := by
    change put _ (put _ s) = _
    rw [hput, hput, withBank_bank, withBank_withBank]; rfl
  have hbk : bk = bk' := by
    change vget _ asked.mem.banks _ = _
    rw [vget_of_lt _ _ b.isLt, hasked, withBank_bank]
  have hlast : bk'.lastLane = s.mem.banks[b.val].lastLane := rfl
  have hnext : nextTurn asked b.val ag bk.ptr.val = nextTurn s b.val ag bk'.ptr.val := by
    rw [hasked, hbk, nextTurn, waits_withBank hlast]; rfl
  rw [hnext, hagent, hbk, hasked, withBank_bank, withBank_withBank, withBank_clk]
  simp only [hgive, hput, clusterWaiters_withBank hlast, withBank_bank, withBank_withBank]
  cases nextTurn s b.val ag bk'.ptr.val <;> rfl

theorem giveTurn_agent {b : Fin 32} {ag : Agents} {r : Nat} {k : Bank} {s : State} (hr : 4 ≤ r)
    (hk : k.lastLane = s.mem.banks[b.val].lastLane) (h : waits s b.val ag r = true) :
    giveTurn b ag r (withBank b k s) = withBank b (countGrant (agentGranted s.clk.cyc (r - 4) k)) s := by
  rw [giveTurn, if_pos hr, waits_withBank hk, if_pos h, withBank_withBank, withBank_bank, withBank_clk]

theorem agentGranted_eq (cyc : Nat) (i : Fin 4) (bk : Bank) : agentGranted cyc i.val bk =
    { bk with since := bk.since.set i.val none, waitMax := max bk.waitMax (cyc + 1 - (bk.since[i.val]).getD cyc) } := by
  rw [agentGranted, vget_of_lt _ _ i.isLt, vset_of_lt _ _ i.isLt]

/-- A cluster's turn at bank `k` grants the lane that waits longest, and changes no other lane. -/
theorem giveTurn_cluster {s : State} {b : Fin 32} {c : Nat} {k : Bank} (hc : c < 4) (ag : Agents)
    (hk : k.lastLane = s.mem.banks[b.val].lastLane) (h : clusterWaiters s b.val c ≠ []) :
    ∃ (l : Fin 16) (r : SharedReq) (rest : List SharedReq) (u : State), giveTurn b ag c (withBank b k s) = u
      ∧ l.val / 4 = c ∧ (s.lanes[l.val]).reqs = r :: rest ∧ r.addr / bankSize = b.val ∧ r.since ≤ s.clk.cyc
      ∧ (∀ (m : Fin 16) q t, m.val / 4 = c → (s.lanes[m.val]).reqs = q :: t → q.addr / bankSize = b.val → r.since ≤ q.since)
      ∧ u.lanes[l.val] = grantedLane s.clk.cyc (grantOf b.val l.val r s) s.lanes[l.val]
      ∧ (∀ m : Fin 16, m ≠ l → u.lanes[m.val] = s.lanes[m.val])
      ∧ u.mem.banks[b.val] = countGrant (grantedBank s.clk.cyc l.val r k)
      ∧ u.mem.shared = grantedShared r s.mem.shared := by
  obtain ⟨l, r, rest, hlong, hlc, hhead, hreqs, haddr, hsince, hmin⟩ := longest_of_cluster hc h
  obtain ⟨f, p, hgrant⟩ := grantLane_only (s := withBank b k s) hhead
  have hgive : giveTurn b ag c (withBank b k s) = withBank b (countGrant (grantLane b.val l.val (withBank b k s)).mem.banks[b.val])
      (grantLane b.val l.val (withBank b k s)) := by
    rw [giveTurn, if_neg (not_le.mpr hc), clusterWaiters_withBank hk, longest_withBank, hlong, Option.elim_some]
  rw [hgrant] at hgive
  refine ⟨l, r, rest, _, hgive, hlc, hreqs, haddr, hsince, hmin, ?_, fun m hm => ?_, ?_, rfl⟩
  · exact Vector.getElem_set_self ..
  · exact Vector.getElem_set_ne l.isLt m.isLt (fun e => hm (Fin.ext e.symm))
  · rw [withBank_bank, withBank_bank]
    exact congrArg countGrant (Vector.getElem_set_self ..)

/-! #### Granted data that returns (R71, R85, R172) -/

theorem modLane_congr {l : Fin 16} {f g : Lane → Lane} {s : State} (h : f s.lanes[l.val] = g s.lanes[l.val]) :
    modLane l f s = modLane l g s := by
  rw [modLane, modLane, h]

theorem modLane_same {l : Fin 16} {f : Lane → Lane} {s : State} (h : f s.lanes[l.val] = s.lanes[l.val]) : modLane l f s = s := by
  rw [modLane, h, Vector.set_getElem_self]

theorem returnSlot_due {cyc d : Nat} {x : Word} {q : RetSlot} (h : q.granted = some (d, x)) (hd : d ≤ cyc) :
    returnSlot cyc q = { q with data := x, outstanding := false, granted := none } := by
  rw [returnSlot, h]; exact if_pos hd

theorem returnSlot_not_due {cyc : Nat} {q : RetSlot} (h : ∀ d x, q.granted = some (d, x) → cyc < d) : returnSlot cyc q = q := by
  rw [returnSlot]
  split
  · next d x hg => exact if_neg (not_le.mpr (h d x hg))
  · rfl

theorem saveIfDone_not_saving {ln : Lane} (h : ln.saving = false) : saveIfDone ln = ln := by
  rw [saveIfDone, h]; rfl

/-- A preempted lane with nothing under way is saved. -/
theorem saveIfDone_done {ln : Lane} (hs : ln.saving = true) (hm : ln.mode = .bg ∨ ln.mode = .wait) (hr : ln.reqs = [])
    (he : elementUnderWay ln = false) (ho : ∀ j : Fin 20, (ln.slots[j.val]).outstanding = false) :
    saveIfDone ln = saveLane ln := by
  have hany : ln.slots.any (·.outstanding) = false := by
    rw [Vector.any_eq_false]
    exact fun j hj => by simp [ho ⟨j, hj⟩]
  rw [saveIfDone]
  refine if_pos ?_
  simp [hs, hr, he, hany, hm]

/-- The operations that complete at the save leave what the save area takes of slots, program counter and V. -/
theorem saveLane_bgSaved (ln : Lane) : ∃ b, (saveLane ln).bgSaved = some b ∧ b.slots = ln.slots ∧ b.pc = ln.pc ∧ b.v = ln.v :=
  ⟨saveBg (finishOps ln), rfl, foldl_keeps (g := Lane.slots) (f := appear) (fun _ _ => rfl) _ _,
    foldl_keeps (g := Lane.pc) (f := appear) (fun _ _ => rfl) _ _, foldl_keeps (g := Lane.v) (f := appear) (fun _ _ => rfl) _ _⟩

/-- The lane with an access of slot `i` returned, and saved if it was its last. -/
def returnedLane (cyc : Nat) (i : Fin 20) (ln : Lane) : Lane :=
  saveIfDone { ln with slots := ln.slots.set i.val (returnSlot cyc ln.slots[i.val]) }

theorem exec_loadReturn {s t : State} (hp : s.clk.power = true) {l : Fin 16} {i : Fin 20}
    (h : modLane l (returnedLane s.clk.cyc i) s = t) : exec (.loadReturn l i) s = .next (settle t) := by
  refine (act_powered _ hp).trans (congrArg (fun u => Host.Outcome.next (settle u)) ?_)
  simp only [vmod_of_lt _ _ i.isLt]
  exact h

theorem returnedLane_due {cyc d : Nat} {x : Word} {i : Fin 20} {ln : Lane} (hs : ln.saving = false)
    (h : (ln.slots[i.val]).granted = some (d, x)) (hd : d ≤ cyc) : returnedLane cyc i ln = { ln with
      slots := ln.slots.set i.val { ln.slots[i.val] with data := x, outstanding := false, granted := none } } := by
  rw [returnedLane, returnSlot_due h hd]
  exact saveIfDone_not_saving hs

theorem returnedLane_not_due {cyc : Nat} {i : Fin 20} {ln : Lane} (hs : ln.saving = false)
    (h : ∀ d x, (ln.slots[i.val]).granted = some (d, x) → cyc < d) : returnedLane cyc i ln = ln := by
  rw [returnedLane, returnSlot_not_due h, Vector.set_getElem_self, saveIfDone_not_saving hs]

theorem returnedLane_last {cyc d : Nat} {x : Word} {i : Fin 20} {ln : Lane} (h : (ln.slots[i.val]).granted = some (d, x))
    (hd : d ≤ cyc) (hs : ln.saving = true) (hm : ln.mode = .bg ∨ ln.mode = .wait) (hr : ln.reqs = [])
    (he : elementUnderWay ln = false) (ho : ∀ j : Fin 20, j ≠ i → (ln.slots[j.val]).outstanding = false) :
    returnedLane cyc i ln = saveLane { ln with
      slots := ln.slots.set i.val { ln.slots[i.val] with data := x, outstanding := false, granted := none } } := by
  rw [returnedLane, returnSlot_due h hd]
  refine saveIfDone_done hs hm hr he fun j => ?_
  by_cases hj : j = i
  · subst hj; simp
  · simp only [Vector.getElem_set_ne _ _ (fun e => hj (Fin.ext e.symm))]
    exact ho j hj

/-! #### BANK_GRANT and LOAD_RETURN -/

theorem exec_bankGrant_again {s : State} (hp : s.clk.power = true) {b : Fin 32} (ne eq te mgmt : Bool)
    (h : (s.mem.banks[b.val]).lastCyc = some s.clk.cyc) : exec (.bankGrant b ne eq te mgmt) s = .next (settle s) :=
  act_idle hp (if_neg (by simp [h]))

theorem exec_bankGrant_fresh {s : State} (hp : s.clk.power = true) {b : Fin 32} (ne eq te mgmt : Bool)
    (h : (s.mem.banks[b.val]).lastCyc ≠ some s.clk.cyc) :
    exec (.bankGrant b ne eq te mgmt) s = .next (settle (decideBank b.val ⟨ne, eq, te, mgmt⟩ s)) :=
  (act_powered _ hp).trans (congrArg (fun t => Host.Outcome.next (settle t)) (if_pos (by simpa using h)))

/-- In the reserved slot the management is served, and nothing else moves (R174). -/
theorem decideBank_reserved {b : Fin 32} {ag : Agents} {s : State} (h : s.clk.cyc % 20 = 19 ∧ ag.mgmt = true) :
    decideBank b.val ag s
      = withBank b (countGrant (agentGranted s.clk.cyc 3 (askedBank s.clk.cyc ag s.mem.banks[b.val]))) s := by
  rw [decideBank_eq]; exact if_pos h

/-- A turn in progress goes on (R174). -/
theorem decideBank_goesOn {b : Fin 32} {ag : Agents} {s : State} (h : ¬ (s.clk.cyc % 20 = 19 ∧ ag.mgmt = true))
    (hl : 0 < (s.mem.banks[b.val]).left) : decideBank b.val ag s = giveTurn b ag (s.mem.banks[b.val]).ptr.val
      (withBank b { askedBank s.clk.cyc ag s.mem.banks[b.val] with left := (s.mem.banks[b.val]).left - 1 } s) := by
  rw [decideBank_eq]; exact (if_neg h).trans (if_pos hl)

/-- With no turn in progress the next requester after the last turn has its turn, if one waits (R174). -/
theorem decideBank_next {b : Fin 32} {ag : Agents} {s : State} (h : ¬ (s.clk.cyc % 20 = 19 ∧ ag.mgmt = true))
    (hl : (s.mem.banks[b.val]).left = 0) : decideBank b.val ag s =
      (nextTurn s b.val ag (s.mem.banks[b.val]).ptr.val).elim (withBank b (askedBank s.clk.cyc ag s.mem.banks[b.val]) s) fun t =>
        giveTurn b ag t (withBank b { askedBank s.clk.cyc ag s.mem.banks[b.val] with
          ptr := Fin.ofNat 7 t, left := (if t < 4 then (clusterWaiters s b.val t).length else 1) - 1 } s) := by
  rw [decideBank_eq]; exact (if_neg h).trans (if_neg (by change ¬ 0 < (s.mem.banks[b.val]).left; omega))

/-- Settles O48: a bank that decides serves the management in its reserved slot, else goes on with its turn or gives the next
one (R171, R173 to R175); a cluster's turn grants one lane its head access (R172), and a granted access that is due returns
(R71, R172), the last one of a preempted lane with its save (R85). That a grant to an agent or to the management moves no words
and that its wait counts from the first row that shows it are deduced (log entry 30), not the manual's words: R170 and R171 have
a grant move a line. -/
theorem bankEvents : Obligations.BankEvents := by
  intro b ne eq te mgmt s hp bk cmd ag reserved fresh flag since served put turn others
  have hfresh : fresh → cmd = .next (settle (decideBank b.val ag s)) := exec_bankGrant_fresh hp ne eq te mgmt
  have hturn : ∀ (c : Fin 7) (left : Nat), c.val < 4 → clusterWaiters s b.val c.val ≠ [] →
      cmd = .next (settle (giveTurn b ag c.val (withBank b { askedBank s.clk.cyc ag bk with ptr := c, left := left } s))) →
      turn c.val left := by
    intro c left hc hw hcmd
    obtain ⟨l, r, rest, u, hgive, hlc, hreqs, haddr, hsince, hmin, hlane, hlanes, hbank, hmem⟩ :=
      giveTurn_cluster (k := { askedBank s.clk.cyc ag bk with ptr := c, left := left }) hc ag rfl hw
    rw [hgive] at hcmd
    refine ⟨l, r, rest, settle u, hcmd, hlc, hreqs, haddr, hsince, hmin, ?_, hlanes, ?_⟩
    · rw [settle_lanes, hlane, grantedLane_reqs_length _ _ hreqs]
    · rw [settle_mem, settle_lanes, hbank, hlane]
      refine ⟨rfl, rfl, rfl, rfl, rfl, rfl, ?_⟩
      obtain ⟨addr, op, at_⟩ := r
      cases op with
      | load slot n q =>
        refine ⟨hmem, fun i hi => (grantedLane_slot _ hi _).trans ?_⟩
        rw [← hlc]; rfl
      | store slot n v =>
        refine ⟨fun hn => ?_, fun i hi => grantedLane_slot _ hi _⟩
        rw [hmem]
        exact stored_leBytes _ _ hn v
  refine ⟨fun h => exec_bankGrant_again hp ne eq te mgmt (not_not.mp h), fun h hr => ?_, fun h hr hl hc hne heq hte => ?_,
    ?_, fun h hr hl hptr hw => ?_, ?_⟩
  · rw [hfresh h, decideBank_reserved hr]
    exact congrArg (fun k => put (countGrant k)) (agentGranted_eq _ 3 _)
  · have hnone : ∀ x < 7, waits s b.val ag x = false := by
      intro x hx
      rw [← Bool.not_eq_true, waits_iff _ _ _ hx]
      simpa [ag, hne, heq, hte] using hc x
    rw [hfresh h, decideBank_next hr hl, nextTurn_none hnone]
    rfl
  · intro r hr7 h hr hl waiting hw hmin
    have hwaits : ∀ x < 7, waits s b.val ag x = true ↔ waiting x := fun x => waits_iff s b.val ag
    have hwr := (hwaits r hr7).mpr hw
    have hnext := nextTurn_nearest bk.ptr.isLt hr7 hwr fun x hx hwx => hmin x hx ((hwaits x hx).mp hwx)
    have hcmd := hfresh h
    lift r to Fin 7 using hr7
    rw [decideBank_next hr hl, hnext, Option.elim_some, Fin.ofNat_val_eq_self] at hcmd
    rw [Fin.ofNat_val_eq_self]
    refine ⟨fun hr4 => ?_, fun hr4 => ?_⟩
    · rw [if_pos hr4] at hcmd
      obtain ⟨-, hlanes⟩ := hw.resolve_right (by simp only [others]; omega)
      exact hturn r _ hr4 hlanes hcmd
    · obtain ⟨i, hi⟩ : ∃ i : Fin 4, r.val - 4 = i.val := ⟨⟨r.val - 4, by omega⟩, rfl⟩
      rw [if_neg (not_lt.mpr hr4), giveTurn_agent (k := { askedBank s.clk.cyc ag bk with ptr := r, left := 0 }) hr4 rfl hwr, hi,
        agentGranted_eq] at hcmd
      rw [hcmd, hi, Fin.ofNat_val_eq_self]
      rfl
  · exact hturn bk.ptr (bk.left - 1) hptr hw ((hfresh h).trans (by rw [decideBank_goesOn hr hl]; rfl))
  · intro l i q ln slots
    exact ⟨fun d x hs hg hd => exec_loadReturn hp (modLane_congr (returnedLane_due hs hg hd)),
      fun hs hg => exec_loadReturn hp (modLane_same (returnedLane_not_due hs hg)),
      fun d x hs hm hr he hg hd ho => ⟨_, exec_loadReturn hp (modLane_congr (returnedLane_last hg hd hs hm hr he ho)),
        rfl, rfl, saveLane_bgSaved _⟩⟩

end Sys2Proof.Proofs

/-! ### A trigger of one arithmetic unit (R68, R81, R83) -/
namespace Sys2Proof.Proofs

open Sys2Proof Sys2Proof.Machine Sys2Proof.Safety Sys2Proof.Laws

/-- Every trigger offset of a unit is a port that a move may write, and triggers that operation (R62). -/
theorem trigPort {u : UnitId} {op : Nat} (h : isTrig u op = true) :
    trigOf (unitBase u + op) = some (u, op) ∧ dstOk (unitBase u + op) = true := by
  have table : ∀ op < 64, isTrig u op = true →
      trigOf (unitBase u + op) = some (u, op) ∧ dstOk (unitBase u + op) = true := by
    cases u <;> decide
  have hlt : op < 64 := by cases u <;> simp [isTrig] at h <;> omega
  exact table op hlt h

/-- What the trigger of an arithmetic unit does to the lane; the other units are no part of it. -/
def unitStart (vs : Vals) (now : Lane) : UnitId → Nat → Word → Lane → Lane
  | .alu0 => startAlu vs now .alu0
  | .alu1 => startAlu vs now .alu1
  | .mul => startMul vs now
  | .div => startDiv vs now
  | .bcd => startBcd vs now
  | .bit => startBit vs now
  | .cmp => startCmp vs now
  | .fpu => startFpu vs now
  | .crd => startCrd vs now
  | _ => fun _ _ ln => ln

theorem runArith_one {p : Nat} {u : UnitId} {op : Nat} (hp : trigOf p = some (u, op)) (t : Word) (now : Lane) :
    runArith [(p, t)] now = unitStart [(p, t)] now u op t := by
  funext ln
  have own := tr_own (t := t) hp
  have other : ∀ v, v ≠ u → trigger [(p, t)] v = none := fun v hv => tr_other hp hv
  cases u <;> simp [runArith, onTrigger, own, other, unitStart]

/-- The bundle of one trigger of an arithmetic unit changes the lane as that unit says, and nothing else. -/
theorem arith_issues {l : Fin 16} {s : State} (h : laneReady l s) {u : UnitId} {op : Nat} (hop : isTrig u op = true)
    (hu : u.idx < 9) (t : Word) :
    act (issueTrigger l (unitBase u + op) t) s =
      .next (laneStep l (unitStart [(unitBase u + op, t)] (laneNow l s) u op t) s) := by
  obtain ⟨hp, hd⟩ := trigPort hop
  have ne : ∀ v : UnitId, 9 ≤ v.idx → u ≠ v := by rintro v hv rfl; omega
  rw [start_arith h hp hd (ne _ (by decide)) (ne _ (by decide)) (ne _ (by decide)) (ne _ (by decide)) (ne _ (by decide))
    (ne _ (by decide)), runArith_one hp]

/-- The operands of a unit that is triggered are those its ports hold. -/
theorem opnd_trigger {l : Fin 16} {s : State} {u : UnitId} {op : Nat} (hop : isTrig u op = true) (t : Word) (v : UnitId) :
    opnd (laneNow l s) [(unitBase u + op, t)] v 0 = (unitNow l v s).o1
    ∧ opnd (laneNow l s) [(unitBase u + op, t)] v 1 = (unitNow l v s).o2
    ∧ opnd (laneNow l s) [(unitBase u + op, t)] v 2 = (unitNow l v s).o3 :=
  opnd_now (trigPort hop).1 v

/-- The lane of a step keeps its accumulator, its edge memory and its busy units until an operation writes them. -/
theorem endStall_now_kept (l : Fin 16) (s : State) :
    (endStall s (laneNow l s)).acc = (s.lanes[l.val]).acc ∧ (endStall s (laneNow l s)).edges = (s.lanes[l.val]).edges := by
  obtain ⟨_, _, _, _, _, e⟩ := endStall_now l s
  rw [e]; exact ⟨rfl, rfl⟩

/-! #### The operation that each unit starts -/

theorem alu_issues {l : Fin 16} {s : State} (h : laneReady l s) (n : Fin 2) {op : Nat} (hop : 0x10 ≤ op ∧ op ≤ 0x2C) (t : Word) :
    act (issueTrigger l (0x080 + 0x40 * n.val + op) t) s = .next (starts l (aluUnit n) 1
      (aluOp op (unitNow l (aluUnit n) s).o1 t ((unitNow l (aluUnit n) s).f.getLsbD 0)) s) := by
  have hport : 0x080 + 0x40 * n.val = unitBase (aluUnit n) := by fin_cases n <;> rfl
  have htrig : isTrig (aluUnit n) op = true := by fin_cases n <;> simpa [isTrig, aluUnit] using hop
  have hidx : (aluUnit n).idx < 9 := by fin_cases n <;> decide
  rw [hport, arith_issues h htrig hidx]
  have hstart : ∀ vs now, unitStart vs now (aluUnit n) = startAlu vs now (aluUnit n) := by
    intro vs now; fin_cases n <;> rfl
  rw [hstart]
  unfold startAlu
  rw [(opnd_trigger htrig t (aluUnit n)).1]
  rfl

theorem mul_issues {l : Fin 16} {s : State} (h : laneReady l s) {op : Nat} (hop : 0x10 ≤ op ∧ op ≤ 0x14) (t : Word) :
    act (issueTrigger l (0x100 + op) t) s =
      let r := mulOp op (unitNow l .mul s).o1 t (s.lanes[l.val]).acc
      .next (laneStep l (fun ln => startOp .mul 3 r.1 0 { ln with acc := r.2 }) s) := by
  have htrig : isTrig .mul op = true := by simpa [isTrig] using hop
  refine (arith_issues h htrig (by decide) t).trans (congrArg _ (laneStep_congr ?_))
  show startMul _ _ _ _ _ = _
  unfold startMul
  rw [(opnd_trigger htrig t .mul).1, (endStall_now_kept l s).1]

theorem div_issues {l : Fin 16} {s : State} (h : laneReady l s) {op : Nat} (hop : 0x10 ≤ op ∧ op ≤ 0x13) (t : Word) :
    act (issueTrigger l (0x140 + op) t) s = .next (laneStep l (fun ln =>
      startOp .div 18 (divOp op (unitNow l .div s).o1 (unitNow l .div s).o2 t) 0
        { abandon .div ln.divBusy ln with divBusy := ln.step + 18 }) s) := by
  have htrig : isTrig .div op = true := by simpa [isTrig] using hop
  refine (arith_issues h htrig (by decide) t).trans ?_
  unfold unitStart startDiv
  rw [(opnd_trigger htrig t .div).1, (opnd_trigger htrig t .div).2.1]

theorem bcd_issues {l : Fin 16} {s : State} (h : laneReady l s) {op : Nat} (hop : 0x10 ≤ op ∧ op ≤ 0x1A) (t : Word) :
    act (issueTrigger l (0x180 + op) t) s = .next (starts l .bcd 1
      (bcdOp op (unitNow l .bcd s).o1 t ((unitNow l .bcd s).f.getLsbD 5)) s) := by
  have htrig : isTrig .bcd op = true := by simpa [isTrig] using hop
  refine (arith_issues h htrig (by decide) t).trans ?_
  unfold unitStart startBcd
  rw [(opnd_trigger htrig t .bcd).1]
  rfl

theorem bit_issues {l : Fin 16} {s : State} (h : laneReady l s) {op : Nat} (hop : 0x10 ≤ op ∧ op ≤ 0x17) (t : Word) :
    act (issueTrigger l (0x1C0 + op) t) s =
      let r := bitOp op (unitNow l .bit s).o1 t (s.lanes[l.val]).edges
      .next (laneStep l (fun ln => startOp .bit 1 r.1 0 { ln with edges := r.2 }) s) := by
  have htrig : isTrig .bit op = true := by simpa [isTrig] using hop
  refine (arith_issues h htrig (by decide) t).trans (congrArg _ (laneStep_congr ?_))
  show startBit _ _ _ _ _ = _
  unfold startBit
  rw [(opnd_trigger htrig t .bit).1, (endStall_now_kept l s).2]

theorem cmp_issues {l : Fin 16} {s : State} (h : laneReady l s) {op : Nat} (hop : 0x10 ≤ op ∧ op ≤ 0x24) (t : Word) :
    act (issueTrigger l (0x200 + op) t) s = .next (laneStep l (startOp .cmp 1
      (cmpOp op (unitNow l .cmp s).o1 (unitNow l .cmp s).o2 t).2 ((unitNow l .cmp s).o3.toNat % 32)) s) := by
  have htrig : isTrig .cmp op = true := by simpa [isTrig] using hop
  refine (arith_issues h htrig (by decide) t).trans ?_
  unfold unitStart startCmp
  rw [(opnd_trigger htrig t .cmp).1, (opnd_trigger htrig t .cmp).2.1, (opnd_trigger htrig t .cmp).2.2]

theorem fpu_issues {l : Fin 16} {s : State} (h : laneReady l s) {op : Nat} (hop : 0x10 ≤ op ∧ op ≤ 0x20) (t : Word) :
    act (issueTrigger l (0x240 + op) t) s = .next (laneStep l (fun ln =>
      startOp .fpu (if longFpu op then 12 else 4) (fpuOp op (unitNow l .fpu s).o1 (unitNow l .fpu s).o2 t) 0
        { abandon .fpu ln.fpuBusy ln with fpuBusy := if longFpu op then ln.step + 12 else 0 }) s) := by
  have htrig : isTrig .fpu op = true := by simpa [isTrig] using hop
  refine (arith_issues h htrig (by decide) t).trans ?_
  unfold unitStart startFpu
  rw [(opnd_trigger htrig t .fpu).1, (opnd_trigger htrig t .fpu).2.1]

theorem crd_issues {l : Fin 16} {s : State} (h : laneReady l s) {op : Nat} (hop : 0x10 ≤ op ∧ op ≤ 0x13) (t : Word) :
    act (issueTrigger l (0x280 + op) t) s = .next (laneStep l (fun ln =>
      startOp .crd 24 (crdOp op (unitNow l .crd s).o1 t) 0
        { abandon .crd ln.crdBusy ln with crdBusy := ln.step + 24 }) s) := by
  have htrig : isTrig .crd op = true := by simpa [isTrig] using hop
  refine (arith_issues h htrig (by decide) t).trans ?_
  unfold unitStart startCrd
  rw [(opnd_trigger htrig t .crd).1]

end Sys2Proof.Proofs

/-! ### O1: the operations of an ALU (R82, R87, R88) -/
namespace Sys2Proof.Proofs

open Sys2Proof Sys2Proof.Machine Sys2Proof.Safety Sys2Proof.Laws

/-! #### Carry, overflow, Z and N -/

theorem res1_flagsCV (q : Word) (c v : Bool) : res1 q (flagsCV c v q) = withCV q c v := by
  unfold res1 flagsCV withCV
  rw [BitVec.msb_eq_getLsbD_last]
  rfl

theorem aluPlain_eq (q : Word) : aluPlain q = withCV q false false := res1_flagsCV q false false

/-- A signed overflow is a value that its wrapped word does not read back as. -/
theorem ovf32_iff (x : Int) (q : Word) (h : q = BitVec.ofInt 32 x) : ovf32 x = true ↔ x ≠ q.toInt := by
  subst h
  rw [BitVec.toInt_ofInt, ovf32, decide_eq_true_iff, Int.bmod_def]
  omega

theorem bitWord_false : bitWord false = 0#32 := rfl

theorem bitWord_ofInt (c : Bool) : bitWord c = BitVec.ofInt 32 c.toNat := by cases c <;> rfl

theorem sum_ofInt (o1 t : Word) (c : Bool) : o1 + t + bitWord c = BitVec.ofInt 32 (o1.toInt + t.toInt + c.toNat) := by
  rw [BitVec.ofInt_add, BitVec.ofInt_add, BitVec.ofInt_toInt, BitVec.ofInt_toInt, bitWord_ofInt]

theorem diff_ofInt (a b : Word) (c : Bool) : a - b - bitWord c = BitVec.ofInt 32 (a.toInt - b.toInt - c.toNat) := by
  rw [bitWord_ofInt]
  apply BitVec.eq_of_toInt_eq
  cases c <;> simp [BitVec.toInt_sub]

theorem aluSum_eq (o1 t : Word) (c : Bool) : aluSum o1 t c = withCV (o1 + t + bitWord c)
    (decide (2 ^ 32 ≤ o1.toNat + t.toNat + c.toNat))
    (decide (o1.toInt + t.toInt + c.toNat ≠ (o1 + t + bitWord c).toInt)) := by
  unfold aluSum
  dsimp only
  rw [res1_flagsCV]
  congr 1
  rw [Bool.eq_iff_iff, ovf32_iff _ _ (sum_ofInt o1 t c), decide_eq_true_iff]

theorem aluDiff_eq (a b : Word) (c : Bool) : aluDiff a b c = withCV (a - b - bitWord c)
    (decide (a.toNat < b.toNat + c.toNat))
    (decide (a.toInt - b.toInt - c.toNat ≠ (a - b - bitWord c).toInt)) := by
  unfold aluDiff
  dsimp only
  rw [res1_flagsCV]
  congr 1
  rw [Bool.eq_iff_iff, ovf32_iff _ _ (diff_ofInt a b c), decide_eq_true_iff]

/-- Without a carry in, C and V are those of the plain sum (R87). -/
theorem aluSum_plain (o1 t : Word) :
    aluSum o1 t false = withCV (o1 + t) (BitVec.uaddOverflow o1 t) (BitVec.saddOverflow o1 t) := by
  have hv : ovf32 (o1.toInt + t.toInt + 0) = BitVec.saddOverflow o1 t := by
    simp [ovf32, BitVec.saddOverflow, Bool.or_comm]
  unfold aluSum
  simp only [Bool.toNat_false, Nat.cast_zero, hv, bitWord_false, BitVec.add_zero, res1_flagsCV]
  rfl

theorem aluDiff_plain (a b : Word) :
    aluDiff a b false = withCV (a - b) (decide (a < b)) (BitVec.ssubOverflow a b) := by
  have hv : ovf32 (a.toInt - b.toInt - 0) = BitVec.ssubOverflow a b := by
    simp [ovf32, BitVec.ssubOverflow, Bool.or_comm]
  unfold aluDiff
  simp only [Bool.toNat_false, Nat.cast_zero, hv, bitWord_false, BitVec.sub_zero, res1_flagsCV]
  rfl

/-! #### Counts, extensions and orders -/

theorem leadingZeros_eq (x : Word) (n : Nat) : leadingZeros x n = n - Nat.size (x.toNat % 2 ^ n) := by
  induction n with
  | zero => rw [Nat.zero_sub]; rfl
  | succ n ih =>
    unfold leadingZeros
    have hsplit : x.toNat % 2 ^ (n + 1) = x.toNat % 2 ^ n + (x.getLsbD n).toNat * 2 ^ n := by
      rw [BitVec.getLsbD, Nat.toNat_testBit, pow_succ, Nat.mod_mul, mul_comm]
    have hlow : x.toNat % 2 ^ n < 2 ^ n := Nat.mod_lt _ (Nat.two_pow_pos n)
    rw [hsplit]
    by_cases hb : x.getLsbD n = true
    · rw [if_pos hb, hb, Bool.toNat_true, one_mul]
      have : n < Nat.size (x.toNat % 2 ^ n + 2 ^ n) := Nat.lt_size.mpr (Nat.le_add_left _ _)
      omega
    · have : Nat.size (x.toNat % 2 ^ n) ≤ n := Nat.size_le.mpr hlow
      rw [if_neg hb, Bool.eq_false_iff.mpr hb, Bool.toNat_false, zero_mul, add_zero, ih]
      omega

theorem leadingZeros_word (t : Word) : leadingZeros t 32 = 32 - Nat.size t.toNat := by
  rw [leadingZeros_eq, Nat.mod_eq_of_lt t.isLt]

theorem onesBelow_eq (x : Word) (n : Nat) : onesBelow x n = (List.range n).countP fun i => x.getLsbD i := by
  induction n with
  | zero => rfl
  | succ n ih =>
    rw [onesBelow, ih, List.range_succ, List.countP_append, List.countP_singleton]
    cases x.getLsbD n <;> rfl

theorem and_lowByte (t : Word) : t &&& 0xFF = BitVec.setWidth 32 (BitVec.setWidth 8 t) := by
  apply BitVec.eq_of_toNat_eq
  rw [BitVec.toNat_and, show (0xFF : Word).toNat = 2 ^ 8 - 1 from rfl, Nat.and_two_pow_sub_one_eq_mod,
    BitVec.toNat_setWidth, BitVec.toNat_setWidth]
  omega

theorem and_lowHalf (t : Word) : t &&& 0xFFFF = BitVec.setWidth 32 (BitVec.setWidth 16 t) := by
  apply BitVec.eq_of_toNat_eq
  rw [BitVec.toNat_and, show (0xFFFF : Word).toNat = 2 ^ 16 - 1 from rfl, Nat.and_two_pow_sub_one_eq_mod,
    BitVec.toNat_setWidth, BitVec.toNat_setWidth]
  omega

theorem sle_choice {α : Type} (a b : Word) (x y : α) : (if BitVec.sle a b then x else y) = if b.toInt < a.toInt then y else x := by
  by_cases h : a.toInt ≤ b.toInt
  · rw [if_pos (by rwa [BitVec.sle_iff_toInt_le]), if_neg (by omega)]
  · rw [if_neg (by rwa [BitVec.sle_iff_toInt_le]), if_pos (by omega)]

theorem ule_choice {α : Type} (a b : Word) (x y : α) : (if BitVec.ule a b then x else y) = if b < a then y else x := by
  by_cases h : a ≤ b
  · rw [if_pos (by rwa [BitVec.ule_iff_le]), if_neg (BitVec.not_lt.mpr h)]
  · rw [if_neg (by rwa [BitVec.ule_iff_le]), if_pos (BitVec.not_le.mp h)]

/-- NEG (R88): C for every operand but 0, V for 0x80000000. -/
theorem aluNeg_eq (t : Word) : res1 (0 - t) (flagsCV (t != 0) (t == 0x80000000#32) (0 - t)) =
    withCV (-t) (decide (t ≠ 0)) (decide (t = 0x80000000#32)) := by
  rw [res1_flagsCV, zero_sub, bne, beq_eq_decide, beq_eq_decide, ← decide_not]

/-- ABS (R88): the sign bit says that the value is negative. -/
theorem aluAbs_eq (t : Word) : (let q := if t.msb then 0 - t else t; res1 q (flagsCV false (t == 0x80000000#32) q)) =
    withCV (if t.toInt < 0 then -t else t) false (decide (t = 0x80000000#32)) := by
  have hq : (if t.msb then 0 - t else t) = if t.toInt < 0 then -t else t := by
    rw [BitVec.msb_eq_toInt, zero_sub]
    simp only [decide_eq_true_iff]
  dsimp only
  rw [hq, res1_flagsCV, beq_eq_decide]

/-- The largest of two words is the second, unless the first is larger. -/
theorem max_signed (o1 t : Word) : (if BitVec.sle o1 t then t else o1) = if o1.toInt < t.toInt then t else o1 := by
  rw [sle_choice]
  split_ifs with h1 h2 h3
  · omega
  · rfl
  · rfl
  · exact BitVec.eq_of_toInt_eq (by omega)

theorem max_unsigned (o1 t : Word) : (if BitVec.ule o1 t then t else o1) = if o1 < t then t else o1 := by
  rw [ule_choice]
  split_ifs with h1 h2 h3
  · bv_omega
  · rfl
  · rfl
  · bv_omega

/-- Settles O1: each trigger starts its operation of `aluOp`, whose result and flags are those of R87, R82 and R88: sums and
differences by their exact values, the others by `aluPlain`. -/
theorem aluOperations : Obligations.AluOperations := by
  intro l n t s h o1 c gives
  have alu : ∀ {i : Instr} (op : Nat) {q : Word} {cf v : Bool},
      exec i s = act (issueTrigger l (0x080 + 0x40 * n.val + op) t) s → 0x10 ≤ op ∧ op ≤ 0x2C →
      aluOp op o1 t c = withCV q cf v → exec i s = gives q cf v := by
    intro i op q cf v hi hop hq
    rw [hi, alu_issues h n hop t]
    exact congrArg (fun r => Host.Outcome.next (starts l (aluUnit n) 1 r s)) hq
  have plain : ∀ {i : Instr} (op : Nat) {p q : Word},
      exec i s = act (issueTrigger l (0x080 + 0x40 * n.val + op) t) s → 0x10 ≤ op ∧ op ≤ 0x2C →
      aluOp op o1 t c = aluPlain p → p = q → exec i s = gives q false false :=
    fun op _ _ hi hop hp hq => alu op hi hop (hp.trans (hq ▸ aluPlain_eq _))
  refine ⟨alu 0x10 rfl (by decide) (aluSum_plain o1 t), alu 0x11 rfl (by decide) (aluSum_eq o1 t c),
    alu 0x12 rfl (by decide) (aluDiff_plain o1 t), alu 0x13 rfl (by decide) (aluDiff_eq o1 t c),
    alu 0x14 rfl (by decide) (aluDiff_plain t o1), plain 0x15 rfl (by decide) rfl rfl, plain 0x16 rfl (by decide) rfl rfl,
    plain 0x17 rfl (by decide) rfl rfl, plain 0x18 rfl (by decide) rfl rfl, plain 0x19 rfl (by decide) rfl rfl,
    alu 0x1A rfl (by decide) (aluNeg_eq t), alu 0x1B rfl (by decide) (aluAbs_eq t),
    plain 0x21 rfl (by decide) rfl (sle_choice _ _ _ _), plain 0x22 rfl (by decide) rfl (max_signed o1 t),
    plain 0x23 rfl (by decide) rfl (ule_choice _ _ _ _), plain 0x24 rfl (by decide) rfl (max_unsigned o1 t),
    plain 0x25 rfl (by decide) rfl rfl, plain 0x26 rfl (by decide) rfl rfl, plain 0x27 rfl (by decide) rfl (and_lowByte t),
    plain 0x28 rfl (by decide) rfl (and_lowHalf t), plain 0x29 rfl (by decide) rfl (congrArg w (leadingZeros_word t)),
    plain 0x2A rfl (by decide) rfl (congrArg w (onesBelow_eq t 32)), plain 0x2B rfl (by decide) rfl (BitVec.setWidth_eq _),
    plain 0x2C rfl (by decide) rfl rfl⟩

end Sys2Proof.Proofs

/-! ### O2: shifts and rotates (R89) -/
namespace Sys2Proof.Proofs

open Sys2Proof Sys2Proof.Machine Sys2Proof.Safety Sys2Proof.Laws

theorem setWidth_byte (t : Word) : (BitVec.setWidth 8 t).toNat = t.toNat % 256 := by
  rw [BitVec.toNat_setWidth]

/-- C of a shift: the last bit shifted out, for an amount from 1 to 32. -/
theorem shiftCarry_eq (n : Nat) (b : Bool) : (if n = 0 ∨ 32 < n then false else b) = (decide (1 ≤ n ∧ n ≤ 32) && b) := by
  by_cases h : n = 0 ∨ 32 < n
  · rw [if_pos h, decide_eq_false (by omega), Bool.false_and]
  · rw [if_neg h, decide_eq_true (by omega), Bool.true_and]

/-- C of a rotate: none for a whole number of turns. -/
theorem rotateCarry_eq (r : Nat) (b : Bool) : (if r = 0 then false else b) = (decide (r ≠ 0) && b) := by
  by_cases h : r = 0
  · rw [if_pos h, decide_eq_false (by omega), Bool.false_and]
  · rw [if_neg h, decide_eq_true h, Bool.true_and]

/-! The amount is `n = T[7:0]`. -/

theorem aluShl_eq (o1 t : Word) : let n := (BitVec.setWidth 8 t).toNat
    aluShift 0 o1 t = withCV (o1 <<< n) (decide (1 ≤ n ∧ n ≤ 32) && o1.getLsbD (32 - n)) false := by
  intro n
  rw [← shiftCarry_eq, ← res1_flagsCV, show n = t.toNat % 256 from setWidth_byte t]
  rfl

theorem aluShr_eq (o1 t : Word) : let n := (BitVec.setWidth 8 t).toNat
    aluShift 1 o1 t = withCV (o1 >>> n) (decide (1 ≤ n ∧ n ≤ 32) && o1.getLsbD (n - 1)) false := by
  intro n
  rw [← shiftCarry_eq, ← res1_flagsCV, show n = t.toNat % 256 from setWidth_byte t]
  rfl

theorem aluSar_eq (o1 t : Word) : let n := (BitVec.setWidth 8 t).toNat
    aluShift 2 o1 t = withCV (o1.sshiftRight n) (decide (1 ≤ n ∧ n ≤ 32) && o1.getLsbD (n - 1)) false := by
  intro n
  rw [← shiftCarry_eq, ← res1_flagsCV, show n = t.toNat % 256 from setWidth_byte t]
  rfl

theorem aluRol_eq (o1 t : Word) : let r := (BitVec.setWidth 8 t).toNat % 32
    aluRotate true o1 t = withCV (o1.rotateLeft r) (decide (r ≠ 0) && (o1.rotateLeft r).getLsbD 0) false := by
  intro r
  rw [← rotateCarry_eq, ← res1_flagsCV, show r = t.toNat % 256 % 32 from congrArg (· % 32) (setWidth_byte t)]
  rfl

theorem aluRor_eq (o1 t : Word) : let r := (BitVec.setWidth 8 t).toNat % 32
    aluRotate false o1 t = withCV (o1.rotateRight r) (decide (r ≠ 0) && (o1.rotateRight r).getLsbD 31) false := by
  intro r
  rw [← rotateCarry_eq, ← res1_flagsCV, show r = t.toNat % 256 % 32 from congrArg (· % 32) (setWidth_byte t),
    ← BitVec.msb_eq_getLsbD_last (o1.rotateRight (t.toNat % 256 % 32))]
  rfl

/-! #### Bits of the results -/

theorem getLsbD_rotateLeft_mod (x : Word) {r i : Nat} (hr : r < 32) (hi : i < 32) :
    (x.rotateLeft r).getLsbD i = x.getLsbD ((i + 32 - r) % 32) := by
  rw [BitVec.getLsbD_rotateLeft, Nat.mod_eq_of_lt hr]
  by_cases h : i < r
  · rw [decide_eq_true h, cond_true, show (i + 32 - r) % 32 = 32 - r + i by omega]
  · rw [decide_eq_false h, cond_false, decide_eq_true hi, Bool.true_and, show (i + 32 - r) % 32 = i - r by omega]

theorem getLsbD_rotateRight_mod (x : Word) {r i : Nat} (hr : r < 32) (hi : i < 32) :
    (x.rotateRight r).getLsbD i = x.getLsbD ((i + r) % 32) := by
  rw [BitVec.getLsbD_rotateRight, Nat.mod_eq_of_lt hr]
  by_cases h : i < 32 - r
  · rw [decide_eq_true h, cond_true, show (i + r) % 32 = r + i by omega]
  · rw [decide_eq_false h, cond_false, decide_eq_true hi, Bool.true_and, show (i + r) % 32 = i - (32 - r) by omega]

theorem getLsbD_sshiftRight_word (x : Word) (n : Nat) {i : Nat} (hi : i < 32) :
    (x.sshiftRight n).getLsbD i = if i + n < 32 then x.getLsbD (i + n) else x.getLsbD 31 := by
  rw [BitVec.getLsbD_sshiftRight, decide_eq_false (by omega), Bool.not_false, Bool.true_and, BitVec.msb_eq_getLsbD_last,
    Nat.add_comm n i]

/-- Settles O2: the shifts and rotates of BitVec, with C by R89. -/
theorem shiftsAndRotates : Obligations.ShiftsAndRotates := by
  intro l a t s h o1 n r gives
  have alu : ∀ {i : Instr} (op : Nat) {q : Word} {c : Bool},
      exec i s = act (issueTrigger l (0x080 + 0x40 * a.val + op) t) s → 0x10 ≤ op ∧ op ≤ 0x2C →
      (∀ cin, aluOp op o1 t cin = withCV q c false) → gives i q c := by
    intro i op q c hi hop hq
    exact (hi.trans (alu_issues h a hop t)).trans (congrArg (fun x => Host.Outcome.next (starts l (aluUnit a) 1 x s)) (hq _))
  have hr : r < 32 := Nat.mod_lt _ (by decide)
  refine ⟨o1 <<< n, o1 >>> n, o1.sshiftRight n, o1.rotateLeft r, o1.rotateRight r, fun i hi => ?_, fun i _ => ?_,
    fun i hi => getLsbD_sshiftRight_word o1 n hi, fun i hi => getLsbD_rotateLeft_mod o1 hr hi,
    fun i hi => getLsbD_rotateRight_mod o1 hr hi,
    alu 0x1C rfl (by decide) fun _ => aluShl_eq o1 t, alu 0x1D rfl (by decide) fun _ => aluShr_eq o1 t,
    alu 0x1E rfl (by decide) fun _ => aluSar_eq o1 t, alu 0x1F rfl (by decide) fun _ => aluRol_eq o1 t,
    alu 0x20 rfl (by decide) fun _ => aluRor_eq o1 t⟩
  · rw [BitVec.getLsbD_shiftLeft, decide_eq_true hi, Bool.true_and, ← decide_not]
    simp only [not_lt]
  · rw [BitVec.getLsbD_ushiftRight, Nat.add_comm]

end Sys2Proof.Proofs

/-! ### O3: products and the accumulator (R90) -/
namespace Sys2Proof.Proofs

open Sys2Proof Sys2Proof.Machine Sys2Proof.Safety Sys2Proof.Laws

theorem res64_eq (x : BitVec 64) (v : Bool) : res64 x v = ⟨x.setWidth 32, x.extractLsb' 32 32, 0,
    flagWord false v (decide (x = 0)) (x.getLsbD 63) false false false, 0⟩ := by
  unfold res64
  rw [BitVec.msb_eq_getLsbD_last]
  rfl

theorem mulQ31_eq (o1 t : Word) (acc : BitVec 64) : mulOp 0x12 o1 t acc =
    (if o1 = 0x80000000#32 ∧ t = 0x80000000#32 then withCV 0x7FFFFFFF#32 false true
     else withCV (BitVec.ofInt 32 ((o1.toInt * t.toInt + 2 ^ 30) / 2 ^ 31)) false false, acc) := by
  simp only [mulOp, flagsZN, res1_flagsCV]
  split_ifs <;> rfl

theorem mulMac_eq (o1 t : Word) (acc : BitVec 64) : mulOp 0x13 o1 t acc =
    (res64 (acc + BitVec.ofInt 64 (o1.toInt * t.toInt))
      (decide (acc.toInt + o1.toInt * t.toInt < -(2 ^ 63) ∨ 2 ^ 63 ≤ acc.toInt + o1.toInt * t.toInt)),
     acc + BitVec.ofInt 64 (o1.toInt * t.toInt)) := by
  have hsum : acc + BitVec.ofInt 64 (o1.toInt * t.toInt) = BitVec.ofInt 64 (acc.toInt + o1.toInt * t.toInt) := by
    rw [BitVec.ofInt_add, BitVec.ofInt_toInt]
  rw [hsum]
  rfl

theorem mulAccset_eq (o1 t : Word) (acc : BitVec 64) : mulOp 0x14 o1 t acc = (res64 (o1 ++ t) false, o1 ++ t) := by
  have hcat : BitVec.ofNat 64 (o1.toNat * 2 ^ 32 + t.toNat) = o1 ++ t := by
    apply BitVec.eq_of_toNat_eq
    rw [cat_toNat, BitVec.toNat_ofNat]
    omega
  rw [← hcat]
  rfl

/-- Settles O3: each trigger presents what `mulOp` says of the ACC that the lane holds, and leaves ACC as it says; what a
product leaves is the ACC that was there. -/
theorem mulOperations : Obligations.MulOperations := by
  intro l t s h o1 acc sp gives
  have mul : ∀ {i : Instr} (op : Nat) {x a : BitVec 64} {v : Bool}, exec i s = act (issueTrigger l (0x100 + op) t) s →
      0x10 ≤ op ∧ op ≤ 0x14 → mulOp op o1 t acc = (res64 x v, a) → exec i s = gives x v a := by
    intro i op x a v hi hop hr
    refine (hi.trans (mul_issues h hop t)).trans ?_
    rw [show mulOp op (unitNow l .mul s).o1 t (s.lanes[l.val]).acc = (res64 x v, a) from hr, res64_eq]
  refine ⟨mul 0x10 rfl (by decide) rfl, mul 0x11 rfl (by decide) rfl, ?_, mul 0x13 rfl (by decide) (mulMac_eq o1 t acc),
    mul 0x14 rfl (by decide) (mulAccset_eq o1 t acc)⟩
  refine (mul_issues (op := 0x12) h (by decide) t).trans (congrArg Host.Outcome.next (laneStep_congr ?_))
  rw [mulQ31_eq, ← (endStall_now_kept l s).1]

end Sys2Proof.Proofs

/-! ### O4: division (R91, R92) -/
namespace Sys2Proof.Proofs

open Sys2Proof Sys2Proof.Machine Sys2Proof.Safety Sys2Proof.Laws

/-- The remainder of a truncating division has the dividend's sign, or is 0 (R91). -/
theorem tmod_sign (n d : Int) : n.tmod d = 0 ∨ (0 < n.tmod d ↔ 0 < n) := by
  rcases lt_or_ge 0 n with h | h
  · have := Int.tmod_nonneg d h.le
    omega
  · have := Int.tmod_nonneg d (neg_nonneg.mpr h)
    rw [Int.neg_tmod] at this
    omega

/-- A division by zero (R92). -/
theorem divOp_zero (op : Nat) (o1 o2 t : Word) (h : t = 0) :
    divOp op o1 o2 t = ⟨0, o1, 0, flagWord false false true false true false false, o1⟩ := if_pos h

/-- What a division by another number presents: exact quotient and remainder by their low words, V, and Z and N of q. -/
theorem divRes_eq (n d : Int) (fits : Int → Bool) : divRes n d fits = ⟨BitVec.ofInt 32 (n.tdiv d), BitVec.ofInt 32 (n.tmod d), 0,
    flagWord false (!fits (n.tdiv d)) (decide (BitVec.ofInt 32 (n.tdiv d) = 0#32)) ((BitVec.ofInt 32 (n.tdiv d)).getLsbD 31)
      false false false, 0⟩ := by
  unfold divRes flagsCV
  dsimp only
  rw [BitVec.msb_eq_getLsbD_last]
  rfl

theorem overflow_signed (x : Int) : (!!ovf32 x) = decide (x < -(2 ^ 31) ∨ 2 ^ 31 - 1 < x) := by
  rw [Bool.not_not, ovf32]
  exact decide_eq_decide.mpr (by omega)

theorem overflow_unsigned {x : Int} (h : 0 ≤ x) : (!decide (x < 2 ^ 32)) = decide (x < 0 ∨ 2 ^ 32 - 1 < x) := by
  rw [← decide_not]
  exact decide_eq_decide.mpr (by omega)

theorem dividend_toNat (o1 o2 : Word) : (o2 ++ o1).toNat = o2.toNat * 2 ^ 32 + o1.toNat := cat_toNat o2 o1

theorem dividend_word (o1 o2 : Word) : BitVec.ofNat 64 (o2.toNat * 2 ^ 32 + o1.toNat) = o2 ++ o1 := by
  rw [← dividend_toNat, BitVec.ofNat_toNat]
  exact BitVec.setWidth_eq _

/-! The dividend of the wide divisions is the 64-bit word o2:o1. -/

theorem divOp_wideSigned {o1 o2 t : Word} (ht : t ≠ 0) :
    divOp 0x12 o1 o2 t = divRes (o2 ++ o1).toInt t.toInt (fun x => !ovf32 x) := by
  simp only [divOp, if_neg ht, dividend_word]

theorem divOp_wideUnsigned {o1 o2 t : Word} (ht : t ≠ 0) :
    divOp 0x13 o1 o2 t = divRes (o2 ++ o1).toNat t.toNat (fun x => decide (x < 2 ^ 32)) := by
  simp only [divOp, if_neg ht, dividend_toNat]

/-- Settles O4: each trigger presents what `divOp` says, which is truncating division (R91) or the values of R92. -/
theorem division : Obligations.Division := by
  intro l t s h o1 o2 gives divides
  have divs : ∀ {i : Instr} (op : Nat) {n d lo hi : Int} {fits : Int → Bool},
      exec i s = act (issueTrigger l (0x140 + op) t) s → 0x10 ≤ op ∧ op ≤ 0x13 → (t ≠ 0 → d ≠ 0) →
      (t ≠ 0 → divOp op o1 o2 t = divRes n d fits) →
      (!fits (n.tdiv d)) = decide (n.tdiv d < lo ∨ hi < n.tdiv d) → divides i n d lo hi := by
    intro i op n d lo hi fits hi' hop hd hr hv
    have run := hi'.trans (div_issues h hop t)
    by_cases ht : t = 0
    · refine if_pos ht |>.mpr ?_
      exact run.trans (by rw [divOp_zero op _ _ t ht]; rfl)
    · refine if_neg ht |>.mpr ⟨n.tdiv d, n.tmod d, ?_, ?_, tmod_sign n d, ?_⟩
      · exact (Int.tdiv_mul_add_tmod n d).symm
      · rw [Int.natAbs_tmod]
        exact Nat.mod_lt _ (Int.natAbs_pos.mpr (hd ht))
      · refine run.trans ?_
        rw [show divOp op (unitNow l .div s).o1 (unitNow l .div s).o2 t = divRes n d fits from hr ht, divRes_eq, hv]
        rfl
  have hs : t ≠ 0 → t.toInt ≠ 0 := fun ht e => ht (BitVec.eq_of_toInt_eq (by simpa using e))
  have hu : t ≠ 0 → (t.toNat : Int) ≠ 0 := fun ht e => ht (BitVec.eq_of_toNat_eq (by simpa using e))
  have pos : ∀ a b : Nat, 0 ≤ Int.tdiv (a : Int) b := fun a b => Int.tdiv_nonneg (Int.natCast_nonneg a) (Int.natCast_nonneg b)
  exact ⟨divs 0x10 rfl (by decide) hs (fun ht => if_neg ht) (overflow_signed _),
    divs 0x11 rfl (by decide) hu (fun ht => if_neg ht) (overflow_unsigned (pos _ _)),
    divs 0x12 rfl (by decide) hs divOp_wideSigned (overflow_signed _),
    divs 0x13 rfl (by decide) hu divOp_wideUnsigned (overflow_unsigned (pos _ _))⟩

end Sys2Proof.Proofs

/-! ### O5: decimal arithmetic (R93, R94) -/
namespace Sys2Proof.Proofs

open Sys2Proof Sys2Proof.Machine Sys2Proof.Safety Sys2Proof.Laws

/-! #### Digits of a word -/

theorem nib_eq_digit (x : Word) (i : Nat) : nib x i = digit x i := by
  rw [nib, digit, Nat.shiftRight_eq_div_pow, pow_mul]
  norm_num

theorem sum_range_eight (f : Nat → Nat) :
    ((List.range 8).map f).sum = f 0 + f 1 + f 2 + f 3 + f 4 + f 5 + f 6 + f 7 := by
  simp [List.range_succ, ← Nat.add_assoc]

theorem foldl_range_eight (f : Nat → Nat) :
    (List.range 8).foldl (fun a i => a + f i) 0 = f 0 + f 1 + f 2 + f 3 + f 4 + f 5 + f 6 + f 7 := by
  simp [List.range_succ]

theorem bcdVal_eq_decimal (x : Word) : bcdVal x = decimal x := by
  simp only [bcdVal, decimal, nib_eq_digit, foldl_range_eight, sum_range_eight]

theorem nibVal_eq_sum (x : Word) : nibVal x = ((List.range 8).map fun i => digit x i * 10 ^ i).sum := by
  simp only [nibVal, nib_eq_digit, foldl_range_eight, sum_range_eight]

theorem badBcd_iff (x : Word) : badBcd x = true ↔ nonDecimal x := by
  simp [badBcd, nonDecimal, nib_eq_digit]

/-- A number put together from digits below the base, and its digits. -/
theorem positional_lt {b : Nat} {d : Nat → Nat} (hd : ∀ i, d i < b) (k : Nat) :
    (List.range k).foldl (fun a i => a + d i * b ^ i) 0 < b ^ k := by
  induction k with
  | zero => exact Nat.one_pos
  | succ k ih =>
    have hk := Nat.mul_le_mul_right (b ^ k) (hd k)
    rw [List.range_succ, List.foldl_append, List.foldl_cons, List.foldl_nil, pow_succ']
    rw [Nat.succ_mul] at hk
    omega

theorem positional_digit {b : Nat} {d : Nat → Nat} (hd : ∀ i, d i < b) {i k : Nat} (hi : i < k) :
    (List.range k).foldl (fun a i => a + d i * b ^ i) 0 / b ^ i % b = d i := by
  have hb : 0 < b ^ i := Nat.pow_pos (Nat.zero_lt_of_lt (hd 0))
  induction k with
  | zero => omega
  | succ k ih =>
    rw [List.range_succ, List.foldl_append, List.foldl_cons, List.foldl_nil]
    rcases Nat.lt_succ_iff_lt_or_eq.mp hi with h | rfl
    · have hpow : d k * b ^ k = b * (d k * b ^ (k - i - 1)) * b ^ i := by
        rw [show b ^ k = b ^ (k - i - 1) * b * b ^ i by rw [← pow_succ, ← pow_add]; congr 1; omega]
        ring
      rw [hpow, Nat.add_mul_div_right _ _ hb, Nat.add_mul_mod_self_left, ih h]
    · rw [Nat.add_mul_div_right _ _ hb, Nat.div_eq_of_lt (positional_lt hd i), zero_add, Nat.mod_eq_of_lt (hd i)]

/-- A word of eight decimal digits (R93). -/
theorem packs_toBcd (n : Nat) : packs (toBcd n) n := by
  intro i hi
  have hd : ∀ k, n / 10 ^ k % 10 < 16 := fun k => (Nat.mod_lt _ (by decide)).trans (by decide)
  have hlt := positional_lt hd 8
  rw [digit, toBcd, BitVec.toNat_ofNat, Nat.mod_eq_of_lt (hlt.trans_eq (by norm_num))]
  exact positional_digit hd hi

/-- The packed result stands for the exact value modulo 10^8. -/
theorem packs_toBcd_mod (v : Nat) : packs (toBcd (v % 10 ^ 8)) v := by
  intro i hi
  rw [packs_toBcd _ i hi]
  interval_cases i <;> omega

theorem res1_bcdFlags (q : Word) (dc inv : Bool) : res1 q (bcdFlags q dc inv) = bcdWord q 0 dc inv := rfl

theorem res2_bcdFlags (q q2 : Word) (dc inv : Bool) : res2 q q2 (bcdFlags q dc inv) = bcdWord q q2 dc inv := rfl

/-! #### What the digit operations present -/

theorem bcdAdd_eq (o1 t : Word) (dc : Bool) : bcdOp 0x10 o1 t dc = bcdWord (toBcd ((decimal o1 + decimal t) % 10 ^ 8)) 0
    (decide (10 ^ 8 ≤ decimal o1 + decimal t)) (badBcd o1 || badBcd t) := by
  simp only [bcdOp, bcdVal_eq_decimal, res1_bcdFlags, add_zero]

theorem bcdAddc_eq (o1 t : Word) (dc : Bool) : bcdOp 0x11 o1 t dc =
    bcdWord (toBcd ((decimal o1 + decimal t + dc.toNat) % 10 ^ 8)) 0
    (decide (10 ^ 8 ≤ decimal o1 + decimal t + dc.toNat)) (badBcd o1 || badBcd t) := by
  simp only [bcdOp, bcdVal_eq_decimal, res1_bcdFlags]

theorem bcdSub_eq (o1 t : Word) (dc : Bool) : bcdOp 0x12 o1 t dc =
    bcdWord (toBcd ((decimal o1 + 10 ^ 8 - decimal t) % 10 ^ 8)) 0
    (decide (decimal o1 < decimal t)) (badBcd o1 || badBcd t) := by
  simp only [bcdOp, bcdVal_eq_decimal, res1_bcdFlags, add_zero, tsub_zero]

theorem bcdSubc_eq (o1 t : Word) (dc : Bool) : bcdOp 0x13 o1 t dc =
    bcdWord (toBcd ((decimal o1 + 10 ^ 8 - decimal t - dc.toNat) % 10 ^ 8)) 0
    (decide (decimal o1 < decimal t + dc.toNat)) (badBcd o1 || badBcd t) := by
  simp only [bcdOp, bcdVal_eq_decimal, res1_bcdFlags]

theorem bcdAdj_eq (o1 t : Word) (dc : Bool) : let raw := ((List.range 8).map fun i => digit t i * 10 ^ i).sum
    bcdOp 0x14 o1 t dc = bcdWord (toBcd (raw % 10 ^ 8)) 0 (decide (10 ^ 8 ≤ raw)) false := by
  simp only [bcdOp, nibVal_eq_sum, res1_bcdFlags]

theorem bcdToBin_eq (o1 t : Word) (dc : Bool) : bcdOp 0x15 o1 t dc = bcdWord (w (decimal t)) 0 false (badBcd t) := by
  simp only [bcdOp, bcdVal_eq_decimal, res1_bcdFlags]

theorem bcdOfBin_eq (o1 t : Word) (dc : Bool) : bcdOp 0x16 o1 t dc = bcdWord (toBcd (t.toNat % 10 ^ 8)) (w (t.toNat / 10 ^ 8))
    (decide (t.toNat / 10 ^ 8 ≠ 0)) false := by
  simp only [bcdOp, res2_bcdFlags]

/-- Settles O5: each trigger presents what `bcdOp` says: the packed form of the exact value, DC and INV. -/
theorem decimalArithmetic : Obligations.DecimalArithmetic := by
  intro l t s h o1 dc gives raw
  have run : ∀ {i : Instr} (op : Nat) {r : OpRes}, exec i s = act (issueTrigger l (0x180 + op) t) s →
      0x10 ≤ op ∧ op ≤ 0x1A → bcdOp op o1 t ((unitNow l .bcd s).f.getLsbD 5) = r →
      exec i s = Host.Outcome.next (starts l .bcd 1 r s) := by
    intro i op r hi hop hr
    rw [hi, bcd_issues h hop t, ← hr]
  have bcd : ∀ {i : Instr} (op v : Nat) {q2 : Word} {d e : Bool} {dcOut inv : Prop},
      exec i s = act (issueTrigger l (0x180 + op) t) s → 0x10 ≤ op ∧ op ≤ 0x1A →
      bcdOp op o1 t ((unitNow l .bcd s).f.getLsbD 5) = bcdWord (toBcd (v % 10 ^ 8)) q2 d e → (d = true ↔ dcOut) →
      (e = true ↔ inv) → gives i v q2 dcOut inv :=
    fun op v _ _ _ _ _ hi hop hr hd he => ⟨_, _, _, packs_toBcd_mod v, hd, he, run op hi hop hr⟩
  have inv2 : (badBcd o1 || badBcd t) = true ↔ nonDecimal o1 ∨ nonDecimal t := by
    rw [Bool.or_eq_true, badBcd_iff, badBcd_iff]
  have inv1 : (false = true) ↔ False := by decide
  have big : t.toNat / 10 ^ 8 ≠ 0 ↔ 10 ^ 8 ≤ t.toNat := by omega
  exact ⟨bcd 0x10 _ rfl (by decide) (bcdAdd_eq o1 t _) decide_eq_true_iff inv2,
    bcd 0x11 _ rfl (by decide) (bcdAddc_eq o1 t _) decide_eq_true_iff inv2,
    bcd 0x12 _ rfl (by decide) (bcdSub_eq o1 t _) decide_eq_true_iff inv2,
    bcd 0x13 _ rfl (by decide) (bcdSubc_eq o1 t _) decide_eq_true_iff inv2,
    bcd 0x14 _ rfl (by decide) (bcdAdj_eq o1 t _) decide_eq_true_iff inv1,
    ⟨_, badBcd_iff t, run 0x15 rfl (by decide) (bcdToBin_eq o1 t _)⟩,
    bcd 0x16 _ rfl (by decide) (bcdOfBin_eq o1 t _) (decide_eq_true_iff.trans big) inv1⟩

end Sys2Proof.Proofs

/-! ### O6: calendar conversions (R95, R96) -/
namespace Sys2Proof.Proofs

open Sys2Proof Sys2Proof.Machine Sys2Proof.Safety Sys2Proof.Laws

/-! #### Packed words and their numbers -/

theorem decimal_digit (t : Word) {i : Nat} (hi : i < 8) : decimal t / 10 ^ i % 10 = min 9 (digit t i) := by
  have hd : ∀ k, min 9 (digit t k) < 10 := fun k => by omega
  rw [← bcdVal_eq_decimal, bcdVal]
  simp only [nib_eq_digit]
  exact positional_digit hd hi

/-- A word packs a number of eight digits exactly when it is decimal and stands for it. -/
theorem packs_iff (t : Word) {n : Nat} (hn : n < 10 ^ 8) : packs t n ↔ ¬ nonDecimal t ∧ decimal t = n := by
  constructor
  · intro h
    have hd : ∀ i < 8, min 9 (digit t i) = n / 10 ^ i % 10 := fun i hi => by rw [h i hi]; omega
    refine ⟨fun ⟨i, hi, h9⟩ => by rw [h i hi] at h9; omega, ?_⟩
    rw [decimal, sum_range_eight, hd 0 (by decide), hd 1 (by decide), hd 2 (by decide), hd 3 (by decide), hd 4 (by decide),
      hd 5 (by decide), hd 6 (by decide), hd 7 (by decide)]
    omega
  · rintro ⟨h, rfl⟩ i hi
    rw [decimal_digit t hi]
    have : ¬ 9 < digit t i := fun h9 => h ⟨i, hi, h9⟩
    omega

theorem badBcd_eq_false (t : Word) : badBcd t = false ↔ ¬ nonDecimal t := by
  rw [← badBcd_iff, Bool.not_eq_true]

/-- The digits of a decimal word, two by two and in its high half. -/
theorem nib_of_decimal {t : Word} (h : ¬ nonDecimal t) {i : Nat} (hi : i < 8) : nib t i = decimal t / 10 ^ i % 10 := by
  rw [decimal_digit t hi, nib_eq_digit]
  have : ¬ 9 < digit t i := fun h9 => h ⟨i, hi, h9⟩
  omega

theorem pair_of_decimal {t : Word} (h : ¬ nonDecimal t) {i : Nat} (hi : i + 1 < 8) :
    nib t (i + 1) * 10 + nib t i = decimal t / 10 ^ i % 100 := by
  rw [nib_of_decimal h hi, nib_of_decimal h (Nat.lt_of_succ_lt hi), pow_succ, ← Nat.div_div_eq_div_mul]
  omega

theorem high_of_decimal (t : Word) : bcdVal (t >>> 16) = decimal t / 10000 := by
  have low : ∀ i, digit (t >>> 16) i = digit t (i + 4) := by
    intro i
    rw [digit, digit, BitVec.toNat_ushiftRight, Nat.shiftRight_eq_div_pow, pow_add, Nat.div_div_eq_div_mul, mul_comm]
    norm_num
  have high : ∀ i, 8 ≤ i → digit t i = 0 := by
    intro i hi
    have : t.toNat < 16 ^ i := t.isLt.trans_le (by calc 2 ^ 32 = 16 ^ 8 := by norm_num
      _ ≤ 16 ^ i := Nat.pow_le_pow_right (by decide) hi)
    rw [digit, Nat.div_eq_of_lt this]
  rw [bcdVal_eq_decimal]
  simp only [decimal, sum_range_eight, low, high, Nat.le_refl, Nat.reduceAdd, Nat.reduceLeDiff]
  have hd : ∀ i, min 9 (digit t i) ≤ 9 := fun i => min_le_left _ _
  have h0 := hd 0; have h1 := hd 1; have h2 := hd 2; have h3 := hd 3
  omega

/-! #### Months and years -/

theorem monthLen_eq {y m : Nat} (h1 : 1 ≤ m) (h2 : m ≤ 12) : monthLen y m = monthDays y m := by
  have leap : (if y % 4 = 0 ∧ y ≠ 2100 then 29 else 28) = if leapYear y then 29 else 28 := by simp [leapYear]
  unfold monthLen
  rw [leap]
  interval_cases m <;> rfl

theorem monthLen_le (y : Nat) {m : Nat} (h1 : 1 ≤ m) (h2 : m ≤ 12) : monthLen y m ≤ 31 := by
  rw [monthLen_eq h1 h2]
  unfold monthDays
  split
  · split_ifs <;> decide
  all_goals decide

theorem foldl_add_eq_sum (f : Nat → Nat) (n : Nat) :
    (List.range n).foldl (fun a i => a + f i) 0 = ((List.range n).map f).sum := by
  rw [List.sum_eq_foldl, List.foldl_map]

theorem daysBeforeMonth_eq (y : Nat) {m : Nat} (h : m ≤ 13) :
    ((List.range (m - 1)).map fun j => monthLen y (j + 1)).sum = daysBeforeMonth y m := by
  rw [daysBeforeMonth, foldl_add_eq_sum]
  congr 1
  refine List.map_congr_left fun j hj => monthLen_eq (by omega) ?_
  have := List.mem_range.mp hj
  omega

theorem daysBeforeMonth_succ (y m : Nat) (h : 1 ≤ m) : daysBeforeMonth y (m + 1) = daysBeforeMonth y m + monthDays y m := by
  obtain ⟨k, rfl⟩ : ∃ k, m = k + 1 := ⟨m - 1, by omega⟩
  simp only [daysBeforeMonth, Nat.add_sub_cancel, List.range_succ, List.foldl_append, List.foldl_cons, List.foldl_nil]

/-- Days of a year. -/
def yearDays (y : Nat) : Nat := if leapYear y then 366 else 365

theorem daysBeforeMonth_year (y : Nat) : daysBeforeMonth y 13 = yearDays y := by
  simp [daysBeforeMonth, List.range_succ, monthDays, yearDays]
  split_ifs <;> rfl

theorem daysBeforeYear_succ (n : Nat) : daysBeforeYear (n + 1) = daysBeforeYear n + yearDays (2000 + n) := by
  simp only [daysBeforeYear, yearDays, List.range_succ, List.foldl_append, List.foldl_cons, List.foldl_nil]

theorem dayNumber_eq (y d : Nat) {m : Nat} (h : m ≤ 12) :
    dayNumber y m d = daysBeforeYear (y - 2000) + daysBeforeMonth y m + (d - 1) := by
  have year : ∀ i, ((List.range 12).map fun j => monthLen (2000 + i) (j + 1)).sum = yearDays (2000 + i) := fun i =>
    (daysBeforeMonth_eq _ (m := 13) le_rfl).trans (daysBeforeMonth_year _)
  rw [dayNumber, daysBeforeMonth_eq y (by omega)]
  simp only [year]
  rw [daysBeforeYear, foldl_add_eq_sum]
  rfl

/-! #### From a day number to its date -/

/-- The walk over the years stops in the year that holds the day. -/
theorem yearOf_spec (f k d : Nat) (h : daysBeforeYear k + d < daysBeforeYear (k + f)) :
    ∃ k' d', yearOf f (2000 + k) d = (2000 + k', d') ∧ k' < k + f ∧ d' < yearDays (2000 + k')
      ∧ daysBeforeYear k' + d' = daysBeforeYear k + d := by
  induction f generalizing k d with
  | zero => exact absurd h (by rw [Nat.add_zero]; omega)
  | succ f ih =>
    by_cases hd : d < yearDays (2000 + k)
    · exact ⟨k, d, if_pos hd, by omega, hd, rfl⟩
    · have hs := daysBeforeYear_succ k
      obtain ⟨k', d', e, hk, hd', hsum⟩ := ih (k + 1) (d - yearDays (2000 + k)) (by
        rw [show k + 1 + f = k + (f + 1) by omega]; omega)
      exact ⟨k', d', (if_neg hd).trans e, by omega, hd', by omega⟩

/-- The walk over the months stops in the month that holds the day. -/
theorem monthOf_spec (y f m d : Nat) (hm : 1 ≤ m) (h : daysBeforeMonth y m + d < daysBeforeMonth y (m + f)) :
    ∃ m' d', monthOf f y m d = (m', d') ∧ m ≤ m' ∧ m' < m + f ∧ d' < monthDays y m'
      ∧ daysBeforeMonth y m' + d' = daysBeforeMonth y m + d := by
  induction f generalizing m d with
  | zero => exact absurd h (by rw [Nat.add_zero]; omega)
  | succ f ih =>
    by_cases hd : d < monthDays y m
    · exact ⟨m, d, if_pos hd, le_rfl, by omega, hd, rfl⟩
    · have hs := daysBeforeMonth_succ y m hm
      obtain ⟨m', d', e, hlo, hhi, hd', hsum⟩ := ih (m + 1) (d - monthDays y m) (by omega) (by
        rw [show m + 1 + f = m + (f + 1) by omega]; omega)
      exact ⟨m', d', (if_neg hd).trans e, by omega, by omega, hd', by omega⟩

theorem daysBeforeYear_range : daysBeforeYear 200 = 73049 := by decide +kernel

/-- Every day of the range has its date. -/
theorem dayToDate_spec {n : Nat} (h : n ≤ 73048) :
    ∃ y m d, validDate y m d ∧ dayNumber y m d = n ∧ dayToDate n = toBcd (y * 10000 + m * 100 + d) := by
  obtain ⟨k, r, hyear, hk, hr, hsum⟩ := yearOf_spec 200 0 n (by
    rw [Nat.zero_add, daysBeforeYear_range]; exact Nat.lt_succ_of_le (by simpa [daysBeforeYear] using h))
  obtain ⟨m, d, hmonth, hm1, hm2, hd, hsum'⟩ := monthOf_spec (2000 + k) 12 1 r le_rfl (by
    rw [daysBeforeMonth_year]; simpa [daysBeforeMonth] using hr)
  have hlen := monthLen_eq (y := 2000 + k) hm1 (by omega)
  refine ⟨2000 + k, m, d + 1, ⟨by omega, by omega, hm1, by omega, by omega, by omega⟩, ?_, ?_⟩
  · have h1 : daysBeforeMonth (2000 + k) 1 = 0 := rfl
    have h0 : daysBeforeYear 0 = 0 := rfl
    rw [dayNumber_eq _ _ (by omega), show 2000 + k - 2000 = k by omega]
    omega
  · rw [dayToDate, show (2000 : Nat) = 2000 + 0 from rfl, hyear]
    dsimp only
    rw [hmonth]

/-! #### What the conversions present -/

/-- The date that a decimal word names. -/
theorem dateToDay_of_decimal {t : Word} (h : ¬ nonDecimal t) : dateToDay t =
    let y := decimal t / 10000
    let m := decimal t / 100 % 100
    let d := decimal t % 100
    if validDate y m d then some (dayNumber y m d) else none := by
  have hm := pair_of_decimal h (i := 2) (by decide)
  have hd := pair_of_decimal h (i := 0) (by decide)
  simp only [Nat.reduceAdd, Nat.reducePow, Nat.div_one] at hm hd
  unfold dateToDay
  dsimp only
  rw [high_of_decimal, (badBcd_eq_false t).mpr h, hm, hd, Bool.false_or]
  generalize decimal t / 10000 = y
  generalize decimal t / 100 % 100 = m
  generalize decimal t % 100 = d
  by_cases hr : y < 2000 ∨ 2199 < y ∨ m < 1 ∨ 12 < m
  · rw [if_pos (decide_eq_true hr), if_neg (by omega)]
  · rw [if_neg (by simpa using hr), dayNumber_eq _ _ (by omega), ← monthLen_eq (by omega) (by omega)]
    by_cases hd : d < 1 ∨ monthLen y m < d
    · rw [if_pos hd, if_neg (by omega)]
    · rw [if_neg hd, if_pos (by omega)]

theorem dateToDay_valid {t : Word} {y m d : Nat} (hv : validDate y m d) (hp : packs t (y * 10000 + m * 100 + d)) :
    dateToDay t = some (dayNumber y m d) := by
  obtain ⟨h1, h2, h3, h4, h5, h6⟩ := hv
  have hlen := monthLen_le y h3 h4
  obtain ⟨hdec, hval⟩ := (packs_iff t (by omega)).mp hp
  rw [dateToDay_of_decimal hdec]
  dsimp only
  rw [hval, show (y * 10000 + m * 100 + d) / 10000 = y by omega, show (y * 10000 + m * 100 + d) / 100 % 100 = m by omega,
    show (y * 10000 + m * 100 + d) % 100 = d by omega]
  exact if_pos ⟨h1, h2, h3, h4, h5, h6⟩

theorem dateToDay_impossible {t : Word} (h : ¬ ∃ y m d, validDate y m d ∧ packs t (y * 10000 + m * 100 + d)) :
    dateToDay t = none := by
  by_cases hdec : nonDecimal t
  · unfold dateToDay
    dsimp only
    rw [(badBcd_iff t).mpr hdec, Bool.true_or, if_pos rfl]
  · rw [dateToDay_of_decimal hdec]
    refine if_neg fun hv => h ⟨_, _, _, hv, (packs_iff t ?_).mpr ⟨hdec, ?_⟩⟩
    · have := hv.2.1
      omega
    · omega

theorem bcdImpossible_eq : bcdImpossible = bcdWord 0 0 false true := rfl

theorem date2day_valid {t : Word} {n : Nat} (o1 : Word) (dc : Bool) (h : dateToDay t = some n) :
    bcdOp 0x17 o1 t dc = bcdWord (w n) 0 false false := by
  simp only [bcdOp, h, res1_bcdFlags]

theorem date2day_impossible {t : Word} (o1 : Word) (dc : Bool) (h : dateToDay t = none) :
    bcdOp 0x17 o1 t dc = bcdWord 0 0 false true := by
  simp only [bcdOp, h, bcdImpossible_eq]

theorem day2date_eq (o1 t : Word) (dc : Bool) : bcdOp 0x18 o1 t dc = if t.toNat ≤ 73048 then
    bcdWord (dayToDate t.toNat) (w ((t.toNat + 5) % 7 + 1)) false false else bcdWord 0 0 false true := by
  simp only [bcdOp, res2_bcdFlags, bcdImpossible_eq]

/-- A decimal word of six digits. -/
theorem below_of_decimal {t : Word} (h : ¬ nonDecimal t) : t.toNat < 0x1000000 ↔ decimal t < 10 ^ 6 := by
  have h6 := decimal_digit t (i := 6) (by decide)
  have h7 := decimal_digit t (i := 7) (by decide)
  have n6 : ¬ 9 < digit t 6 := fun h9 => h ⟨6, by decide, h9⟩
  have n7 : ¬ 9 < digit t 7 := fun h9 => h ⟨7, by decide, h9⟩
  have hlt := t.isLt
  rw [min_eq_right (by omega), digit] at h6 h7
  have hdec : decimal t < 10 ^ 8 := by
    rw [← bcdVal_eq_decimal, bcdVal]
    exact positional_lt (d := fun i => min 9 (nib t i)) (fun k => by omega) 8
  omega

/-- The time of day that a word names. -/
theorem time2sec_of_decimal {t : Word} (h : ¬ nonDecimal t) (o1 : Word) (dc : Bool) : bcdOp 0x19 o1 t dc =
    let hour := decimal t / 10000
    let min := decimal t / 100 % 100
    let sec := decimal t % 100
    if hour ≤ 23 ∧ min ≤ 59 ∧ sec ≤ 59 then bcdWord (w (hour * 3600 + min * 60 + sec)) 0 false false
    else bcdWord 0 0 false true := by
  have hh := pair_of_decimal h (i := 4) (by decide)
  have hm := pair_of_decimal h (i := 2) (by decide)
  have hs := pair_of_decimal h (i := 0) (by decide)
  have hbig := below_of_decimal h
  simp only [Nat.reduceAdd, Nat.reducePow, Nat.div_one] at hh hm hs
  simp only [bcdOp, hh, hm, hs, (badBcd_eq_false t).mpr h, Bool.false_or, decide_eq_true_iff, res1_bcdFlags, bcdImpossible_eq]
  by_cases hday : decimal t / 10000 ≤ 23 ∧ decimal t / 100 % 100 ≤ 59 ∧ decimal t % 100 ≤ 59
  · rw [if_neg (by omega), if_pos hday, show decimal t / 10000 % 100 = decimal t / 10000 by omega]
  · rw [if_pos (by omega), if_neg hday]

theorem time2sec_valid {t : Word} {h m c : Nat} (hh : h ≤ 23) (hm : m ≤ 59) (hc : c ≤ 59)
    (hp : packs t (h * 10000 + m * 100 + c)) (o1 : Word) (dc : Bool) :
    bcdOp 0x19 o1 t dc = bcdWord (w (h * 3600 + m * 60 + c)) 0 false false := by
  obtain ⟨hdec, hval⟩ := (packs_iff t (by omega)).mp hp
  rw [time2sec_of_decimal hdec]
  dsimp only
  rw [hval, show (h * 10000 + m * 100 + c) / 10000 = h by omega, show (h * 10000 + m * 100 + c) / 100 % 100 = m by omega,
    show (h * 10000 + m * 100 + c) % 100 = c by omega]
  exact if_pos ⟨hh, hm, hc⟩

theorem time2sec_impossible {t : Word} (h : ¬ ∃ h m c, h ≤ 23 ∧ m ≤ 59 ∧ c ≤ 59 ∧ packs t (h * 10000 + m * 100 + c))
    (o1 : Word) (dc : Bool) : bcdOp 0x19 o1 t dc = bcdWord 0 0 false true := by
  by_cases hdec : nonDecimal t
  · simp only [bcdOp, (badBcd_iff t).mpr hdec, Bool.true_or, if_true, bcdImpossible_eq]
  · rw [time2sec_of_decimal hdec]
    refine if_neg fun ⟨hh, hm, hc⟩ => h ⟨_, _, _, hh, hm, hc, (packs_iff t ?_).mpr ⟨hdec, ?_⟩⟩ <;> omega

theorem sec2time_eq (o1 t : Word) (dc : Bool) : bcdOp 0x1A o1 t dc = if t.toNat ≤ 86399 then
    bcdWord (toBcd (t.toNat / 3600 * 10000 + t.toNat / 60 % 60 * 100 + t.toNat % 60)) 0 false false
    else bcdWord 0 0 false true := by
  simp only [bcdOp, res1_bcdFlags, bcdImpossible_eq]

/-- Settles O6: each trigger presents what `bcdOp` says. A word packs a date or a time exactly when it is decimal and its digits
say so; every day of the range has its date, which the walks over years and months find. -/
theorem calendarConversion : Obligations.CalendarConversion := by
  intro l t s h gives impossible
  have run : ∀ {i : Instr} (op : Nat) {r : OpRes}, exec i s = act (issueTrigger l (0x180 + op) t) s →
      0x10 ≤ op ∧ op ≤ 0x1A → (∀ o1 dc, bcdOp op o1 t dc = r) → gives i r :=
    fun op _ hi hop hr => hi.trans ((bcd_issues h hop t).trans (by rw [hr]))
  refine ⟨fun y m d hv hp => run 0x17 rfl (by decide) fun o1 dc => date2day_valid o1 dc (dateToDay_valid hv hp),
    fun hn => run 0x17 rfl (by decide) fun o1 dc => date2day_impossible o1 dc (dateToDay_impossible hn), fun hle => ?_,
    fun hgt => run 0x18 rfl (by decide) fun o1 dc => (day2date_eq o1 t dc).trans (if_neg (by omega)),
    fun _ _ _ hh hm hc hp => run 0x19 rfl (by decide) fun o1 dc => time2sec_valid hh hm hc hp o1 dc,
    fun hn => run 0x19 rfl (by decide) fun o1 dc => time2sec_impossible hn o1 dc, fun hr m c hm hc ht hh => ?_,
    fun hgt => run 0x1A rfl (by decide) fun o1 dc => (sec2time_eq o1 t dc).trans (if_neg (by omega))⟩
  · obtain ⟨y, m, d, hv, hday, hq⟩ := dayToDate_spec hle
    exact ⟨y, m, d, _, hv, hday, packs_toBcd _,
      run 0x18 rfl (by decide) fun o1 dc => (day2date_eq o1 t dc).trans ((if_pos hle).trans (by rw [hq]))⟩
  · refine ⟨_, packs_toBcd _, run 0x1A rfl (by decide) fun o1 dc => (sec2time_eq o1 t dc).trans ((if_pos (by omega)).trans ?_)⟩
    rw [show t.toNat / 3600 = hr by omega, show t.toNat / 60 % 60 = m by omega, show t.toNat % 60 = c by omega]

end Sys2Proof.Proofs

/-! ### O7: bits and edges (R97) -/
namespace Sys2Proof.Proofs

open Sys2Proof Sys2Proof.Machine Sys2Proof.Safety Sys2Proof.Laws

/-! #### One bit of a word, one cell, one group of the edge memory -/

theorem getLsbD_oneHot {n : Nat} (k : Nat) {i : Nat} (hi : i < n) : (1#n <<< k).getLsbD i = decide (i = k) := by
  rw [← BitVec.twoPow_eq, BitVec.getLsbD_twoPow, ← Bool.decide_and]
  exact decide_eq_decide.mpr (by omega)

theorem getLsbD_setEdgeCell (e : BitVec 4096) (c : Nat) (b : Bool) {i : Nat} (hi : i < 4096) :
    (setEdgeCell e c b).getLsbD i = if i = c then b else e.getLsbD i := by
  have hot := getLsbD_oneHot c hi
  unfold setEdgeCell
  cases b
  · rw [if_neg Bool.false_ne_true, BitVec.getLsbD_and, BitVec.getLsbD_not, decide_eq_true hi, hot, Bool.true_and]
    by_cases h : i = c <;> simp [h]
  · rw [if_pos rfl, BitVec.getLsbD_or, hot]
    by_cases h : i = c <;> simp [h]

theorem getLsbD_setEdgeGroup (e : BitVec 4096) {g : Nat} (hg : g < 128) (x : Word) {i : Nat} (hi : i < 4096) :
    (setEdgeGroup e g x).getLsbD i = if i / 32 = g then x.getLsbD (i % 32) else e.getLsbD i := by
  have ones : ∀ k, (0xFFFFFFFF#32).getLsbD k = decide (k < 32) := fun _ => BitVec.getLsbD_allOnes (v := 32)
  unfold setEdgeGroup
  rw [BitVec.getLsbD_or, BitVec.getLsbD_and, BitVec.getLsbD_not, BitVec.getLsbD_shiftLeft, BitVec.getLsbD_shiftLeft,
    BitVec.getLsbD_setWidth, BitVec.getLsbD_setWidth, ones, decide_eq_true hi, decide_eq_true (by omega : i - 32 * g < 4096)]
  simp only [Bool.true_and]
  by_cases h : i / 32 = g
  · rw [if_pos h, decide_eq_false (by omega : ¬ i < 32 * g), decide_eq_true (by omega : i - 32 * g < 32),
      show i - 32 * g = i % 32 by omega]
    simp
  · rw [if_neg h]
    by_cases hlo : i < 32 * g
    · simp [hlo]
    · have hout : 32 ≤ i - 32 * g := by omega
      rw [decide_eq_false (by omega : ¬ i - 32 * g < 32), BitVec.getLsbD_of_ge x _ hout]
      simp

/-- A result of BIT with Z given and N as bit 31 of q. -/
theorem bitRes_eq (q q2 : Word) (z : Bool) : res2 q q2 (flagWord false false z q.msb false false false) =
    ⟨q, q2, 0, flagWord false false z (q.getLsbD 31) false false false, 0⟩ := by
  rw [BitVec.msb_eq_getLsbD_last]
  rfl

theorem bitOp_cell (t : Word) : (t.toNat >>> 16) % 4096 = t.toNat / 65536 % 4096 := by
  rw [Nat.shiftRight_eq_div_pow]

/-- Settles O7: each trigger presents what `bitOp` says of the edge memory that the lane holds, and leaves that memory with the
one cell or group changed. -/
theorem bitOperations : Obligations.BitOperations := by
  intro l t s h o1 n b c g e group gives
  have bit : ∀ {i : Instr} (op : Nat) {q q2 : Word} {z : Bool} {e' : BitVec 4096},
      exec i s = act (issueTrigger l (0x1C0 + op) t) s → 0x10 ≤ op ∧ op ≤ 0x17 →
      bitOp op o1 t e = (res2 q q2 (flagWord false false z q.msb false false false), e') → gives i q q2 z e' := by
    intro i op q q2 z e' hi hop hr
    refine (hi.trans (bit_issues h hop t)).trans ?_
    rw [show bitOp op (unitNow l .bit s).o1 t (s.lanes[l.val]).edges = _ from hr, bitRes_eq]
  refine ⟨setEdgeCell e c b, setEdgeGroup e g o1, o1 ||| (1#32 <<< n), o1 &&& ~~~(1#32 <<< n), o1 ^^^ (1#32 <<< n),
    fun i hi => getLsbD_setEdgeCell e c b hi, fun i hi => getLsbD_setEdgeGroup e (Nat.mod_lt _ (by decide)) o1 hi,
    fun i hi => ?_, fun i hi => ?_, fun i hi => ?_, bit 0x10 rfl (by decide) rfl, bit 0x11 rfl (by decide) rfl,
    bit 0x12 rfl (by decide) rfl, bit 0x13 rfl (by decide) rfl, bit 0x14 rfl (by decide) ?_, bit 0x15 rfl (by decide) rfl,
    bit 0x16 rfl (by decide) ?_, bit 0x17 rfl (by decide) rfl⟩
  · rw [BitVec.getLsbD_or, getLsbD_oneHot n hi, Bool.or_comm]
  · rw [BitVec.getLsbD_and, BitVec.getLsbD_not, getLsbD_oneHot n hi, decide_eq_true hi, Bool.true_and, Bool.and_comm]
  · rw [BitVec.getLsbD_xor, getLsbD_oneHot n hi, Bool.xor_comm]
  · rw [show c = _ from (bitOp_cell t).symm]; rfl
  · rw [show c = _ from (bitOp_cell t).symm]; rfl

end Sys2Proof.Proofs

/-! ### O8: comparisons (R99) -/
namespace Sys2Proof.Proofs

open Sys2Proof Sys2Proof.Machine Sys2Proof.Safety Sys2Proof.Laws

/-! #### The order of binary32 words that are no NaN -/

/-- Magnitude with the sign: both zeros fall on 0. -/
def floatKey (x : Word) : Int := if x.getLsbD 31 then -Int.ofNat (x.toNat % 2 ^ 31) else Int.ofNat (x.toNat % 2 ^ 31)

theorem fSign_eq (x : Word) : fSign x = x.getLsbD 31 := BitVec.msb_eq_getLsbD_last x

theorem fSign_iff (x : Word) : fSign x = true ↔ 2 ^ 31 ≤ x.toNat := by
  rw [fSign, BitVec.msb_eq_decide, decide_eq_true_iff]

theorem fIsZero_iff (x : Word) : fIsZero x = true ↔ x.toNat % 2 ^ 31 = 0 := by
  simp only [fIsZero, fExp, fMan, Bool.and_eq_true, beq_iff_eq, Nat.shiftRight_eq_div_pow]
  omega

theorem fLt_iff (a b : Word) : fLt a b = true ↔ floatKey a < floatKey b := by
  simp only [fLt, floatKey, fSign_eq, decide_eq_true_iff]

/-- Words of one key are the same, or both zeros. -/
theorem fEq_iff (a b : Word) : fEq a b = true ↔ floatKey a = floatKey b := by
  have hword : a = b ↔ a.toNat = b.toNat := BitVec.toNat_inj.symm
  have ha := fSign_iff a
  have hb := fSign_iff b
  have la := a.isLt
  have lb := b.isLt
  simp only [fEq, floatKey, Bool.or_eq_true, Bool.and_eq_true, beq_iff_eq, fIsZero_iff, ← fSign_eq, hword]
  split_ifs <;> simp_all only [Int.ofNat_eq_natCast, true_iff, Bool.not_eq_true, Bool.false_eq_true, false_iff] <;> omega

/-! #### The operations of CMP -/

theorem cmpOp_int {op : Nat} (h : op < 0x1C ∨ 0x22 < op) (o1 o2 t : Word) :
    (cmpOp op o1 o2 t).2 = cmpWord (cmpInt op o1 o2 t) false := by
  rw [cmpOp, if_neg (by omega)]
  rfl

theorem cmpOp_float {op : Nat} (h : 0x1C ≤ op ∧ op ≤ 0x22) (o1 o2 t : Word) :
    (cmpOp op o1 o2 t).2 = cmpWord (cmpFloat op o1 t).1 (cmpFloat op o1 t).2 := by
  rw [cmpOp, if_pos h]
  rfl

theorem sle_iff (a b : Word) : BitVec.sle a b = true ↔ a.toInt ≤ b.toInt := BitVec.sle_iff_toInt_le
theorem ule_iff (a b : Word) : BitVec.ule a b = true ↔ a.toNat ≤ b.toNat := BitVec.ule_iff_le

/-- Settles O8: each trigger presents what `cmpOp` says, whose result bit is the relation of R99: the integer orders by value,
the binary32 ones by sign and magnitude. -/
theorem comparisons : Obligations.Comparisons := by
  intro l t s h u o1 o2 gives nan snan key
  have int : ∀ {i : Instr} (op : Nat) {r : Prop}, exec i s = act (issueTrigger l (0x200 + op) t) s →
      0x10 ≤ op ∧ op ≤ 0x24 → (op < 0x1C ∨ 0x22 < op) → (cmpInt op o1 o2 t = true ↔ r) → gives i r false :=
    fun op _ hi hop hint hr => ⟨_, hr, hi.trans ((cmp_issues h hop t).trans (by rw [cmpOp_int hint]))⟩
  have float : ∀ {i : Instr} (op : Nat) {r : Prop}, exec i s = act (issueTrigger l (0x200 + op) t) s →
      (hf : 0x1C ≤ op ∧ op ≤ 0x22) → ((cmpFloat op o1 t).1 = true ↔ r) → gives i r (cmpFloat op o1 t).2 :=
    fun op _ hi hf hr => ⟨_, hr, hi.trans ((cmp_issues h (by omega) t).trans (by rw [cmpOp_float hf]))⟩
  have and_nan : ∀ {b : Bool} {r : Prop}, (b = true ↔ r) → ((!nan && b) = true ↔ nan = false ∧ r) := by
    intro b r hb
    rw [Bool.and_eq_true, Bool.not_eq_true', hb]
  refine ⟨int 0x10 rfl (by decide) (by decide) beq_iff_eq, int 0x11 rfl (by decide) (by decide) bne_iff_ne,
    int 0x12 rfl (by decide) (by decide) BitVec.slt_iff_toInt_lt, int 0x13 rfl (by decide) (by decide) (sle_iff o1 t),
    int 0x14 rfl (by decide) (by decide) BitVec.slt_iff_toInt_lt, int 0x15 rfl (by decide) (by decide) (sle_iff t o1),
    int 0x16 rfl (by decide) (by decide) BitVec.ult_iff_lt, int 0x17 rfl (by decide) (by decide) (ule_iff o1 t),
    int 0x18 rfl (by decide) (by decide) BitVec.ult_iff_lt, int 0x19 rfl (by decide) (by decide) (ule_iff t o1),
    int 0x1A rfl (by decide) (by decide) beq_iff_eq, int 0x1B rfl (by decide) (by decide) bne_iff_ne,
    float 0x1C rfl (by decide) (and_nan (fEq_iff o1 t)), float 0x1D rfl (by decide) ?_,
    float 0x1E rfl (by decide) (and_nan (fLt_iff o1 t)), float 0x1F rfl (by decide) (and_nan ?_),
    float 0x20 rfl (by decide) (and_nan (fLt_iff t o1)), float 0x21 rfl (by decide) (and_nan ?_),
    float 0x22 rfl (by decide) Iff.rfl, int 0x23 rfl (by decide) (by decide) ?_, int 0x24 rfl (by decide) (by decide) ?_⟩
  · show (nan || !fEq o1 t) = true ↔ _
    rw [Bool.or_eq_true, Bool.not_eq_true', ← Bool.not_eq_true, fEq_iff]
    rfl
  · rw [Bool.or_eq_true, fLt_iff, fEq_iff]
    exact le_iff_lt_or_eq.symm
  · rw [Bool.or_eq_true, fLt_iff, fEq_iff, eq_comm]
    exact le_iff_lt_or_eq.symm
  · exact (Bool.and_eq_true _ _).to_iff.trans (and_congr (sle_iff o2 o1) (sle_iff o1 t))
  · exact (Bool.and_eq_true _ _).to_iff.trans (and_congr (ule_iff o2 o1) (ule_iff o1 t))

end Sys2Proof.Proofs

/-! ### O9: FPU and CRD operations, and the special cases of CRD (R83, R101, R104) -/
namespace Sys2Proof.Proofs

open Sys2Proof Sys2Proof.Machine Sys2Proof.Safety Sys2Proof.Laws

/-! #### Bits of a flag word (R67) -/

theorem flagINV_flagWord : ∀ c v z n dz dc inv : Bool, flagINV (flagWord c v z n dz dc inv) = inv := by decide

theorem flagC_flagWord : ∀ c v z n dz dc inv : Bool, flagC (flagWord c v z n dz dc inv) = c := by decide

/-! #### CRD, operation by operation -/

theorem fNaN_eq (inv : Bool) : fNaN inv = ⟨0x7FC00000#32, 0, 0, flagWord false false false false false false inv, 0⟩ := by
  cases inv <;> rfl

theorem crdAtan2_nan {o1 t : Word} (h : (fIsNaN o1 || fIsNaN t) = true) : crdOp 0x10 o1 t = fNaN true := if_pos h

theorem crdMag_nan {o1 t : Word} (h : (fIsNaN o1 || fIsNaN t) = true) : crdOp 0x11 o1 t = fNaN true := if_pos h

theorem crdPolar_nan {o1 t : Word} (h : (fIsNaN o1 || fIsNaN t) = true) : crdOp 0x12 o1 t =
    res2 0x7FC00000#32 0x7FC00000#32 (flagWord false false (fIsZero qNaN) (fSign qNaN) false false true) := if_pos h

theorem crdAtan2_eq {o1 t : Word} (h : (fIsNaN o1 || fIsNaN t) = false) : ∃ z n, crdOp 0x10 o1 t =
    res1 (crdAngle o1 t).1 (flagWord (crdAngle o1 t).2 false z n false false false) :=
  ⟨_, _, if_neg (Bool.eq_false_iff.mp h)⟩

theorem crdMag_eq {o1 t : Word} (h : (fIsNaN o1 || fIsNaN t) = false) : ∃ c v z n, crdOp 0x11 o1 t =
    res1 (crdMagnitude o1 t).x (flagWord c v z n false false false) :=
  ⟨_, _, _, _, if_neg (Bool.eq_false_iff.mp h)⟩

theorem crdPolar_eq {o1 t : Word} (h : (fIsNaN o1 || fIsNaN t) = false) : ∃ c v z n, crdOp 0x12 o1 t =
    res2 (crdMagnitude o1 t).x (crdAngle o1 t).1 (flagWord c v z n false false false) :=
  ⟨_, _, _, _, if_neg (Bool.eq_false_iff.mp h)⟩

/-- The angle at the origin (R104). -/
theorem crdAngle_origin {x y : Word} (hx : fIsZero x = true) (hy : fIsZero y = true) :
    (crdAngle x y).1 = if fSign x then (if fSign y then 0xC0490FDB#32 else 0x40490FDB#32) else y := by
  rw [crdAngle, hx, hy, Bool.and_self, if_pos rfl]
  split_ifs <;> rfl

theorem crdMagnitude_inf {x y : Word} (h : (fIsInf x || fIsInf y) = true) : (crdMagnitude x y).x = 0x7F800000#32 := by
  rw [crdMagnitude, if_pos h]
  rfl

theorem crdSincos_invalid {t : Word} (o1 : Word)
    (h : (fIsNaN t || fIsInf t || decide (0x47800000 < t.toNat % 2 ^ 31)) = true) : crdOp 0x13 o1 t =
    res2 0x7FC00000#32 0x7FC00000#32 (flagWord false false (fIsZero qNaN) (fSign qNaN) false false true) := if_pos h

theorem crdSincos_eq {t : Word} (o1 : Word)
    (h : (fIsNaN t || fIsInf t || decide (0x47800000 < t.toNat % 2 ^ 31)) = false) : ∃ q q2 c z n, crdOp 0x13 o1 t =
    res2 q q2 (flagWord c false z n false false false) :=
  ⟨_, _, _, _, _, if_neg (Bool.eq_false_iff.mp h)⟩

/-- Settles O9: each trigger starts its operation of `fpuOp` or `crdOp` with the latency of R83, and the special cases of CRD are
those of `crdAngle` and `crdMagnitude`. -/
theorem fpuAndCrd : Obligations.FpuAndCrd := by
  refine ⟨?_, ?_⟩
  · intro l t s h a c drop fpu long crd
    have hfpu : ∀ {i : Instr} (op : Nat), exec i s = act (issueTrigger l (0x240 + op) t) s → 0x10 ≤ op ∧ op ≤ 0x20 →
        longFpu op = false → fpu i op := by
      intro i op hi hop hshort
      refine (hi.trans (fpu_issues h hop t)).trans ?_
      rw [hshort]
      rfl
    have hlong : ∀ {i : Instr} (op : Nat), exec i s = act (issueTrigger l (0x240 + op) t) s → 0x10 ≤ op ∧ op ≤ 0x20 →
        longFpu op = true → long i op := by
      intro i op hi hop hl
      refine (hi.trans (fpu_issues h hop t)).trans ?_
      rw [hl]
      rfl
    have hcrd : ∀ {i : Instr} (op : Nat), exec i s = act (issueTrigger l (0x280 + op) t) s → 0x10 ≤ op ∧ op ≤ 0x13 → crd i op :=
      fun op hi hop => hi.trans (crd_issues h hop t)
    exact ⟨hfpu 0x10 rfl (by decide) rfl, hfpu 0x11 rfl (by decide) rfl, hfpu 0x12 rfl (by decide) rfl,
      hfpu 0x13 rfl (by decide) rfl, hfpu 0x14 rfl (by decide) rfl, hlong 0x15 rfl (by decide) rfl,
      hlong 0x16 rfl (by decide) rfl, hfpu 0x17 rfl (by decide) rfl, hfpu 0x18 rfl (by decide) rfl,
      hfpu 0x19 rfl (by decide) rfl, hfpu 0x1A rfl (by decide) rfl, hfpu 0x1B rfl (by decide) rfl,
      hfpu 0x1C rfl (by decide) rfl, hfpu 0x1D rfl (by decide) rfl, hfpu 0x1E rfl (by decide) rfl,
      hfpu 0x1F rfl (by decide) rfl, hfpu 0x20 rfl (by decide) rfl, hcrd 0x10 rfl (by decide), hcrd 0x11 rfl (by decide),
      hcrd 0x12 rfl (by decide), hcrd 0x13 rfl (by decide)⟩
  · intro o1 t op nan
    refine ⟨fun hnan => ?_, fun h1 ht => ?_, fun hbad => ?_, fun h1 h2 h3 => ?_⟩
    · simp only [op, nan, crdAtan2_nan hnan, crdMag_nan hnan, crdPolar_nan hnan, fNaN_eq, res2, flagINV_flagWord, and_self]
    · have hnum : (fIsNaN o1 || fIsNaN t) = false := by rw [h1, ht, Bool.or_self]
      obtain ⟨_, _, hatan⟩ := crdAtan2_eq hnum
      obtain ⟨_, _, _, _, hmag⟩ := crdMag_eq hnum
      obtain ⟨_, _, _, _, hpolar⟩ := crdPolar_eq hnum
      simp only [op, hatan, hmag, hpolar, res1, res2, flagINV_flagWord, true_and]
      refine ⟨fun hx hy hs => ?_, fun hx hy hs => ?_, fun hinf => crdMagnitude_inf hinf⟩
      · rw [crdAngle_origin hx hy, hs, if_neg Bool.false_ne_true]
      · rw [crdAngle_origin hx hy, hs, if_pos rfl]
    · simp only [op, crdSincos_invalid o1 hbad, nan, res2, flagINV_flagWord, and_self]
    · obtain ⟨_, _, _, _, _, hsc⟩ := crdSincos_eq (t := t) o1 (by rw [h1, h2, decide_eq_false (by omega)]; rfl)
      simp only [op, hsc, res2, flagINV_flagWord]

end Sys2Proof.Proofs

/-! ### O10: special cases of the FPU (R102) -/
namespace Sys2Proof.Proofs

open Sys2Proof Sys2Proof.Machine Sys2Proof.Safety Sys2Proof.Laws

/-! #### Classes of words -/

theorem fExp_eq (x : Word) : fExp x = x.toNat % 2 ^ 31 / 2 ^ 23 := by
  rw [fExp, Nat.shiftRight_eq_div_pow]
  omega

theorem fMan_eq (x : Word) : fMan x = x.toNat % 2 ^ 31 % 2 ^ 23 := by
  rw [fMan]
  omega

theorem notNaN_of_inf {x : Word} (h : fIsInf x = true) : fIsNaN x = false := by
  simp only [fIsInf, Bool.and_eq_true, beq_iff_eq] at h
  simp [fIsNaN, h.2]

theorem notNaN_of_zero {x : Word} (h : fIsZero x = true) : fIsNaN x = false := by
  simp only [fIsZero, Bool.and_eq_true, beq_iff_eq] at h
  simp [fIsNaN, h.1]

theorem notInf_of_zero {x : Word} (h : fIsZero x = true) : fIsInf x = false := by
  simp only [fIsZero, Bool.and_eq_true, beq_iff_eq] at h
  simp [fIsInf, h.1]

theorem notSNaN {x : Word} (h : fIsNaN x = false) : fIsSNaN x = false := by
  rw [fIsSNaN, h, Bool.false_and]

/-! #### The sign bit -/

theorem fFlip_bits (x : Word) {i : Nat} (hi : i < 32) : (fFlip x).getLsbD i = (x.getLsbD i != decide (i = 31)) := by
  have hot : ∀ i < 32, (0x80000000#32).getLsbD i = decide (i = 31) := by decide
  rw [fFlip, BitVec.getLsbD_xor, hot i hi]

theorem fAbs_bits (x : Word) {i : Nat} (hi : i < 32) : (x &&& 0x7FFFFFFF#32).getLsbD i = (x.getLsbD i && decide (i ≠ 31)) := by
  have low : ∀ i < 32, (0x7FFFFFFF#32).getLsbD i = decide (i ≠ 31) := by decide
  rw [BitVec.getLsbD_and, low i hi]

theorem fSign_fFlip (x : Word) : fSign (fFlip x) = !fSign x := by
  rw [fSign_eq, fSign_eq, fFlip_bits x (by decide)]
  cases x.getLsbD 31 <;> rfl

theorem fFlip_magnitude (x : Word) : (fFlip x).toNat % 2 ^ 31 = x.toNat % 2 ^ 31 := by
  rw [fFlip, BitVec.toNat_xor, Nat.xor_mod_two_pow]
  exact Nat.xor_zero _

theorem fAbs_magnitude (x : Word) : (x &&& 0x7FFFFFFF#32).toNat = x.toNat % 2 ^ 31 := by
  rw [BitVec.toNat_and]
  exact Nat.and_two_pow_sub_one_eq_mod _ 31

theorem fIsNaN_fFlip (x : Word) : fIsNaN (fFlip x) = fIsNaN x := by
  simp only [fIsNaN, fExp_eq, fMan_eq, fFlip_magnitude]

theorem fIsInf_fFlip (x : Word) : fIsInf (fFlip x) = fIsInf x := by
  simp only [fIsInf, fExp_eq, fMan_eq, fFlip_magnitude]

theorem fIsZero_fFlip (x : Word) : fIsZero (fFlip x) = fIsZero x := by
  simp only [fIsZero, fExp_eq, fMan_eq, fFlip_magnitude]

theorem fIsZero_fAbs (x : Word) : fIsZero (x &&& 0x7FFFFFFF#32) = fIsZero x := by
  simp only [fIsZero, fExp_eq, fMan_eq, fAbs_magnitude, Nat.mod_mod]

theorem fSign_fAbs (x : Word) : fSign (x &&& 0x7FFFFFFF#32) = false := by
  rw [fSign_eq, fAbs_bits x (by decide)]
  simp

theorem fIsSNaN_fFlip (x : Word) : fIsSNaN (fFlip x) = fIsSNaN x := by
  rw [fIsSNaN, fIsSNaN, fIsNaN_fFlip, fFlip_bits x (by decide)]
  simp

/-! #### Results that are the quiet NaN -/

/-- The NaN result of R102, with INV as given. -/
abbrev presentsNaN (r : OpRes) (inv : Bool) : Prop :=
  r.q = 0x7FC00000#32 ∧ r.f = flagWord false false false false false false inv

theorem presentsNaN_of_eq {r : OpRes} {inv : Bool} (h : r = fNaN inv) : presentsNaN r inv := by
  rw [h, fNaN_eq]
  exact ⟨rfl, rfl⟩

theorem fAdd_nan {a b : Word} (h : (fIsNaN a || fIsNaN b) = true) : fAdd a b = fNaN (fIsSNaN a || fIsSNaN b) := if_pos h

theorem fMul_nan {a b : Word} (h : (fIsNaN a || fIsNaN b) = true) : fMul a b = fNaN (fIsSNaN a || fIsSNaN b) := if_pos h

theorem fDiv_nan {a b : Word} (h : (fIsNaN a || fIsNaN b) = true) : fDiv a b = fNaN (fIsSNaN a || fIsSNaN b) := if_pos h

/-- 0 × ∞, in either order. -/
def zeroTimesInf (a b : Word) : Bool := (fIsZero a && fIsInf b) || (fIsInf a && fIsZero b)

theorem fFma_nan {a b c : Word} (h : (fIsNaN a || fIsNaN b || fIsNaN c) = true) :
    fFma a b c = fNaN (fIsSNaN a || fIsSNaN b || fIsSNaN c || zeroTimesInf a b) := by
  rw [zeroTimesInf, Bool.or_comm (fIsZero a && fIsInf b)]
  exact if_pos h

/-- FSUB is FADD of the flipped word, and FMS is FMA of it; a NaN keeps its class. -/
theorem fSub_eq (o1 o2 t : Word) : fpuOp 0x11 o1 o2 t = fAdd o1 (fFlip t) := by
  by_cases h : fIsNaN t = true
  · rw [fAdd_nan (by rw [fIsNaN_fFlip, h, Bool.or_true]), fIsSNaN_fFlip]
    exact (if_pos h).trans (fAdd_nan (by rw [h, Bool.or_true]))
  · exact if_neg h

theorem fFms_eq (o1 o2 t : Word) : fpuOp 0x14 o1 o2 t = fFma o1 o2 (fFlip t) := by
  by_cases h : fIsNaN t = true
  · rw [fFma_nan (by rw [fIsNaN_fFlip, h, Bool.or_true]), fIsSNaN_fFlip]
    exact (if_pos h).trans (fFma_nan (by rw [h, Bool.or_true]))
  · exact if_neg h

theorem fAdd_infs {a b : Word} (ha : fIsInf a = true) (hb : fIsInf b = true) (hs : fSign a ≠ fSign b) : fAdd a b = fNaN true := by
  rw [fAdd, if_neg (by rw [notNaN_of_inf ha, notNaN_of_inf hb]; decide), if_pos (by rw [ha, hb]; rfl),
    if_neg (by simpa using hs)]

theorem zeroTimesInf_notNaN {a b : Word} (h : zeroTimesInf a b = true) : fIsNaN a = false ∧ fIsNaN b = false := by
  rw [zeroTimesInf, Bool.or_eq_true, Bool.and_eq_true, Bool.and_eq_true] at h
  rcases h with ⟨ha, hb⟩ | ⟨ha, hb⟩
  · exact ⟨notNaN_of_zero ha, notNaN_of_inf hb⟩
  · exact ⟨notNaN_of_inf ha, notNaN_of_zero hb⟩

theorem fMul_zeroInf {a b : Word} (h : zeroTimesInf a b = true) : fMul a b = fNaN true := by
  obtain ⟨ha, hb⟩ := zeroTimesInf_notNaN h
  rw [zeroTimesInf, Bool.or_comm] at h
  rw [fMul, if_neg (by rw [ha, hb]; decide), if_pos h]

theorem fFma_zeroInf {a b c : Word} (h : zeroTimesInf a b = true) (hc : fIsNaN c = false) : fFma a b c = fNaN true := by
  obtain ⟨ha, hb⟩ := zeroTimesInf_notNaN h
  rw [zeroTimesInf, Bool.or_comm] at h
  rw [fFma, if_neg (by rw [ha, hb, hc]; decide), if_pos h]

theorem fDiv_invalid {a b : Word} (h : (fIsInf a = true ∧ fIsInf b = true) ∨ (fIsZero a = true ∧ fIsZero b = true)) :
    fDiv a b = fNaN true := by
  have hnum : (fIsNaN a || fIsNaN b) = false := by
    rcases h with ⟨ha, hb⟩ | ⟨ha, hb⟩
    · rw [notNaN_of_inf ha, notNaN_of_inf hb, Bool.or_self]
    · rw [notNaN_of_zero ha, notNaN_of_zero hb, Bool.or_self]
  rw [fDiv]
  dsimp only
  rw [if_neg (Bool.eq_false_iff.mp hnum), if_pos (by simpa using h)]

theorem fSqrt_negative {a : Word} (hs : fSign a = true) (hn : fIsNaN a = false) (hz : fIsZero a = false) : fSqrt a = fNaN true := by
  rw [fSqrt, if_neg (Bool.eq_false_iff.mp hn), if_neg (Bool.eq_false_iff.mp hz), if_pos hs]

/-- A finite number by a zero (R102). -/
theorem fDiv_byZero {a b : Word} (hn : fIsNaN a = false) (hi : fIsInf a = false) (hz : fIsZero a = false) (hb : fIsZero b = true) :
    fDiv a b = ⟨if fSign a = fSign b then 0x7F800000#32 else 0xFF800000#32, 0, 0,
      flagWord false false false (decide (fSign a ≠ fSign b)) true false false, a⟩ := by
  rw [fDiv]
  dsimp only
  rw [hn, hi, hz, hb, notNaN_of_zero hb, notInf_of_zero hb]
  cases fSign a <;> cases fSign b <;> rfl

/-! #### FMIN and FMAX -/

theorem fMinMax_left {mx : Bool} {a b : Word} (ha : fIsNaN a = true) (hb : fIsNaN b = false) :
    fMinMax mx a b = res1 b (fFlags b false false false (fIsSNaN a)) := by
  rw [fMinMax, ha, hb, notSNaN hb]
  simp

theorem fMinMax_right {mx : Bool} {a b : Word} (ha : fIsNaN a = false) (hb : fIsNaN b = true) :
    fMinMax mx a b = res1 a (fFlags a false false false (fIsSNaN b)) := by
  rw [fMinMax, ha, hb, notSNaN ha]
  simp

theorem fMinMax_nan {mx : Bool} {a b : Word} (ha : fIsNaN a = true) (hb : fIsNaN b = true) :
    fMinMax mx a b = fNaN (fIsSNaN a || fIsSNaN b) := by
  rw [fMinMax, ha, hb]
  rfl

theorem fConv_nan (trunc : Bool) (lo hi : Int) {a : Word} (h : fIsNaN a = true) :
    fConv trunc lo hi a = res1 0 (flagWord false false true false false false true) := if_pos h

end Sys2Proof.Proofs

/-! ### O10: conversions to integer (R101, R102) -/
namespace Sys2Proof.Proofs

open Sys2Proof Sys2Proof.Machine Sys2Proof.Safety Sys2Proof.Laws

/-! #### Rounding a magnitude -/

/-- The magnitude of a finite binary32 word. -/
def magnitude (a : Word) : Rat := (fSig a : Rat) * (2 : Rat) ^ (fEx a)

theorem magnitude_nonneg (a : Word) : 0 ≤ magnitude a := by unfold magnitude; positivity

/-- What a significand with a negative exponent is rounded to: the quotient, one more when the remainder says so. -/
def roundUp (trunc : Bool) (m k : Nat) : Bool :=
  !trunc && (decide (2 ^ (k - 1) < m % 2 ^ k) || (m % 2 ^ k == 2 ^ (k - 1) && (m >>> k) % 2 == 1))

theorem fToInt_integer (trunc : Bool) {a : Word} (h : 0 ≤ fEx a) : fToInt trunc a =
    (if fSign a then -Int.ofNat (fSig a * 2 ^ (fEx a).toNat) else Int.ofNat (fSig a * 2 ^ (fEx a).toNat), false) := by
  rw [fToInt]
  dsimp only
  rw [if_pos h]

theorem fToInt_fraction (trunc : Bool) {a : Word} (h : ¬ 0 ≤ fEx a) : let k := (-fEx a).toNat
    let q := (fSig a) >>> k + (roundUp trunc (fSig a) k).toNat
    fToInt trunc a = (if fSign a then -Int.ofNat q else Int.ofNat q, decide (fSig a % 2 ^ k ≠ 0)) := by
  rw [fToInt]
  dsimp only
  rw [if_neg h]
  rfl

/-- A magnitude with a fraction: its integer part and the remainder over the half. -/
theorem magnitude_fraction {a : Word} (h : ¬ 0 ≤ fEx a) : let k := (-fEx a).toNat
    magnitude a * 2 ^ k = (fSig a >>> k : Nat) * 2 ^ k + (fSig a % 2 ^ k : Nat) := by
  intro k
  have hk : fEx a = -(k : Int) := by omega
  have hsplit : (fSig a : Rat) = (fSig a >>> k : Nat) * 2 ^ k + (fSig a % 2 ^ k : Nat) := by
    rw [Nat.shiftRight_eq_div_pow]
    exact_mod_cast (Nat.div_add_mod' (fSig a) (2 ^ k)).symm
  rw [← hsplit, magnitude, hk, zpow_neg, zpow_natCast, inv_mul_cancel_right₀ (by positivity)]

/-- The magnitude that a conversion gives: nearest with ties to even, or the integer part. -/
structure Rounds (trunc : Bool) (x : Rat) (q : Nat) : Prop where
  near : trunc = false → |2 * (x - q)| ≤ 1
  even : trunc = false → |2 * (x - q)| = 1 → 2 ∣ q
  below : trunc = true → (q : Rat) ≤ x
  above : trunc = true → x < q + 1

theorem rounds_self (trunc : Bool) (q : Nat) : Rounds trunc q q where
  near _ := by simp
  even _ h := by simp at h
  below _ := le_rfl
  above _ := by simp

/-- Rounding `Q + r / 2H`: up beyond the half, and at the half of an odd `Q`. -/
theorem rounds_fraction (trunc : Bool) {x : Rat} {Q r H : Nat} {up : Bool} (hx : x * (2 * H) = Q * (2 * H) + r) (hr : r < 2 * H)
    (hup : up = (!trunc && (decide (H < r) || (r == H && Q % 2 == 1)))) :
    Rounds trunc x (Q + up.toNat) ∧ (r ≠ 0 ↔ ((Q + up.toNat : Nat) : Rat) ≠ x) := by
  have hH : (0 : Rat) < H := by exact_mod_cast (by omega : 0 < H)
  -- twice the fraction, as a multiple of the half
  obtain ⟨g, hg⟩ : ∃ g, g = 2 * (x - Q) := ⟨_, rfl⟩
  have hgr : g * H = r := by rw [hg]; linarith
  have hlt : g < 2 := lt_of_mul_lt_mul_right (by rw [hgr]; exact_mod_cast hr) hH.le
  have hnonneg : 0 ≤ g := le_of_mul_le_mul_right (by rw [hgr, zero_mul]; exact_mod_cast r.zero_le) hH
  have hle : g ≤ 1 ↔ r ≤ H := by
    rw [← mul_le_mul_iff_left₀ hH, hgr, one_mul, Nat.cast_le]
  have hge : 1 ≤ g ↔ H ≤ r := by
    rw [← mul_le_mul_iff_left₀ hH, hgr, one_mul, Nat.cast_le]
  have hzero : g = 0 ↔ r = 0 := by
    rw [← mul_left_inj' hH.ne', hgr, zero_mul, Nat.cast_eq_zero]
  cases up
  · show Rounds trunc x Q ∧ (r ≠ 0 ↔ (Q : Rat) ≠ x)
    have habs : |2 * (x - Q)| = g := by rw [← hg, abs_of_nonneg hnonneg]
    have hstay : trunc = false → r < H ∨ (r = H ∧ Q % 2 = 0) ∨ (r < H ∧ Q % 2 = 1) := by
      rintro rfl
      simp only [Bool.not_false, Bool.true_and, Bool.false_eq, Bool.or_eq_false_iff, decide_eq_false_iff_not,
        Bool.and_eq_false_iff, beq_eq_false_iff_ne] at hup
      omega
    refine ⟨⟨fun ht => ?_, fun ht h1 => ?_, fun _ => by linarith, fun _ => by linarith⟩, ?_⟩
    · rw [habs, hle]
      have := hstay ht
      omega
    · rw [habs] at h1
      have := hge.mp h1.ge
      have := hstay ht
      omega
    · rw [← not_iff_not, not_not, not_not, ← hzero, hg]
      constructor <;> intro h <;> linarith
  · have htr : trunc = false := by
      by_contra ht
      rw [Bool.not_eq_false] at ht
      rw [ht] at hup
      cases hup
    subst htr
    have hq : ((Q + (true : Bool).toNat : Nat) : Rat) = Q + 1 := by push_cast; simp
    have hup' : H < r ∨ (r = H ∧ Q % 2 = 1) := by simpa using hup.symm
    have h1 : 1 ≤ g := hge.mpr (by omega)
    have habs : |2 * (x - ((Q + (true : Bool).toNat : Nat) : Rat))| = 2 - g := by
      rw [hq, show 2 * (x - (Q + 1)) = -(2 - g) by rw [hg]; ring, abs_neg, abs_of_pos (by linarith)]
    refine ⟨⟨fun _ => by rw [habs]; linarith, fun _ he => ?_, fun ht => absurd ht (by decide), fun ht => absurd ht (by decide)⟩, ?_⟩
    · rw [habs] at he
      have := hle.mp (by linarith)
      show 2 ∣ Q + 1
      omega
    · refine ⟨fun _ he => ?_, fun _ => by omega⟩
      rw [hq] at he
      linarith

/-- What a conversion rounds to, with its sign, and whether it is exact. -/
theorem fToInt_rounds (trunc : Bool) (a : Word) : ∃ (q : Nat) (c : Bool),
    fToInt trunc a = (if fSign a then -(q : Int) else (q : Int), c)
    ∧ Rounds trunc (magnitude a) q ∧ (c = true ↔ (q : Rat) ≠ magnitude a) := by
  by_cases h : 0 ≤ fEx a
  · have hmag : magnitude a = ((fSig a * 2 ^ (fEx a).toNat : Nat) : Rat) := by
      rw [magnitude]
      conv_lhs => rw [← Int.toNat_of_nonneg h]
      push_cast
      rw [zpow_natCast]
    refine ⟨_, _, fToInt_integer trunc h, ?_, ?_⟩
    · rw [hmag]
      exact rounds_self trunc _
    · simp [hmag]
  · have hk : (-fEx a).toNat = ((-fEx a).toNat - 1) + 1 := by omega
    have hpow : 2 ^ (-fEx a).toNat = 2 * 2 ^ ((-fEx a).toNat - 1) := by
      rw [← pow_succ', ← hk]
    have hcast : ((2 : Rat) ^ (-fEx a).toNat) = 2 * ((2 ^ ((-fEx a).toNat - 1) : Nat) : Rat) := by
      exact_mod_cast hpow
    have hx := magnitude_fraction h
    dsimp only at hx
    rw [hcast] at hx
    obtain ⟨hr, hc⟩ := rounds_fraction trunc hx (by rw [← hpow]; exact Nat.mod_lt _ (by positivity)) rfl
    exact ⟨_, _, fToInt_fraction trunc h, hr, decide_eq_true_iff.trans hc⟩

/-! #### The sign, and the conversions -/

theorem signed_magnitude (a : Word) : (if fSign a then -1 else 1) * (fSig a : Rat) * (2 : Rat) ^ (fEx a) =
    if fSign a then -magnitude a else magnitude a := by
  unfold magnitude
  split_ifs <;> ring

/-- F2I and F2U round to nearest, ties to even (R101). -/
theorem fToInt_nearest {a : Word} {v : Rat} (hv : v = if fSign a then -magnitude a else magnitude a) :
    ∃ x : Int, fToInt false a = (x, decide ((x : Rat) ≠ v)) ∧ |2 * (v - x)| ≤ 1 ∧ (|2 * (v - x)| = 1 → 2 ∣ x) := by
  obtain ⟨q, c, hx, hr, hc⟩ := fToInt_rounds false a
  cases hs : fSign a <;> rw [hs] at hx hv <;> simp only [Bool.false_eq_true, if_false, if_true] at hx hv <;> subst hv
  · refine ⟨q, hx.trans ?_, hr.near rfl, fun h1 => Int.natCast_dvd_natCast.mpr (hr.even rfl h1)⟩
    rw [Prod.mk.injEq, Bool.eq_iff_iff, hc, decide_eq_true_iff]
    exact ⟨rfl, Iff.rfl⟩
  · have habs : |2 * (-magnitude a - ((-(q : Int) : Int) : Rat))| = |2 * (magnitude a - q)| := by
      rw [← abs_neg]
      push_cast
      ring_nf
    refine ⟨-q, hx.trans ?_, habs ▸ hr.near rfl, fun h1 => (Int.natCast_dvd_natCast.mpr (hr.even rfl (habs ▸ h1))).neg_right⟩
    rw [Prod.mk.injEq, Bool.eq_iff_iff, hc, decide_eq_true_iff]
    push_cast
    exact ⟨rfl, neg_inj.not.symm⟩

/-- F2IT gives the integer part toward zero (R101). -/
theorem fToInt_toward_zero {a : Word} {v : Rat} (hv : v = if fSign a then -magnitude a else magnitude a) :
    ∃ y : Int, fToInt true a = (y, decide ((y : Rat) ≠ v)) ∧ |(y : Rat)| ≤ |v| ∧ |v| < |(y : Rat)| + 1 ∧ 0 ≤ (y : Rat) * v := by
  obtain ⟨q, c, hx, hr, hc⟩ := fToInt_rounds true a
  have hm := magnitude_nonneg a
  have hq : (0 : Rat) ≤ q := Nat.cast_nonneg q
  cases hs : fSign a <;> rw [hs] at hx hv <;> simp only [Bool.false_eq_true, if_false, if_true] at hx hv <;> subst hv
  · refine ⟨q, hx.trans ?_, ?_, ?_, ?_⟩
    · rw [Prod.mk.injEq, Bool.eq_iff_iff, hc, decide_eq_true_iff]
      exact ⟨rfl, Iff.rfl⟩
    all_goals simp only [Int.cast_natCast, abs_of_nonneg hm, abs_of_nonneg hq]
    · exact hr.below rfl
    · exact hr.above rfl
    · exact mul_nonneg hq hm
  · refine ⟨-q, hx.trans ?_, ?_, ?_, ?_⟩
    · rw [Prod.mk.injEq, Bool.eq_iff_iff, hc, decide_eq_true_iff]
      push_cast
      exact ⟨rfl, neg_inj.not.symm⟩
    all_goals simp only [Int.cast_neg, Int.cast_natCast, abs_neg, abs_of_nonneg hm, abs_of_nonneg hq, neg_mul_neg]
    · exact hr.below rfl
    · exact hr.above rfl
    · exact mul_nonneg hq hm

/-- A conversion of a finite word: the integer, or the nearest limit with INV (R102). -/
theorem fConv_finite {trunc : Bool} {lo hi x : Int} {c : Bool} {a : Word} (hn : fIsNaN a = false) (hf : fIsInf a = false)
    (hx : fToInt trunc a = (x, c)) : fConv trunc lo hi a =
      if x < lo then ⟨BitVec.ofInt 32 lo, 0, 0, flagWord false false (decide (BitVec.ofInt 32 lo = 0#32)) ((BitVec.ofInt 32 lo).getLsbD 31) false false true, 0⟩
      else if hi < x then ⟨BitVec.ofInt 32 hi, 0, 0, flagWord false false (decide (BitVec.ofInt 32 hi = 0#32)) ((BitVec.ofInt 32 hi).getLsbD 31) false false true, 0⟩
      else ⟨BitVec.ofInt 32 x, 0, 0, flagWord c false (decide (BitVec.ofInt 32 x = 0#32)) ((BitVec.ofInt 32 x).getLsbD 31) false false false, 0⟩ := by
  rw [fConv, if_neg (Bool.eq_false_iff.mp hn), if_neg (Bool.eq_false_iff.mp hf), hx]
  simp only [← BitVec.msb_eq_getLsbD_last (BitVec.ofInt 32 _)]
  rfl

/-! #### Special cases, row by row -/

theorem fSub_nan {o1 o2 t : Word} (h : (fIsNaN o1 || fIsNaN t) = true) : fpuOp 0x11 o1 o2 t = fNaN (fIsSNaN o1 || fIsSNaN t) := by
  rw [fSub_eq, fAdd_nan (by rwa [fIsNaN_fFlip]), fIsSNaN_fFlip]

theorem fFms_nan {o1 o2 t : Word} (h : (fIsNaN o1 || fIsNaN o2 || fIsNaN t) = true) :
    fpuOp 0x14 o1 o2 t = fNaN (fIsSNaN o1 || fIsSNaN o2 || fIsSNaN t || zeroTimesInf o1 o2) := by
  rw [fFms_eq, fFma_nan (by rwa [fIsNaN_fFlip]), fIsSNaN_fFlip]

theorem fSub_infs {o1 o2 t : Word} (h1 : fIsInf o1 = true) (ht : fIsInf t = true) (hs : fSign o1 = fSign t) :
    fpuOp 0x11 o1 o2 t = fNaN true := by
  rw [fSub_eq, fAdd_infs h1 (by rwa [fIsInf_fFlip]) (by rw [fSign_fFlip, hs]; cases fSign t <;> decide)]

theorem fFms_zeroInf {o1 o2 t : Word} (h : zeroTimesInf o1 o2 = true) (ht : fIsNaN t = false) : fpuOp 0x14 o1 o2 t = fNaN true := by
  rw [fFms_eq, fFma_zeroInf h (by rwa [fIsNaN_fFlip])]

theorem fNeg_flags (o1 o2 t : Word) :
    (fpuOp 0x17 o1 o2 t).f = flagWord false false (fIsZero t) (!fSign t) false false false := by
  rw [← fIsZero_fFlip, ← fSign_fFlip]
  rfl

theorem fAbs_flags (o1 o2 t : Word) : (fpuOp 0x18 o1 o2 t).f = flagWord false false (fIsZero t) false false false false := by
  show fFlags (t &&& 0x7FFFFFFF#32) false false false false = _
  rw [fFlags, fIsZero_fAbs, fSign_fAbs]

/-- Conversions of a NaN (R102). -/
theorem fpu_convNaN (o1 o2 : Word) {t : Word} (h : fIsNaN t = true) {k : Nat} (hk : k ∈ [0x1D, 0x1E, 0x1F]) :
    (fpuOp k o1 o2 t).q = 0 ∧ flagINV (fpuOp k o1 o2 t).f = true ∧ flagC (fpuOp k o1 o2 t).f = false := by
  have hconv : ∃ trunc lo hi, fpuOp k o1 o2 t = fConv trunc lo hi t := by
    rcases mem_three.mp hk with rfl | rfl | rfl <;> exact ⟨_, _, _, rfl⟩
  obtain ⟨trunc, lo, hi, e⟩ := hconv
  rw [e, fConv_nan trunc lo hi h, res1, flagINV_flagWord, flagC_flagWord]
  exact ⟨rfl, rfl, rfl⟩

/-- FMIN and FMAX with a NaN (R102). -/
theorem fpu_minMax (o1 o2 t : Word) {k : Nat} (hk : k ∈ [0x19, 0x1A]) :
    (fIsNaN o1 = true → fIsNaN t = false → (fpuOp k o1 o2 t).q = t ∧ flagINV (fpuOp k o1 o2 t).f = fIsSNaN o1)
    ∧ (fIsNaN o1 = false → fIsNaN t = true → (fpuOp k o1 o2 t).q = o1 ∧ flagINV (fpuOp k o1 o2 t).f = fIsSNaN t)
    ∧ (fIsNaN o1 = true → fIsNaN t = true → presentsNaN (fpuOp k o1 o2 t) (fIsSNaN o1 || fIsSNaN t)) := by
  have hrow : ∃ mx, fpuOp k o1 o2 t = fMinMax mx o1 t := by
    rcases List.mem_pair.mp hk with rfl | rfl <;> exact ⟨_, rfl⟩
  obtain ⟨mx, e⟩ := hrow
  rw [e]
  refine ⟨fun h1 ht => ?_, fun h1 ht => ?_, fun h1 ht => presentsNaN_of_eq (fMinMax_nan h1 ht)⟩
  · rw [fMinMax_left h1 ht, res1, fFlags, flagINV_flagWord]
    exact ⟨rfl, rfl⟩
  · rw [fMinMax_right h1 ht, res1, fFlags, flagINV_flagWord]
    exact ⟨rfl, rfl⟩

/-- Settles O10: the special cases of each row, and the conversions of a finite word, which round its magnitude and give it the
sign of T. -/
theorem fpuResults : Obligations.FpuResults := by
  refine ⟨?_, ?_⟩
  · intro o1 o2 t op isNaN zeroX
    exact ⟨fun h => ⟨presentsNaN_of_eq (fAdd_nan h), presentsNaN_of_eq (fSub_nan h), presentsNaN_of_eq (fMul_nan h),
        presentsNaN_of_eq (fDiv_nan h)⟩,
      fun h => ⟨presentsNaN_of_eq (fFma_nan h), presentsNaN_of_eq (fFms_nan h)⟩,
      fun h => ⟨presentsNaN_of_eq (if_pos h), presentsNaN_of_eq (if_pos h), fun k hk => fpu_convNaN o1 o2 h hk⟩,
      fun h1 ht => ⟨fun hs => presentsNaN_of_eq (fAdd_infs h1 ht hs), fun hs => presentsNaN_of_eq (fSub_infs h1 ht hs),
        presentsNaN_of_eq (fDiv_invalid (.inl ⟨h1, ht⟩))⟩,
      fun h => presentsNaN_of_eq (fMul_zeroInf h),
      fun h ht => ⟨presentsNaN_of_eq (fFma_zeroInf h ht), presentsNaN_of_eq (fFms_zeroInf h ht)⟩,
      fun h1 ht => presentsNaN_of_eq (fDiv_invalid (.inr ⟨h1, ht⟩)),
      fun hs hn hz => presentsNaN_of_eq (fSqrt_negative hs hn hz),
      fun hn hi hz ht => fDiv_byZero hn hi hz ht,
      fun i hi => ⟨fFlip_bits t hi, fAbs_bits t hi⟩, fNeg_flags o1 o2 t, fAbs_flags o1 o2 t, fun k hk => fpu_minMax o1 o2 t hk⟩
  · intro o1 o2 t hn hf v hv result
    rw [signed_magnitude] at hv
    obtain ⟨x, hx, hnear, heven⟩ := fToInt_nearest hv
    obtain ⟨y, hy, hbelow, habove, hsign⟩ := fToInt_toward_zero hv
    have hmax : BitVec.ofInt 32 (2 ^ 31 - 1) ≠ 0#32 ∧ BitVec.ofInt 32 (2 ^ 32 - 1) ≠ 0#32 := by decide
    refine ⟨x, y, hnear, heven, hbelow, habove, hsign, (fConv_finite hn hf hx).trans ?_, (fConv_finite hn hf hx).trans ?_,
      (fConv_finite hn hf hy).trans ?_⟩
    · rw [decide_eq_false hmax.1]
    · rw [decide_eq_false hmax.2]
    · rw [decide_eq_false hmax.1]

end Sys2Proof.Proofs

/-! ### O11: scratch accesses, and shared accesses through a return slot (R71, R73, R105 to R107, R172) -/
namespace Sys2Proof.Proofs

open Sys2Proof Sys2Proof.Machine Sys2Proof.Safety Sys2Proof.Laws

/-- The lane of a step keeps its memory, its slots, its requests and its stacks until an operation writes them. -/
theorem endStall_now_memory (l : Fin 16) (s : State) :
    (endStall s (laneNow l s)).scratch = (s.lanes[l.val]).scratch ∧ (endStall s (laneNow l s)).slots = (s.lanes[l.val]).slots
    ∧ (endStall s (laneNow l s)).reqs = (s.lanes[l.val]).reqs := by
  obtain ⟨_, _, _, _, _, e⟩ := endStall_now l s
  rw [e]; exact ⟨rfl, rfl, rfl⟩

theorem laneNow_memory (l : Fin 16) (s : State) :
    (laneNow l s).slots = (s.lanes[l.val]).slots ∧ (laneNow l s).reqs = (s.lanes[l.val]).reqs := by
  obtain ⟨_, _, _, e⟩ := laneNow_only l s
  rw [e]; exact ⟨rfl, rfl⟩

theorem lsu_opnds {l : Fin 16} {s : State} {op : Nat} (hop : isTrig .lsu op = true) (t : Word) :
    opnd (laneNow l s) [(0x2C0 + op, t)] .lsu 0 = (unitNow l .lsu s).o1
    ∧ opnd (laneNow l s) [(0x2C0 + op, t)] .lsu 1 = (unitNow l .lsu s).o2 := by
  obtain ⟨h0, h1, -⟩ := opnd_trigger (l := l) (s := s) hop t .lsu
  exact ⟨h0, h1⟩

/-! #### The scratch pipe (R105, R106) -/

theorem localsOk_iff (a n : Nat) : localsOk a n = true ↔ 0x8400 ≤ a ∧ a + n ≤ 0x10000 := decide_eq_true_iff

theorem scratch_faults {l : Fin 16} {s : State} (h : laneReady l s) (h1 : s.sys.latched = false) (h2 : inPlinth s = false)
    (h3 : s.ln.fault.valid = false) (t : Word) {op : Nat} (hop : 0x10 ≤ op ∧ op ≤ 0x15)
    (hbad : ¬ (0x8400 ≤ t.toNat / accLen op * accLen op ∧ t.toNat / accLen op * accLen op + accLen op ≤ 0x10000)) :
    laneFaults l 0x100B t (s.lanes[l.val]).pc s (act (issueTrigger l (0x2C0 + op) t) s) := by
  rw [(lsu_local h t op hop.1 hop.2).2 (by rwa [← Bool.not_eq_true, localsOk_iff])]
  exact laneFault_first l ⟨0x100B, t, none⟩ _ false s h1 h2 h3

/-- A trigger whose access lies in the locals acts on the lane as `runLsu` says. -/
theorem scratch_issues {l : Fin 16} {s : State} (h : laneReady l s) (t : Word) {op : Nat} (hop : 0x10 ≤ op ∧ op ≤ 0x15)
    {f : Lane → Lane} (hf : runLsu s [(0x2C0 + op, t)] (laneNow l s) (endStall s (laneNow l s)) = f (endStall s (laneNow l s)))
    (hin : 0x8400 ≤ t.toNat / accLen op * accLen op ∧ t.toNat / accLen op * accLen op + accLen op ≤ 0x10000) :
    act (issueTrigger l (0x2C0 + op) t) s = .next (laneStep l f s) := by
  rw [(lsu_local h t op hop.1 hop.2).1 ((localsOk_iff _ _).mpr hin), laneStep_congr hf]

theorem runLsu_load {l : Fin 16} {s : State} (t : Word) {op : Nat} (hop : 0x10 ≤ op ∧ op ≤ 0x12) :
    let n := accLen op
    runLsu s [(0x2C0 + op, t)] (laneNow l s) (endStall s (laneNow l s)) = startOp .lsu 2
      (res1 (BitVec.ofNat 32 (leNat (sgets zeroByte (s.lanes[l.val]).scratch (t.toNat / n * n) n))) 0) 0
      (endStall s (laneNow l s)) := by
  obtain ⟨hlo, hhi⟩ := hop
  have hp : trigOf (0x2C0 + op) = some (.lsu, op) := by interval_cases op <;> rfl
  have hone : t.toNat / 1 * 1 = t.toNat := by omega
  rw [← (endStall_now_memory l s).1]
  simp only [runLsu, tr_own hp]
  interval_cases op <;> simp only [accLen, Nat.reduceEqDiff, or_self, true_or, if_true, if_false, hone]

theorem runLsu_store {l : Fin 16} {s : State} (t : Word) {op : Nat} (hop : 0x13 ≤ op ∧ op ≤ 0x15) :
    let n := accLen op
    runLsu s [(0x2C0 + op, t)] (laneNow l s) (endStall s (laneNow l s)) = { endStall s (laneNow l s) with
      scratch := sputs zeroByte (t.toNat / n * n) (leBytes n (unitNow l .lsu s).o1.toNat) (s.lanes[l.val]).scratch } := by
  obtain ⟨hlo, hhi⟩ := hop
  have htrig : isTrig .lsu op = true := by interval_cases op <;> rfl
  have hp : trigOf (0x2C0 + op) = some (.lsu, op) := (trigPort htrig).1
  have hone : t.toNat / 1 * 1 = t.toNat := by omega
  rw [← (endStall_now_memory l s).1]
  simp only [runLsu, tr_own hp, (lsu_opnds htrig t).1]
  interval_cases op <;> simp only [accLen, Nat.reduceEqDiff, or_self, or_true, if_true, if_false, hone]

/-! #### The shared pipe (R71, R73, R105, R172) -/

theorem shared_stalls {l : Fin 16} {s : State} (t : Word) {op : Nat} (hop : op = 0x18 ∨ op = 0x19) {k : Fin 20}
    (hk : k.val = (unitNow l .lsu s).o2.toNat % 16) : stalls (laneNow l s) [mvOf (0x2C0 + op) t] [(0x2C0 + op, t)] =
      (((s.lanes[l.val]).slots[k.val]).outstanding || decide (16 ≤ (s.lanes[l.val]).reqs.length)) := by
  have htrig : isTrig .lsu op = true := by rcases hop with rfl | rfl <;> rfl
  have hp : trigOf (0x2C0 + op) = some (.lsu, op) := (trigPort htrig).1
  have hshared : startsShared (mvOf (0x2C0 + op) t) = true := by
    simp only [startsShared, mvOf, hp]
    simpa using hop
  have hneeds : slotsNeeded (laneNow l s) [mvOf (0x2C0 + op) t] [(0x2C0 + op, t)] = [k.val] := by
    simp only [slotsNeeded, tr_own hp, tr_other hp (show UnitId.img ≠ .lsu by decide), if_pos hop, (lsu_opnds htrig t).2, hk]
    rfl
  rw [stalls, hneeds, List.any_cons, List.any_nil, Bool.or_false, List.any_cons, List.any_nil, Bool.or_false, hshared,
    Bool.true_and, vget_of_lt _ _ k.isLt]
  simp only [(laneNow_memory l s).1, (laneNow_memory l s).2]

theorem shared_fault {l : Fin 16} {s : State} (h : laneReady l s) (t : Word) {op : Nat} (hop : op = 0x18 ∨ op = 0x19) :
    stepFault s l (atFault l s) (isOf (s.lanes[l.val]).pc (0x2C0 + op) t) [(0x2C0 + op, t)] false =
      if sharedOk s l.val t.toNat 4 (op == 0x19) then none else some ⟨0x100B, t, none⟩ := by
  have htrig : isTrig .lsu op = true := by rcases hop with rfl | rfl <;> rfl
  obtain ⟨hp, hd⟩ : trigOf (0x2C0 + op) = some (.lsu, op) ∧ dstOk (0x2C0 + op) = true := trigPort htrig
  have hstack : stackFault (atFault l s) [(0x2C0 + op, t)] = none := by
    simp only [stackFault, tr_other (t := t) hp (show UnitId.dsk ≠ .lsu by decide), tr_other (t := t) hp (show UnitId.ctl ≠ .lsu by decide)]
  have hprotect : protectFault s l (atFault l s) [(0x2C0 + op, t)] =
      if sharedOk s l.val t.toNat 4 (op == 0x19) then none else some ⟨0x100B, t, none⟩ := by
    simp only [protectFault, tr_own (t := t) hp, tr_other (t := t) hp (show UnitId.img ≠ .lsu by decide), if_pos hop]
    split_ifs <;> rfl
  rw [stepFault_mem h hp hd (by decide), hstack, hprotect]
  split_ifs <;> rfl

theorem sharedOk_iff (s : State) (l : Fin 16) (t : Word) (write : Bool) : sharedOk s l.val t.toNat 4 write = true ↔
    t.toNat ≤ 0x017FFFFF ∧ grantOk s l.val (t.toNat / 4 * 4) 4 write = true := by
  rw [sharedOk, Bool.and_eq_true, decide_eq_true_iff]

theorem queueReq_eq (s : State) (k : Fin 20) (a : Nat) (op : SharedOp) (store : Bool) (ln : Lane) :
    queueReq s k.val a op store ln = { ln with
      reqs := ln.reqs ++ [⟨a, op, s.clk.cyc + 1⟩]
      slots := ln.slots.set k.val ⟨(ln.slots[k.val]).data, true, none, store⟩ } := by
  rw [queueReq, vmod_of_lt _ _ k.isLt]

/-- What LD and ST queue: a load into the slot, or a store of o1 from it. -/
def sharedOp (op k : Nat) (o1 : Word) : SharedOp := if op = 0x18 then .load k 4 false else .store k 4 o1

theorem runLsu_shared {l : Fin 16} {s : State} (t : Word) {op : Nat} (hop : op = 0x18 ∨ op = 0x19) {k : Fin 20}
    (hk : k.val = (unitNow l .lsu s).o2.toNat % 16) (ln : Lane) : runLsu s [(0x2C0 + op, t)] (laneNow l s) ln =
      queueReq s k.val (t.toNat / 4 * 4) (sharedOp op k.val (unitNow l .lsu s).o1) (op == 0x19) ln := by
  have htrig : isTrig .lsu op = true := by rcases hop with rfl | rfl <;> rfl
  have hp : trigOf (0x2C0 + op) = some (.lsu, op) := (trigPort htrig).1
  simp only [runLsu, tr_own hp, (lsu_opnds htrig t).1, (lsu_opnds htrig t).2, ← hk]
  rcases hop with rfl | rfl <;> rfl

/-- A granted access through a free slot enters the queue. -/
theorem shared_issues {l : Fin 16} {s : State} (h : laneReady l s) (t : Word) {op : Nat} (hop : op = 0x18 ∨ op = 0x19) {k : Fin 20}
    (hk : k.val = (unitNow l .lsu s).o2.toNat % 16) (hfree : ((s.lanes[l.val]).slots[k.val]).outstanding = false)
    (hroom : (s.lanes[l.val]).reqs.length < 16) (hok : sharedOk s l.val t.toNat 4 (op == 0x19) = true) :
    act (issueTrigger l (0x2C0 + op) t) s = .next (laneStep l
      (queueReq s k.val (t.toNat / 4 * 4) (sharedOp op k.val (unitNow l .lsu s).o1) (op == 0x19)) s) := by
  have hp : trigOf (0x2C0 + op) = some (.lsu, op) := by rcases hop with rfl | rfl <;> rfl
  have hstall := (shared_stalls (l := l) (s := s) t hop hk).trans (by rw [hfree, decide_eq_false (not_le.mpr hroom), Bool.or_self])
  have hfault := (shared_fault h t hop).trans (if_pos hok)
  have hunits := unitsPart_lsu (s := s) (t := t) hp (laneNow l s)
  have hrun : unitsPart s [(0x2C0 + op, t)] (laneNow l s) =
      queueReq s k.val (t.toNat / 4 * 4) (sharedOp op k.val (unitNow l .lsu s).o1) (op == 0x19) :=
    hunits.trans (funext fun ln => runLsu_shared t hop hk ln)
  rw [issue_plain h hp (by decide) (by decide) (fun e => by cases e) hstall hfault ?_, hrun]
  rw [hrun]
  exact (endStall_frame s _).2.1.trans ((now_frame l s).2.1.trans h.2.2.1)

theorem shared_faults {l : Fin 16} {s : State} (h : laneReady l s) (h1 : s.sys.latched = false) (h2 : inPlinth s = false)
    (h3 : s.ln.fault.valid = false) (t : Word) {op : Nat} (hop : op = 0x18 ∨ op = 0x19) {k : Fin 20}
    (hk : k.val = (unitNow l .lsu s).o2.toNat % 16) (hfree : ((s.lanes[l.val]).slots[k.val]).outstanding = false)
    (hroom : (s.lanes[l.val]).reqs.length < 16) (hbad : ¬ sharedOk s l.val t.toNat 4 (op == 0x19) = true) :
    laneFaults l 0x100B t (s.lanes[l.val]).pc s (act (issueTrigger l (0x2C0 + op) t) s) := by
  have hstall := (shared_stalls (l := l) (s := s) t hop hk).trans (by rw [hfree, decide_eq_false (not_le.mpr hroom), Bool.or_self])
  rw [issueTrigger_fault h _ t _ hstall ((shared_fault h t hop).trans (if_neg hbad))]
  exact laneFault_first l ⟨0x100B, t, none⟩ _ false s h1 h2 h3

/-- Through an outstanding slot the lane stalls (R71). -/
theorem shared_waits {l : Fin 16} {s : State} (h : laneReady l s) (t : Word) {op : Nat} (hop : op = 0x18 ∨ op = 0x19) {k : Fin 20}
    (hk : k.val = (unitNow l .lsu s).o2.toNat % 16) (hheld : ((s.lanes[l.val]).slots[k.val]).outstanding = true) :
    act (issueTrigger l (0x2C0 + op) t) s = .next (settle (modLane l (beginStall s) s)) :=
  issueTrigger_stall h _ t ((shared_stalls t hop hk).trans (by rw [hheld, Bool.true_or]))

/-- Settles O11: a scratch trigger reads or writes the locals of the lane, a shared one enters the queue, waits for its slot, or
raises BANK_PROTECT. -/
theorem lsuAccesses : Obligations.LsuAccesses := by
  refine ⟨?_, ?_⟩
  · intro l t s h ln o1 a4 a2 a1 loads stores locals
    have h1 : t.toNat / 1 * 1 = a1 := by omega
    have load : ∀ {i : Instr} (op : Nat) {n a : Nat} {q : Word}, exec i s = act (issueTrigger l (0x2C0 + op) t) s →
        0x10 ≤ op ∧ op ≤ 0x12 → accLen op = n → t.toNat / n * n = a →
        BitVec.ofNat 32 (leNat (sgets zeroByte ln.scratch a n)) = q → locals a n → loads i q := by
      rintro i op _ _ _ hi hop rfl rfl rfl hin
      exact hi.trans (scratch_issues h t (by omega) (runLsu_load t hop) hin)
    have store : ∀ {i : Instr} (op : Nat) {n a : Nat}, exec i s = act (issueTrigger l (0x2C0 + op) t) s →
        0x13 ≤ op ∧ op ≤ 0x15 → accLen op = n → n ≤ 4 → t.toNat / n * n = a → locals a n → stores i a n := by
      rintro i op _ _ hi hop rfl hn rfl hin
      exact ⟨_, stored_leBytes _ _ hn _, hi.trans (scratch_issues h t (by omega)
        (f := fun x => { x with scratch := _ }) (runLsu_store t hop) hin)⟩
    refine ⟨fun hin => ⟨load 0x10 rfl (by decide) rfl rfl (word_read _ _) hin, store 0x13 rfl (by decide) rfl (by decide) rfl hin⟩,
      fun hin => ⟨load 0x11 rfl (by decide) rfl rfl (half_read _ _) hin, store 0x14 rfl (by decide) rfl (by decide) rfl hin⟩,
      fun hin => ⟨load 0x12 rfl (by decide) rfl h1 (byte_read _ _) hin, store 0x15 rfl (by decide) rfl (by decide) h1 hin⟩,
      fun hl hpl hv => ?_⟩
    have fault : ∀ {i : Instr} (op : Nat) {n a : Nat}, exec i s = act (issueTrigger l (0x2C0 + op) t) s → 0x10 ≤ op ∧ op ≤ 0x15 →
        accLen op = n → t.toNat / n * n = a → ¬ locals a n → laneFaults l 0x100B t ln.pc s (exec i s) := by
      rintro i op _ _ hi hop rfl rfl hout
      rw [hi]
      exact scratch_faults h hl hpl hv t hop hout
    exact ⟨fun hout => ⟨fault 0x10 rfl (by decide) rfl rfl hout, fault 0x13 rfl (by decide) rfl rfl hout⟩,
      fun hout => ⟨fault 0x11 rfl (by decide) rfl rfl hout, fault 0x14 rfl (by decide) rfl rfl hout⟩,
      fun hout => ⟨fault 0x12 rfl (by decide) rfl h1 hout, fault 0x15 rfl (by decide) rfl h1 hout⟩⟩
  · intro l t s h ln u k a queued granted
    have hld : (0x18 : Nat) = 0x18 ∨ (0x18 : Nat) = 0x19 := Or.inl rfl
    have hst : (0x19 : Nat) = 0x18 ∨ (0x19 : Nat) = 0x19 := Or.inr rfl
    have ld : exec (.ld l t) s = act (issueTrigger l (0x2C0 + 0x18) t) s := rfl
    have st : exec (.st l t) s = act (issueTrigger l (0x2C0 + 0x19) t) s := rfl
    rw [ld, st]
    refine ⟨fun hfree hroom => ⟨fun hg => ?_, fun hg => ?_⟩, fun hheld => ?_, fun hl hpl hv hfree hroom => ⟨fun hg => ?_, fun hg => ?_⟩⟩
    · refine (shared_issues h t hld (k := k) rfl hfree hroom ((sharedOk_iff s l t false).mpr hg)).trans ?_
      rw [funext (queueReq_eq s k _ _ _)]
      rfl
    · refine (shared_issues h t hst (k := k) rfl hfree hroom ((sharedOk_iff s l t true).mpr hg)).trans ?_
      rw [funext (queueReq_eq s k _ _ _)]
      rfl
    · intro waits
      exact ⟨shared_waits h t hld (k := k) rfl hheld, shared_waits h t hst (k := k) rfl hheld⟩
    · exact shared_faults h hl hpl hv t hld (k := k) rfl hfree hroom (fun hok => hg ((sharedOk_iff s l t false).mp hok))
    · exact shared_faults h hl hpl hv t hst (k := k) rfl hfree hroom (fun hok => hg ((sharedOk_iff s l t true).mp hok))

end Sys2Proof.Proofs

/-! ### O13: the data stack of the running class (R75, R112, R126) -/
namespace Sys2Proof.Proofs

open Sys2Proof Sys2Proof.Machine Sys2Proof.Safety Sys2Proof.Laws

theorem endStall_now_stack (l : Fin 16) (s : State) :
    stackDepth (endStall s (laneNow l s)) = stackDepth s.lanes[l.val] ∧ stackBase (endStall s (laneNow l s)) = stackBase s.lanes[l.val]
    ∧ (endStall s (laneNow l s)).cls = (s.lanes[l.val]).cls := by
  obtain ⟨_, _, _, _, _, e⟩ := endStall_now l s
  rw [e]; exact ⟨rfl, rfl, rfl⟩

theorem atFault_depth (l : Fin 16) (s : State) : stackDepth (atFault l s) = stackDepth s.lanes[l.val] := by
  obtain ⟨_, _, _, e⟩ := laneNow_only l s
  rw [atFault, e]; rfl

theorem setDepth_repRun (ln : Lane) (d : Nat) : (setDepth ln d).repRun = ln.repRun := by
  unfold setDepth; split_ifs <;> rfl

/-! #### What the triggers do, and when they fault -/

theorem trigOf_dsk {op : Nat} (hop : 0x10 ≤ op ∧ op ≤ 0x14) : trigOf (0x340 + op) = some (.dsk, op) :=
  (trigPort (u := .dsk) (by simpa [isTrig] using hop)).1

theorem runStack_push (t : Word) (ln : Lane) : runStack [(0x350, t)] ln = setDepth
    { ln with scratch := sputs zeroByte (stackBase ln + 4 * stackDepth ln) (wordBytes t) ln.scratch } (stackDepth ln + 1) := by
  simp only [runStack, tr_own (trigOf_dsk (op := 0x10) (by decide))]

theorem runStack_pop (t : Word) (ln : Lane) : runStack [(0x351, t)] ln = startOp .dsk 2
    (res1 (scrWord ln (stackBase ln + 4 * (stackDepth ln - 1))) 0) 0 (setDepth ln (stackDepth ln - 1)) := by
  simp only [runStack, tr_own (trigOf_dsk (op := 0x11) (by decide))]

theorem runStack_peek (t : Word) (ln : Lane) : runStack [(0x352, t)] ln = startOp .dsk 2
    (res1 (scrWord ln (stackBase ln + 4 * (stackDepth ln - 1 - t.toNat))) 0) 0 ln := by
  simp only [runStack, tr_own (trigOf_dsk (op := 0x12) (by decide))]

theorem runStack_drop (t : Word) (ln : Lane) : runStack [(0x353, t)] ln = setDepth ln (stackDepth ln - t.toNat) := by
  simp only [runStack, tr_own (trigOf_dsk (op := 0x13) (by decide))]

theorem runStack_depth (t : Word) (ln : Lane) : runStack [(0x354, t)] ln =
    startOp .dsk 2 (res1 (w (stackDepth ln)) 0) 0 ln := by
  simp only [runStack, tr_own (trigOf_dsk (op := 0x14) (by decide))]

theorem stackFault_push (t : Word) (ln : Lane) : stackFault ln [(0x350, t)] =
    if 4096 ≤ stackDepth ln then some ⟨0x1002, 4096, none⟩ else none := by
  have hp := trigOf_dsk (op := 0x10) (by decide)
  simp only [stackFault, tr_own hp, tr_other hp (show UnitId.ctl ≠ .dsk by decide)]
  split_ifs <;> rfl

theorem stackFault_pop (t : Word) (ln : Lane) : stackFault ln [(0x351, t)] =
    if stackDepth ln = 0 then some ⟨0x1003, w (stackDepth ln), none⟩ else none := by
  have hp := trigOf_dsk (op := 0x11) (by decide)
  simp only [stackFault, tr_own hp, tr_other hp (show UnitId.ctl ≠ .dsk by decide)]
  split_ifs <;> rfl

theorem stackFault_peek (t : Word) (ln : Lane) : stackFault ln [(0x352, t)] =
    if stackDepth ln ≤ t.toNat then some ⟨0x1003, w (stackDepth ln), none⟩ else none := by
  have hp := trigOf_dsk (op := 0x12) (by decide)
  simp only [stackFault, tr_own hp, tr_other hp (show UnitId.ctl ≠ .dsk by decide)]
  split_ifs <;> rfl

theorem stackFault_drop (t : Word) (ln : Lane) : stackFault ln [(0x353, t)] =
    if stackDepth ln < t.toNat then some ⟨0x1003, w (stackDepth ln), none⟩ else none := by
  have hp := trigOf_dsk (op := 0x13) (by decide)
  simp only [stackFault, tr_own hp, tr_other hp (show UnitId.ctl ≠ .dsk by decide)]
  split_ifs <;> rfl

theorem stackFault_depth (t : Word) (ln : Lane) : stackFault ln [(0x354, t)] = none := by
  have hp := trigOf_dsk (op := 0x14) (by decide)
  simp only [stackFault, tr_own hp, tr_other hp (show UnitId.ctl ≠ .dsk by decide)]

theorem runStack_repRun {op : Nat} (hop : 0x10 ≤ op ∧ op ≤ 0x14) (t : Word) (ln : Lane) :
    (runStack [(0x340 + op, t)] ln).repRun = ln.repRun := by
  obtain ⟨hlo, hhi⟩ := hop
  interval_cases op
  · rw [runStack_push, setDepth_repRun]
  · rw [runStack_pop]; exact setDepth_repRun _ _
  · rw [runStack_peek]; rfl
  · rw [runStack_drop, setDepth_repRun]
  · rw [runStack_depth]; rfl

/-! #### The bundle of one trigger of DSK -/

theorem dsk_fault {l : Fin 16} {s : State} (h : laneReady l s) {op : Nat} (hop : 0x10 ≤ op ∧ op ≤ 0x14) (t : Word) :
    stalls (laneNow l s) [mvOf (0x340 + op) t] [(0x340 + op, t)] = false
    ∧ stepFault s l (atFault l s) (isOf (s.lanes[l.val]).pc (0x340 + op) t) [(0x340 + op, t)] false =
      stackFault (atFault l s) [(0x340 + op, t)] := by
  obtain ⟨hp, hd⟩ : trigOf (0x340 + op) = some (.dsk, op) ∧ dstOk (0x340 + op) = true :=
    trigPort (u := .dsk) (by simpa [isTrig] using hop)
  have hlsu := tr_other (t := t) hp (show UnitId.lsu ≠ .dsk by decide)
  have himg := tr_other (t := t) hp (show UnitId.img ≠ .dsk by decide)
  refine ⟨by simp [stalls, slotsNeeded, mvOf, hlsu, himg, startsShared, hp], ?_⟩
  have hprotect : protectFault s l (atFault l s) [(0x340 + op, t)] = none := by simp only [protectFault, hlsu, himg]
  rw [stepFault_mem h hp hd (by decide), hprotect]
  cases stackFault (atFault l s) [(0x340 + op, t)] <;> rfl

theorem dsk_issues {l : Fin 16} {s : State} (h : laneReady l s) {op : Nat} (hop : 0x10 ≤ op ∧ op ≤ 0x14) (t : Word)
    (hf : stackFault (atFault l s) [(0x340 + op, t)] = none) {f : Lane → Lane}
    (hrun : runStack [(0x340 + op, t)] (endStall s (laneNow l s)) = f (endStall s (laneNow l s))) :
    act (issueTrigger l (0x340 + op) t) s = .next (laneStep l f s) := by
  have hp := trigOf_dsk hop
  obtain ⟨hstall, hfault⟩ := dsk_fault h hop t
  have hunits := unitsPart_dsk (s := s) (t := t) hp (laneNow l s)
  rw [issue_plain h hp (by decide) (by decide) (fun e => by cases e) hstall (hfault.trans hf) ?_, hunits, laneStep_congr hrun]
  rw [hunits, runStack_repRun hop]
  exact (endStall_frame s _).2.1.trans ((now_frame l s).2.1.trans h.2.2.1)

theorem dsk_faults {l : Fin 16} {s : State} (h : laneReady l s) (h1 : s.sys.latched = false) (h2 : inPlinth s = false)
    (h3 : s.ln.fault.valid = false) {op : Nat} (hop : 0x10 ≤ op ∧ op ≤ 0x14) {t : Word} {f : LFault}
    (hf : stackFault (atFault l s) [(0x340 + op, t)] = some f) :
    laneFaults l f.code f.arg (s.lanes[l.val]).pc s (act (issueTrigger l (0x340 + op) t) s) := by
  obtain ⟨hstall, hfault⟩ := dsk_fault h hop t
  rw [issueTrigger_fault h _ t f hstall (hfault.trans hf)]
  exact laneFault_first l f _ false s h1 h2 h3

theorem scrWord_eq (ln : Lane) (a : Nat) : scrWord ln a = scratchWord ln a := word_read _ _

/-- Settles O13: each trigger acts on the stack as `runStack` says, or faults as `stackFault` says. -/
theorem dataStack : Obligations.DataStack := by
  intro l t s h ln bg d base depth top gives
  have hd : stackDepth s.lanes[l.val] = d := by simp only [stackDepth, d, bg, decide_eq_true_iff]; rfl
  have hb : stackBase s.lanes[l.val] = base := by simp only [stackBase, base, bg, decide_eq_true_iff]; rfl
  obtain ⟨hdepth, hbase, hcls⟩ := endStall_now_stack l s
  rw [hd] at hdepth
  rw [hb] at hbase
  have hmem := (endStall_now_memory l s).1
  have hset : ∀ (x : Lane) (n : Nat), x.cls = ln.cls → setDepth x n = depth x n := by
    intro x n hx
    simp only [setDepth, depth, bg, decide_eq_true_iff, hx]
  have htop : ∀ i, scrWord (endStall s (laneNow l s)) (base + 4 * (d - 1 - i)) = top i := by
    intro i
    rw [scrWord_eq]
    simp only [top, scratchWord, scratchByte, hmem]
    rfl
  have hf : stackDepth (atFault l s) = d := (atFault_depth l s).trans hd
  have push : exec (.push l t) s = act (issueTrigger l (0x340 + 0x10) t) s := rfl
  have pop : exec (.pop l t) s = act (issueTrigger l (0x340 + 0x11) t) s := rfl
  have peek : exec (.peek l t) s = act (issueTrigger l (0x340 + 0x12) t) s := rfl
  have drop : exec (.drop l t) s = act (issueTrigger l (0x340 + 0x13) t) s := rfl
  have depthRow : exec (.depth l t) s = act (issueTrigger l (0x340 + 0x14) t) s := rfl
  simp only [gives, push, pop, peek, drop, depthRow]
  refine ⟨fun hlt => ⟨_, stored_wordBytes ln.scratch _ t, dsk_issues h (by decide) t ?_ ?_⟩, fun hpos => dsk_issues h (by decide) t ?_ ?_,
    fun hlt => dsk_issues h (by decide) t ?_ ?_, fun hle => dsk_issues h (by decide) t ?_ ?_, dsk_issues h (by decide) t ?_ ?_,
    fun h1 h2 h3 => ⟨fun hge => ?_, fun h0 => ?_, fun hle => ?_, fun hlt => ?_⟩⟩
  · rw [stackFault_push, hf, if_neg (by omega)]
  · rw [runStack_push, hdepth, hbase, hmem]
    exact hset _ _ hcls
  · rw [stackFault_pop, hf, if_neg (by omega)]
  · rw [runStack_pop, hdepth, hbase, hset _ _ hcls]
    exact congrArg (fun q => startOp .dsk 2 (res1 q 0) 0 _) (htop 0)
  · rw [stackFault_peek, hf, if_neg (by omega)]
  · rw [runStack_peek, hdepth, hbase, htop]
    rfl
  · rw [stackFault_drop, hf, if_neg (by omega)]
  · rw [runStack_drop, hdepth, hset _ _ hcls]
  · exact stackFault_depth t _
  · rw [runStack_depth, hdepth]
    rfl
  · exact dsk_faults h h1 h2 h3 (by decide) (f := ⟨0x1002, 4096, none⟩) (by rw [stackFault_push, hf, if_pos hge])
  · exact dsk_faults h h1 h2 h3 (by decide) (f := ⟨0x1003, 0, none⟩) (by rw [stackFault_pop, hf, if_pos h0, h0]; rfl)
  · exact dsk_faults h h1 h2 h3 (by decide) (f := ⟨0x1003, w d, none⟩) (by rw [stackFault_peek, hf, if_pos hle])
  · exact dsk_faults h h1 h2 h3 (by decide) (f := ⟨0x1003, w d, none⟩) (by rw [stackFault_drop, hf, if_pos hlt])

end Sys2Proof.Proofs

/-! ### O14: the SYS unit (R113, R114, R210) -/
namespace Sys2Proof.Proofs

open Sys2Proof Sys2Proof.Machine Sys2Proof.Safety Sys2Proof.Laws

theorem trigOf_sys {op : Nat} (hop : 0x10 ≤ op ∧ op ≤ 0x13) : trigOf (0x3E0 + op) = some (.sys, op) :=
  (trigPort (u := .sys) (by simpa [isTrig] using hop)).1

theorem sys_fault {l : Fin 16} {s : State} (h : laneReady l s) {op : Nat} (hop : 0x10 ≤ op ∧ op ≤ 0x13) (t : Word) :
    stalls (laneNow l s) [mvOf (0x3E0 + op) t] [(0x3E0 + op, t)] = false
    ∧ stepFault s l (atFault l s) (isOf (s.lanes[l.val]).pc (0x3E0 + op) t) [(0x3E0 + op, t)] false = none :=
  plain_ok h (trigOf_sys hop) (trigPort (u := .sys) (by simpa [isTrig] using hop)).2 (by decide) (by decide) (by decide) (by decide)

/-! #### Results: the event word and times -/

theorem sys_issues {l : Fin 16} {s : State} (h : laneReady l s) {op : Nat} (hop : 0x10 ≤ op ∧ op ≤ 0x12) (t : Word) {r : OpRes}
    (hrun : ∀ ln, runSys s [(0x3E0 + op, t)] ln = startOp .sys 1 r 0 ln) :
    act (issueTrigger l (0x3E0 + op) t) s = .next (starts l .sys 1 r s) := by
  have hp := trigOf_sys (op := op) (by omega)
  obtain ⟨hstall, hfault⟩ := sys_fault h (op := op) (by omega) t
  have hunits : unitsPart s [(0x3E0 + op, t)] (laneNow l s) = startOp .sys 1 r 0 :=
    (unitsPart_sys hp _).trans (funext hrun)
  rw [issue_plain h hp (by decide) (by decide) (fun _ => by omega) hstall hfault ?_, hunits]
  · rfl
  · rw [hunits]
    exact (endStall_frame s _).2.1.trans ((now_frame l s).2.1.trans h.2.2.1)

/-- The third word of a time: the high seconds below the flags. -/
theorem timeQ3_eq (nt : Nat) (flags : BitVec 4) : timeQ3 nt flags = w (nt / 10 ^ 19 / 2 ^ 32 % 2 ^ 16 + 2 ^ 16 * flags.toNat) := by
  have hlow : nt / 10 ^ 19 / 2 ^ 32 % 2 ^ 16 < 2 ^ 16 := Nat.mod_lt _ (by decide)
  have hflags := flags.isLt
  apply BitVec.eq_of_toNat_eq
  rw [timeQ3, show ntSec = 10 ^ 19 from rfl]
  generalize nt / 10 ^ 19 / 2 ^ 32 % 2 ^ 16 = x at *
  rw [BitVec.toNat_or, BitVec.toNat_ofNat, BitVec.toNat_shiftLeft, BitVec.toNat_setWidth, BitVec.toNat_ofNat,
    Nat.mod_eq_of_lt (by omega : x < 2 ^ 32), Nat.mod_eq_of_lt (by omega : flags.toNat < 2 ^ 32), Nat.shiftLeft_eq,
    Nat.mod_eq_of_lt (by omega : flags.toNat * 2 ^ 16 < 2 ^ 32), Nat.mod_eq_of_lt (by omega), Nat.or_comm, mul_comm,
    Nat.add_comm, Nat.two_pow_add_eq_or_of_lt hlow]

/-! #### LOG -/

/-- Raising an entry and changing a lane are independent. -/
theorem raiseEntry_modLane (e : Entry) (l : Fin 16) (f : Lane → Lane) (s : State) :
    raiseEntry e (modLane l f s) = modLane l f (raiseEntry e s) := by
  unfold raiseEntry
  rw [modLane_evr]
  split_ifs
  · rfl
  · rfl
  · cases dropNewest s.evr.queue <;> rfl
  · rfl

theorem note_modLane (l : Fin 16) (c : BitVec 16) (src : BitVec 8) (p0 p1 p2 : Word) (f : Lane → Lane) (s : State) :
    note c src p0 p1 p2 (modLane l f s) = modLane l f (note c src p0 p1 p2 s) := raiseEntry_modLane _ l f s

theorem note_lanes (c : BitVec 16) (src : BitVec 8) (p0 p1 p2 : Word) (s : State) : (note c src p0 p1 p2 s).lanes = s.lanes := by
  obtain ⟨v, e⟩ := raiseEntry_only ⟨c, src, .note, false, p0, p1, p2, s.clk.cyc⟩ s
  rw [note, e]

/-- A change of a lane that forgets the one before. -/
theorem modLane_forgets (l : Fin 16) (f : Lane → Lane) (x : Lane) (s : State) :
    modLane l (fun _ => x) (modLane l f s) = modLane l (fun _ => x) s := by
  simp only [modLane, Vector.set_set]

theorem modLane_lane (l : Fin 16) (f : Lane → Lane) (s : State) : (modLane l f s).lanes[l.val] = f s.lanes[l.val] :=
  Vector.getElem_set_self _

/-- A lane that counts an entry before its stall ends counts it after. -/
theorem endStall_logs (s : State) (ln : Lane) (n d : Nat) :
    endStall s { ln with logs := n, logDrops := d } = { endStall s ln with logs := n, logDrops := d } := by
  cases h : ln.stallFrom <;> simp only [endStall, h]

/-- The lane after a bundle of LOG: the step is over, and nothing else happens on it. -/
theorem issueLane_log {l : Fin 16} {s : State} (t : Word) {x : Lane} (hx : x.repRun = .none) (pc : Nat) :
    issueLane s l (isOf pc 0x3F3 t) [(0x3F3, t)] x =
      let a := endStall s x
      { a with pc := pc + 1, lastPc := pc, lastMacro := false, slotsCur := if a.cls = 3 then a.slotsCur else a.slotsCur + 1
               step := a.step + 1, lastIssue := some s.clk.cyc } := by
  have hp := trigOf_sys (op := 0x13) (by decide)
  have other : ∀ v, v ≠ UnitId.sys → trigger [(0x3F3, t)] v = none := fun v hv => tr_other hp hv
  have hrep : (endStall s x).repRun = .none := (endStall_frame s x).2.1.trans hx
  have hunits : unitsPart s [(0x3F3, t)] x (endStall s x) = endStall s x := by
    rw [unitsPart_sys hp]
    simp only [runSys, tr_own hp]
  have hwrite : ∀ ln, writePort ln (0x3F3, t) = ln := writePort_trig hp
  have hrep' : repTrigger [(0x3F3, t)] = none := by
    simp only [repTrigger, isTransfer, other .ctl (by decide), other .rep (by decide), ite_self]
  unfold unitsPart at hunits
  simp only [issueLane, hunits, List.foldl_cons, List.foldl_nil, hwrite, runRep, hrep', runCtl, other .ctl (by decide), advance,
    isOf, hrep, countStep]
  rfl

theorem endStall_now_logs (l : Fin 16) (s : State) :
    (endStall s (laneNow l s)).logs = (s.lanes[l.val]).logs ∧ (endStall s (laneNow l s)).logDrops = (s.lanes[l.val]).logDrops := by
  obtain ⟨_, _, _, _, _, e⟩ := endStall_now l s
  rw [e]; exact ⟨rfl, rfl⟩

/-- The step of a bundle of LOG on its lane, from the counts that the lane holds to `n` and `d`. -/
def logStep (l : Fin 16) (s : State) (n d : Nat) : Lane :=
  afterStep s ((s.lanes[l.val]).pc + 1) (fun y => { y with logs := n, logDrops := d }) s.lanes[l.val]

theorem logStep_places (l : Fin 16) (s : State) : logStep l s ((s.lanes[l.val]).logs + 1) (s.lanes[l.val]).logDrops =
    afterStep s ((s.lanes[l.val]).pc + 1) (fun y => { y with logs := y.logs + 1 }) s.lanes[l.val] := by
  obtain ⟨hlogs, hdrops⟩ := endStall_now_logs l s
  rw [logStep, ← hlogs, ← hdrops]
  rfl

theorem logStep_drops (l : Fin 16) (s : State) : logStep l s (s.lanes[l.val]).logs ((s.lanes[l.val]).logDrops + 1) =
    afterStep s ((s.lanes[l.val]).pc + 1) (fun y => { y with logDrops := y.logDrops + 1 }) s.lanes[l.val] := by
  obtain ⟨hlogs, hdrops⟩ := endStall_now_logs l s
  rw [logStep, ← hlogs, ← hdrops]
  rfl

/-- A bundle of LOG: what it does to the state first, and then its step on the lane. -/
theorem log_issues {l : Fin 16} {s : State} (h : laneReady l s) (t : Word) {s' : State} {n d : Nat}
    (hlog : runLog l [(0x3F3, t)] (laneNow l s) s = s') (hn : (s'.lanes[l.val]).logs = n) (hd : (s'.lanes[l.val]).logDrops = d) :
    act (issueTrigger l 0x3F3 t) s = .next (settle (modLane l (fun _ => logStep l s n d) s')) := by
  subst hn hd
  have hp := trigOf_sys (op := 0x13) (by decide)
  have hctl : trigger [(0x3F3, t)] .ctl = none := tr_other hp (by decide)
  obtain ⟨hstall, hfault⟩ := sys_fault h (op := 0x13) (by decide) t
  have hbatons : ctlBatons l [(0x3F3, t)] (laneNow l s) (s.lanes[l.val]).pc s = s := by simp only [ctlBatons, hctl]
  have hlane := issueLane_log (s := s) (l := l) t (x := { laneNow l s with logs := (s'.lanes[l.val]).logs, logDrops := (s'.lanes[l.val]).logDrops })
    ((now_frame l s).2.1.trans h.2.2.1) (s.lanes[l.val]).pc
  rw [act_powered _ h.1, issueTrigger_ready h 0x3F3 t hstall hfault]
  simp only [hbatons, hlog, hctl, Option.any_none, Bool.false_eq_true, if_false]
  rw [hlane, endStall_logs]
  rfl

/-- What LOG does to the state before its step on the lane: an entry, or one more that is dropped (R114). -/
theorem runLog_places {l : Fin 16} {s : State} (t : Word) (hfew : (laneNow l s).logs < 4) : let u := unitNow l .sys s
    runLog l [(0x3F3, t)] (laneNow l s) s = note (BitVec.ofNat 16 (0xE000 + t.toNat % 4096)) (BitVec.ofNat 8 l.val) u.o1 u.o2 u.o3
      (modLane l (fun ln => { ln with logs := ln.logs + 1 }) s) := by
  have htrig : isTrig .sys 0x13 = true := rfl
  obtain ⟨h1, h2, h3⟩ := opnd_trigger (l := l) (s := s) htrig t .sys
  rw [runLog, tr_own (trigOf_sys (op := 0x13) (by decide))]
  exact (if_pos hfew).trans (by rw [← h1, ← h2, ← h3]; rfl)

theorem runLog_drops {l : Fin 16} {s : State} (t : Word) (hmany : 4 ≤ (laneNow l s).logs) :
    runLog l [(0x3F3, t)] (laneNow l s) s = modLane l (fun ln => { ln with logDrops := ln.logDrops + 1 }) s := by
  rw [runLog, tr_own (trigOf_sys (op := 0x13) (by decide))]
  exact if_neg (by omega)

/-- Settles O14: EVW and the times are results of `runSys`; LOG places its entry, or counts it as dropped, and its step follows. -/
theorem sysUnit : Obligations.SysUnit := by
  intro l t s h ln u time
  have htime : ∀ nt flags, (⟨w (nt % ntSec / ntNs), w (nt / ntSec), timeQ3 nt flags, 0, 0⟩ : OpRes) = time nt flags := by
    intro nt flags
    rw [timeQ3_eq]
    rfl
  obtain ⟨hlogs, hdrops⟩ := now_logs l s
  have hlog : exec (.log l t) s = act (issueTrigger l 0x3F3 t) s := rfl
  refine ⟨sys_issues (op := 0x10) h (by decide) t fun x => ?_, sys_issues (op := 0x11) h (by decide) t fun x => ?_,
    sys_issues (op := 0x12) h (by decide) t fun x => ?_, fun hfew => ?_, fun hmany => ?_⟩
  · simp only [runSys, tr_own (trigOf_sys (op := 0x10) (by decide))]
    rfl
  · rw [← htime]
    simp only [runSys, tr_own (trigOf_sys (op := 0x11) (by decide))]
  · rw [← htime]
    simp only [runSys, tr_own (trigOf_sys (op := 0x12) (by decide))]
    rfl
  · have hlane : ((note (BitVec.ofNat 16 (0xE000 + t.toNat % 4096)) (BitVec.ofNat 8 l.val) u.o1 u.o2 u.o3
        (modLane l (fun x => { x with logs := x.logs + 1 }) s)).lanes[l.val]) = { ln with logs := ln.logs + 1 } := by
      rw [note_modLane, modLane_lane, note_lanes]
    rw [hlog, log_issues h t (runLog_places t (hlogs ▸ hfew)) (congrArg Lane.logs hlane) (congrArg Lane.logDrops hlane),
      note_modLane, modLane_forgets, ← note_modLane, logStep_places]
    rfl
  · have hlane := modLane_lane l (fun x => { x with logDrops := x.logDrops + 1 }) s
    rw [hlog, log_issues h t (runLog_drops t (hlogs ▸ hmany)) (congrArg Lane.logs hlane) (congrArg Lane.logDrops hlane),
      modLane_forgets, logStep_drops]
    rfl

end Sys2Proof.Proofs

/-! ### A trigger of CTL or REP, and the step it ends (R62, R68, R77, R79, R123) -/
namespace Sys2Proof.Proofs

open Sys2Proof Sys2Proof.Machine Sys2Proof.Safety Sys2Proof.Laws

/-! #### No stall, and what can fault -/

theorem stalls_single {p : Nat} {u : UnitId} {op : Nat} (hp : trigOf p = some (u, op)) (hlsu : u ≠ .lsu) (himg : u ≠ .img)
    (t : Word) (ln : Lane) : stalls ln [mvOf p t] [(p, t)] = false := by
  have hshared : startsShared (mvOf p t) = false := by
    simp only [startsShared, mvOf, hp]
    cases u <;> simp at hlsu himg ⊢
  have hneeds : slotsNeeded ln [mvOf p t] [(p, t)] = [] := by
    simp [slotsNeeded, mvOf, tr_other hp hlsu.symm, tr_other hp himg.symm]
  rw [stalls, hneeds, List.any_cons, hshared]
  rfl

theorem atFault_dueTrap (l : Fin 16) (s : State) : dueTrap (atFault l s) = dueTrap s.lanes[l.val] := by
  obtain ⟨_, _, _, e⟩ := laneNow_only l s
  rw [atFault, e]; rfl

theorem atFault_control (l : Fin 16) (s : State) :
    (atFault l s).rstack = (s.lanes[l.val]).rstack ∧ (atFault l s).cls = (s.lanes[l.val]).cls := by
  obtain ⟨_, _, _, e⟩ := laneNow_only l s
  rw [atFault, e]; exact ⟨rfl, rfl⟩

/-- The lane of a step keeps its return stack, its expansion and its class until an operation changes them. -/
theorem endStall_now_control (l : Fin 16) (s : State) :
    let a := endStall s (laneNow l s)
    let ln := s.lanes[l.val]
    a.rstack = ln.rstack ∧ a.mac = ln.mac ∧ a.cls = ln.cls := by
  obtain ⟨_, _, _, _, _, e⟩ := endStall_now l s
  rw [e]; exact ⟨rfl, rfl, rfl⟩

theorem laneNow_cls (l : Fin 16) (s : State) : (laneNow l s).cls = (s.lanes[l.val]).cls := by
  obtain ⟨_, _, _, e⟩ := laneNow_only l s
  rw [e]

/-! #### The lane after the units -/

/-- The lane that has issued the bundle at `pc`: it is the last one, with one slot. -/
def bundleShown (pc : Nat) (a : Lane) : Lane :=
  { a with lastPc := pc, lastMacro := false, slotsCur := if a.cls = 3 then a.slotsCur else a.slotsCur + 1 }

/-- The lane as its transfer or wait acts on it: the next bundle follows the one at `pc`. -/
def pastBundle (pc : Nat) (a : Lane) : Lane := { bundleShown pc a with pc := pc + 1 }

/-- The other units do nothing in a bundle of one trigger of CTL or REP. -/
theorem unitsPart_none {p : Nat} {u : UnitId} {op : Nat} (hp : trigOf p = some (u, op)) (hu : u = .ctl ∨ u = .rep) (t : Word)
    (s : State) (now ln : Lane) : unitsPart s [(p, t)] now ln = ln := by
  have tr : ∀ v, v ≠ u → trigger [(p, t)] v = none := fun v hv => tr_other hp hv
  obtain rfl | rfl := hu <;> simp [unitsPart, runArith, onTrigger, runStack, runLsu, runImg, runSys, tr]

theorem runLog_none {p : Nat} {u : UnitId} {op : Nat} (hp : trigOf p = some (u, op)) (hu : u ≠ .sys) (l : Fin 16) (t : Word)
    (ln : Lane) (s : State) : runLog l [(p, t)] ln s = s := by
  rw [runLog, tr_other hp hu.symm]

/-- Outside a repetition the bundle at `pc` is followed by the next one (R52). -/
theorem advance_single {a : Lane} (h : a.repRun = .none) (pc p : Nat) (t : Word) :
    advance (isOf pc p t) a = { a with pc := pc + 1 } := by
  simp only [advance, isOf, h]

theorem issueLane_ctl {p op : Nat} (hp : trigOf p = some (.ctl, op)) {x : Lane} (hx : x.repRun = .none) (s : State) (l : Fin 16)
    (t : Word) (pc : Nat) : issueLane s l (isOf pc p t) [(p, t)] x =
      countStep s (runCtl s l (isOf pc p t) [(p, t)] (pastBundle pc (endStall s x))) := by
  have hunits := unitsPart_none hp (.inl rfl) t s x (endStall s x)
  have hrep : repTrigger [(p, t)] = none := by
    simp only [repTrigger, tr_other hp (show UnitId.rep ≠ .ctl by decide), ite_self]
  have hrun : (endStall s x).repRun = .none := (endStall_frame s x).2.1.trans hx
  unfold unitsPart at hunits
  simp only [issueLane, hunits, List.foldl_cons, List.foldl_nil, writePort_trig hp, runRep, hrep]
  exact congrArg (fun a => countStep s (runCtl s l (isOf pc p t) [(p, t)] a)) (advance_single (a := bundleShown pc (endStall s x)) hrun pc p t)

/-! #### Batons taken leave the lane itself alone -/

/-- The takes of lanes above. -/
theorem mem_takenAbove {s : State} {l n : Nat} {t : BatonTake} :
    t ∈ takenAbove s l n ↔ t ∈ s.ln.takes ∧ t.baton = n ∧ t.cyc = s.clk.cyc ∧ l < t.lane := by
  simp [takenAbove, and_assoc]

/-- The highest take of a list is one of it, and no lane of the list is higher. -/
theorem highestTake_spec {ts : List BatonTake} {t : BatonTake} (h : highestTake ts = some t) :
    t ∈ ts ∧ ∀ u ∈ ts, u.lane ≤ t.lane := by
  induction ts generalizing t with
  | nil => cases h
  | cons a ts ih =>
    rw [highestTake] at h
    cases hrest : highestTake ts with
    | none =>
      have hnil : ts = [] := by
        cases ts with
        | nil => rfl
        | cons b bs => rw [highestTake] at hrest; split at hrest <;> cases hrest
      rw [hrest] at h
      cases h
      simp [hnil]
    | some u =>
      obtain ⟨hu, hmax⟩ := ih hrest
      rw [hrest] at h
      simp only [Option.some.injEq] at h
      subst h
      split_ifs with hlt
      · exact ⟨List.mem_cons_of_mem _ hu, List.forall_mem_cons.mpr ⟨by omega, hmax⟩⟩
      · exact ⟨List.mem_cons_self, List.forall_mem_cons.mpr ⟨le_rfl, fun x hx => (hmax x hx).trans (by omega)⟩⟩

theorem highestTake_isSome {ts : List BatonTake} (h : ts ≠ []) : ∃ t, highestTake ts = some t := by
  cases ts with
  | nil => exact absurd rfl h
  | cons a ts => rw [highestTake]; split <;> exact ⟨_, rfl⟩

theorem takeBaton_lane (l : Fin 16) (n : Nat) (tryw : Bool) (d : Option Nat) (s : State) :
    (takeBaton l.val n tryw d s).lanes[l.val] = s.lanes[l.val] := by
  unfold takeBaton
  dsimp only
  split
  · rfl
  · split
    next t ht =>
      have habove := (mem_takenAbove.mp (highestTake_spec ht).1).2.2.2
      show (vmod s.lanes t.lane _)[l.val] = _
      unfold vmod
      split
      · exact Vector.getElem_set_ne _ _ (by omega)
      · rfl
    next => rfl

theorem ctlBatons_lane (l : Fin 16) (vs : Vals) (ln : Lane) (pc : Nat) (s : State) :
    (ctlBatons l vs ln pc s).lanes[l.val] = s.lanes[l.val] := by
  unfold ctlBatons
  dsimp only
  split
  · rfl
  · split_ifs
    · exact takeBaton_lane ..
    · rfl
    · rfl
    · rfl

/-! #### The bundle of one trigger of CTL -/

theorem trigOf_ctl {op : Nat} (hop : 0x10 ≤ op ∧ op ≤ 0x18) : trigOf (0x380 + op) = some (.ctl, op) :=
  (trigPort (u := .ctl) (by simpa [isTrig] using hop)).1

/-- The lane after the trigger of CTL of a step. -/
def ctlLane (l : Fin 16) (op : Nat) (t : Word) (s : State) : Lane :=
  let pc := (s.lanes[l.val]).pc
  countStep s (runCtl s l (isOf pc (0x380 + op) t) [(0x380 + op, t)] (pastBundle pc (endStall s (laneNow l s))))

/-- The state beside that lane: batons taken and posts held back. -/
def ctlBeside (l : Fin 16) (op : Nat) (t : Word) (s : State) : State :=
  ctlBatons l [(0x380 + op, t)] (laneNow l s) (s.lanes[l.val]).pc s

section Ctl
variable {l : Fin 16} {s : State} {op : Nat}

theorem ctl_fault (h : laneReady l s) (hop : 0x10 ≤ op ∧ op ≤ 0x18) (t : Word) :
    stepFault s l (atFault l s) (isOf (s.lanes[l.val]).pc (0x380 + op) t) [(0x380 + op, t)] false =
      firstFault [returnFault (atFault l s) [(0x380 + op, t)], stackFault (atFault l s) [(0x380 + op, t)],
        waitFault s l (atFault l s) (isOf (s.lanes[l.val]).pc (0x380 + op) t) [(0x380 + op, t)]] := by
  have hp := trigOf_ctl hop
  have hprotect : protectFault s l (atFault l s) [(0x380 + op, t)] = none := by
    simp only [protectFault, tr_other hp (show UnitId.lsu ≠ .ctl by decide), tr_other hp (show UnitId.img ≠ .ctl by decide)]
  have hd : dstOk (0x380 + op) = true := (trigPort (u := .ctl) (by simpa [isTrig] using hop)).2
  rw [stepFault_one h hd, hprotect]
  rfl

/-- A trigger of CTL that does not fault: the lane follows `ctlLane`; END may find a bad timetable entry (R18). -/
theorem ctl_issues (h : laneReady l s) (hop : 0x10 ≤ op ∧ op ≤ 0x18) (t : Word)
    (hf : stepFault s l (atFault l s) (isOf (s.lanes[l.val]).pc (0x380 + op) t) [(0x380 + op, t)] false = none) :
    act (issueTrigger l (0x380 + op) t) s = .next (settle (
      let u := modLane l (fun _ => ctlLane l op t s) (ctlBeside l op t s)
      if op = 0x14 then entryDoubt l.val (entryAfter s l.val (laneNow l s)) u else u)) := by
  have hp := trigOf_ctl hop
  obtain ⟨hlogs, hdrops⟩ := now_logs l s
  have hlane : ∀ ln pc, (ctlBatons l [(0x380 + op, t)] ln pc s).lanes[l.val] = s.lanes[l.val] := fun _ _ => ctlBatons_lane ..
  have hrep : (laneNow l s).repRun = .none := (now_frame l s).2.1.trans h.2.2.1
  rw [act_powered _ h.1, issueTrigger_ready h _ t (stalls_single hp (by decide) (by decide) t _) hf]
  simp only [runLog_none hp (by decide), hlane, hlogs, hdrops, tr_own hp, Option.any_some, beq_iff_eq]
  rw [issueLane_ctl hp hrep]
  rfl

theorem ctl_faults (h : laneReady l s) (h1 : s.sys.latched = false) (h2 : inPlinth s = false) (h3 : s.ln.fault.valid = false)
    (hop : 0x10 ≤ op ∧ op ≤ 0x18) {t : Word} {f : LFault}
    (hf : stepFault s l (atFault l s) (isOf (s.lanes[l.val]).pc (0x380 + op) t) [(0x380 + op, t)] false = some f) :
    laneFaults l f.code f.arg (s.lanes[l.val]).pc s (act (issueTrigger l (0x380 + op) t) s) := by
  rw [issueTrigger_fault h _ t f (stalls_single (trigOf_ctl hop) (by decide) (by decide) t _) hf]
  exact laneFault_first l f _ false s h1 h2 h3

/-- A trigger of CTL that goes on at bundle `pc` with `f` as its effect. -/
theorem ctl_jumps (h : laneReady l s) (hop : 0x10 ≤ op ∧ op ≤ 0x18) (t : Word) (hend : op ≠ 0x14) {f : Lane → Lane} {pc : Nat}
    (hf : stepFault s l (atFault l s) (isOf (s.lanes[l.val]).pc (0x380 + op) t) [(0x380 + op, t)] false = none)
    (hrun : runCtl s l (isOf (s.lanes[l.val]).pc (0x380 + op) t) [(0x380 + op, t)]
      (pastBundle (s.lanes[l.val]).pc (endStall s (laneNow l s))) =
        { pastBundle (s.lanes[l.val]).pc (f (endStall s (laneNow l s))) with pc := pc }) :
    act (issueTrigger l (0x380 + op) t) s = .next (settle (modLane l (fun _ => afterStep s pc f s.lanes[l.val])
      (ctlBeside l op t s))) := by
  rw [ctl_issues h hop t hf]
  simp only [if_neg hend, ctlLane, hrun]
  rfl

theorem ctlBeside_quiet (hop : 0x10 ≤ op ∧ op ≤ 0x18) (hquiet : op ∉ [0x15, 0x16, 0x17]) (t : Word) : ctlBeside l op t s = s := by
  simp only [List.mem_cons, List.not_mem_nil, or_false, not_or] at hquiet
  obtain ⟨h5, h6, h7⟩ := hquiet
  simp only [ctlBeside, ctlBatons, tr_own (trigOf_ctl hop), h5, h6, h7, or_self, if_false]

end Ctl

end Sys2Proof.Proofs

/-! ### O15: transfers, the return stack and END (R18, R44, R76, R116, R117, R119, R120, R126) -/
namespace Sys2Proof.Proofs

open Sys2Proof Sys2Proof.Machine Sys2Proof.Safety Sys2Proof.Laws

section Transfers
variable {l : Fin 16} {s : State} {op : Nat}

/-! #### What a transfer can fault with (R77, R126) -/

theorem returnFault_ctl (hop : 0x10 ≤ op ∧ op ≤ 0x18) (t : Word) (ln : Lane) : returnFault ln [(0x380 + op, t)] =
    match ln.rstack with
    | [] => none
    | e :: _ => if op = 0x13 ∧ !e.parityOk then some ⟨0x100C, w ln.rstack.length, none⟩ else none := by
  unfold returnFault
  rw [tr_own (trigOf_ctl hop)]
  cases ln.rstack <;> rfl

theorem stackFault_ctl (hop : 0x10 ≤ op ∧ op ≤ 0x18) (t : Word) (ln : Lane) : stackFault ln [(0x380 + op, t)] =
    if op = 0x12 ∧ 64 ≤ ln.rstack.length then some ⟨0x1004, 64, none⟩
    else if op = 0x13 ∧ ln.rstack = [] then some ⟨0x1005, 0, none⟩ else none := by
  have hp := trigOf_ctl hop
  simp only [stackFault, tr_own hp, tr_other hp (show UnitId.dsk ≠ .ctl by decide)]

theorem waitFault_none (hop : 0x10 ≤ op ∧ op ≤ 0x18) (h : op ≠ 0x15) (t : Word) (ln : Lane) (is : Issue) :
    waitFault s l ln is [(0x380 + op, t)] = none := by
  simp only [waitFault, tr_own (trigOf_ctl hop), h, false_and, if_false]

/-- A trigger of CTL that is neither CALL, RET nor WAIT never faults. -/
theorem ctl_sound (h : laneReady l s) (hop : 0x10 ≤ op ∧ op ≤ 0x18) (hquiet : op ∉ [0x12, 0x13, 0x15]) (t : Word) :
    stepFault s l (atFault l s) (isOf (s.lanes[l.val]).pc (0x380 + op) t) [(0x380 + op, t)] false = none := by
  simp only [List.mem_cons, List.not_mem_nil, or_false, not_or] at hquiet
  obtain ⟨h2, h3, h5⟩ := hquiet
  rw [ctl_fault h hop, returnFault_ctl hop, stackFault_ctl hop, waitFault_none hop h5]
  simp only [h2, h3, false_and, if_false]
  cases (atFault l s).rstack <;> rfl

theorem call_fault (h : laneReady l s) (t : Word) :
    stepFault s l (atFault l s) (isOf (s.lanes[l.val]).pc 0x392 t) [(0x392, t)] false =
      if 64 ≤ (s.lanes[l.val]).rstack.length then some ⟨0x1004, 64, none⟩ else none := by
  have hop : 0x10 ≤ 0x12 ∧ 0x12 ≤ 0x18 := by decide
  rw [ctl_fault h hop, returnFault_ctl hop, stackFault_ctl hop, waitFault_none hop (by decide), (atFault_control l s).1]
  by_cases hdeep : 64 ≤ (s.lanes[l.val]).rstack.length
  · rw [if_pos ⟨rfl, hdeep⟩, if_pos hdeep]
    cases (s.lanes[l.val]).rstack <;> rfl
  · rw [if_neg (fun e => hdeep e.2), if_neg hdeep]
    cases (s.lanes[l.val]).rstack <;> rfl

theorem ret_fault_empty (h : laneReady l s) (t : Word) (hr : (s.lanes[l.val]).rstack = []) :
    stepFault s l (atFault l s) (isOf (s.lanes[l.val]).pc 0x393 t) [(0x393, t)] false = some ⟨0x1005, 0, none⟩ := by
  have hop : 0x10 ≤ 0x13 ∧ 0x13 ≤ 0x18 := by decide
  rw [ctl_fault h hop, returnFault_ctl hop, stackFault_ctl hop, waitFault_none hop (by decide), (atFault_control l s).1, hr]
  rfl

/-- RET of an entry faults exactly by its parity, with the depth before the pop. -/
theorem ret_fault (h : laneReady l s) (t : Word) {e : RetEntry} {r : List RetEntry} (hr : (s.lanes[l.val]).rstack = e :: r) :
    stepFault s l (atFault l s) (isOf (s.lanes[l.val]).pc 0x393 t) [(0x393, t)] false =
      if e.parityOk = true then none else some ⟨0x100C, w (s.lanes[l.val]).rstack.length, none⟩ := by
  have hop : 0x10 ≤ 0x13 ∧ 0x13 ≤ 0x18 := by decide
  rw [ctl_fault h hop, returnFault_ctl hop, stackFault_ctl hop, waitFault_none hop (by decide), (atFault_control l s).1, hr]
  cases hpar : e.parityOk <;> simp [firstFault, hpar]

/-! #### The transfers on the lane (R117) -/

/-- A trigger of CTL that changes the lane alone. -/
theorem ctl_transfers (h : laneReady l s) (hop : 0x10 ≤ op ∧ op ≤ 0x18) (hquiet : op ∉ [0x14, 0x15, 0x16, 0x17]) (t : Word)
    {f : Lane → Lane} {pc : Nat}
    (hf : stepFault s l (atFault l s) (isOf (s.lanes[l.val]).pc (0x380 + op) t) [(0x380 + op, t)] false = none)
    (hrun : ∀ a : Lane, a.mac = none → a.rstack = (s.lanes[l.val]).rstack →
      runCtl s l (isOf (s.lanes[l.val]).pc (0x380 + op) t) [(0x380 + op, t)] (pastBundle (s.lanes[l.val]).pc a) =
        { pastBundle (s.lanes[l.val]).pc (f a) with pc := pc }) :
    act (issueTrigger l (0x380 + op) t) s = .next (laneJump l pc f s) := by
  obtain ⟨hstack, hmac, -⟩ := endStall_now_control l s
  simp only [List.mem_cons, not_or] at hquiet
  rw [ctl_jumps h hop t hquiet.1 hf (hrun _ (hmac.trans h.2.2.2.1) hstack), ctlBeside_quiet hop (by simp only [List.mem_cons, not_or]; exact hquiet.2)]
  rfl

theorem runCtl_jmp (t : Word) (pc : Nat) (a : Lane) :
    runCtl s l (isOf pc 0x390 t) [(0x390, t)] a = { a with pc := t.toNat, mac := none } := by
  simp only [runCtl, tr_own (trigOf_ctl (op := 0x10) (by decide))]

theorem runCtl_jmpr (t : Word) (pc : Nat) (a : Lane) :
    runCtl s l (isOf pc 0x391 t) [(0x391, t)] a = { a with pc := (pc + t.toNat) % 2 ^ 32, mac := none } := by
  have htarget : (BitVec.ofNat 32 pc + t).toNat = (pc + t.toNat) % 2 ^ 32 := by
    rw [BitVec.toNat_add, BitVec.toNat_ofNat, Nat.mod_add_mod]
  rw [← htarget]
  simp only [runCtl, tr_own (trigOf_ctl (op := 0x11) (by decide)), isOf]

theorem runCtl_call (t : Word) (pc : Nat) (a : Lane) : runCtl s l (isOf pc 0x392 t) [(0x392, t)] a =
    { a with pc := t.toNat, mac := none, rstack := ⟨pc + 1, true⟩ :: a.rstack } := by
  simp only [runCtl, tr_own (trigOf_ctl (op := 0x12) (by decide)), isOf]

theorem runCtl_ret (t : Word) (pc : Nat) {a : Lane} {e : RetEntry} {r : List RetEntry} (h : a.rstack = e :: r) :
    runCtl s l (isOf pc 0x393 t) [(0x393, t)] a = { a with pc := e.index, mac := none, rstack := r } := by
  simp only [runCtl, tr_own (trigOf_ctl (op := 0x13) (by decide)), h]

theorem runCtl_rdepth (t : Word) (pc : Nat) (a : Lane) : runCtl s l (isOf pc 0x398 t) [(0x398, t)] a =
    startOp .ctl 1 (res1 (w a.rstack.length) 0) 0 a := by
  simp only [runCtl, tr_own (trigOf_ctl (op := 0x18) (by decide))]

/-- Where a transfer goes: a lane outside an expansion keeps all but its place and its return stack. -/
theorem pastBundle_transfer {a : Lane} (h : a.mac = none) (pc target : Nat) (stack : List RetEntry) :
    { pastBundle pc a with pc := target, mac := none, rstack := stack } =
      { pastBundle pc { a with rstack := stack } with pc := target } := by
  rw [← h]; rfl

/-- An operation that starts leaves the lane's place alone. -/
theorem pastBundle_startOp (u : UnitId) (lat : Nat) (r : OpRes) (pred pc : Nat) (a : Lane) :
    startOp u lat r pred (pastBundle pc a) = { pastBundle pc (startOp u lat r pred a) with pc := pc + 1 } := rfl

/-! #### The rows, one by one -/

theorem exec_jmp (h : laneReady l s) (t : Word) : exec (.jmp l t) s = .next (laneJump l t.toNat id s) :=
  ctl_transfers (op := 0x10) h (by decide) (by decide) t (ctl_sound h (by decide) (by decide) t) fun a hm _ => by
    rw [runCtl_jmp]
    exact pastBundle_transfer hm _ _ _

theorem exec_jmpr (h : laneReady l s) (t : Word) :
    exec (.jmpr l t) s = .next (laneJump l (((s.lanes[l.val]).pc + t.toNat) % 2 ^ 32) id s) :=
  ctl_transfers (op := 0x11) h (by decide) (by decide) t (ctl_sound h (by decide) (by decide) t) fun a hm _ => by
    rw [runCtl_jmpr]
    exact pastBundle_transfer hm _ _ _

theorem exec_call (h : laneReady l s) (t : Word) (hlt : (s.lanes[l.val]).rstack.length < 64) : exec (.call l t) s =
    .next (laneJump l t.toNat (fun x => { x with rstack := ⟨(s.lanes[l.val]).pc + 1, true⟩ :: (s.lanes[l.val]).rstack }) s) :=
  ctl_transfers (op := 0x12) h (by decide) (by decide) t ((call_fault h t).trans (if_neg (Nat.not_le.mpr hlt)))
    fun a hm hstack => by
      rw [runCtl_call, show (pastBundle _ a).rstack = (s.lanes[l.val]).rstack from hstack]
      exact pastBundle_transfer hm _ _ _

theorem exec_ret (h : laneReady l s) (t : Word) {e : RetEntry} {r : List RetEntry} (hr : (s.lanes[l.val]).rstack = e :: r)
    (hpar : e.parityOk = true) : exec (.ret l t) s = .next (laneJump l e.index (fun x => { x with rstack := r }) s) :=
  ctl_transfers (op := 0x13) h (by decide) (by decide) t ((ret_fault h t hr).trans (if_pos hpar)) fun a hm hstack => by
    rw [runCtl_ret t _ (show (pastBundle _ a).rstack = e :: r from hstack.trans hr)]
    exact pastBundle_transfer hm _ _ _

theorem exec_rdepth (h : laneReady l s) (t : Word) :
    exec (.rdepth l t) s = .next (starts l .ctl 1 ⟨w (s.lanes[l.val]).rstack.length, 0, 0, 0, 0⟩ s) :=
  ctl_transfers (op := 0x18) h (by decide) (by decide) t (f := startOp .ctl 1 (res1 (w (s.lanes[l.val]).rstack.length) 0) 0)
    (pc := (s.lanes[l.val]).pc + 1) (ctl_sound h (by decide) (by decide) t) fun a _ hstack => by
      rw [runCtl_rdepth, show (pastBundle _ a).rstack = (s.lanes[l.val]).rstack from hstack]
      exact pastBundle_startOp _ _ _ _ _ _

theorem call_overflows (h : laneReady l s) (h1 : s.sys.latched = false) (h2 : inPlinth s = false) (h3 : s.ln.fault.valid = false)
    (t : Word) (hge : 64 ≤ (s.lanes[l.val]).rstack.length) :
    laneFaults l 0x1004 64 (s.lanes[l.val]).pc s (exec (.call l t) s) :=
  ctl_faults h h1 h2 h3 (op := 0x12) (by decide) (f := ⟨0x1004, 64, none⟩) ((call_fault h t).trans (if_pos hge))

theorem ret_underflows (h : laneReady l s) (h1 : s.sys.latched = false) (h2 : inPlinth s = false) (h3 : s.ln.fault.valid = false)
    (t : Word) (hr : (s.lanes[l.val]).rstack = []) : laneFaults l 0x1005 0 (s.lanes[l.val]).pc s (exec (.ret l t) s) :=
  ctl_faults h h1 h2 h3 (op := 0x13) (by decide) (f := ⟨0x1005, 0, none⟩) (ret_fault_empty h t hr)

theorem ret_badParity (h : laneReady l s) (h1 : s.sys.latched = false) (h2 : inPlinth s = false) (h3 : s.ln.fault.valid = false)
    (t : Word) {e : RetEntry} {r : List RetEntry} (hr : (s.lanes[l.val]).rstack = e :: r) (hpar : e.parityOk = false) :
    laneFaults l 0x100C (w (s.lanes[l.val]).rstack.length) (s.lanes[l.val]).pc s (exec (.ret l t) s) :=
  ctl_faults h h1 h2 h3 (op := 0x13) (by decide) (f := ⟨0x100C, w (s.lanes[l.val]).rstack.length, none⟩)
    ((ret_fault h t hr).trans (if_neg (by simp [hpar])))

end Transfers

/-! #### END of a segment (R44, R119, R120) -/

section Segments
variable {l : Fin 16} {s : State} {a : Lane} {p : Placed}

/-- The lane that END leaves its segment with: empty return stack, no expansion and no repetition. -/
def segmentLeft (a : Lane) : Lane := { a with rstack := [], mac := none, repRun := .none }

/-- The lane that has signalled frame-end, if the guard cycle has not come (R44). -/
def frameEnded (s : State) (a : Lane) : Lane := if s.clk.tickph < guardCyc s then { a with frameEnd := some s.clk.tickph } else a

theorem endSegment_background (h : a.cls = 3) : endSegment s l a = match (background s l.val)[a.bgPos + 1]? with
    | some p => { startSegment p (a.bgPos + 1) (segmentLeft a) with mode := .bg }
    | none => { segmentLeft a with mode := .done } := if_pos h

theorem endSegment_scheduled (h : a.cls ≠ 3) : endSegment s l a = match (schedule s l.val)[a.schedPos + 1]? with
    | some p => startOrWait s p (a.schedPos + 1) (segmentLeft a)
    | none => enterBg s l.val (frameEnded s (segmentLeft a)) := if_neg h

/-- What the end of a segment leaves alone: data stacks, scratch, edge cells and the count of steps; where no saved context
comes back, the return stack stays empty and the last bundle is the one of END. -/
structure EndKeeps (a b : Lane) : Prop where
  dsp : b.dsp = a.dsp
  bgDsp : b.bgDsp = a.bgDsp
  scratch : b.scratch = a.scratch
  edges : b.edges = a.edges
  step : b.step = a.step
  stack : a.bgSaved = none → b.rstack = [] ∧ b.lastPc = a.lastPc

theorem enterBg_keeps (s : State) (n : Nat) {a : Lane} (h : a.rstack = []) : EndKeeps a (enterBg s n a) := by
  unfold enterBg
  split
  next b hb => exact ⟨rfl, rfl, rfl, rfl, rfl, fun e => by rw [e] at hb; cases hb⟩
  next =>
    split
    · exact ⟨rfl, rfl, rfl, rfl, rfl, fun _ => ⟨rfl, rfl⟩⟩
    · exact ⟨rfl, rfl, rfl, rfl, rfl, fun _ => ⟨h, rfl⟩⟩

theorem endSegment_keeps (s : State) (l : Fin 16) (a : Lane) : EndKeeps a (endSegment s l a) := by
  by_cases hcls : a.cls = 3
  · rw [endSegment_background hcls]
    split <;> exact ⟨rfl, rfl, rfl, rfl, rfl, fun _ => ⟨rfl, rfl⟩⟩
  · rw [endSegment_scheduled hcls]
    split
    · unfold startOrWait
      split <;> exact ⟨rfl, rfl, rfl, rfl, rfl, fun _ => ⟨rfl, rfl⟩⟩
    · unfold frameEnded
      split_ifs
      · obtain ⟨h1, h2, h3, h4, h5, h6⟩ := enterBg_keeps s l.val (a := { segmentLeft a with frameEnd := some s.clk.tickph }) rfl
        exact ⟨h1, h2, h3, h4, h5, h6⟩
      · obtain ⟨h1, h2, h3, h4, h5, h6⟩ := enterBg_keeps s l.val (a := segmentLeft a) rfl
        exact ⟨h1, h2, h3, h4, h5, h6⟩

/-- A segment of the schedule is no BACKGROUND segment. -/
theorem schedule_cls {n i : Nat} (h : (schedule s n)[i]? = some p) : p.cls ≠ 3 := by
  have hmem := List.mem_of_getElem? h
  unfold schedule at hmem
  split at hmem
  · cases hmem
  · have hphase := (List.mem_filter.mp hmem).2
    intro h3
    simp [inPhase, h3] at hphase

/-- The scheduled segment that a lane goes on to. -/
theorem startOrWait_starts (pos : Nat) (hp : p.cls ≠ 3) (a : Lane) : let new := startOrWait s p pos a
    new.pc = p.first ∧ new.cls = p.cls ∧ new.segId = p.segId ∧ new.trap = w p.trap &&& 0x50#32 ∧ new.schedPos = pos
    ∧ new.frameEnd = a.frameEnd
    ∧ (if s.clk.tickph < p.start then new.mode = .wait ∧ new.wait = .start p.start else new.mode = .sched) := by
  have hpos : (startSegment p pos a).schedPos = pos := if_neg hp
  intro new
  by_cases hlt : s.clk.tickph < p.start
  · have hnew : new = { startSegment p pos a with mode := .wait, wait := .start p.start } := if_pos hlt
    rw [hnew, if_pos hlt]
    exact ⟨rfl, rfl, rfl, rfl, hpos, rfl, rfl, rfl⟩
  · have hnew : new = { startSegment p pos a with mode := .sched, wait := .none } := if_neg hlt
    rw [hnew, if_neg hlt]
    exact ⟨rfl, rfl, rfl, rfl, hpos, rfl, rfl⟩

theorem enterBg_frameEnd (s : State) (n : Nat) (a : Lane) : (enterBg s n a).frameEnd = a.frameEnd := by
  unfold enterBg
  split
  · rfl
  · split <;> rfl

theorem enterBg_done {n : Nat} (hs : a.bgSaved = none) (hb : background s n = []) : (enterBg s n a).mode = .done := by
  simp only [enterBg, hs, hb]

theorem enterBg_first {n : Nat} {r : List Placed} (hs : a.bgSaved = none) (hb : background s n = p :: r) :
    (enterBg s n a).mode = .bg ∧ (enterBg s n a).pc = p.first ∧ (enterBg s n a).cls = p.cls := by
  have hnew : enterBg s n a = { startSegment p 0 a with mode := .bg, wait := .none, rstack := [] } := by
    simp only [enterBg, hs, hb]
  rw [hnew]
  exact ⟨rfl, rfl, rfl⟩

theorem frameEnded_frameEnd (s : State) (a : Lane) :
    (frameEnded s a).frameEnd = (if s.clk.tickph < guardCyc s then some s.clk.tickph else a.frameEnd)
    ∧ (frameEnded s a).bgSaved = a.bgSaved := by
  unfold frameEnded
  split_ifs <;> exact ⟨rfl, rfl⟩

/-! #### The row END -/

/-- The lane as END acts on it. -/
def atEnd (l : Fin 16) (s : State) : Lane := pastBundle (s.lanes[l.val]).pc (endStall s (laneNow l s))

theorem atEnd_only (l : Fin 16) (s : State) : ∃ i u p a b n, atEnd l s = { s.lanes[l.val] with
    inflight := i, units := u, p := p, stallFrom := a, stallCur := b, slotsCur := n
    pc := (s.lanes[l.val]).pc + 1, lastPc := (s.lanes[l.val]).pc, lastMacro := false } := by
  obtain ⟨i, u, p, a, b, e⟩ := endStall_now l s
  exact ⟨i, u, p, a, b, _, by rw [atEnd, e]; rfl⟩

/-- What END finds as the lane held it: its class, its places in the lists, its saved context and its frame-end. -/
theorem atEnd_control (l : Fin 16) (s : State) : let ln := s.lanes[l.val]
    (atEnd l s).cls = ln.cls ∧ (atEnd l s).schedPos = ln.schedPos ∧ (atEnd l s).bgPos = ln.bgPos
    ∧ (atEnd l s).bgSaved = ln.bgSaved ∧ (atEnd l s).frameEnd = ln.frameEnd ∧ (atEnd l s).lastPc = ln.pc := by
  obtain ⟨_, _, _, _, _, _, e⟩ := atEnd_only l s
  rw [e]; exact ⟨rfl, rfl, rfl, rfl, rfl, rfl⟩

theorem atEnd_data (l : Fin 16) (s : State) : let ln := s.lanes[l.val]
    (atEnd l s).dsp = ln.dsp ∧ (atEnd l s).bgDsp = ln.bgDsp ∧ (atEnd l s).scratch = ln.scratch ∧ (atEnd l s).edges = ln.edges
    ∧ (atEnd l s).step = ln.step := by
  obtain ⟨_, _, _, _, _, _, e⟩ := atEnd_only l s
  rw [e]; exact ⟨rfl, rfl, rfl, rfl, rfl⟩

theorem entryAfter_now (l : Fin 16) (s : State) : entryAfter s l.val (laneNow l s) = entryAfter s l.val s.lanes[l.val] := by
  obtain ⟨_, _, _, e⟩ := laneNow_only l s
  rw [e]; rfl

/-- The lane as END leaves it, before its step is counted. -/
def endsAs (l : Fin 16) (s : State) : Lane := endSegment s l (atEnd l s)

theorem endsAs_keeps (l : Fin 16) (s : State) : let ln := s.lanes[l.val]
    (ln.bgSaved = none → (endsAs l s).rstack = [] ∧ (endsAs l s).lastPc = ln.pc) ∧ (endsAs l s).dsp = ln.dsp
    ∧ (endsAs l s).bgDsp = ln.bgDsp ∧ (endsAs l s).scratch = ln.scratch ∧ (endsAs l s).edges = ln.edges
    ∧ (endsAs l s).step = ln.step := by
  obtain ⟨-, -, -, hsaved, -, hpc⟩ := atEnd_control l s
  obtain ⟨hdsp, hbgDsp, hscratch, hedges, hstep⟩ := atEnd_data l s
  have keeps : EndKeeps (atEnd l s) (endsAs l s) := endSegment_keeps s l (atEnd l s)
  refine ⟨fun hs => ?_, keeps.dsp.trans hdsp, keeps.bgDsp.trans hbgDsp, keeps.scratch.trans hscratch,
    keeps.edges.trans hedges, keeps.step.trans hstep⟩
  obtain ⟨hempty, hlast⟩ := keeps.stack (hsaved.trans hs)
  exact ⟨hempty, hlast.trans hpc⟩

/-- To the next scheduled segment, at once or at its start time (R119). -/
theorem endsAs_next (hc : (s.lanes[l.val]).cls ≠ 3) (hp : (schedule s l.val)[(s.lanes[l.val]).schedPos + 1]? = some p) :
    let new := endsAs l s
    new.pc = p.first ∧ new.cls = p.cls ∧ new.segId = p.segId ∧ new.trap = w p.trap &&& 0x50#32
    ∧ new.schedPos = (s.lanes[l.val]).schedPos + 1 ∧ new.frameEnd = (s.lanes[l.val]).frameEnd
    ∧ (if s.clk.tickph < p.start then new.mode = .wait ∧ new.wait = .start p.start else new.mode = .sched) := by
  obtain ⟨hcls, hpos, -, -, hframe, -⟩ := atEnd_control l s
  have hnew : endsAs l s = startOrWait s p ((s.lanes[l.val]).schedPos + 1) (segmentLeft (atEnd l s)) := by
    rw [endsAs, endSegment_scheduled (hcls ▸ hc), hpos, hp]
  rw [hnew, ← hframe]
  exact startOrWait_starts _ (schedule_cls hp) _

theorem endsAs_last (hc : (s.lanes[l.val]).cls ≠ 3) (hp : (schedule s l.val)[(s.lanes[l.val]).schedPos + 1]? = none) :
    endsAs l s = enterBg s l.val (frameEnded s (segmentLeft (atEnd l s))) := by
  obtain ⟨hcls, hpos, -⟩ := atEnd_control l s
  rw [endsAs, endSegment_scheduled (hcls ▸ hc), hpos, hp]

theorem endsAs_bgNext (hc : (s.lanes[l.val]).cls = 3) (hp : (background s l.val)[(s.lanes[l.val]).bgPos + 1]? = some p) :
    (endsAs l s).mode = .bg ∧ (endsAs l s).pc = p.first := by
  obtain ⟨hcls, -, hpos, -⟩ := atEnd_control l s
  rw [endsAs, endSegment_background (hcls.trans hc), hpos, hp]
  exact ⟨rfl, rfl⟩

theorem endsAs_bgLast (hc : (s.lanes[l.val]).cls = 3) (hp : (background s l.val)[(s.lanes[l.val]).bgPos + 1]? = none) :
    (endsAs l s).mode = .done := by
  obtain ⟨hcls, -, hpos, -⟩ := atEnd_control l s
  rw [endsAs, endSegment_background (hcls.trans hc), hpos, hp]

/-- After the last scheduled segment: frame-end before the guard cycle, then BACKGROUND work or DONE. -/
theorem endsAs_frameEnd (hc : (s.lanes[l.val]).cls ≠ 3) (hp : (schedule s l.val)[(s.lanes[l.val]).schedPos + 1]? = none) :
    (endsAs l s).frameEnd = (if s.clk.tickph < guardCyc s then some s.clk.tickph else (s.lanes[l.val]).frameEnd)
    ∧ ((s.lanes[l.val]).bgSaved = none → background s l.val = [] → (endsAs l s).mode = .done)
    ∧ (∀ p r, (s.lanes[l.val]).bgSaved = none → background s l.val = p :: r →
        (endsAs l s).mode = .bg ∧ (endsAs l s).pc = p.first ∧ (endsAs l s).cls = p.cls) := by
  obtain ⟨-, -, -, hsaved, hframe, -⟩ := atEnd_control l s
  obtain ⟨hend, hkept⟩ := frameEnded_frameEnd s (segmentLeft (atEnd l s))
  have hnone : (s.lanes[l.val]).bgSaved = none → (frameEnded s (segmentLeft (atEnd l s))).bgSaved = none :=
    fun hs => hkept.trans (hsaved.trans hs)
  rw [endsAs_last hc hp, enterBg_frameEnd, hend, ← hframe]
  exact ⟨rfl, fun hs => enterBg_done (hnone hs), fun p r hs => enterBg_first (hnone hs)⟩

/-- END changes this lane alone; then the timetable entry that it goes on to is used (R18). -/
theorem exec_endSeg (h : laneReady l s) (t : Word) : exec (.endSeg l t) s =
    .next (settle (entryDoubt l.val (entryAfter s l.val s.lanes[l.val]) (modLane l (fun _ => countStep s (endsAs l s)) s))) := by
  have hend : exec (.endSeg l t) s = act (issueTrigger l (0x380 + 0x14) t) s := rfl
  have hlane : ctlLane l 0x14 t s = countStep s (endsAs l s) := by
    simp only [ctlLane, runCtl, tr_own (trigOf_ctl (op := 0x14) (by decide))]
    rfl
  rw [hend, ctl_issues h (by decide) t (ctl_sound h (by decide) (by decide) t), ctlBeside_quiet (by decide) (by decide),
    hlane, entryAfter_now]
  rfl

theorem entryDoubt_good {n : Nat} {o : Option Placed} (h : ∀ p, o = some p → entryBad s n p = none) : entryDoubt n o s = s := by
  cases o with
  | none => rfl
  | some p => simp only [entryDoubt, Option.bind_some, h p rfl]

theorem entryDoubt_bad {n e : Nat} (h : entryBad s n p = some e) (h1 : s.sys.latched = false) (h2 : inPlinth s = false) :
    (entryDoubt n (some p) s).sys.latched = true ∧ (entryDoubt n (some p) s).sys.firstCause = 0x1014#16 := by
  simp only [entryDoubt, Option.bind_some, h]
  obtain ⟨hlatched, hcause, -⟩ := moduleDoubt_first causeControl 0x1014 srcFRM 2 (w n) (w e) s h1 h2
  exact ⟨hlatched, hcause⟩

end Segments

/-- Settles O15: each transfer is what `runCtl` does to the lane, or the fault of its return stack; END is `endSegment`, and the
timetable entry that the lane goes on to is checked as it is used. -/
theorem controlFlow : Obligations.ControlFlow := by
  refine ⟨fun l t s h => ⟨exec_jmp h t, exec_jmpr h t, exec_call h t, fun e r => exec_ret h t, exec_rdepth h t,
    fun h1 h2 h3 => ⟨call_overflows h h1 h2 h3 t, ret_underflows h h1 h2 h3 t, fun e r => ret_badParity h h1 h2 h3 t⟩⟩, ?_⟩
  intro l t s h ln entry
  have hentry : entryAfter s l.val ln = entry := rfl
  rw [exec_endSeg h t, hentry]
  refine ⟨fun p e hp hbad h1 h2 => ⟨_, rfl, ?_⟩, fun hgood => ⟨countStep s (endsAs l s), ?_, ?_⟩⟩
  · rw [hp]
    exact entryDoubt_bad (s := modLane l _ s) hbad h1 h2
  · rw [entryDoubt_good (s := modLane l _ s) hgood]
  · obtain ⟨hstack, hdsp, hbgDsp, hscratch, hedges, hstep⟩ := endsAs_keeps l s
    have hnext := fun p => endsAs_next (l := l) (s := s) (p := p)
    have hlast := endsAs_frameEnd (l := l) (s := s)
    have hbgLast := endsAs_bgLast (l := l) (s := s)
    have hbgNext := fun p => endsAs_bgNext (l := l) (s := s) (p := p)
    generalize endsAs l s = b at *
    exact ⟨hstack, hdsp, hbgDsp, hscratch, hedges, congrArg (· + 1) hstep, hnext, hlast, hbgLast, hbgNext⟩

end Sys2Proof.Proofs

/-! ### O16: batons (R119, R121 to R123, R125) -/
namespace Sys2Proof.Proofs

open Sys2Proof Sys2Proof.Machine Sys2Proof.Safety Sys2Proof.Laws

section Batons
variable {l : Fin 16} {s : State} {n : Nat}

/-! #### When a baton is available (R123) -/

theorem waitsBaton_eq (ln : Lane) (n : Nat) : waitsBaton ln n = waitsOnBaton ln n := by
  unfold waitsBaton waitsOnBaton
  cases ln.mode <;> cases ln.wait <;> simp [Bool.and_comm, Bool.beq_eq_decide_eq]

theorem countP_range_below (f : Nat → Bool) {k m : Nat} (h : k ≤ m) :
    (List.range m).countP (fun i => decide (i < k) && f i) = (List.range k).countP f := by
  obtain ⟨d, rfl⟩ := Nat.exists_eq_add_of_le h
  have hlow : (List.range k).countP (fun i => decide (i < k) && f i) = (List.range k).countP f :=
    List.countP_congr fun i hi => by simp [List.mem_range.mp hi]
  have hhigh : ((List.range d).map (k + ·)).countP (fun i => decide (i < k) && f i) = 0 := by
    rw [List.countP_eq_zero]
    intro i hi
    obtain ⟨j, -, rfl⟩ := List.mem_map.mp hi
    simp
  rw [List.range_add, List.countP_append, hlow, hhigh, Nat.add_zero]

/-- The lanes below `l` that wait, counted by number. -/
theorem waitersBelow_eq (l : Fin 16) (n : Nat) (s : State) : waitersBelow s l.val n =
    (List.finRange 16).countP (fun i => decide (i < l) && waitsOnBaton s.lanes[i.val] n) := by
  have hfin : (List.finRange 16).countP (fun i => decide (i < l) && waitsOnBaton s.lanes[i.val] n) =
      ((List.finRange 16).map Fin.val).countP (fun i => decide (i < l.val) && waitsBaton (vget State.lane0 s.lanes i) n) := by
    rw [List.countP_map]
    refine List.countP_congr fun i _ => ?_
    simp only [Function.comp_apply, vget_of_lt _ _ i.isLt, waitsBaton_eq, Fin.lt_def]
  rw [hfin, List.map_coe_finRange_eq_range, countP_range_below _ l.isLt.le, waitersBelow, where_, List.countP_eq_length_filter]

theorem takenAbove_eq (l : Fin 16) (n : Nat) (s : State) : takenAbove s l.val n = takesAbove l n s := rfl

theorem batonFree_iff (l : Fin 16) (n : Nat) (s : State) : batonFree s l.val n = true ↔ availableTo l n s := by
  unfold batonFree availableTo
  rw [decide_eq_true_iff, waitersBelow_eq, takenAbove_eq]

/-! #### Taking (R121, R123) -/

theorem mem_takesAbove {t : BatonTake} :
    t ∈ takesAbove l n s ↔ t ∈ s.ln.takes ∧ t.baton = n ∧ t.cyc = s.clk.cyc ∧ l.val < t.lane := by
  rw [← takenAbove_eq]
  exact mem_takenAbove

theorem loseBaton_tryw {t : BatonTake} (h : t.tryw = true) (ln : Lane) : loseBaton t ln =
    { ln with inflight := ln.inflight.map fun r => if r.unit = .ctl ∧ r.due = ln.step then { r with q := 0 } else r } := by
  simp only [loseBaton, h, if_true, Bool.and_eq_true, beq_iff_eq]

theorem loseBaton_wait {t : BatonTake} (h : t.tryw = false) {ln : Lane} (hm : ln.mode ≠ .stopped) :
    loseBaton t ln = { ln with mode := .wait, wait := .baton t.baton t.deadline } := by
  simp only [loseBaton, h, Bool.false_eq_true, if_false, hm]

/-- From the count, while it lasts. -/
theorem takeBaton_counted (tryw : Bool) (d : Option Nat) (h : 0 < vget 0 s.ln.batons n) : takeBaton l.val n tryw d s =
    { s with ln := { s.ln with
      batons := vset s.ln.batons n (vget 0 s.ln.batons n - 1)
      takes := ⟨l.val, n, s.clk.cyc, tryw, d⟩ :: s.ln.takes.filter fun t => decide (t.cyc = s.clk.cyc) } } := by
  have hn : n < 256 := by
    by_contra hge
    rw [vget, dif_neg hge] at h
    exact absurd h (lt_irrefl 0)
  have hmod : vmod s.ln.batons n (· - 1) = vset s.ln.batons n (vget 0 s.ln.batons n - 1) := by
    rw [vmod_of_lt _ _ hn, vset_of_lt _ _ hn, vget_of_lt _ _ hn]
  rw [takeBaton, if_pos h, hmod]
  rfl

/-- From the highest lane that took it in this cycle, when the count is used up. -/
theorem takeBaton_claimed (tryw : Bool) (d : Option Nat) (h : vget 0 s.ln.batons n = 0) {t : BatonTake}
    (ht : highestTake (takenAbove s l.val n) = some t) : takeBaton l.val n tryw d s =
    { s with
      lanes := vmod s.lanes t.lane (loseBaton t)
      ln := { s.ln with
        takes := ⟨l.val, n, s.clk.cyc, tryw, d⟩ :: (s.ln.takes.filter fun t => decide (t.cyc = s.clk.cyc)).erase t } } := by
  rw [takeBaton, if_neg (by omega), ht]
  rfl

theorem takeBaton_taken (tryw : Bool) (d : Option Nat) (h : availableTo l n s) :
    batonTaken l n tryw d s (takeBaton l.val n tryw d s) := by
  refine ⟨fun hpos => takeBaton_counted tryw d hpos, fun hzero => ?_⟩
  have hne : takenAbove s l.val n ≠ [] := by
    rintro hnil
    unfold availableTo at h
    rw [hzero, ← takenAbove_eq, hnil] at h
    exact absurd h (Nat.not_lt_zero _)
  obtain ⟨t, ht⟩ := highestTake_isSome hne
  obtain ⟨hmem, hmax⟩ := highestTake_spec ht
  have hbaton : t.baton = n := (mem_takesAbove.mp hmem).2.1
  refine ⟨t, hmem, hmax, _, takeBaton_claimed tryw d hzero ht, fun i => ⟨fun hi => ?_, fun hi hw hm => ?_, fun hi hw => ?_⟩⟩
  · unfold vmod
    split
    · exact Vector.getElem_set_ne _ _ (Ne.symm hi)
    · rfl
  · rw [← hi, vmod_of_lt _ _ i.isLt, Vector.getElem_set_self, loseBaton_wait hw hm, hbaton]
  · rw [← hi, vmod_of_lt _ _ i.isLt, Vector.getElem_set_self, loseBaton_tryw hw]

/-! #### WAIT, TRYW and POST (R121, R122, R125) -/

theorem deadlineOf_cls {a b : Lane} (h : a.cls = b.cls) (s : State) (k pc : Nat) : deadlineOf s k a pc = deadlineOf s k b pc := by
  unfold deadlineOf; rw [h]

theorem wait_fault (h : laneReady l s) (t : Word) :
    stepFault s l (atFault l s) (isOf (s.lanes[l.val]).pc 0x395 t) [(0x395, t)] false =
      waitFault s l (atFault l s) (isOf (s.lanes[l.val]).pc 0x395 t) [(0x395, t)] := by
  have hop : 0x10 ≤ 0x15 ∧ 0x15 ≤ 0x18 := by decide
  have hret : returnFault (atFault l s) [(0x380 + 0x15, t)] = none := by
    rw [returnFault_ctl hop]
    cases (atFault l s).rstack <;> rfl
  have hstack : stackFault (atFault l s) [(0x380 + 0x15, t)] = none := stackFault_ctl hop t _
  refine (ctl_fault h hop t).trans ?_
  rw [hret, hstack]
  cases waitFault s l (atFault l s) (isOf (s.lanes[l.val]).pc (0x380 + 0x15) t) [(0x380 + 0x15, t)] <;> rfl

/-- A WAIT does not fault when its baton is available, or when its deadline is yet to come. -/
theorem wait_sound (h : laneReady l s) (t : Word) (hn : n = t.toNat % 256) (hd : availableTo l n s
      ∨ ∀ d, deadlineOf s l.val s.lanes[l.val] (s.lanes[l.val]).pc = some d → s.clk.tickph < d) :
    stepFault s l (atFault l s) (isOf (s.lanes[l.val]).pc 0x395 t) [(0x395, t)] false = none := by
  subst hn
  rw [wait_fault h]
  simp only [waitFault, tr_own (trigOf_ctl (op := 0x15) (by decide)), true_and, batonFree_iff,
    deadlineOf_cls (atFault_control l s).2, isOf]
  by_cases hfree : availableTo l (t.toNat % 256) s
  · rw [if_neg (not_not.mpr hfree)]
  · rw [if_pos hfree]
    cases hdl : deadlineOf s l.val s.lanes[l.val] (s.lanes[l.val]).pc with
    | none => rfl
    | some d => exact if_neg (Nat.not_le.mpr (hd.resolve_left hfree d hdl))

theorem wait_late (h : laneReady l s) (t : Word) (hn : n = t.toNat % 256) (hfree : ¬ availableTo l n s) {d : Nat}
    (hdl : deadlineOf s l.val s.lanes[l.val] (s.lanes[l.val]).pc = some d) (hd : d ≤ s.clk.tickph) :
    stepFault s l (atFault l s) (isOf (s.lanes[l.val]).pc 0x395 t) [(0x395, t)] false = some ⟨0x100E, w n, none⟩ := by
  subst hn
  rw [wait_fault h]
  simp only [waitFault, tr_own (trigOf_ctl (op := 0x15) (by decide)), true_and, batonFree_iff,
    deadlineOf_cls (atFault_control l s).2, isOf, if_pos hfree, hdl, if_pos hd]

theorem runCtl_wait (t : Word) (pc : Nat) (a : Lane) : runCtl s l (isOf pc 0x395 t) [(0x395, t)] a =
    if batonFree s l.val (t.toNat % 256) then a
    else { a with mode := .wait, wait := .baton (t.toNat % 256) (deadlineOf s l.val a pc) } := by
  simp only [runCtl, tr_own (trigOf_ctl (op := 0x15) (by decide)), isOf]

theorem runCtl_post (t : Word) (pc : Nat) (a : Lane) : runCtl s l (isOf pc 0x396 t) [(0x396, t)] a = a := by
  simp only [runCtl, tr_own (trigOf_ctl (op := 0x16) (by decide))]

theorem runCtl_tryw (t : Word) (pc : Nat) (a : Lane) : runCtl s l (isOf pc 0x397 t) [(0x397, t)] a =
    startOp .ctl 1 (res1 (bitWord (batonFree s l.val (t.toNat % 256))) 0) 0 a := by
  simp only [runCtl, tr_own (trigOf_ctl (op := 0x17) (by decide))]

theorem ctlBeside_take {op : Nat} (hop : op = 0x15 ∨ op = 0x17) (t : Word) : ctlBeside l op t s =
    if batonFree s l.val (t.toNat % 256) then
      takeBaton l.val (t.toNat % 256) (op == 0x17) (deadlineOf s l.val s.lanes[l.val] (s.lanes[l.val]).pc) s
    else s := by
  rw [← deadlineOf_cls (laneNow_cls l s)]
  simp only [ctlBeside, ctlBatons, tr_own (trigOf_ctl (op := op) (by omega)), if_pos hop]

/-- A trigger of CTL after which the next bundle follows: `f` on the lane, `u` beside it. -/
theorem ctl_goesOn {op : Nat} (h : laneReady l s) (hop : 0x10 ≤ op ∧ op ≤ 0x18) (t : Word) (hend : op ≠ 0x14) {f : Lane → Lane}
    {u : State} (hf : stepFault s l (atFault l s) (isOf (s.lanes[l.val]).pc (0x380 + op) t) [(0x380 + op, t)] false = none)
    (hrun : ∀ a : Lane, a.cls = (s.lanes[l.val]).cls →
      runCtl s l (isOf (s.lanes[l.val]).pc (0x380 + op) t) [(0x380 + op, t)] (pastBundle (s.lanes[l.val]).pc a) =
        pastBundle (s.lanes[l.val]).pc (f a))
    (hu : ctlBeside l op t s = u) : act (issueTrigger l (0x380 + op) t) s =
      .next (settle (modLane l (fun x => afterStep s (x.pc + 1) f x) u)) := by
  obtain ⟨-, -, hcls⟩ := endStall_now_control l s
  have hlane : u.lanes[l.val] = s.lanes[l.val] := hu ▸ ctlBatons_lane ..
  rw [ctl_jumps h hop t hend (pc := (s.lanes[l.val]).pc + 1) hf (hrun _ hcls), hu, modLane, modLane, hlane]

/-! #### The rows of the unit -/

theorem exec_wait_takes (h : laneReady l s) (t : Word) (hn : n = t.toNat % 256) (hfree : availableTo l n s) :
    exec (.wait l t) s = .next (settle (modLane l (fun x => afterStep s (x.pc + 1) id x)
      (takeBaton l.val n false (deadlineOf s l.val s.lanes[l.val] (s.lanes[l.val]).pc) s))) := by
  have hfree' : batonFree s l.val (t.toNat % 256) = true := (batonFree_iff l _ s).mpr (hn ▸ hfree)
  exact ctl_goesOn (op := 0x15) h (by decide) t (by decide) (f := id) (wait_sound h t hn (.inl hfree))
    (fun a _ => by rw [runCtl_wait, if_pos hfree']; rfl) (by rw [ctlBeside_take (.inl rfl), if_pos hfree', hn]; rfl)

theorem exec_wait_waits (h : laneReady l s) (t : Word) (hn : n = t.toNat % 256) (hfree : ¬ availableTo l n s)
    (hd : ∀ d, deadlineOf s l.val s.lanes[l.val] (s.lanes[l.val]).pc = some d → s.clk.tickph < d) :
    exec (.wait l t) s = .next (laneStep l (fun x => { x with
      mode := .wait, wait := .baton n (deadlineOf s l.val s.lanes[l.val] (s.lanes[l.val]).pc) }) s) := by
  have hfree' : ¬ batonFree s l.val (t.toNat % 256) = true := fun e => hfree (hn ▸ (batonFree_iff l _ s).mp e)
  refine ctl_goesOn (op := 0x15) h (by decide) t (by decide) (f := fun x => { x with
    mode := .wait, wait := .baton n (deadlineOf s l.val s.lanes[l.val] (s.lanes[l.val]).pc) }) (wait_sound h t hn (.inr hd))
    (fun a ha => ?_) (by rw [ctlBeside_take (.inl rfl), if_neg hfree'])
  rw [runCtl_wait, if_neg hfree', ← hn,
    deadlineOf_cls (show (pastBundle (s.lanes[l.val]).pc a).cls = (s.lanes[l.val]).cls from ha)]
  rfl

theorem wait_timesOut (h : laneReady l s) (t : Word) (hn : n = t.toNat % 256) (hfree : ¬ availableTo l n s)
    (h1 : s.sys.latched = false) (h2 : inPlinth s = false) (h3 : s.ln.fault.valid = false)
    (hd : ∃ d, deadlineOf s l.val s.lanes[l.val] (s.lanes[l.val]).pc = some d ∧ d ≤ s.clk.tickph) :
    laneFaults l 0x100E (w n) (s.lanes[l.val]).pc s (exec (.wait l t) s) := by
  obtain ⟨d, hdl, hle⟩ := hd
  exact ctl_faults (op := 0x15) h h1 h2 h3 (by decide) (f := ⟨0x100E, w n, none⟩) (wait_late h t hn hfree hdl hle)

theorem exec_tryw_takes (h : laneReady l s) (t : Word) (hn : n = t.toNat % 256) (hfree : availableTo l n s) :
    exec (.tryw l t) s = .next (settle (modLane l (fun x => afterStep s (x.pc + 1) (startOp .ctl 1 ⟨1, 0, 0, 0, 0⟩ 0) x)
      (takeBaton l.val n true (deadlineOf s l.val s.lanes[l.val] (s.lanes[l.val]).pc) s))) := by
  have hfree' : batonFree s l.val (t.toNat % 256) = true := (batonFree_iff l _ s).mpr (hn ▸ hfree)
  exact ctl_goesOn (op := 0x17) h (by decide) t (by decide) (f := startOp .ctl 1 ⟨1, 0, 0, 0, 0⟩ 0)
    (ctl_sound h (by decide) (by decide) t) (fun a _ => by rw [runCtl_tryw, hfree']; rfl)
    (by rw [ctlBeside_take (.inr rfl), if_pos hfree', hn]; rfl)

theorem exec_tryw_fails (h : laneReady l s) (t : Word) (hn : n = t.toNat % 256) (hfree : ¬ availableTo l n s) :
    exec (.tryw l t) s =
      .next (settle (modLane l (fun x => afterStep s (x.pc + 1) (startOp .ctl 1 ⟨0, 0, 0, 0, 0⟩ 0) x) s)) := by
  have hfree' : batonFree s l.val (t.toNat % 256) = false :=
    Bool.eq_false_iff.mpr fun e => hfree (hn ▸ (batonFree_iff l _ s).mp e)
  exact ctl_goesOn (op := 0x17) h (by decide) t (by decide) (f := startOp .ctl 1 ⟨0, 0, 0, 0, 0⟩ 0)
    (ctl_sound h (by decide) (by decide) t) (fun a _ => by rw [runCtl_tryw, hfree']; rfl)
    (by rw [ctlBeside_take (.inr rfl), hfree']; rfl)

/-- The stores among the accesses that a lane has queued. -/
def queuedStores (ln : Lane) : Nat :=
  (ln.reqs.filter fun r => match r.op with | .store _ _ _ => true | .load _ _ _ => false).length

theorem exec_post (h : laneReady l s) (t : Word) : exec (.post l t) s =
    .next (settle (modLane l (fun x => afterStep s (x.pc + 1) id x) { s with ln := { s.ln with
      posts := s.ln.posts ++ [⟨l.val, t.toNat % 256, s.clk.cyc, queuedStores s.lanes[l.val], s.clk.cyc⟩] } })) := by
  refine ctl_goesOn (op := 0x16) h (by decide) t (by decide) (f := id) (ctl_sound h (by decide) (by decide) t)
    (fun a _ => runCtl_post t _ _) ?_
  simp only [ctlBeside, ctlBatons, tr_own (trigOf_ctl (op := 0x16) (by decide)), (laneNow_memory l s).2]
  rfl

/-! #### The events of waiting -/

theorem ripePost_due {p : HeldPost} (hp : s.ln.posts.find? (fun q => q.lane == l.val) = some p) (hs : p.stores = 0)
    (hb : p.base + 4 ≤ s.clk.cyc) : ripePost l.val s = some p := by
  simp only [ripePost, hp, hs, hb, and_self, if_true]

theorem batonCount_counts {p : HeldPost} (hpow : s.clk.power = true) (hp : s.ln.posts.find? (fun q => q.lane == l.val) = some p)
    (hs : p.stores = 0) (hb : p.base + 4 ≤ s.clk.cyc) : exec (.batonCount l) s = .next (settle (countPost p s)) := by
  have hcount : exec (.batonCount l) s = execBatonCount l s := rfl
  rw [hcount, execBatonCount, act_powered _ hpow, ripePost_due hp hs hb]

theorem waitsOn_waiting {ln : Lane} {d : Option Nat} (hm : ln.mode = .wait) (hs : ln.saving = false)
    (hw : ln.wait = .baton n d) : waitsOn ln = some (n, d) := by
  simp only [waitsOn, hm, hw, hs, Bool.false_eq_true, if_false]

theorem batonTake_takes {d : Option Nat} (hpow : s.clk.power = true) (hm : (s.lanes[l.val]).mode = .wait)
    (hs : (s.lanes[l.val]).saving = false) (hw : (s.lanes[l.val]).wait = .baton n d) (hfree : availableTo l n s) :
    exec (.batonTake l) s = .next (settle (modLane l (fun x => { x with
        mode := if (s.lanes[l.val]).cls = 3 then .bg else .sched, wait := .none, lastIssue := some s.clk.cyc })
      (takeBaton l.val n false d s))) := by
  have htake : exec (.batonTake l) s = execBatonTake l s := rfl
  rw [htake, execBatonTake, act_powered _ hpow, waitsOn_waiting hm hs hw]
  simp only [(batonFree_iff l n s).mpr hfree, if_true]
  rw [modLane, modLane, takeBaton_lane]
  rfl

theorem batonTimeout_faults {d : Nat} (hpow : s.clk.power = true) (hm : (s.lanes[l.val]).mode = .wait)
    (hs : (s.lanes[l.val]).saving = false) (hw : (s.lanes[l.val]).wait = .baton n (some d)) (hd : d ≤ s.clk.tickph)
    (hfree : ¬ availableTo l n s) (h1 : s.sys.latched = false) (h2 : inPlinth s = false) (h3 : s.ln.fault.valid = false) :
    laneFaults l 0x100E (w n) (s.lanes[l.val]).lastPc s (exec (.batonTimeout l) s) := by
  have hrun : runningLane s s.lanes[l.val] = s.lanes[l.val] := by
    simp only [runningLane, stoppedNow, hm, h1, Bool.and_false, Bool.false_eq_true, if_false]
  have htimeout : exec (.batonTimeout l) s = execBatonTimeout l s := rfl
  rw [htimeout, execBatonTimeout, act_powered _ hpow]
  simp only [hrun, waitsOn_waiting hm hs hw, batonFree_iff]
  rw [if_pos ⟨hd, hfree⟩]
  exact laneFault_first l ⟨0x100E, w n, none⟩ _ _ s h1 h2 h3

theorem segmentStart_starts {p : Nat} (hpow : s.clk.power = true) (hm : (s.lanes[l.val]).mode = .wait)
    (hw : (s.lanes[l.val]).wait = .start p) (hp : p ≤ s.clk.tickph) : exec (.segmentStart l) s =
    .next (settle (modLane l (fun x => { x with mode := .sched, wait := .none, lastIssue := some s.clk.cyc }) s)) := by
  have hstart : exec (.segmentStart l) s = execSegmentStart l s := rfl
  rw [hstart, execSegmentStart, act_powered _ hpow]
  simp only [hm, hw, hp, if_true]

end Batons

/-- Settles O16: a lane takes a baton by `takeBaton`, from the count or from the highest lane above it that took it in this cycle;
each event of waiting acts when its condition holds. -/
theorem batons : Obligations.Batons := by
  refine ⟨fun l t s h => ?_, fun l s hpow => ?_⟩
  · intro ln n gives
    exact ⟨fun hfree => ⟨_, _, takeBaton_taken false _ hfree, takeBaton_taken true _ hfree,
        exec_wait_takes h t rfl hfree, exec_tryw_takes h t rfl hfree⟩,
      fun hfree => ⟨exec_tryw_fails h t rfl hfree, exec_wait_waits h t rfl hfree,
        fun h1 h2 h3 hd => wait_timesOut h t rfl hfree h1 h2 h3 hd⟩,
      _, rfl, exec_post h t⟩
  · intro ln run
    refine ⟨fun p hp hs hb => ?_, fun n d hm hs hw hfree => ⟨_, takeBaton_taken false d hfree, ?_⟩,
      fun n d hm hs hw hd hfree => batonTimeout_faults hpow hm hs hw hd hfree, fun p hm hw hp => segmentStart_starts hpow hm hw hp⟩
    · intro count dropped
      rw [batonCount_counts hpow hp hs hb]
      exact ⟨fun hlt => congrArg (fun u => Host.Outcome.next (settle u)) (if_pos hlt),
        fun hge => congrArg (fun u => Host.Outcome.next (settle u)) (if_neg (Nat.not_lt.mpr hge))⟩
    · exact batonTake_takes hpow hm hs hw hfree

end Sys2Proof.Proofs

/-! ### O17: triggers of REP (R128 to R130, R132, R133) -/
namespace Sys2Proof.Proofs

open Sys2Proof Sys2Proof.Machine Sys2Proof.Safety Sys2Proof.Laws

/-- The issue of a bundle of one trigger of REP, outside a repeated body or as a bundle of it. -/
def repIssue (pc op : Nat) (t : Word) (body : Bool) : Issue := { isOf pc (0x3C0 + op) t with body := body }

section Rep
variable {l : Fin 16} {s : State} {op : Nat}

/-! #### The bundle of one trigger of REP -/

theorem trigOf_rep (hop : 0x10 ≤ op ∧ op ≤ 0x15) : trigOf (0x3C0 + op) = some (.rep, op) :=
  (trigPort (u := .rep) (by simpa [isTrig] using hop)).1

theorem repTrigger_rep (hop : 0x10 ≤ op ∧ op ≤ 0x15) (t : Word) : repTrigger [(0x3C0 + op, t)] = some (op, t) := by
  have hp := trigOf_rep hop
  simp only [repTrigger, isTransfer, tr_other hp (show UnitId.ctl ≠ .rep by decide), Bool.false_eq_true, if_false, tr_own hp]

/-- Of the triggers of REP, BREAK alone has an effect inside a body (R131). -/
theorem effective_rep (pc : Nat) (t : Word) (body : Bool) (h : body = true → op = 0x15) {ln : Lane} (hp0 : ln.p.getLsbD 0 = true) :
    effective (repIssue pc op t body) ln = [mvOf (0x3C0 + op) t] := by
  have hkept : (body && bodyIgnored (mvOf (0x3C0 + op) t)) = false := by
    cases body with
    | false => rfl
    | true => rw [h rfl]; rfl
  have hmoves : (repIssue pc op t body).moves = [mvOf (0x3C0 + op) t] := rfl
  have hguard : guardOk ln.p (mvOf (0x3C0 + op) t).g = true := by simp [guardOk, mvOf, hp0]
  rw [effective, hmoves, List.filter_cons_of_pos, List.filter_nil]
  rw [hguard, show (repIssue pc op t body).body = body from rfl, hkept]
  rfl

/-- A trigger of REP never faults. -/
theorem stepFault_rep (hop : 0x10 ≤ op ∧ op ≤ 0x15) (pc : Nat) (t : Word) (body : Bool) {ln : Lane} (hdue : dueTrap ln = none) :
    stepFault s l ln (repIssue pc op t body) [(0x3C0 + op, t)] false = none := by
  have hp := trigOf_rep hop
  have hd : dstOk (0x3C0 + op) = true := (trigPort (u := .rep) (by simpa [isTrig] using hop)).2
  have tr : ∀ v, v ≠ UnitId.rep → trigger [(0x3C0 + op, t)] v = none := fun v hv => tr_other hp hv
  have hport : portFault (mvOf (0x3C0 + op) t) = none := by simp [portFault, mvOf, hd]
  have hmoves : (repIssue pc op t body).moves = [mvOf (0x3C0 + op) t] := rfl
  have hshared : startsShared (mvOf (0x3C0 + op) t) = false := by simp only [startsShared, mvOf, hp]
  have heff : effective (repIssue pc op t body) ln = [mvOf (0x3C0 + op) t] ∨ effective (repIssue pc op t body) ln = [] := by
    rw [effective, hmoves, List.filter_cons, List.filter_nil]
    split_ifs
    · exact .inl rfl
    · exact .inr rfl
  unfold stepFault
  obtain heff | heff := heff <;>
    simp [firstFault, heff, hmoves, hport, hshared, hdue, collision, firstPair, returnFault, protectFault, stackFault, waitFault, tr]

theorem issueLane_rep (hop : 0x10 ≤ op ∧ op ≤ 0x15) (pc : Nat) (t : Word) (body : Bool) (x : Lane) :
    issueLane s l (repIssue pc op t body) [(0x3C0 + op, t)] x = countStep s (advance (repIssue pc op t body)
      (bundleShown pc (runRep (repIssue pc op t body) [(0x3C0 + op, t)] (endStall s x)))) := by
  have hp := trigOf_rep hop
  have hunits := unitsPart_none hp (.inr rfl) t s x (endStall s x)
  unfold unitsPart at hunits
  simp only [issueLane, hunits, List.foldl_cons, List.foldl_nil, writePort_trig hp, runCtl,
    tr_other hp (show UnitId.ctl ≠ .rep by decide)]
  rfl

theorem runningLane_issuing (h : canIssue s s.lanes[l.val] = true) :
    runningLane s s.lanes[l.val] = s.lanes[l.val] ∧ stoppedNow s s.lanes[l.val] = false := by
  have hstop : stoppedNow s s.lanes[l.val] = false := by
    unfold canIssue at h
    unfold stoppedNow
    cases hm : (s.lanes[l.val]).mode <;> simp_all
  exact ⟨by rw [runningLane, hstop]; rfl, hstop⟩

/-- A lane that may issue acts on the trigger as `runRep` and `advance` say. -/
theorem issueMoves_rep (hcan : canIssue s s.lanes[l.val] = true) (hp0 : (s.lanes[l.val]).p.getLsbD 0 = true)
    (hdue : dueTrap s.lanes[l.val] = none) (hop : 0x10 ≤ op ∧ op ≤ 0x15) (pc : Nat) (t : Word) (body : Bool)
    (h : body = true → op = 0x15) : issueMoves l (repIssue pc op t body) false s =
      modLane l (fun _ => countStep s (advance (repIssue pc op t body)
        (bundleShown pc (runRep (repIssue pc op t body) [(0x3C0 + op, t)] (endStall s (laneNow l s)))))) s := by
  have hp := trigOf_rep hop
  have hctl : trigger [(0x3C0 + op, t)] .ctl = none := tr_other hp (by decide)
  obtain ⟨hrun, hstop⟩ := runningLane_issuing hcan
  obtain ⟨hlogs, hdrops⟩ := now_logs l s
  have hp0' : (present s.lanes[l.val]).p.getLsbD 0 = true := (foldl_appear_fields _ _).2.2.2.2.2.2.1.trans hp0
  have heff := effective_rep pc t body h hp0'
  have hstall := stalls_single hp (by decide) (by decide) t (present s.lanes[l.val])
  have hfault : stepFault s l { present s.lanes[l.val] with inflight := (s.lanes[l.val]).inflight } (repIssue pc op t body)
      [(0x3C0 + op, t)] false = none := stepFault_rep hop pc t body ((atFault_dueTrap l s).trans hdue)
  have hbatons : ctlBatons l [(0x3C0 + op, t)] (present s.lanes[l.val]) (repIssue pc op t body).pc s = s := by simp only [ctlBatons, hctl]
  have hvals : List.map (fun m => (m.dst, mvValue s l (present s.lanes[l.val]) m)) [mvOf (0x3C0 + op) t] = [(0x3C0 + op, t)] := rfl
  unfold laneNow at *
  unfold issueMoves
  simp only [hrun, heff, hvals, hstall, hfault, hbatons, hctl, runLog_none hp (by decide), settleStop, hstop, hlogs, hdrops,
    Option.any_none, Bool.false_eq_true, if_false]
  exact congrArg (fun x => modLane l (fun _ => x) s) (issueLane_rep hop pc t body _)

theorem issueTrigger_rep (h : laneReady l s) (op : Nat) (t : Word) :
    issueTrigger l (0x3C0 + op) t s = issueMoves l (repIssue (s.lanes[l.val]).pc op t false) false s := by
  obtain ⟨-, hcan, hrep, hmac, hpc, -, -⟩ := h
  simp only [issueTrigger, (runningLane_issuing hcan).1, hcan, hrep, hmac, decide_eq_false (Nat.not_lt.mpr hpc), Bool.not_true,
    Option.isSome_none, Bool.or_self, Bool.false_eq_true, if_false]
  rfl

theorem issueTrigger_body {first len pos : Nat} {brk : Bool} (h : bodyReady l first len pos brk s) (op : Nat) (t : Word) :
    issueTrigger l (0x3C0 + op) t s = issueMoves l (repIssue (s.lanes[l.val]).pc op t true) false s := by
  obtain ⟨-, hcan, hrep, hmac, hpc, -, -⟩ := h
  simp only [issueTrigger, (runningLane_issuing hcan).1, hcan, hrep, hmac, decide_eq_false (Nat.not_lt.mpr hpc), Bool.not_true,
    Option.isSome_none, Bool.or_self, Bool.false_eq_true, if_false]
  rfl

/-- The lane after the trigger of REP of a step, from the lane `a` as the step begins. -/
def repLane (pc op : Nat) (t : Word) (body : Bool) (a : Lane) : Lane :=
  advance (repIssue pc op t body) (bundleShown pc (runRep (repIssue pc op t body) [(0x3C0 + op, t)] a))

/-- A lane that keeps its REP state until the trigger. -/
abbrev repAsNow (l : Fin 16) (s : State) (a : Lane) : Prop :=
  a.repRun = (s.lanes[l.val]).repRun ∧ a.repCount = (s.lanes[l.val]).repCount ∧ a.repSrc = (s.lanes[l.val]).repSrc
  ∧ a.repDst = (s.lanes[l.val]).repDst ∧ a.repStride = (s.lanes[l.val]).repStride ∧ a.repElem = (s.lanes[l.val]).repElem

theorem endStall_now_rep (l : Fin 16) (s : State) : repAsNow l s (endStall s (laneNow l s)) := by
  obtain ⟨_, _, _, _, _, e⟩ := endStall_now l s
  rw [e]; exact ⟨rfl, rfl, rfl, rfl, rfl, rfl⟩

/-- A trigger of REP that goes on at bundle `pc` with `f` as its effect. -/
theorem rep_issues (h : laneReady l s) (hop : 0x10 ≤ op ∧ op ≤ 0x15) (t : Word) {f : Lane → Lane} {pc : Nat}
    (hrun : ∀ a, repAsNow l s a → repLane (s.lanes[l.val]).pc op t false a =
      { bundleShown (s.lanes[l.val]).pc (f a) with pc := pc }) :
    act (issueTrigger l (0x3C0 + op) t) s = .next (laneJump l pc f s) := by
  have hlane := hrun _ (endStall_now_rep l s)
  rw [repLane] at hlane
  rw [act_powered _ h.1, issueTrigger_rep h, issueMoves_rep h.2.1 h.2.2.2.2.2.1 h.2.2.2.2.2.2 hop _ _ _ (by simp), hlane]
  rfl

/-- A BREAK as a bundle of a repeated body. -/
theorem break_issues {first len pos : Nat} {brk : Bool} (h : bodyReady l first len pos brk s) (t : Word) {f : Lane → Lane}
    {pc : Nat} (hrun : ∀ a, repAsNow l s a → repLane (s.lanes[l.val]).pc 0x15 t true a =
      { bundleShown (s.lanes[l.val]).pc (f a) with pc := pc }) :
    exec (.breakRep l t) s = .next (laneJump l pc f s) := by
  have hbreak : exec (.breakRep l t) s = act (issueTrigger l (0x3C0 + 0x15) t) s := rfl
  have hlane := hrun _ (endStall_now_rep l s)
  rw [repLane] at hlane
  rw [hbreak, act_powered _ h.1, issueTrigger_body h,
    issueMoves_rep h.2.1 h.2.2.2.2.2.1 h.2.2.2.2.2.2 (by decide) _ _ _ (fun _ => rfl), hlane]
  rfl

/-! #### What the triggers do to REP -/

/-- REP.elem with the operation fields set, and SIZE, SRCSP and DSTSP kept (R129). -/
theorem repElemOp_eq (e : Word) (op body : Nat) : repElemOp e op body 0 =
    (e &&& 0xF#32) ||| BitVec.ofNat 32 (body % 4096 * 256) ||| BitVec.ofNat 32 (op * 2 ^ 24) := by
  rw [repElemOp, at_, at_, at_, Nat.shiftLeft_eq, Nat.shiftLeft_eq, Nat.shiftLeft_eq, Nat.zero_mod, Nat.zero_mul, BitVec.or_zero]
  rfl

/-- A trigger that leaves no repetition with a place of its own goes on with the next bundle. -/
theorem advance_repNext {x : Lane} (h : x.repRun = .none ∨ ∃ p, x.repRun = .setup p) (pc op : Nat) (t : Word) :
    advance (repIssue pc op t false) x = { x with pc := pc + 1 } := by
  obtain h | ⟨p, h⟩ := h <;> simp only [advance, repIssue, isOf, h]

theorem repLane_run (t : Word) (pc : Nat) (a : Lane) : repLane pc 0x10 t false a = { bundleShown pc { a with
    repCount := t, repElem := repElemOp a.repElem 1 (pc + 1) 0, repRun := .setup pc } with pc := pc + 1 } := by
  have hrun : runRep (repIssue pc 0x10 t false) [(0x3C0 + 0x10, t)] a =
      { a with repCount := t, repElem := repElemOp a.repElem 1 (pc + 1) 0, repRun := .setup pc } := by
    rw [runRep, repTrigger_rep (by decide)]
    rfl
  rw [repLane, hrun]
  exact advance_repNext (.inr ⟨pc, rfl⟩) _ _ _

/-- A block operation without elements tests none: q = 0, C = 0, Z = 1, and INV for the reserved size. -/
theorem repLane_empty (hop : 0x11 ≤ op ∧ op ≤ 0x14) (t : Word) (pc : Nat) {a : Lane} (ha : a.repRun = .none)
    (h : t = 0 ∨ field a.repElem 0 2 = 3) : repLane pc op t false a = { bundleShown pc (startOp .rep 1
      (res1 0 (flagWord false false true false false false (field a.repElem 0 2 == 3))) 0 { a with repCount := t, repProc := 0 })
      with pc := pc + 1 } := by
  have hrun : runRep (repIssue pc op t false) [(0x3C0 + op, t)] a = startOp .rep 1
      (res1 0 (flagWord false false true false false false (field a.repElem 0 2 == 3))) 0 { a with repCount := t, repProc := 0 } := by
    rw [runRep, repTrigger_rep (by omega)]
    exact (if_neg (by omega)).trans ((if_neg (by omega)).trans (if_pos h))
  rw [repLane, hrun]
  refine advance_repNext ?_ _ _ _
  exact .inl ha

theorem repLane_block (hop : 0x11 ≤ op ∧ op ≤ 0x14) (t : Word) (pc : Nat) (a : Lane)
    (h : ¬ (t = 0 ∨ field a.repElem 0 2 = 3)) : repLane pc op t false a = { bundleShown pc { a with
      repCount := t, repProc := 0, repElem := repElemOp a.repElem (op - 0x10 + 1) 0 0, repRun := .block pc none none }
      with pc := pc } := by
  have hrun : runRep (repIssue pc op t false) [(0x3C0 + op, t)] a = { a with
      repCount := t, repProc := 0, repElem := repElemOp a.repElem (op - 0x10 + 1) 0 0, repRun := .block pc none none } := by
    rw [runRep, repTrigger_rep (by omega)]
    exact (if_neg (by omega)).trans ((if_neg (by omega)).trans (if_neg h))
  rw [repLane, hrun]
  rfl

theorem repLane_break_outside (t : Word) (pc : Nat) {a : Lane} (ha : a.repRun = .none) :
    repLane pc 0x15 t false a = { bundleShown pc a with pc := pc + 1 } := by
  have hrun : runRep (repIssue pc 0x15 t false) [(0x3C0 + 0x15, t)] a = a := by
    rw [runRep, repTrigger_rep (by decide)]
    simp only [if_true, ha]
  rw [repLane, hrun]
  refine advance_repNext ?_ _ _ _
  exact .inl ha

/-- BREAK in a body is noted for the end of the pass (R132). -/
theorem runRep_break (t : Word) (pc : Nat) {a : Lane} {first len pos : Nat} {brk : Bool} (ha : a.repRun = .body first len pos brk) :
    runRep (repIssue pc 0x15 t true) [(0x3C0 + 0x15, t)] a = { a with repRun := .body first len pos true } := by
  rw [runRep, repTrigger_rep (by decide)]
  simp only [if_true, ha]

theorem repLane_break_within (t : Word) (pc : Nat) {a : Lane} {first len pos : Nat} {brk : Bool}
    (ha : a.repRun = .body first len pos brk) (hpos : pos + 1 < len) : repLane pc 0x15 t true a =
      { bundleShown pc { a with repRun := .body first len (pos + 1) true } with pc := first + pos + 1 } := by
  rw [repLane, runRep_break t pc ha]
  exact if_pos hpos

theorem repLane_break_last (t : Word) (pc : Nat) {a : Lane} {first len pos : Nat} {brk : Bool}
    (ha : a.repRun = .body first len pos brk) (hpos : len ≤ pos + 1) : repLane pc 0x15 t true a =
      { bundleShown pc { a with repRun := .none, repCount := a.repCount - 1, repSrc := a.repSrc + a.repStride
                                repDst := a.repDst + a.repStride, repElem := a.repElem &&& 0xF#32 } with pc := first + len } := by
  rw [repLane, runRep_break t pc ha]
  exact (if_neg (Nat.not_lt.mpr hpos)).trans (if_pos rfl)

end Rep

/-- Settles O17: what a trigger does to the REP state is `runRep`, and where the lane then goes on is `advance`: the setup step, the
same bundle while elements are taken, the rest of the pass, or the bundle after the body. -/
theorem repTriggers : Obligations.RepTriggers := by
  intro l t s ln p bad elem block
  have hbad : ∀ a, repAsNow l s a → (field a.repElem 0 2 == 3) = bad := by
    rintro a ⟨-, -, -, -, -, helem⟩
    rw [helem]
    rfl
  have hblock : laneReady l s → ∀ (i : Instr) (op : Nat), 0x11 ≤ op ∧ op ≤ 0x14 →
      exec i s = act (issueTrigger l (0x3C0 + op) t) s → block i (op - 0x10 + 1) := by
    intro h i op hop hi
    refine ⟨fun ⟨ht, hsize⟩ => hi.trans (rep_issues h (by omega) t fun a ha => ?_),
      fun hnone => hi.trans (rep_issues h (by omega) t (f := fun x => startOp .rep 1
        ⟨0, 0, 0, flagWord false false true false false false bad, 0⟩ 0 { x with repCount := t, repProc := 0 }) fun a ha => ?_)⟩
    · have hsize' : ¬ field a.repElem 0 2 = 3 := by simpa [hsize] using hbad a ha
      rw [repLane_block hop t _ a (not_or.mpr ⟨ht, hsize'⟩), repElemOp_eq, ha.2.2.2.2.2]
    · have hnone' : t = 0 ∨ field a.repElem 0 2 = 3 := hnone.imp_right fun hsize => by simpa [hsize] using hbad a ha
      rw [repLane_empty hop t _ (ha.1.trans h.2.2.1) hnone', hbad a ha]
      rfl
  refine ⟨fun h => ⟨?_, hblock h _ 0x11 (by decide) rfl, hblock h _ 0x12 (by decide) rfl, hblock h _ 0x13 (by decide) rfl,
    hblock h _ 0x14 (by decide) rfl, ?_⟩, fun first len pos brk h => ⟨fun hpos => break_issues h t fun a ha => ?_,
    fun hpos => break_issues h t fun a ha => ?_⟩⟩
  · refine rep_issues (op := 0x10) h (by decide) t (pc := p + 1)
      (f := fun x => { x with repCount := t, repElem := elem (p + 1) 1, repRun := .setup p }) fun a ha => ?_
    rw [repLane_run, repElemOp_eq, ha.2.2.2.2.2]
  · exact rep_issues (op := 0x15) h (by decide) t (pc := p + 1) (f := id) fun a ha =>
      repLane_break_outside t _ (ha.1.trans h.2.2.1)
  · rw [repLane_break_within t _ (ha.1.trans h.2.2.1) hpos]
  · obtain ⟨hrun, hcount, hsrc, hdst, hstride, helem⟩ := ha
    rw [repLane_break_last t _ (hrun.trans h.2.2.1) hpos, hcount, hsrc, hdst, hstride, helem]

end Sys2Proof.Proofs

/-! ### O19: the first template bundle of a call (R139, R140) -/
namespace Sys2Proof.Proofs

open Sys2Proof Sys2Proof.Machine Sys2Proof.Safety Sys2Proof.Laws

section Call
variable {l : Fin 16} {s : State} {b : Nat}

theorem callPar_eq (b i : Nat) : callPar b i = b / 2 ^ (8 + 10 * i) % 1024 := by rw [callPar, Nat.shiftRight_eq_div_pow]
theorem callG_eq (b : Nat) : callG b = b / 2 ^ 48 % 16 := by rw [callG, Nat.shiftRight_eq_div_pow]

/-- MACRO_CALL of a ready lane that stands at the bundle of a call acts on that call. -/
theorem exec_macroCall (h : laneReady l s) (hb : b = fetch s l.val (s.lanes[l.val]).pc)
    (hgood : fetchBad s l.val (s.lanes[l.val]).pc = false) (hres : headerOf b / 64 = 0) (hfmt : headerOf b % 4 = 2) :
    exec (.macroCall l) s = .next (settle (issueCall l (s.lanes[l.val]).pc b s)) := by
  obtain ⟨hrun, -⟩ := runningLane_ready h
  obtain ⟨hpow, hcan, hrep, hmac, hpc, -, -⟩ := h
  have hcall : exec (.macroCall l) s = execMacroCall l s := rfl
  have hfmt' : fmtOf (fetch s l.val (s.lanes[l.val]).pc) = 2 := hb ▸ hfmt
  have hat : atCall l s = true := by simp [atCall, hrun, hrep, hmac, hpc, hfmt']
  have hbundle : issueBundle l s = issueCall l (s.lanes[l.val]).pc b s := by
    rw [issueBundle, if_neg (by omega), if_neg (by simp [hgood]), if_pos hfmt', if_neg (by rw [← hb]; exact not_not.mpr hres), hb]
  have hnext : issueNext l s = issueCall l (s.lanes[l.val]).pc b s := by
    simp only [issueNext, hrun, hcan, hrep, hmac, Bool.not_true, Bool.false_eq_true, if_false, hbundle]
  rw [hcall, execMacroCall, act_powered _ hpow, hat, whenever_true, hnext]

/-! #### The four outcomes of a call -/

/-- The entry that a lane finds is whole: its integrity word holds in the table and in the lane's copy (R136, R137). -/
def callIntact (l : Fin 16) (opc : Nat) (s : State) : Bool :=
  entryIntact opc (activeEntry s opc) && !s.ln.badCopies.contains (l.val, opc)

/-- A quiet step of a ready lane, whose due results do not trap. -/
theorem quietStep_ready (h : laneReady l s) (p : Nat) (f : Lane → Lane) :
    quietStep l p f s = modLane l (fun x => countStep s (f (endStall s (present x)))) s := by
  obtain ⟨hrun, hstop⟩ := runningLane_ready h
  simp only [quietStep, hrun, h.2.2.2.2.2.2, settleStop, hstop, Bool.false_eq_true, if_false]
  rfl

theorem issueCall_eq (h : laneReady l s) (p b : Nat) : issueCall l p b s =
    if guardOk (laneNow l s).p (callG b) = false then
      quietStep l p (fun ln => { ln with pc := p + 1, lastPc := p, lastMacro := false }) s
    else if callIntact l (callOpc b) s = false then laneFault l ⟨0x100C, w (callOpc b), none⟩ p false s
    else if (activeEntry s (callOpc b)).len = 0 then laneFault l ⟨0x100D, w (callOpc b), none⟩ p false s
    else issueTemplate l ⟨callOpc b, p, Vector.ofFn fun i => callPar b i.val, 0⟩ s := by
  obtain ⟨hrun, -⟩ := runningLane_ready h
  simp only [issueCall, hrun, callIntact, Bool.not_eq_true', Bool.or_eq_true, Bool.and_eq_false_iff, Bool.not_eq_false']
  rfl

/-- A call whose guard fails issues nothing (R139). -/
theorem issueCall_skips (h : laneReady l s) (hg : guardOk (laneNow l s).p (callG b) = false) :
    issueCall l (s.lanes[l.val]).pc b s = modLane l (fun x => { endStall s (present x) with
      pc := x.pc + 1, lastPc := x.pc, lastMacro := false, step := x.step + 1, lastIssue := some s.clk.cyc }) s := by
  have hstep : (endStall s (present s.lanes[l.val])).step = (s.lanes[l.val]).step := by
    obtain ⟨_, _, _, _, _, e⟩ := endStall_now l s
    exact (congrArg Lane.step e : (endStall s (laneNow l s)).step = _)
  rw [issueCall_eq h, if_pos hg, quietStep_ready h]
  refine modLane_congr ?_
  rw [← hstep]
  rfl

/-- The first template bundle of a call. -/
theorem issueTemplate_first (l : Fin 16) (opc p : Nat) (params : Vector Nat 4) (s : State) : ∃ is : Issue,
    let e := activeEntry s opc
    issueTemplate l ⟨opc, p, params, 0⟩ s = issueMoves l is (illegalForm (templateBundle e 0)) s
    ∧ is.pc = p ∧ is.body = false ∧ is.macLen = e.len ∧ is.mac = some ⟨opc, p, params, 1⟩
    ∧ is.moves = (movesOf (templateBundle e 0)).map (substMv params) := ⟨_, rfl, rfl, rfl, rfl, rfl, rfl⟩

end Call

/-- Settles O19: MACRO_CALL is `issueCall` at the lane's program counter, whose four outcomes are the clauses. -/
theorem macroCalls : Obligations.MacroCalls := by
  intro l s b h ln opc e params intact hb hgood hres hfmt passes
  have hguard : guardOk (laneNow l s).p (callG b) = passes := by rw [callG_eq]
  have hparams : (Vector.ofFn fun i : Fin 4 => callPar b i.val) = params := by simp only [callPar_eq]; rfl
  have hwhole : callIntact l (callOpc b) s = intact := rfl
  rw [exec_macroCall h hb hgood hres hfmt]
  refine ⟨fun hno => ?_, fun hyes hin hlen => ?_, fun h1 h2 h3 hyes => ⟨fun hbad => ?_, fun hin hlen => ?_⟩⟩
  · rw [issueCall_skips h (hguard.trans hno)]
  · obtain ⟨is, his, hrest⟩ := issueTemplate_first l opc ln.pc params s
    refine ⟨is, ?_, hrest⟩
    rw [issueCall_eq h, hguard, hwhole, hparams, if_neg (by simp [hyes]), if_neg (by simp [hin]),
      if_neg (show ¬ (activeEntry s (callOpc b)).len = 0 from hlen)]
    exact congrArg (fun u => Host.Outcome.next (settle u)) his
  · rw [issueCall_eq h, hguard, hwhole, if_neg (by simp [hyes]), if_pos hbad]
    exact laneFault_first l ⟨0x100C, w opc, none⟩ _ _ s h1 h2 h3
  · rw [issueCall_eq h, hguard, hwhole, if_neg (by simp [hyes]), if_neg (by simp [hin]),
      if_pos (show (activeEntry s (callOpc b)).len = 0 from hlen)]
    exact laneFault_first l ⟨0x100D, w opc, none⟩ _ _ s h1 h2 h3

end Sys2Proof.Proofs

/-! ### O23: commands on the staged chisel table (R136 to R138, R142) -/
namespace Sys2Proof.Proofs

open Sys2Proof Sys2Proof.Machine Sys2Proof.Safety Sys2Proof.Laws

section Chisel
variable {sid : Fin 4} {ss : Session} {s : State}

theorem sesReg_of_session (h : session sid.val s = some ss) (a : Nat) : sesReg sid.val a s = regSes a ss := by
  unfold sesReg; rw [h]

/-- What CHISEL_SEL of the session selects: the entry and the side. -/
theorem chisel_selected (h : session sid.val s = some ss) :
    chiselEntrySel sid.val s = (regSes 0x21008 ss).toNat % 256 ∧ chiselSide sid.val s = (regSes 0x21008 ss).getLsbD 8 := by
  unfold chiselEntrySel chiselSide
  rw [sesReg_of_session h]
  exact ⟨rfl, rfl⟩

/-! #### The gate of R142 -/

theorem chiselGate_denied (f : State → State) (h : chiselEntrySel sid.val s < 0xF0 ∨ chiselSide sid.val s = true) :
    chiselGate sid.val f s = (.denied, s) := if_pos h

theorem chiselGate_busy (f : State → State) (ho : 0xF0 ≤ chiselEntrySel sid.val s) (hside : chiselSide sid.val s = false)
    (h : s.frm.commitArmed = true ∧ s.frm.commitGroups.getLsbD 4 = true) : chiselGate sid.val f s = (.busy, s) :=
  (if_neg (by simp [hside]; omega)).trans (if_pos h)

theorem chiselGate_passes (f : State → State) (ho : 0xF0 ≤ chiselEntrySel sid.val s) (hside : chiselSide sid.val s = false)
    (h : ¬ (s.frm.commitArmed = true ∧ s.frm.commitGroups.getLsbD 4 = true)) : chiselGate sid.val f s = (.ok, f s) :=
  (if_neg (by simp [hside]; omega)).trans (if_neg h)

/-- Every command on the staged table stands behind the gate. -/
theorem chisel_gated (r : Nat) (x : Word) {c : Instr}
    (hc : c ∈ [Instr.seal sid, .chiselClear sid, .chiselCopy sid, .chiselWrite sid r x]) :
    ∃ f, ∀ s, exec c s = act (hostDo sid.val 2 (chiselGate sid.val f)) s := by
  simp only [List.mem_cons, List.not_mem_nil, or_false] at hc
  obtain rfl | rfl | rfl | rfl := hc <;> exact ⟨_, fun _ => rfl⟩

/-! #### The selected staged entry -/

theorem modStaged_eq {i : Fin 16} (h : chiselEntrySel sid.val s = 0xF0 + i.val) (f : Nat → ChiselEntry → ChiselEntry) :
    modStaged sid.val f s =
      { s with ln := { s.ln with staged := s.ln.staged.set i.val (f (0xF0 + i.val) s.ln.staged[i.val]) } } := by
  unfold modStaged
  simp only [h, Nat.add_sub_cancel_left, vmod_of_lt _ _ i.isLt]

theorem stagedEntry_eq (s : State) (i : Fin 16) : stagedEntry s (0xF0 + i.val) = s.ln.staged[i.val] := by
  unfold stagedEntry
  rw [if_neg (by omega), Nat.add_sub_cancel_left, vget_of_lt _ _ i.isLt]

end Chisel

/-- The state with the code that SEAL reports. -/
abbrev withSealErr (c : Nat) (s : State) : State := { s with ln := { s.ln with sealErr := c } }

/-- LEN and NPAR of a header write. -/
theorem field_nibble (x : Word) : field x 0 4 = x.toNat % 16 := rfl
theorem field_params (x : Word) : field x 4 3 = x.toNat / 16 % 8 := by
  rw [field, Nat.shiftRight_eq_div_pow]
  rfl

/-- Settles O23: the gate of R142 decides who passes, and past it each command changes the selected staged entry (R136 to R138).
That a vendor entry or the active side is DENIED even while a commit of the group is armed is the model's choice (log entry
62): R142 gives the two answers without an order. -/
theorem chiselCommands : Obligations.ChiselCommands := by
  intro sid ss s r x h sel o armed all
  obtain ⟨hentry, hside⟩ := chisel_selected h.1.2.1
  refine ⟨fun i hi hs ha => ?_, fun hd c hc => ?_, fun ho hs ha c hc => ?_⟩
  · intro e ends
    have hsel : chiselEntrySel sid.val s = 0xF0 + i.val := hentry.trans hi
    have passes : ∀ f, chiselGate sid.val f s = (.ok, f s) := fun f =>
      chiselGate_passes f (by omega) (hside.trans hs) (by simpa [armed] using ha)
    have done : ∀ {c : Instr} {f : State → State} {t : State}, exec c s = act (hostDo sid.val 2 (chiselGate sid.val f)) s →
        f s = t → exec c s = .next (answered sid ss .ok 4 [] t) := by
      rintro c f _ hc rfl
      exact hc.trans (host_ok h (passes f))
    have hstaged : stagedEntry s (chiselEntrySel sid.val s) = e := hsel ▸ stagedEntry_eq s i
    rw [show o = 0xF0 + i.val from hi]
    refine ⟨done rfl (modStaged_eq hsel _), done rfl rfl, fun hr => done rfl ((modStaged_eq hsel _).trans ?_),
      fun n hr => done rfl ((modStaged_eq hsel _).trans ?_), fun hcode => ⟨done rfl ?_, rfl⟩, fun hcode => done rfl ?_⟩
    · simp only [if_pos hr, field_nibble, field_params]
      rfl
    · subst hr
      simp only [Nat.add_sub_cancel, vset_of_lt _ _ n.isLt]
      rfl
    · simp only [hstaged, hcode, if_true]
      exact modStaged_eq (s := withSealErr 0 s) hsel _
    · simp only [hstaged, hcode, if_false]
      exact modStaged_eq (s := withSealErr (sealCode e) s) hsel _
  · obtain ⟨f, hf⟩ := chisel_gated r x hc
    rw [hf]
    exact host_no h (chiselGate_denied f (by rw [hentry, hside]; exact hd)) (by decide) (by decide)
  · obtain ⟨f, hf⟩ := chisel_gated r x hc
    rw [hf]
    exact host_no h (chiselGate_busy f (by rw [hentry]; exact ho) (hside.trans hs) (by simpa [armed] using ha)) (by decide) (by decide)

end Sys2Proof.Proofs

/-! ### O26: SUBMIT and ABORT of transfer descriptors (R178 to R180, R182) -/
namespace Sys2Proof.Proofs

open Sys2Proof Sys2Proof.Machine Sys2Proof.Safety Sys2Proof.Laws

section Submit
variable {sid : Nat} {s : State} {i : Nat}

/-- The slot that SUBMIT assigns lies in the table and holds nothing in flight. -/
theorem nextSlot_notInFlight (h : nextSlot s = some i) :
    i < 256 ∧ (teSlot s i).state ≠ .queued ∧ (teSlot s i).state ≠ .running := by
  have hfree := List.find?_some h
  have hmem := List.mem_of_find?_eq_some h
  obtain ⟨k, -, rfl⟩ := List.mem_map.mp hmem
  simp only [Bool.and_eq_true, bne_iff_ne] at hfree
  exact ⟨Nat.mod_lt _ (by decide), hfree⟩

theorem submitOp_takes (hc : teCheck s (staged sid s) = .ok) (hn : inFlight s false < 192) (hi : nextSlot s = some i) :
    submitOp sid s = (.ok, { s with mem := { s.mem with
      te := vset s.mem.te i (staged sid s), hostQ := s.mem.hostQ ++ [i], lastSlot := some i
      teLast := vset s.mem.teLast sid i } }) := by
  simp only [submitOp, hc, hi, if_neg (Nat.not_le.mpr hn)]

theorem submitOp_full (hc : teCheck s (staged sid s) = .ok) (h : 192 ≤ inFlight s false ∨ nextSlot s = none) :
    submitOp sid s = (.busy, s) := by
  unfold submitOp
  simp only [hc]
  split
  · rfl
  · next hn => rw [h.resolve_left hn]

theorem submitOp_stopped (h : teCheck s (staged sid s) ≠ .ok) : submitOp sid s = (teCheck s (staged sid s), s) := by
  unfold submitOp
  cases hc : teCheck s (staged sid s) with
  | ok => exact absurd hc h
  | _ => simp only [hc]

end Submit

section Checks
variable {s : State} {d : TeSlot}

theorem winRange_shared {a n : Nat} (hlo : 0x10000000 ≤ a) (hhi : a + n ≤ 0x11800000) (hn : 0 < n) :
    winRange a n = some (.shared, a - 0x10000000) := by
  unfold winRange
  rw [winOf_shared hlo (by omega)]
  exact if_pos (by simp only [Win.size, sharedSize]; omega)

/-- The parts of a descriptor that its operation uses. -/
theorem usesSrc_iff (hop : d.op ≤ 2) : usesSrc d = true ↔ d.op ≠ 1 := by
  simp only [usesSrc, Bool.or_eq_true, beq_iff_eq]; omega
theorem usesDst_iff (hop : d.op ≤ 2) : usesDst d = true ↔ d.op ≠ 2 := by
  simp only [usesDst, Bool.or_eq_true, beq_iff_eq]; omega

/-- A descriptor within shared memory whose destination is in the transfer and working area passes R180. -/
theorem teCheck_shared (hop : d.op ≤ 2) (hlo : 4 ≤ d.len) (hhi : d.len ≤ 0x100000) (hal : d.len % 4 = 0)
    (hsrc : d.op ≠ 1 → 0x10000000 ≤ d.src ∧ d.src + d.len ≤ 0x11800000 ∧ d.src % 4 = 0)
    (hdst : d.op ≠ 2 → 0x10000000 ≤ d.dst ∧ d.dst + d.len ≤ 0x11800000 ∧ d.dst % 4 = 0
      ∧ inTransfer s (d.dst - 0x10000000) d.len = true) : teCheck s d = .ok := by
  rw [← usesSrc_iff hop] at hsrc
  rw [← usesDst_iff hop] at hdst
  have hspace : ¬ ((usesSrc d && (winRange d.src d.len).isNone) || (usesDst d && (winRange d.dst d.len).isNone)) = true := by
    simp only [Bool.or_eq_true, Bool.and_eq_true, not_or, not_and]
    refine ⟨fun hu => ?_, fun hu => ?_⟩
    · obtain ⟨h1, h2, -⟩ := hsrc hu
      simp [winRange_shared h1 h2 (by omega)]
    · obtain ⟨h1, h2, -⟩ := hdst hu
      simp [winRange_shared h1 h2 (by omega)]
  have hlen : ¬ (d.len < 4 ∨ 0x100000 < d.len ∨ d.len % 4 ≠ 0 ∨ (usesSrc d && d.src % 4 != 0) = true
      ∨ (usesDst d && d.dst % 4 != 0) = true) := by
    simp only [Bool.and_eq_true, bne_iff_ne, not_or, not_and, Decidable.not_not]
    exact ⟨by omega, by omega, hal, fun hu => (hsrc hu).2.2, fun hu => (hdst hu).2.2.1⟩
  have hcopy : ¬ d.op = 3 := by omega
  unfold teCheck
  dsimp only
  rw [if_neg hspace, if_neg hlen]
  cases hu : usesDst d with
  | false => split <;> simp [hcopy]
  | true =>
    obtain ⟨h1, h2, -, harea⟩ := hdst hu
    simp [winRange_shared h1 h2 (by omega), hcopy, dstPermitted, harea]

end Checks

section Abort
variable {s : State} {n : Fin 256}

theorem teAbortOp_queued (hf : (s.mem.te[n.val]).firmware = false) (hq : (s.mem.te[n.val]).state = .queued) :
    teAbortOp n.val s = (.ok, { s with mem := { s.mem with
      hostQ := s.mem.hostQ.filter fun j => j != n.val
      te := s.mem.te.set n.val { s.mem.te[n.val] with state := .aborted } } }) := by
  simp only [teAbortOp, teSlot_fin, hf, hq, Bool.false_eq_true, if_false, modTe_fin]

theorem teAbortOp_late (hf : (s.mem.te[n.val]).firmware = false)
    (h : (s.mem.te[n.val]).state ∈ [TeState.running, .done, .refused]) : teAbortOp n.val s = (.late, s) := by
  simp only [List.mem_cons, List.not_mem_nil, or_false] at h
  obtain h | h | h := h <;> simp only [teAbortOp, teSlot_fin, hf, h, Bool.false_eq_true, if_false]

theorem teAbortOp_denied (h : (s.mem.te[n.val]).firmware = true ∨ (s.mem.te[n.val]).state = .free) :
    teAbortOp n.val s = (.denied, s) := by
  simp only [teAbortOp, teSlot_fin]
  split
  · rfl
  · next hf => simp only [h.resolve_left hf]

end Abort

/-- Settles O26: SUBMIT answers by the checks of R180, the 192 host descriptors of R179 and a slot to assign; ABORT by the
slot's origin and state (R182). That every slot out of flight may be assigned again, in a cyclic search from slot 0, is the
model's choice (log entry 30). -/
theorem transferCommands : Obligations.TransferCommands := by
  intro sid ss s n h d x
  refine ⟨fun i hc hn hi => ⟨host_ok h (submitOp_takes hc hn hi), nextSlot_notInFlight hi⟩,
    fun hc hfull => host_no h (submitOp_full hc hfull) (by decide) (by decide), fun r hr hmem => ?_,
    teCheck_shared, fun hf hq => host_ok h (teAbortOp_queued hf hq),
    fun hf hl => host_no h (teAbortOp_late hf hl) (by decide) (by decide),
    fun hd => host_no h (teAbortOp_denied hd) (by decide) (by decide)⟩
  have hres : r ≠ .ok ∧ r ≠ .later := by
    revert hmem; cases r <;> decide
  have hstop : submitOp sid.val s = (r, s) := hr ▸ submitOp_stopped (hr.trans_ne hres.1)
  exact host_no h hstop hres.1 hres.2

end Sys2Proof.Proofs

/-! ### The update session: its lock, its bank and NOR (R380, R387 to R389) -/
namespace Sys2Proof.Proofs

open Sys2Proof Sys2Proof.Machine Sys2Proof.Safety Sys2Proof.Laws

/-! #### The lock (R387) -/

section Lock
variable {sid : Fin 4} {ss : Session} {s t u : State} {op : RegOp} {r : Res}

theorem holder_val_iff : s.upd.holder.map (·.val) = some sid.val ↔ s.upd.holder = some sid := by
  cases s.upd.holder with
  | none => simp
  | some h => simp [Fin.ext_iff]

theorem lockedOut_iff : lockedOut sid.val s = true ↔ ¬ ∀ h, s.upd.holder = some h → h = sid := by
  unfold lockedOut
  cases s.upd.holder with
  | none => simp
  | some h => simp [Fin.val_inj]

/-- Every command of the block is a write that the lock guards. -/
theorem updCmd_guarded {c : Instr} (hc : updCmd c = true) (hsid : (hostCmd c).map (·.1) = some sid) :
    ∃ op, ∀ s, exec c s = act (updDo sid.val op) s := by
  unfold updCmd at hc
  split at hc
  case h_8 => cases hc
  all_goals
    obtain rfl := Option.some.inj hsid
    exact ⟨_, fun _ => rfl⟩

theorem upd_denied (h : heard sid ss s) (hr : ss.role.val < 2) (op : RegOp) :
    act (updDo sid.val op) s = .next (turnedAway sid ss .denied s) := by
  obtain ⟨h1, h2, h3, h4⟩ := h
  unfold act updDo hostDoUpd hostWriteDo
  have hrole : ss.role.val < roleENGINEER ∨ (!recoveryOk true s) = true := .inl hr
  simp only [h1, h2, h3, h4, hrole, if_true, Bool.false_eq_true, if_false, finishRequest, reduceCtorEq, or_self, act_answer]
  rfl

theorem upd_busy (h : heard sid ss s) (hr : 2 ≤ ss.role.val) (hl : ¬ ∀ h, s.upd.holder = some h → h = sid) (op : RegOp) :
    act (updDo sid.val op) s = .next (answered sid ss .busy 0 [] s) :=
  upd_no h hr (if_pos (lockedOut_iff.mpr hl)) (by decide) (by decide)

/-- Past the lock a command acts once the holder's 60 s have started afresh. -/
theorem updGuard_passes (hl : ∀ h, s.upd.holder = some h → h = sid) (ht : updTouch sid.val s = t) :
    updGuard sid.val op s = op t := by
  rw [← ht]
  exact if_neg fun hlocked => lockedOut_iff.mp hlocked hl

theorem upd_accepts (h : heard sid ss s) (hr : 2 ≤ ss.role.val) (hl : ∀ h, s.upd.holder = some h → h = sid)
    (ht : updTouch sid.val s = t) (e : op t = (.ok, u)) : act (updDo sid.val op) s = .next (answered sid ss .ok 4 [] u) :=
  upd_ok h hr ((updGuard_passes hl ht).trans e)

theorem upd_refuses (h : heard sid ss s) (hr : 2 ≤ ss.role.val) (hl : ∀ h, s.upd.holder = some h → h = sid)
    (ht : updTouch sid.val s = t) (e : op t = (r, u)) (h1 : r ≠ .ok) (h2 : r ≠ .later) :
    act (updDo sid.val op) s = .next (answered sid ss r 0 [] u) :=
  upd_no h hr ((updGuard_passes hl ht).trans e) h1 h2

/-- The state with the last request of the lock's holder at a cycle. -/
abbrev heldSince (c : Nat) (s : State) : State := { s with upd := { s.upd with lastReq := c } }

theorem updTouch_eq : updTouch sid.val s = if s.upd.holder = some sid then heldSince s.clk.cyc s else s := by
  unfold updTouch
  simp only [holder_val_iff]
  rfl

theorem updTouch_only (sid : Nat) (s : State) : ∃ c, updTouch sid s = heldSince c s := by
  unfold updTouch
  split
  · exact ⟨s.clk.cyc, rfl⟩
  · exact ⟨s.upd.lastReq, rfl⟩

theorem updTouch_free (sid : Nat) (h : s.upd.holder = none) : updTouch sid s = s := if_neg (by rw [h]; exact nofun)

end Lock

/-! #### The bank's entry in the control record (R380) -/

theorem updBank_lt (s : State) : updBank s < 2 := by
  unfold updBank; split <;> decide

/-- The update state with the entry of a bank changed. -/
abbrev withFwBank (b : Nat) (f : FwBank → FwBank) (u : Upd) : Upd := { u with banks := vmod u.banks b f }

theorem fwBank_changed {b : Nat} (hb : b < 2) (f : FwBank → FwBank) (v : Vector FwBank 2) (d : FwBank) :
    vget d (vmod v b f) b = f (vget d v b) := by
  rw [vget_of_lt _ _ hb, vget_of_lt _ _ hb, vmod_of_lt _ _ hb, Vector.getElem_set_self]

theorem modBank_only (b : Nat) (f : FwBank → FwBank) (s : State) :
    ∃ nvs p, modBank b f s = { s with nvs := nvs, persist := p, upd := withFwBank b f s.upd } := ⟨_, _, rfl⟩

theorem modUpd_modBank_only (b : Nat) (f : FwBank → FwBank) (g : Upd → Upd) (s : State) : ∃ nvs p,
    modUpd g (modBank b f s) = { s with nvs := nvs, persist := p, upd := g (withFwBank b f s.upd) } := by
  obtain ⟨nvs, p, hbank⟩ := modBank_only b f s
  exact ⟨nvs, p, congrArg (modUpd g) hbank⟩

/-- The lock is freed; a VERIFIED bank drops to COMPLETE. -/
theorem updRelease_only (s : State) : ∃ nvs p banks,
    updRelease s = { s with nvs := nvs, persist := p, upd := { s.upd with banks := banks, sess := .idle, holder := none } }
    ∧ (s.upd.sess = .verified → banks = vmod s.upd.banks (updBank s) fun b => { b with state := .complete })
    ∧ (s.upd.sess ≠ .verified → banks = s.upd.banks) := by
  unfold updRelease
  by_cases h : s.upd.sess = .verified
  · obtain ⟨nvs, p, hbank⟩ := modUpd_modBank_only (updBank s) (fun b => { b with state := .complete })
      (fun u => { u with sess := .idle, holder := none }) s
    exact ⟨nvs, p, _, by rw [if_pos h, hbank], fun _ => rfl, fun hn => absurd h hn⟩
  · exact ⟨s.nvs, s.persist, s.upd.banks, by rw [if_neg h]; rfl, fun hv => absurd hv h, fun _ => rfl⟩

theorem updLapse_only (sid : Nat) (s : State) : ∃ evr nvs p banks,
    updLapse sid s = { s with evr := evr, nvs := nvs, persist := p, upd := { s.upd with
      banks := banks, sess := .idle, holder := none, evt := s.upd.evt ||| 4 } }
    ∧ (s.upd.sess = .verified → banks = vmod s.upd.banks (updBank s) fun b => { b with state := .complete })
    ∧ (s.upd.sess ≠ .verified → banks = s.upd.banks) := by
  obtain ⟨evr, hnote⟩ := note_only 0xD022 srcUPD (w s.upd.sess.code) (w s.upd.nextOff) (w sid)
    (modUpd (fun u => { u with evt := setBit u.evt 2 }) s)
  obtain ⟨nvs, p, banks, hrelease, hbanks⟩ := updRelease_only
    { s with evr := evr, upd := { s.upd with evt := setBit s.upd.evt 2 } }
  exact ⟨evr, nvs, p, banks, by unfold updLapse; rw [hnote]; exact hrelease, hbanks⟩

/-! #### NOR written in sectors (R389) -/

/-- NOR with a sector erased; the sectors whose first byte lies in a range; NOR with bytes written to a range, such
sectors erased before. -/
def sectorErased (k : Nat) (m : List (Nat × Byte)) : List (Nat × Byte) :=
  sputs norDefault (k * 0x10000) (List.replicate 0x10000 0xFF) m
def sectorsFrom (a n : Nat) : List Nat :=
  (List.range ((a + n + 0xFFFF) / 0x10000 - (a + 0xFFFF) / 0x10000)).map (· + (a + 0xFFFF) / 0x10000)
def norWritten (a : Nat) (bs : List Byte) (m : List (Nat × Byte)) : List (Nat × Byte) :=
  sputs norDefault a bs (forAll (sectorsFrom a bs.length) sectorErased m)

theorem forAll_modUpd_nor (f : Nat → List (Nat × Byte) → List (Nat × Byte)) (is : List Nat) (s : State) :
    forAll is (fun k s => modUpd (fun u => { u with nor := f k u.nor }) s) s
      = { s with upd := { s.upd with nor := forAll is f s.upd.nor } } := by
  induction is generalizing s with
  | nil => rfl
  | cons k is ih => exact ih _

theorem norWrite_sectors (a : Nat) (bs : List Byte) (s : State) : norWrite a bs s =
    modUpd (fun u => { u with nor := sputs norDefault a bs u.nor })
      (forAll (sectorsFrom a bs.length) (fun k s => modUpd (fun u => { u with nor := sectorErased k u.nor }) s) s) := rfl

theorem norWrite_eq (a : Nat) (bs : List Byte) (s : State) :
    norWrite a bs s = { s with upd := { s.upd with nor := norWritten a bs s.upd.nor } } := by
  have hwritten : ∀ m, modUpd (fun u => { u with nor := sputs norDefault a bs u.nor }) { s with upd := { s.upd with nor := m } }
      = { s with upd := { s.upd with nor := sputs norDefault a bs m } } := fun _ => rfl
  unfold norWritten
  rw [norWrite_sectors, forAll_modUpd_nor, hwritten]

theorem sectorsErased_swf (is : List Nat) {m : List (Nat × Byte)} (h : swf norDefault m = true) :
    swf norDefault (forAll is sectorErased m) = true :=
  List.foldlRecOn (motive := fun m => swf norDefault m = true) _ _ h fun _ hm _ _ => swf_sputs _ _ hm

theorem sget_norWritten_within {a i : Nat} {bs : List Byte} {m : List (Nat × Byte)} (hm : swf norDefault m = true)
    (hi : i < bs.length) : sget norDefault (norWritten a bs m) (a + i) = bs[i] := by
  unfold norWritten
  rw [sget_sputs _ _ _ (sectorsErased_swf _ hm), dif_pos (by omega)]
  simp only [Nat.add_sub_cancel_left]

/-- No sector erased begins below the range or ends beyond the sector in which the range ends. -/
theorem sget_norWritten_outside {a j e : Nat} {bs : List Byte} (m : List (Nat × Byte)) (he : a + bs.length ≤ e)
    (hsector : 0x10000 ∣ e) (hj : j < a ∨ e ≤ j) : sget norDefault (norWritten a bs m) j = sget norDefault m j := by
  obtain ⟨q, rfl⟩ := hsector
  have hbeside : ∀ k ∈ sectorsFrom a bs.length, ∀ m, sget norDefault (sectorErased k m) j = sget norDefault m j := by
    intro k hk m
    obtain ⟨i, hi, rfl⟩ := List.mem_map.mp hk
    rw [List.mem_range] at hi
    exact sget_sputs_other _ (by rw [List.length_replicate]; omega) m
  exact (sget_sputs_other bs (by omega) _).trans (forAll_keeps_mem (g := fun m => sget norDefault m j) hbeside m)

theorem sector_dvd_bankEnd (b : Nat) : 0x10000 ∣ bankBase b + 0x1800000 := by
  unfold bankBase; omega

end Sys2Proof.Proofs

/-! ### O40: UPD_OPEN, CHUNK, ABORT and the lapse of the update lock (R177, R370, R385, R387 to R389) -/
namespace Sys2Proof.Proofs

open Sys2Proof Sys2Proof.Machine Sys2Proof.Safety Sys2Proof.Laws

section Open
variable {sid : Fin 4} {s : State} {m : List Byte}

/-- R387 and log entry 48: what shuts OPEN out. -/
abbrev openShut (s : State) : Prop :=
  lifecycle s = 3 ∨ s.upd.trial = true ∨ s.upd.pending = true ∨ s.upd.sess ≠ .idle

/-- The manifest that UPD_SRC names. -/
abbrev manifestAt (sid : Nat) (s : State) : List Byte := sgets zeroByte s.mem.shared (updSrc sid s) 4096

theorem updOpenOp_shut (h : openShut s) : updOpenOp sid.val s = (.denied, s) := if_pos h

theorem updOpenOp_length (h : ¬ openShut s) (hlen : updLen sid.val s ≠ 4096) : updOpenOp sid.val s = (.badLen, s) :=
  (if_neg h).trans (if_pos hlen)

theorem updOpenOp_source (h : ¬ openShut s) (hlen : updLen sid.val s = 4096)
    (hsrc : inTransfer s (updSrc sid.val s) 4096 = false) : updOpenOp sid.val s = (.denied, s) :=
  (if_neg h).trans ((if_neg (not_not_intro hlen)).trans (if_pos (by rw [manLen, hsrc]; rfl)))

/-- Past the checks on the request the manifest's own decide. -/
theorem updOpenOp_judged (h : ¬ openShut s) (hlen : updLen sid.val s = 4096)
    (hsrc : inTransfer s (updSrc sid.val s) 4096 = true) : updOpenOp sid.val s =
      match manifestCheck s (manifestAt sid.val s) with
      | some c => (.denied, note 0xD021 srcUPD (w c) (w sid.val) 0 (modUpd (fun u => { u with result := BitVec.ofNat 8 c }) s))
      | none => (.ok, openBank sid.val (manifestAt sid.val s) s) :=
  (if_neg h).trans ((if_neg (not_not_intro hlen)).trans (if_neg (by rw [manLen, hsrc]; decide)))

theorem updOpenOp_failed (h : ¬ openShut s) (hlen : updLen sid.val s = 4096)
    (hsrc : inTransfer s (updSrc sid.val s) 4096 = true) {c : Nat} (hc : manifestCheck s (manifestAt sid.val s) = some c) :
    ∃ evr, updOpenOp sid.val s = (.denied, { s with evr := evr, upd := { s.upd with result := BitVec.ofNat 8 c } }) := by
  obtain ⟨evr, hnote⟩ := note_only 0xD021 srcUPD (w c) (w sid.val) 0
    (modUpd (fun u => { u with result := BitVec.ofNat 8 c }) s)
  refine ⟨evr, ?_⟩
  rw [updOpenOp_judged h hlen hsrc, hc]
  exact congrArg (Prod.mk Res.denied) hnote

theorem updOpenOp_opens (h : ¬ openShut s) (hlen : updLen sid.val s = 4096)
    (hsrc : inTransfer s (updSrc sid.val s) 4096 = true) (hc : manifestCheck s (manifestAt sid.val s) = none) :
    updOpenOp sid.val s = (.ok, openBank sid.val (manifestAt sid.val s) s) := by
  rw [updOpenOp_judged h hlen hsrc, hc]

/-- The update state once OPEN of manifest `m` has taken the lock, with the next offset `n`. -/
def lockTaken (sid : Fin 4) (cyc : Nat) (m : List Byte) (n : Nat) (u : Upd) : Upd :=
  { u with
    holder := some sid, lastReq := cyc, total := manTotal m, nextOff := n
    sess := if n < manTotal m then .downloading else .downloaded }

theorem takeLock_only (sid : Fin 4) (m : List Byte) (n : Nat) (s : State) :
    ∃ evr, takeLock sid.val m n s = { s with evr := evr, upd := lockTaken sid s.clk.cyc m n s.upd } := by
  have hsid : Fin.ofNat 4 sid.val = sid := Fin.ext (Nat.mod_eq_of_lt sid.isLt)
  unfold takeLock
  obtain ⟨evr, hnote⟩ := note_only 0xD020 srcUPD (manVersion m) (BitVec.ofNat 32 (leNat ((sha256 m).take 4))) (w sid.val)
    (modUpd (lockTaken (Fin.ofNat 4 sid.val) s.clk.cyc m n) s)
  rw [hsid] at hnote
  exact ⟨evr, by rw [hsid]; exact hnote⟩

/-- The bank holds nothing of the manifest's image. -/
abbrev bankFresh (s : State) (m : List Byte) : Prop :=
  (bankOf s (updBank s)).state = .empty ∨ (bankOf s (updBank s)).hash ≠ sha256 m

/-- The bank's entry for a new image, its manifest written. -/
def newImage (m : List Byte) : FwBank := ⟨if 4096 < manTotal m then .partial_ else .complete, sha256 m, manVersion m, 4096⟩

theorem openBank_fresh (sid : Fin 4) (h : bankFresh s m) : ∃ evr nvs p, openBank sid.val m s = { s with
    evr := evr, nvs := nvs, persist := p
    upd := lockTaken sid s.clk.cyc m 4096 { withFwBank (updBank s) (fun _ => newImage m) s.upd with
      nor := norWritten (bankBase (updBank s)) m s.upd.nor } } := by
  obtain ⟨nvs, p, hbank⟩ := modBank_only (updBank s) (fun _ => newImage m) s
  have hopen : openBank sid.val m s = takeLock sid.val m 4096
      (norWrite (bankBase (updBank s)) m (modBank (updBank s) (fun _ => newImage m) s)) := if_pos h
  rw [hopen, hbank, norWrite_eq]
  obtain ⟨evr, hlock⟩ := takeLock_only sid m 4096 { s with
    nvs := nvs, persist := p
    upd := { withFwBank (updBank s) (fun _ => newImage m) s.upd with nor := norWritten (bankBase (updBank s)) m s.upd.nor } }
  exact ⟨evr, nvs, p, hlock⟩

/-- What an accepted OPEN leaves: the lock with the session, the download at the offset `next`. -/
def updOpened (sid : Fin 4) (m : List Byte) (next : Nat) (s u : State) : Prop :=
  u.upd.holder = some sid ∧ u.upd.nextOff = next ∧ u.upd.total = manTotal m
    ∧ u.upd.sess = (if next < manTotal m then .downloading else .downloaded) ∧ u.upd.lastReq = s.clk.cyc
    ∧ u.mem = s.mem ∧ u.lanes = s.lanes ∧ u.frm = s.frm

theorem openBank_begins (sid : Fin 4) (h : bankFresh s m) (hm : m.length = 4096) (hnor : swf norDefault s.upd.nor = true) :
    updOpened sid m 4096 s (openBank sid.val m s)
    ∧ (∀ i < 4096, sget norDefault (openBank sid.val m s).upd.nor (bankBase (updBank s) + i) = m.getD i 0)
    ∧ bankOf (openBank sid.val m s) (updBank s) = newImage m := by
  obtain ⟨evr, nvs, p, hopen⟩ := openBank_fresh sid h
  rw [hopen]
  refine ⟨⟨rfl, rfl, rfl, rfl, rfl, rfl, rfl, rfl⟩, fun i hi => ?_, fwBank_changed (updBank_lt s) _ _ _⟩
  have hlt : i < m.length := hm ▸ hi
  exact (sget_norWritten_within hnor hlt).trans (List.getD_eq_getElem _ _ hlt).symm

theorem takeLock_opens (sid : Fin 4) (m : List Byte) (n : Nat) (s : State) : updOpened sid m n s (takeLock sid.val m n s)
    ∧ (takeLock sid.val m n s).upd.nor = s.upd.nor ∧ (takeLock sid.val m n s).upd.banks = s.upd.banks := by
  obtain ⟨evr, hlock⟩ := takeLock_only sid m n s
  rw [hlock]
  exact ⟨⟨rfl, rfl, rfl, rfl, rfl, rfl, rfl, rfl⟩, rfl, rfl⟩

/-- An image begun before goes on at the offset reached, rounded down to a sector. -/
theorem openBank_resumes (sid : Fin 4) (h : ¬ bankFresh s m) (hpart : (bankOf s (updBank s)).state = .partial_) :
    updOpened sid m ((bankOf s (updBank s)).reached / 65536 * 65536) s (openBank sid.val m s)
    ∧ (openBank sid.val m s).upd.nor = s.upd.nor ∧ (openBank sid.val m s).upd.banks = s.upd.banks := by
  have hopen : openBank sid.val m s = takeLock sid.val m ((bankOf s (updBank s)).reached / 65536 * 65536) s :=
    (if_neg h).trans (if_pos hpart)
  rw [hopen]
  exact takeLock_opens sid m _ s

theorem openBank_whole (sid : Fin 4) (h : ¬ bankFresh s m) (hpart : (bankOf s (updBank s)).state ≠ .partial_) :
    updOpened sid m (manTotal m) s (openBank sid.val m s)
    ∧ (openBank sid.val m s).upd.nor = s.upd.nor ∧ (openBank sid.val m s).upd.banks = s.upd.banks := by
  have hopen : openBank sid.val m s = takeLock sid.val m (manTotal m) s := (if_neg h).trans (if_neg hpart)
  rw [hopen]
  exact takeLock_opens sid m _ s

end Open

section Chunk
variable {sid : Fin 4} {s : State}

/-- A length that CHUNK takes (R389). -/
abbrev chunkFits (len : Nat) : Prop := 4 ≤ len ∧ len ≤ 0x100000 ∧ len % 4 = 0

theorem chunkFits_iff {len : Nat} : chunkFits len ↔ ¬ (len < 4 ∨ 0x100000 < len ∨ len % 4 ≠ 0) := by
  unfold chunkFits; omega

theorem chunkOp_closed (h : s.upd.sess ≠ .downloading) : chunkOp sid.val s = (.denied, s) := if_pos h

theorem chunkOp_length (h : s.upd.sess = .downloading) (hlen : ¬ chunkFits (updLen sid.val s)) :
    chunkOp sid.val s = (.badLen, s) :=
  (if_neg (not_not_intro h)).trans (if_pos (not_not.mp (mt chunkFits_iff.mpr hlen)))

section Fits
variable (h : s.upd.sess = .downloading) (hlen : chunkFits (updLen sid.val s))
include h hlen

theorem chunkOp_offset (hoff : updOff sid.val s ≠ s.upd.nextOff) : chunkOp sid.val s = (.denied, s) :=
  (if_neg (not_not_intro h)).trans ((if_neg (chunkFits_iff.mp hlen)).trans (if_pos hoff))

variable (hoff : updOff sid.val s = s.upd.nextOff)
include hoff

theorem chunkOp_beyond (hend : s.upd.total < updOff sid.val s + updLen sid.val s) : chunkOp sid.val s = (.badLen, s) :=
  (if_neg (not_not_intro h)).trans ((if_neg (chunkFits_iff.mp hlen)).trans ((if_neg (not_not_intro hoff)).trans (if_pos hend)))

variable (hend : updOff sid.val s + updLen sid.val s ≤ s.upd.total)
include hend

theorem chunkOp_source (hsrc : inTransfer s (updSrc sid.val s) (updLen sid.val s) = false) :
    chunkOp sid.val s = (.denied, s) :=
  (if_neg (not_not_intro h)).trans ((if_neg (chunkFits_iff.mp hlen)).trans ((if_neg (not_not_intro hoff)).trans
    ((if_neg (Nat.not_lt.mpr hend)).trans (if_pos (by rw [hsrc]; rfl)))))

theorem chunkOp_writes (hsrc : inTransfer s (updSrc sid.val s) (updLen sid.val s) = true) :
    chunkOp sid.val s = (.ok, chunkWrite (updOff sid.val s) (updLen sid.val s) (updSrc sid.val s) s) :=
  (if_neg (not_not_intro h)).trans ((if_neg (chunkFits_iff.mp hlen)).trans ((if_neg (not_not_intro hoff)).trans
    ((if_neg (Nat.not_lt.mpr hend)).trans (if_neg (by rw [hsrc]; decide)))))

end Fits

/-- The bank's entry once the download has reached `next`. -/
def chunkReached (total next : Nat) (k : FwBank) : FwBank :=
  { k with reached := next, state := if next < total then k.state else .complete }

theorem chunkReached_below {total next : Nat} (h : next < total) :
    chunkReached total next = fun k => { k with reached := next } :=
  funext fun k => by rw [chunkReached, if_pos h]

theorem chunkReached_end {total next : Nat} (h : ¬ next < total) :
    chunkReached total next = fun k => { k with reached := next, state := .complete } :=
  funext fun k => by rw [chunkReached, if_neg h]

theorem chunkWrite_only (off len src : Nat) (s : State) : ∃ nvs p, chunkWrite off len src s = { s with
    nvs := nvs, persist := p
    upd := { withFwBank (updBank s) (chunkReached s.upd.total (off + len)) s.upd with
      nor := norWritten (bankBase (updBank s) + off) (sgets zeroByte s.mem.shared src len) s.upd.nor
      nextOff := off + len
      sess := if off + len < s.upd.total then s.upd.sess else .downloaded } } := by
  unfold chunkWrite
  dsimp only
  rw [norWrite_eq]
  generalize norWritten (bankBase (updBank s) + off) (sgets zeroByte s.mem.shared src len) s.upd.nor = nor
  by_cases hnext : off + len < s.upd.total
  · obtain ⟨nvs, p, hbank⟩ := modUpd_modBank_only (updBank s) (fun k => { k with reached := off + len })
      (fun u => { u with nextOff := off + len }) { s with upd := { s.upd with nor := nor } }
    refine ⟨nvs, p, (if_pos hnext).trans (hbank.trans ?_)⟩
    rw [chunkReached_below hnext, if_pos hnext]
  · obtain ⟨nvs, p, hbank⟩ := modUpd_modBank_only (updBank s) (fun k => { k with reached := off + len, state := .complete })
      (fun u => { u with nextOff := off + len, sess := .downloaded }) { s with upd := { s.upd with nor := nor } }
    refine ⟨nvs, p, (if_neg hnext).trans (hbank.trans ?_)⟩
    rw [chunkReached_end hnext, if_neg hnext]

/-- What a chunk leaves: its bytes in the bank, the offset reached, the download at its end with the image. -/
theorem chunkWrite_copies {off len src : Nat} (h : s.upd.sess = .downloading) (hend : off + len ≤ s.upd.total)
    (hnor : swf norDefault s.upd.nor = true) (htotal : s.upd.total ≤ 0x1800000) :
    let b := updBank s
    let u := chunkWrite off len src s
    u.upd.nextOff = off + len ∧ u.upd.sess = (if off + len < s.upd.total then .downloading else .downloaded)
    ∧ (bankOf u b).reached = off + len ∧ (off + len = s.upd.total → (bankOf u b).state = .complete)
    ∧ u.mem = s.mem ∧ u.lanes = s.lanes
    ∧ (∀ i < len, sget norDefault u.upd.nor (bankBase b + off + i) = sget zeroByte s.mem.shared (src + i))
    ∧ ∀ a, a < bankBase b + off ∨ bankBase b + 0x1800000 ≤ a →
        sget norDefault u.upd.nor a = sget norDefault s.upd.nor a := by
  intro b u
  obtain ⟨nvs, p, hwrite⟩ := chunkWrite_only off len src s
  have hu : u = _ := hwrite
  have hlen : (sgets zeroByte s.mem.shared src len).length = len := sgets_length _ _ _ _
  have hbank : bankOf u b = chunkReached s.upd.total (off + len) (bankOf s b) := by
    rw [hu]; exact fwBank_changed (updBank_lt s) _ _ _
  rw [hbank, hu]
  refine ⟨rfl, by rw [← h], rfl, fun heq => if_neg (by omega), rfl, rfl, fun i hi => ?_, fun a ha => ?_⟩
  · have hlt : i < (sgets zeroByte s.mem.shared src len).length := hlen.symm ▸ hi
    exact (sget_norWritten_within hnor hlt).trans (sgets_getElem _ _ _ _ _ hlt)
  · exact sget_norWritten_outside s.upd.nor (by rw [hlen, Nat.add_assoc]; exact Nat.add_le_add_left (hend.trans htotal) _)
      (sector_dvd_bankEnd b) ha

end Chunk

section Release
variable {sid : Fin 4} {s : State}

/-- What freeing the lock leaves: the data, and a bank that is not VERIFIED. -/
def lockFreed (s u : State) : Prop :=
  u.upd.nor = s.upd.nor ∧ (s.upd.sess = .verified → (bankOf u (updBank s)).state = .complete)
    ∧ (s.upd.sess ≠ .verified → u.upd.banks = s.upd.banks)

theorem bankDropped {s u : State} (h : u.upd.banks = vmod s.upd.banks (updBank s) fun b => { b with state := .complete }) :
    (bankOf u (updBank s)).state = .complete := by
  unfold bankOf
  rw [h, fwBank_changed (updBank_lt s)]

theorem updRelease_frees (s : State) : (updRelease s).upd.holder = none ∧ (updRelease s).upd.sess = .idle
    ∧ lockFreed s (updRelease s) := by
  obtain ⟨nvs, p, banks, hrelease, hverified, hother⟩ := updRelease_only s
  rw [hrelease]
  exact ⟨rfl, rfl, rfl, fun hv => bankDropped (hverified hv), hother⟩

theorem updAbortOp_frees (h : s.upd.holder = some sid) : updAbortOp sid.val s = (.ok, updRelease s) :=
  if_pos (holder_val_iff.mpr h)

/-- ACTIVATE has committed and the lock is free. -/
abbrev activated (s : State) : Prop := s.upd.pending = true ∨ (s.upd.recovery = true ∧ s.upd.trial = true)

theorem updAbortOp_late (h : s.upd.holder = none) (hc : activated s) : updAbortOp sid.val s = (.late, s) :=
  (if_neg (by rw [h]; exact nofun)).trans (if_pos hc)

theorem updAbortOp_denied (h : s.upd.holder = none) (hc : ¬ activated s) : updAbortOp sid.val s = (.denied, s) :=
  (if_neg (by rw [h]; exact nofun)).trans (if_neg hc)

theorem updLapse_frees (n : Nat) (s : State) : (updLapse n s).upd.holder = none ∧ (updLapse n s).upd.sess = .idle
    ∧ (updLapse n s).upd.evt = s.upd.evt ||| 4 ∧ lockFreed s (updLapse n s)
    ∧ (updLapse n s).hl = s.hl ∧ (updLapse n s).lanes = s.lanes := by
  obtain ⟨evr, nvs, p, banks, hlapse, hverified, hother⟩ := updLapse_only n s
  rw [hlapse]
  exact ⟨rfl, rfl, rfl, ⟨rfl, fun hv => bankDropped (hverified hv), hother⟩, rfl, rfl⟩

theorem exec_updLapse_idle (hp : s.clk.power = true) (h : s.upd.holder = none ∨ s.clk.cyc < s.upd.lastReq + 60 * cycSec) :
    exec .updLapse s = .next (settle s) := by
  show execUpdLapse s = _
  unfold execUpdLapse
  refine act_idle hp ?_
  cases hh : s.upd.holder with
  | none => rfl
  | some n =>
    have hearly := h.resolve_left (by rw [hh]; exact nofun)
    exact if_neg (by simpa using hearly)

theorem exec_updLapse_due {n : Fin 4} (hp : s.clk.power = true) (hh : s.upd.holder = some n)
    (h : s.upd.lastReq + 60 * cycSec ≤ s.clk.cyc) : exec .updLapse s = .next (settle (updLapse n.val s)) := by
  show execUpdLapse s = _
  unfold execUpdLapse
  simp only [act_powered _ hp, hh, h, decide_true, whenever_true]

end Release

/-- Settles O40: role and lock decide who passes (R370, R387); then OPEN judges the session, the length, the source and the
manifest in turn and takes up a new, a begun or a whole image (R388, R389), CHUNK copies into the bank that is not ACTIVE, and
ABORT and the lapse free the lock. The answers to a wrong length or source and outside the session states, and the order of
CHUNK's checks, are the model's choice (log entries 48, 62); so are the role judged before the lock, the 60 s started afresh by
the holder's writes and the image of one manifest that is COMPLETE at once (log entry 49). -/
theorem updateDownload : Obligations.UpdateDownload := by
  intro sid ss s mine t no src len off b
  refine ⟨fun h => ⟨fun hr c hc hsid => ?_, fun hr hl c hc hsid => ?_, fun hr hl => ?_⟩,
    fun hp => ⟨exec_updLapse_idle hp, ?_⟩⟩
  · obtain ⟨op, hop⟩ := updCmd_guarded hc hsid
    exact (hop s).trans (upd_denied h hr op)
  · obtain ⟨op, hop⟩ := updCmd_guarded hc hsid
    exact (hop s).trans (upd_busy h hr hl op)
  · have ht : updTouch sid.val s = t := updTouch_eq
    obtain ⟨c, hc⟩ := updTouch_only sid.val s
    rw [hc] at ht
    clear_value t
    subst ht
    have accepts : ∀ {op u}, op (heldSince c s) = (.ok, u) →
        act (updDo sid.val op) s = .next (answered sid ss .ok 4 [] u) := upd_accepts h hr hl hc
    have refuses : ∀ {op r u}, op (heldSince c s) = (r, u) → r ≠ .ok → r ≠ .later →
        act (updDo sid.val op) s = .next (turnedAway sid ss r u) := upd_refuses h hr hl hc
    refine ⟨?_, fun hs => refuses (chunkOp_closed hs) (by decide) (by decide), fun hs => ?_, fun hh => ?_, fun hh hcom => ?_,
      fun hh hcom => ?_⟩
    · intro m shut k fresh opens taken
      refine ⟨fun hshut => refuses (updOpenOp_shut hshut) (by decide) (by decide),
        fun hopen hlen => refuses (updOpenOp_length hopen hlen) (by decide) (by decide),
        fun hopen hlen hsrc => refuses (updOpenOp_source hopen hlen hsrc) (by decide) (by decide),
        fun code hopen hlen hsrc hcode => ?_, fun ⟨hopen, hlen, hsrc, hcheck⟩ hfresh hnor => ?_,
        fun ⟨hopen, hlen, hsrc, hcheck⟩ hknown hpart => ?_, fun ⟨hopen, hlen, hsrc, hcheck⟩ hknown hpart => ?_⟩
      · obtain ⟨evr, hfail⟩ := updOpenOp_failed (sid := sid) (s := heldSince c s) hopen hlen hsrc hcode
        exact ⟨_, refuses hfail (by decide) (by decide), rfl, rfl⟩
      · exact ⟨_, accepts (updOpenOp_opens hopen hlen hsrc hcheck),
          openBank_begins sid (s := heldSince c s) hfresh (sgets_length _ _ _ _) hnor⟩
      · exact ⟨_, accepts (updOpenOp_opens hopen hlen hsrc hcheck), openBank_resumes sid (s := heldSince c s) hknown hpart⟩
      · exact ⟨_, accepts (updOpenOp_opens hopen hlen hsrc hcheck), openBank_whole sid (s := heldSince c s) hknown hpart⟩
    · intro fits
      exact ⟨fun hlen => refuses (chunkOp_length hs hlen) (by decide) (by decide),
        fun hlen hoff => refuses (chunkOp_offset hs hlen hoff) (by decide) (by decide),
        fun hlen hoff hend => refuses (chunkOp_beyond hs hlen hoff hend) (by decide) (by decide),
        fun hlen hoff hend hsrc => refuses (chunkOp_source hs hlen hoff hend hsrc) (by decide) (by decide),
        fun hlen hoff hend hsrc hnor htotal => ⟨_, accepts (chunkOp_writes hs hlen hoff hend hsrc),
          chunkWrite_copies (s := heldSince c s) hs hend hnor htotal⟩⟩
    · exact ⟨_, accepts (updAbortOp_frees hh), updRelease_frees (heldSince c s)⟩
    · exact upd_refuses h hr hl (updTouch_free sid.val hh) (updAbortOp_late hh hcom) (by decide) (by decide)
    · exact upd_refuses h hr hl (updTouch_free sid.val hh) (updAbortOp_denied hh hcom) (by decide) (by decide)
  · intro hh hdue
    obtain ⟨n, hn⟩ := Option.ne_none_iff_exists'.mp hh
    obtain ⟨hfree, hidle, hevt, ⟨hnor, hverified, hother⟩, hhl, hlanes⟩ := updLapse_frees n.val s
    exact ⟨_, exec_updLapse_due hp hn hdue, hfree, hidle, hevt, hnor, hverified, hother, hhl, hlanes⟩

end Sys2Proof.Proofs

/-! ### The network engine: counters, notes, ports and pairs (R184 to R188, R207, R208) -/
namespace Sys2Proof.Proofs

open Sys2Proof Sys2Proof.Machine Sys2Proof.Safety Sys2Proof.Laws

/-- A row whose condition does not hold, and one whose condition holds, in a powered module. -/
theorem act_due {o : Host.Outcome State Fault Refusal} {cond : State → Bool} {eff : State → State} {s : State} {due : Prop}
    (hp : s.clk.power = true) (ho : o = act (fun s => whenever (cond s) eff s) s) (hcond : cond s = true ↔ due) :
    (¬ due → o = .next (settle s)) ∧ (due → o = .next (settle (eff s))) := by
  rw [ho, act_powered _ hp, ← hcond]
  exact ⟨fun h => by rw [Bool.eq_false_iff.mpr h, whenever_false], fun h => by rw [h, whenever_true]⟩

/-! #### What notes, event bits and mirrored messages touch -/

theorem rlNote_only {mk : Word → State → State} (hmk : ∀ x t, ∃ evr, mk x t = { t with evr := evr }) (obj code : Nat)
    (s : State) : ∃ evr rl, rlNote obj code mk s = { s with evr := evr, rl := rl } := by
  unfold rlNote
  dsimp only
  split_ifs
  · obtain ⟨evr, hnote⟩ := hmk (w ((rlFind obj code s.rl).since + 1))
      { s with rl := rlPut { rlFind obj code s.rl with since := 0, last := some s.clk.cyc } s.rl }
    exact ⟨evr, _, hnote⟩
  · exact ⟨s.evr, _, rfl⟩

theorem neNote_only (obj idx : Nat) (code : BitVec 16) (s : State) :
    ∃ evr rl, neNote obj idx code s = { s with evr := evr, rl := rl } :=
  rlNote_only (fun _ _ => note_only _ _ _ _ _ _) _ _ s

/-- An assertion replaces the event word's pending assertions alone (R36, R39). -/
theorem assertEvw_only (n : Nat) (s : State) :
    ∃ a b c, assertEvw n s = { s with frm := { s.frm with evwNext := a, evwStep := b, evwStepAt := c } } := by
  unfold assertEvw
  split_ifs
  · exact ⟨s.frm.evwNext, _, s.frm.evwStepAt, rfl⟩
  · exact ⟨_, _, _, rfl⟩

theorem hsbSend_only (m : HsbMsg) (s : State) : ∃ hsb, hsbSend m s = { s with hsb := hsb } := by
  unfold hsbSend
  split_ifs
  · exact ⟨_, rfl⟩
  · exact ⟨s.hsb, rfl⟩

/-! #### One element of a vector changed -/

theorem vmod_congr {α : Type} {n : Nat} {v : Vector α n} {i : Nat} {f g : α → α} (h : ∀ hi : i < n, f v[i] = g v[i]) :
    vmod v i f = vmod v i g := by
  unfold vmod
  split_ifs with hi
  · rw [h hi]
  · rfl

theorem vmod_self {α : Type} {n : Nat} {v : Vector α n} {i : Nat} {f : α → α} (h : ∀ hi : i < n, f v[i] = v[i]) :
    vmod v i f = v := by
  unfold vmod
  split_ifs with hi
  · rw [h hi, Vector.set_getElem_self]
  · rfl

theorem vmod_vmod {α : Type} {n : Nat} (v : Vector α n) (i : Nat) (f g : α → α) :
    vmod (vmod v i f) i g = vmod v i (g ∘ f) := by
  unfold vmod
  split_ifs with hi
  · rw [Vector.set_set, Vector.getElem_set_self]
    rfl
  · rfl

/-- Element `i` of a vector of the state becomes its image under `f`, and what `beside` shows stays as it was. -/
def changesAt {β α : Type} {n : Nat} (beside : State → β) (vec : State → Vector α n) (i : Nat) (f : α → α)
    (s u : State) : Prop :=
  beside u = beside s ∧ vec u = vmod (vec s) i f

section ChangesAt
variable {β α : Type} {n i : Nat} {beside : State → β} {vec : State → Vector α n} {f g : α → α} {s t u : State}

theorem changesAt_trans (h : changesAt beside vec i f s t) (h' : changesAt beside vec i g t u) :
    changesAt beside vec i (g ∘ f) s u := ⟨h'.1.trans h.1, by rw [h'.2, h.2, vmod_vmod]⟩

theorem changesAt_then (h : changesAt beside vec i f s t) (hu : beside u = beside t ∧ vec u = vec t) :
    changesAt beside vec i f s u := ⟨hu.1.trans h.1, hu.2.trans h.2⟩

theorem changesAt_congr (h : changesAt beside vec i f s u) (hfg : ∀ hi : i < n, f (vec s)[i] = g (vec s)[i]) :
    changesAt beside vec i g s u := ⟨h.1, h.2.trans (vmod_congr hfg)⟩

theorem changesAt_same {i : Fin n} (h : changesAt beside vec i.val f s u) : (vec u)[i.val] = f (vec s)[i.val] := by
  rw [h.2, getElem_vmod, if_pos rfl]

theorem changesAt_other {i k : Fin n} (h : changesAt beside vec i.val f s u) (hk : k ≠ i) :
    (vec u)[k.val] = (vec s)[k.val] := by
  rw [h.2, getElem_vmod, if_neg hk]

end ChangesAt

/-! #### Counters and pairs -/

theorem getElem_bumped {n : Nat} (v : Vector Word n) {place : Nat} (hplace : place < n) (i : Fin n) :
    (vmod v place (· + 1))[i.val] = v[i.val] + if i.val = place then 1 else 0 := by
  rw [getElem_vmod v (· + 1) ⟨place, hplace⟩ i]
  by_cases h : i.val = place
  · rw [if_pos (Fin.ext h), if_pos h]
    simp only [h]
  · rw [if_neg (fun he => h (congrArg Fin.val he)), if_neg h]
    exact (BitVec.add_zero _).symm

theorem portCnt_portInc {place : Nat} (hplace : place < 8) (port o : Fin 12) (i : Fin 8) (s : State) :
    ((portInc port.val place s).ne.portCnt[o.val])[i.val]
      = (s.ne.portCnt[o.val])[i.val] + if o = port ∧ i.val = place then 1 else 0 := by
  show ((vmod s.ne.portCnt port.val fun c => vmod c place (· + 1))[o.val])[i.val] = _
  rw [getElem_vmod]
  by_cases h : o = port
  · subst h
    simp only [if_true, true_and]
    exact getElem_bumped _ hplace i
  · rw [if_neg h, if_neg (fun hc => h hc.1)]
    exact (BitVec.add_zero _).symm

theorem portViol_only (port place : Nat) (code : BitVec 16) (s : State) : ∃ evr rl, portViol port place code s =
    { s with evr := evr, rl := rl, ne := { (portInc port place s).ne with evt := s.ne.evt ||| 4 } } :=
  neNote_only _ _ _ _

theorem modPair_congr {n : Nat} {f g : Pair → Pair} {s : State} (h : f (nePairOf s n) = g (nePairOf s n)) :
    modPair n f s = modPair n g s := by
  unfold modPair vmod
  split_ifs with hn
  · rw [nePairOf, vget_of_lt _ _ hn] at h
    rw [h]
  · rfl

theorem nePairOf_modPair {n : Nat} (hn : n < 6) (m : Nat) (f : Pair → Pair) (s : State) :
    nePairOf (modPair n f s) m = if m = n then f (nePairOf s m) else nePairOf s m := by
  unfold nePairOf modPair
  rw [vmod_of_lt _ _ hn]
  unfold vget
  by_cases hm : m < 6
  · rw [dif_pos hm, dif_pos hm, Vector.getElem_set]
    by_cases h : m = n
    · subst h; simp
    · rw [if_neg h, if_neg (Ne.symm h)]
  · rw [dif_neg hm, dif_neg hm, if_neg (by omega)]

theorem ownMac_congr {s t : State} {port : Nat} (h : (nePairOf t (pairOf port)).mode = (nePairOf s (pairOf port)).mode) :
    ownMac t port = ownMac s port := by
  unfold ownMac
  dsimp only
  rw [h]

theorem nePairOf_fin (s : State) (n : Fin 6) : nePairOf s n.val = s.ne.pairs[n.val] := vget_of_lt _ _ n.isLt

/-- A frame at a port of a pair without speed error counts as received (R185, R208). -/
theorem arrived_counts {port : Nat} {s : State} (h : spdErr (nePairOf s (port / 2)) = false) :
    arrived port s = portInc port 0 s := if_neg (ne_true_of_eq_false h)

/-- Nothing that judges messages depends on the count of frames received. -/
theorem arrived_only (port : Nat) (s : State) : ∃ cnt, arrived port s = { s with ne := { s.ne with portCnt := cnt } } := by
  unfold arrived
  split_ifs
  · exact ⟨s.ne.portCnt, rfl⟩
  · exact ⟨_, rfl⟩

theorem foldl_portInc_only (xs : List (Nat × SentTag)) (s : State) :
    ∃ cnt, xs.foldl (fun s c => portInc c.1 1 s) s = { s with ne := { s.ne with portCnt := cnt } } := by
  induction xs generalizing s with
  | nil => exact ⟨s.ne.portCnt, rfl⟩
  | cons x xs ih =>
    obtain ⟨cnt, hrest⟩ := ih (portInc x.1 1 s)
    exact ⟨cnt, hrest⟩

/-- A pair with SPD_ERR carries no frame (R185). -/
theorem pairSend_shut {pair : Nat} (port : Nat) (h : TxHead) (m : TxMsg) {s : State}
    (hshut : 6 ≤ pair ∨ spdErr (nePairOf s pair) = true) : pairSend pair port h m s = s := if_pos hshut

/-- A pair that carries frames sends one, and takes the next sequence number in PRP and HSR mode (R187, R188). -/
theorem pairSend_sends {pair : Nat} (port : Nat) (h : TxHead) (m : TxMsg) {s : State} (hpair : pair < 6)
    (hspd : spdErr (nePairOf s pair) = false) : ∃ cnt, pairSend pair port h m s = { s with ne := { s.ne with
      sent := s.ne.sent ++ [frameOf s pair port h m], portCnt := cnt
      pairs := vmod s.ne.pairs pair fun p => if p.mode = 0 then p else { p with seq := (p.seq + 1) % 65536 } } } := by
  unfold pairSend
  rw [if_neg (not_or.mpr ⟨Nat.not_le.mpr hpair, ne_true_of_eq_false hspd⟩)]
  dsimp only
  obtain ⟨cnt, hcount⟩ := foldl_portInc_only (frameOf s pair port h m).copies
    { s with ne := { s.ne with sent := s.ne.sent ++ [frameOf s pair port h m] } }
  rw [hcount]
  exact ⟨cnt, rfl⟩

end Sys2Proof.Proofs

/-! ### O49: ports, redundancy, HSR forwarding, supervision and links (R184 to R189, R208) -/
namespace Sys2Proof.Proofs

open Sys2Proof Sys2Proof.Machine Sys2Proof.Safety Sys2Proof.Laws

/-! #### The tables of frames seen (R189) -/

/-- The table holds an entry of a frame that is younger than 400 ms. -/
abbrev remembers (cyc : Nat) (tab : List (Nat × Nat × Nat)) (mac seq : Nat) : Prop :=
  ∃ e ∈ tab, e.1 = mac ∧ e.2.1 = seq ∧ cyc < e.2.2 + 400 * cycMs

/-- The table with an entry made now: of 1,024 the oldest has left. -/
abbrev remembered (cyc : Nat) (tab : List (Nat × Nat × Nat)) (mac seq : Nat) : List (Nat × Nat × Nat) :=
  (if tab.length < 1024 then tab else tab.drop 1) ++ [(mac, seq, cyc)]

theorem dupFind_iff (s : State) (tab : List (Nat × Nat × Nat)) (mac seq : Nat) :
    dupFind s tab mac seq = true ↔ remembers s.clk.cyc tab mac seq := by
  simp only [dupFind, List.any_eq_true, Bool.and_eq_true, beq_iff_eq, decide_eq_true_eq, and_assoc]

theorem dupAdd_eq (s : State) (tab : List (Nat × Nat × Nat)) (mac seq : Nat) :
    dupAdd s tab mac seq = remembered s.clk.cyc tab mac seq := by
  unfold dupAdd
  dsimp only
  by_cases h : tab.length < 1024
  · rw [remembered, if_pos h, if_neg (Nat.not_le.mpr h)]
  · rw [remembered, if_neg h, if_pos (Nat.not_lt.mp h)]

/-! #### Frames that arrive (R185 to R189, R208) -/

section Frames
variable {s t : State} {port : Fin 12} {f : EthFrame} {cmd : Host.Outcome State Fault Refusal} {seq : Nat}

/-- What a frame carries has gone to its receiver in the state `t`, a PTP message to a group or the own address `mac`. -/
abbrev delivered (port : Fin 12) (f : EthFrame) (mac : Nat) (cmd : Host.Outcome State Fault Refusal) (t : State) : Prop :=
  (∀ m, f.payload = .sv m → cmd = .next (settle (svMessage port.val { m with dmac := f.dstMac } t)))
  ∧ (∀ m, f.payload = .goose m → cmd = .next (settle (gooseMessage port.val { m with dmac := f.dstMac } t)))
  ∧ (∀ m, f.payload = .ptp m →
      (f.dstMac / 2 ^ 40 % 2 = 1 ∨ f.dstMac = mac → cmd = .next (settle (ptpMessage port.val m t)))
      ∧ (¬ (f.dstMac / 2 ^ 40 % 2 = 1 ∨ f.dstMac = mac) → cmd = .next (settle t)))
  ∧ (f.payload = .supervision ∨ f.payload = .other → cmd = .next (settle t))

/-- A second copy is counted and discarded; a first one is remembered and delivered (R189). -/
abbrev deliveredOnce (s : State) (port : Fin 12) (f : EthFrame) (cmd : Host.Outcome State Fault Refusal) (seq : Nat) (t : State) :
    Prop :=
  let p := nePairOf s (port.val / 2)
  (remembers s.clk.cyc p.dups f.srcMac seq → cmd = .next (settle (portInc port.val 5 t)))
  ∧ (¬ remembers s.clk.cyc p.dups f.srcMac seq → delivered port f (ownMac s port.val) cmd
      (modPair (port.val / 2) (fun q => { q with dups := remembered s.clk.cyc p.dups f.srcMac seq }) t))

theorem forUs_iff (s : State) (port : Nat) (f : EthFrame) :
    (toGroup f || toUs s port f) = true ↔ f.dstMac / 2 ^ 40 % 2 = 1 ∨ f.dstMac = ownMac s port := by
  simp only [toGroup, toUs, Bool.or_eq_true, beq_iff_eq]

theorem deliver_delivers (h : cmd = .next (settle (deliver port.val f t))) : delivered port f (ownMac t port.val) cmd t := by
  unfold deliver at h
  refine ⟨fun m hm => ?_, fun m hm => ?_, fun m hm => ?_, fun hm => ?_⟩
  · rw [hm] at h; exact h
  · rw [hm] at h; exact h
  · rw [hm] at h
    dsimp only at h
    simp only [← forUs_iff]
    exact ⟨fun hus => by rw [h, if_pos hus], fun hus => by rw [h, if_neg hus]⟩
  · rcases hm with hm | hm <;> (rw [hm] at h; exact h)

/-- The port's pair and the clocks stand in `t` as in `s`. -/
abbrev samePairs (s t : State) : Prop := t.clk = s.clk ∧ t.ne.pairs = s.ne.pairs

theorem nePairOf_same (h : samePairs s t) (n : Nat) : nePairOf t n = nePairOf s n := by
  unfold nePairOf; rw [h.2]

theorem ownMac_same (h : samePairs s t) (port : Nat) : ownMac t port = ownMac s port :=
  ownMac_congr (by rw [nePairOf_same h])

theorem deliver_delivers_same (hst : samePairs s t) (h : cmd = .next (settle (deliver port.val f t))) :
    delivered port f (ownMac s port.val) cmd t := by
  rw [← ownMac_same hst]
  exact deliver_delivers h

theorem deliverOnce_delivers (hst : samePairs s t) (h : cmd = .next (settle (deliverOnce port.val f.srcMac seq f t))) :
    deliveredOnce s port f cmd seq t := by
  have hn : port.val / 2 < 6 := by omega
  have hp := nePairOf_same hst (port.val / 2)
  unfold deliverOnce at h
  dsimp only [pairOf] at h
  rw [hp] at h
  have hfind := dupFind_iff t (nePairOf s (port.val / 2)).dups f.srcMac seq
  rw [hst.1] at hfind
  refine ⟨fun hr => by rw [h, if_pos (hfind.mpr hr)], fun hr => ?_⟩
  rw [if_neg (fun hd => hr (hfind.mp hd)), modPair_congr (g := fun q =>
    { q with dups := remembered s.clk.cyc (nePairOf s (port.val / 2)).dups f.srcMac seq })
    (by rw [hp, dupAdd_eq, hst.1])] at h
  have hmac := deliver_delivers h
  rw [ownMac_congr (s := s) (by rw [pairOf, nePairOf_modPair hn, if_pos rfl, hp])] at hmac
  exact hmac

/-- A port that takes part, and a frame that it takes in (R185, R208). -/
abbrev portLive (s : State) (port : Nat) : Prop := portLink s port = true ∧ spdErr (nePairOf s (port / 2)) = false
abbrev soundFrame (s : State) (port : Nat) (f : EthFrame) : Prop :=
  portLive s port ∧ f.fcsOk = true ∧ 64 ≤ f.len ∧ f.len ≤ 1528

theorem portFrame_deaf (h : ¬ portLive s port.val) : portFrame port.val f s = s := by
  refine if_pos ?_
  rw [portLive, not_and_or, Bool.not_eq_true, Bool.not_eq_false] at h
  rcases h with h | h
  · exact Or.inl (by rw [h]; rfl)
  · exact Or.inr h

/-- A frame that a live port hears counts as received, and is judged. -/
theorem portFrame_heard (h : portLive s port.val) : portFrame port.val f s =
    if !f.fcsOk then portViol port.val 2 0x4031 (portInc port.val 0 s)
    else if f.len < 64 ∨ 1528 < f.len then portViol port.val 3 0x4031 (portInc port.val 0 s)
    else frameByMode port.val f (portInc port.val 0 s) := by
  obtain ⟨hlink, hspd⟩ := h
  unfold portFrame
  rw [if_neg (by simp [hlink, pairOf, hspd])]
  dsimp only
  rw [arrived_counts hspd]

theorem portFrame_sound (h : soundFrame s port.val f) :
    portFrame port.val f s = frameByMode port.val f (portInc port.val 0 s) := by
  obtain ⟨hlive, hfcs, hmin, hmax⟩ := h
  rw [portFrame_heard hlive, if_neg (by simp [hfcs]), if_neg (by omega)]

/-- What a violation of a received frame leaves. -/
theorem portViol_counts (code : BitVec 16) {place : Nat} (h0 : place ≠ 0) (h8 : place < 8) {u : State}
    (hu : u = settle (portViol port.val place code (portInc port.val 0 s))) : u.ne.evt = s.ne.evt ||| 4
    ∧ (∀ i : Fin 8, (u.ne.portCnt[port.val])[i.val]
        = (s.ne.portCnt[port.val])[i.val] + (if i.val = 0 ∨ i.val = place then 1 else 0))
    ∧ u.ne.sv = s.ne.sv ∧ u.ne.gs = s.ne.gs ∧ u.ne.pairs = s.ne.pairs ∧ u.tim = s.tim ∧ u.mem = s.mem := by
  obtain ⟨evr, rl, hviol⟩ := portViol_only port.val place code (portInc port.val 0 s)
  rw [hu, hviol]
  refine ⟨rfl, fun i => ?_, rfl, rfl, rfl, rfl, rfl⟩
  refine (portCnt_portInc h8 port port i _).trans ?_
  rw [portCnt_portInc (by decide), BitVec.add_assoc]
  by_cases hi : i.val = 0
  · simp [hi, Ne.symm h0]
  · by_cases hp : i.val = place <;> simp [hi, hp, h0]

theorem portViol_samePairs (place : Nat) (code : BitVec 16) :
    samePairs s (portViol port.val place code (portInc port.val 0 s)) := by
  obtain ⟨evr, rl, hviol⟩ := portViol_only port.val place code (portInc port.val 0 s)
  rw [hviol]
  exact ⟨rfl, rfl⟩

/-! #### A sound frame by the mode of its pair (R187, R188) -/

theorem frameByMode_plain (h : (nePairOf t (port.val / 2)).mode = 0 ∨ f.tag = .none) :
    frameByMode port.val f t = deliver port.val f t := by
  unfold frameByMode pairOf
  rcases h with h | h
  · rw [h]
    cases f.tag <;> rfl
  · rw [h]
    split
    · contradiction
    · contradiction
    · rfl

theorem frameByMode_prp {lanOk sizeOk : Bool} (hm : (nePairOf t (port.val / 2)).mode = 1) (ht : f.tag = .prp seq lanOk sizeOk) :
    frameByMode port.val f t = if !sizeOk then deliver port.val f (portViol port.val 6 0x4030 t)
      else deliverOnce port.val f.srcMac seq f (if lanOk then t else portViol port.val 6 0x4030 t) := by
  unfold frameByMode pairOf
  rw [hm, ht]
  rfl

theorem frameByMode_hsr {ok : Bool} (hm : (nePairOf t (port.val / 2)).mode = 2) (ht : f.tag = .hsr seq ok) :
    frameByMode port.val f t = if !ok then portViol port.val 6 0x4030 t
      else if f.srcMac = ownMac t port.val then ringReturn port.val f t else deliverOnce port.val f.srcMac seq f t := by
  unfold frameByMode pairOf
  rw [hm, ht]
  rfl

end Frames

/-! #### HSR ring forwarding (R188) -/

section Forward
variable {s : State} {pair : Fin 6} {fromB : Bool} {f : EthFrame} {seq : Nat}

/-- The port at which a ring frame arrives, the other port of the pair, and the table of its direction. -/
abbrev ringIn (pair : Fin 6) (fromB : Bool) : Nat := 2 * pair.val + (if fromB then 1 else 0)
abbrev ringOut (pair : Fin 6) (fromB : Bool) : Nat := 2 * pair.val + (if fromB then 0 else 1)
abbrev ringTab (p : Pair) (fromB : Bool) : List (Nat × Nat × Nat) := if fromB then p.fwdBA else p.fwdAB

/-- A sound ring frame of another node, not for this node alone, that has not yet gone on in its direction. -/
abbrev goesOn (s : State) (pair : Fin 6) (fromB : Bool) (f : EthFrame) (seq : Nat) : Prop :=
  let p := s.ne.pairs[pair.val]
  f.tag = .hsr seq true ∧ p.mode = 2 ∧ spdErr p = false ∧ p.linkA = true ∧ p.linkB = true
    ∧ f.fcsOk = true ∧ 64 ≤ f.len ∧ f.len ≤ 1528 ∧ f.dstMac ≠ ownMac s (ringIn pair fromB)
    ∧ f.srcMac ≠ ownMac s (ringIn pair fromB) ∧ ¬ remembers s.clk.cyc (ringTab p fromB) f.srcMac seq

theorem portLink_even (s : State) (n : Nat) : portLink s (2 * n) = (nePairOf s n).linkA := by
  rw [portLink, if_pos (by omega), pairOf, Nat.mul_div_cancel_left n (by decide)]

theorem portLink_odd (s : State) (n : Nat) : portLink s (2 * n + 1) = (nePairOf s n).linkB := by
  rw [portLink, if_neg (by omega), pairOf, show (2 * n + 1) / 2 = n by omega]

theorem ringLinks (s : State) (pair : Fin 6) (fromB : Bool) :
    (portLink s (ringIn pair fromB) = true ∧ portLink s (ringOut pair fromB) = true)
      ↔ (nePairOf s pair.val).linkA = true ∧ (nePairOf s pair.val).linkB = true := by
  rw [← portLink_even, ← portLink_odd]
  cases fromB
  · exact Iff.rfl
  · exact and_comm

theorem forwardBody_only (p : Nat) (f : EthFrame) (s : State) :
    ∃ fresh tim, (forwardBody p f s).2 = { s with fresh := fresh, tim := tim }
      ∧ ((∀ m, f.payload ≠ .ptp m) → (forwardBody p f s).1 = none ∧ tim = s.tim) := by
  have hevent : ∀ resp m, ∃ fresh tim, (forwardEvent p resp m s).2 = { s with fresh := fresh, tim := tim } := fun resp m => by
    unfold forwardEvent
    dsimp only
    split_ifs
    · exact ⟨_, _, rfl⟩
    · exact ⟨_, s.tim, rfl⟩
  have hfollow : ∀ resp m, ∃ fresh tim, (forwardFollow p resp m s).2 = { s with fresh := fresh, tim := tim } := fun resp m => by
    unfold forwardFollow
    split
    · exact ⟨s.fresh, _, rfl⟩
    · exact ⟨s.fresh, s.tim, rfl⟩
  unfold forwardBody
  split
  · next m hm =>
    have hptp : ∃ fresh tim, (ptpForward p m s).2 = { s with fresh := fresh, tim := tim } := by
      unfold ptpForward
      split
      · exact hevent _ _
      · exact hevent _ _
      · exact hevent _ _
      · exact hevent _ _
      · exact hfollow _ _
      · exact hfollow _ _
      all_goals exact ⟨s.fresh, s.tim, rfl⟩
    obtain ⟨fresh, tim, h⟩ := hptp
    exact ⟨fresh, tim, h, fun hno => absurd hm (hno m)⟩
  · exact ⟨s.fresh, s.tim, rfl, fun _ => ⟨rfl, rfl⟩⟩

/-- What stops a well-formed ring frame. -/
theorem ringStop_iff (ht : f.tag = .hsr seq true) (hm : (nePairOf s pair.val).mode = 2) :
    (spdErr (nePairOf s pair.val) || !portLink s (ringIn pair fromB) || !portLink s (ringOut pair fromB) || !f.fcsOk
      || decide (f.len < 64 ∨ 1528 < f.len) || toUs s (ringIn pair fromB) f || f.srcMac == ownMac s (ringIn pair fromB)
      || dupFind s (ringTab (nePairOf s pair.val) fromB) f.srcMac seq) = true ↔ ¬ goesOn s pair fromB f seq := by
  have hlinks := ringLinks s pair fromB
  have hdup := dupFind_iff s (ringTab (nePairOf s pair.val) fromB) f.srcMac seq
  rw [← not_iff_not, not_not, goesOn, ← nePairOf_fin, ← hdup]
  simp only [Bool.or_eq_true, not_or, Bool.not_eq_true, Bool.not_eq_false, Bool.not_eq_eq_eq_not, Bool.not_true,
    decide_eq_true_eq, toUs, beq_eq_false_iff_ne, Nat.not_lt, ht, hm, true_and]
  constructor
  · rintro ⟨⟨⟨⟨⟨⟨⟨h1, h2⟩, h3⟩, h4⟩, h5, h6⟩, h7⟩, h8⟩, h9⟩
    exact ⟨h1, (hlinks.mp ⟨h2, h3⟩).1, (hlinks.mp ⟨h2, h3⟩).2, h4, h5, h6, h7, h8, h9⟩
  · rintro ⟨h1, h2, h3, h4, h5, h6, h7, h8, h9⟩
    exact ⟨⟨⟨⟨⟨⟨⟨h1, (hlinks.mpr ⟨h2, h3⟩).1⟩, (hlinks.mpr ⟨h2, h3⟩).2⟩, h4⟩, h5, h6⟩, h7⟩, h8⟩, h9⟩

theorem hsrForward_stops (h : ∀ seq, ¬ goesOn s pair fromB f seq) : hsrForward pair.val fromB f s = s := by
  unfold hsrForward
  dsimp only
  split
  · next seq hm ht => exact if_pos ((ringStop_iff ht hm).mpr (h seq))
  · rfl

/-- The frame as it goes on, with its correctionField `c`, and its pair once it is remembered. -/
def ringFrame (pair : Fin 6) (fromB : Bool) (f : EthFrame) (seq : Nat) (c : Option Int) : TxFrame :=
  ⟨f.srcMac, some f.dstMac, none, none, [(ringOut pair fromB, .hsr seq (Config.lsduSize (.forward c)))], none, .forward c⟩
def withRingTab (fromB : Bool) (tab : List (Nat × Nat × Nat)) (p : Pair) : Pair :=
  if fromB then { p with fwdBA := tab } else { p with fwdAB := tab }

theorem hsrForward_goes (h : goesOn s pair fromB f seq) : ∃ fresh tim c, ((∀ m, f.payload ≠ .ptp m) → c = none ∧ tim = s.tim)
    ∧ hsrForward pair.val fromB f s = portInc (ringOut pair fromB) 1 (portInc (ringOut pair fromB) 7 { s with
        fresh := fresh, tim := tim
        ne := { s.ne with
          sent := s.ne.sent ++ [ringFrame pair fromB f seq c]
          pairs := vmod s.ne.pairs pair.val (withRingTab fromB
            (remembered s.clk.cyc (ringTab s.ne.pairs[pair.val] fromB) f.srcMac seq)) } }) := by
  obtain ⟨ht, hm, -⟩ := id h
  rw [← nePairOf_fin] at hm
  obtain ⟨fresh, tim, hbody, hnone⟩ := forwardBody_only (ringIn pair fromB) f s
  refine ⟨fresh, tim, _, hnone, ?_⟩
  unfold hsrForward
  dsimp only
  rw [hm, ht]
  refine (if_neg (fun hstop => (ringStop_iff ht hm).mp hstop h)).trans ?_
  rw [hbody, dupAdd_eq, nePairOf_fin]
  rfl

/-- What a ring frame that goes on leaves: the frame sent on the other port, remembered and counted. -/
theorem hsrForward_sends (h : goesOn s pair fromB f seq) : ∃ (u : State) (c : Option Int), hsrForward pair.val fromB f s = u
    ∧ ((∀ m, f.payload ≠ .ptp m) → c = none ∧ u.tim = s.tim)
    ∧ u.ne.sent = s.ne.sent ++ [ringFrame pair fromB f seq c]
    ∧ ringTab u.ne.pairs[pair.val] fromB = remembered s.clk.cyc (ringTab s.ne.pairs[pair.val] fromB) f.srcMac seq
    ∧ (∀ o : Fin 12, o.val = ringOut pair fromB → ∀ i : Fin 8, (u.ne.portCnt[o.val])[i.val]
        = (s.ne.portCnt[o.val])[i.val] + (if i.val = 1 ∨ i.val = 7 then 1 else 0))
    ∧ u.ne.sv = s.ne.sv ∧ u.ne.gs = s.ne.gs ∧ u.mem = s.mem ∧ u.frm = s.frm := by
  obtain ⟨fresh, tim, c, hnone, hgoes⟩ := hsrForward_goes h
  refine ⟨_, c, hgoes, hnone, rfl, ?_, fun o ho i => ?_, rfl, rfl, rfl, rfl⟩
  · show ringTab (vmod s.ne.pairs pair.val _)[pair.val] fromB = _
    rw [getElem_vmod, if_pos rfl]
    cases fromB <;> rfl
  · rw [← ho, portCnt_portInc (by decide), portCnt_portInc (by decide), BitVec.add_assoc]
    by_cases h1 : i.val = 1
    · simp [h1]
    · by_cases h7 : i.val = 7 <;> simp [h1, h7]

end Forward

/-! #### Supervision, expiry, links (R184, R187, R188, R189) -/

/-- A change of a pair that keeps its links leaves every port's link. -/
theorem portLink_modPair {n : Nat} (hn : n < 6) {g : Pair → Pair} (hA : ∀ p, (g p).linkA = p.linkA)
    (hB : ∀ p, (g p).linkB = p.linkB) (s : State) : portLink (modPair n g s) = portLink s := by
  funext x
  unfold portLink
  rw [nePairOf_modPair hn]
  by_cases h : pairOf x = n
  · rw [if_pos h, hA, hB]
  · rw [if_neg h]

/-- The frame of a redundant pair: the address of port A, and a copy with its tag on each port with link (R186 to R188). -/
theorem frameOf_redundant {s : State} {pair : Nat} (hmode : (nePairOf s pair).mode ≠ 0) (h : TxHead) (m : TxMsg) :
    frameOf s pair 0 h m = ⟨Config.baseMac.toNat + 2 * pair, h.dst, h.vlan, h.ether,
      ([2 * pair, 2 * pair + 1].filter (portLink s)).map (fun x => (x,
        if (nePairOf s pair).mode = 1 then SentTag.prp (nePairOf s pair).seq (x % 2 == 1) (Config.lsduSize m)
        else if (nePairOf s pair).mode = 2 then .hsr (nePairOf s pair).seq (Config.lsduSize m) else .none)), h.auth, m⟩ := by
  have hpair : pairOf (2 * pair + 0 % 2) = pair := by unfold pairOf; omega
  unfold frameOf ownMac frameCopies
  dsimp only
  rw [hpair, if_neg hmode, if_neg hmode]
  congr 3
  funext x
  congr 1
  split
  · next h1 => rw [if_pos h1]
  · next h2 => rw [if_neg (by omega), if_pos h2]
  · next h1 h2 => rw [if_neg h1, if_neg h2]

/-- A pair whose supervision frame is being sent. -/
def supervised (cyc : Nat) (p : Pair) : Pair := { p with supSent := cyc, supCount := p.supCount + 1 }

/-- A supervision frame of a redundant pair on each of its ports with link. -/
theorem supervision_sends {s : State} {pair : Fin 6} (hmode : (s.ne.pairs[pair.val]).mode ≠ 0)
    (hspd : spdErr s.ne.pairs[pair.val] = false) :
    let p := s.ne.pairs[pair.val]
    let size := Config.lsduSize .supervision
    let tag := fun (x : Nat) => if p.mode = 1 then SentTag.prp p.seq (x % 2 == 1) size
      else if p.mode = 2 then .hsr p.seq size else .none
    let u := supervision pair.val s
    u.ne.sent = s.ne.sent ++ [⟨Config.baseMac.toNat + 2 * pair.val, none, none, none,
        ([2 * pair.val, 2 * pair.val + 1].filter (portLink s)).map (fun x => (x, tag x)), none, .supervision⟩]
    ∧ u.ne.pairs[pair.val] = { p with supSent := s.clk.cyc, supCount := p.supCount + 1, seq := (p.seq + 1) % 65536 }
    ∧ u.ne.sv = s.ne.sv ∧ u.ne.gs = s.ne.gs ∧ u.mem = s.mem := by
  intro p size tag u
  have hp : nePairOf (modPair pair.val (supervised s.clk.cyc) s) pair.val = supervised s.clk.cyc p := by
    rw [nePairOf_modPair pair.isLt, if_pos rfl, nePairOf_fin]
  have hlink := portLink_modPair pair.isLt (g := supervised s.clk.cyc) (fun _ => rfl) (fun _ => rfl) s
  obtain ⟨cnt, hsent⟩ := pairSend_sends 0 ⟨none, none, none, none⟩ .supervision pair.isLt
    (s := modPair pair.val (supervised s.clk.cyc) s) (by rw [hp]; exact hspd)
  rw [frameOf_redundant (by rw [hp]; exact hmode), hp, hlink] at hsent
  have hu : u = _ := hsent
  rw [hu]
  refine ⟨rfl, ?_, rfl, rfl, rfl⟩
  show (vmod (vmod s.ne.pairs pair.val (supervised s.clk.cyc)) pair.val _)[pair.val] = _
  rw [getElem_vmod, getElem_vmod, if_pos rfl, if_pos rfl]
  exact if_neg hmode

theorem ifRuns_iff (code speed : Nat) :
    ifRuns code speed = true ↔ (code = 0 ∧ speed = 3) ∨ (code = 1 ∧ speed = 2) ∨ (code = 2 ∧ 1 ≤ speed ∧ speed ≤ 3) := by
  unfold ifRuns
  split
  · simp
  · simp
  · simp
  · next h0 h1 h2 => exact iff_of_false Bool.false_ne_true (by rintro (h | h | h); exacts [h0 h.1, h1 h.1, h2 h.1])

/-- A port's side of its pair with another link and speed. -/
def relinked (port : Nat) (up : Bool) (speed : Nat) (p : Pair) : Pair :=
  if port % 2 = 0 then { p with linkA := up, spdA := speed } else { p with linkB := up, spdB := speed }

theorem linkChange_same (port : Fin 12) (up : Bool) (speed : Nat) (s : State) :
    portLink (linkChange port.val up speed s) port.val = up
    ∧ portSpeed (linkChange port.val up speed s) port.val = if up then speed else 0 := by
  have hn : pairOf port.val < 6 := by unfold pairOf; omega
  have hp : nePairOf (linkChange port.val up speed s) (pairOf port.val) =
      relinked port.val up (if up then speed else 0) (nePairOf s (pairOf port.val)) :=
    (nePairOf_modPair hn _ _ s).trans (if_pos rfl)
  unfold portLink portSpeed
  rw [hp]
  unfold relinked
  by_cases h : port.val % 2 = 0 <;> simp [h]

theorem linkChange_other {port o : Fin 12} (ho : o ≠ port) (up : Bool) (speed : Nat) (s : State) :
    portLink (linkChange port.val up speed s) o.val = portLink s o.val
    ∧ portSpeed (linkChange port.val up speed s) o.val = portSpeed s o.val := by
  have hn : pairOf port.val < 6 := by unfold pairOf; omega
  have hp : nePairOf (linkChange port.val up speed s) (pairOf o.val) = if pairOf o.val = pairOf port.val then
      relinked port.val up (if up then speed else 0) (nePairOf s (pairOf o.val)) else nePairOf s (pairOf o.val) :=
    nePairOf_modPair hn _ _ s
  unfold portLink portSpeed
  rw [hp]
  by_cases hpair : pairOf o.val = pairOf port.val
  · have hside : o.val % 2 ≠ port.val % 2 := fun h => ho (Fin.ext (by unfold pairOf at hpair; omega))
    rw [if_pos hpair]
    unfold relinked
    by_cases h : port.val % 2 = 0
    · simp [h, show o.val % 2 ≠ 0 by omega]
    · simp [h, show o.val % 2 = 0 by omega]
  · rw [if_neg hpair]
    exact ⟨rfl, rfl⟩

/-! #### The rows -/

section Rows
variable {s : State} (hp : s.clk.power = true)
include hp

theorem exec_portFrame (port : Fin 12) (f : EthFrame) :
    exec (.portFrame port f) s = .next (settle (portFrame port.val f s)) := act_powered _ hp

/-- A sound frame counts as received and goes on by the mode of its pair. -/
theorem exec_portFrame_sound {port : Fin 12} {f : EthFrame} (h : soundFrame s port.val f) :
    exec (.portFrame port f) s = .next (settle (frameByMode port.val f (portInc port.val 0 s))) := by
  rw [exec_portFrame hp, portFrame_sound h]

theorem portFrame_plain {port : Fin 12} {f : EthFrame} (h : soundFrame s port.val f)
    (hplain : (nePairOf s (port.val / 2)).mode = 0 ∨ f.tag = .none) :
    delivered port f (ownMac s port.val) (exec (.portFrame port f) s) (portInc port.val 0 s) :=
  deliver_delivers_same ⟨rfl, rfl⟩ (by rw [exec_portFrame_sound hp h, frameByMode_plain (t := portInc port.val 0 s) hplain])

/-- PRP: a trailer of the wrong size is a tag error; else the first copy counts, of the wrong LAN as an error too (R187). -/
theorem portFrame_prp {port : Fin 12} {f : EthFrame} {seq : Nat} {lanOk sizeOk : Bool} (h : soundFrame s port.val f)
    (hm : (nePairOf s (port.val / 2)).mode = 1) (ht : f.tag = .prp seq lanOk sizeOk) :
    let got := portInc port.val 0 s
    let wrong := portViol port.val 6 0x4030 got
    (sizeOk = false → delivered port f (ownMac s port.val) (exec (.portFrame port f) s) wrong)
    ∧ (sizeOk = true → deliveredOnce s port f (exec (.portFrame port f) s) seq (if lanOk then got else wrong)) := by
  intro got wrong
  have hexec := exec_portFrame_sound hp h
  rw [frameByMode_prp (t := portInc port.val 0 s) hm ht] at hexec
  refine ⟨fun hsize => ?_, fun hsize => ?_⟩
  · rw [hsize] at hexec
    exact deliver_delivers_same (portViol_samePairs 6 0x4030) hexec
  · rw [hsize] at hexec
    refine deliverOnce_delivers ?_ hexec
    cases lanOk
    · exact portViol_samePairs 6 0x4030
    · exact ⟨rfl, rfl⟩

/-- HSR: an ill-formed tag is an error; the own frame has returned; of another's the first copy counts (R188). -/
theorem portFrame_hsr {port : Fin 12} {f : EthFrame} {seq : Nat} {ok : Bool} (h : soundFrame s port.val f)
    (hm : (nePairOf s (port.val / 2)).mode = 2) (ht : f.tag = .hsr seq ok) :
    let got := portInc port.val 0 s
    let cmd := exec (.portFrame port f) s
    (ok = false → cmd = .next (settle (portViol port.val 6 0x4030 got)))
    ∧ (ok = true → f.srcMac = ownMac s port.val → cmd = .next (settle (ringReturn port.val f got)))
    ∧ (ok = true → f.srcMac ≠ ownMac s port.val → deliveredOnce s port f cmd seq got) := by
  intro got cmd
  have hexec : cmd = _ := exec_portFrame_sound hp h
  have hmac : ownMac got port.val = ownMac s port.val := rfl
  rw [frameByMode_hsr (t := got) hm ht, hmac] at hexec
  refine ⟨fun hok => ?_, fun hok hown => ?_, fun hok hown => ?_⟩
  · rw [hexec, hok]; rfl
  · rw [hexec, hok, if_pos hown]; rfl
  · rw [hok, if_neg hown] at hexec
    exact deliverOnce_delivers ⟨rfl, rfl⟩ hexec

/-- When a supervision frame is due (R187, R188). -/
abbrev supervisionDue (s : State) (p : Pair) : Prop :=
  p.mode ≠ 0 ∧ spdErr p = false ∧ (p.supCount = 0 ∨ p.supSent + 2000 * cycMs ≤ s.clk.cyc)

theorem exec_supervisionFrame (pair : Fin 6) :
    (¬ supervisionDue s s.ne.pairs[pair.val] → exec (.supervisionFrame pair) s = .next (settle s))
    ∧ (supervisionDue s s.ne.pairs[pair.val] →
        exec (.supervisionFrame pair) s = .next (settle (supervision pair.val s))) := by
  refine act_due hp (cond := fun s => let p := nePairOf s pair.val
    p.mode != 0 && !spdErr p && (p.supCount == 0 || decide (p.supSent + 2000 * cycMs ≤ s.clk.cyc))) rfl ?_
  simp only [nePairOf_fin, supervisionDue, Bool.and_eq_true, Bool.or_eq_true, Bool.not_eq_true', bne_iff_ne, beq_iff_eq,
    decide_eq_true_eq, and_assoc]

/-- A pair that keeps of its tables the entries younger than 400 ms (R189). -/
def forgetting (cyc : Nat) (p : Pair) : Pair :=
  let young := List.filter fun e : Nat × Nat × Nat => decide (cyc < e.2.2 + 400 * cycMs)
  { p with dups := young p.dups, fwdAB := young p.fwdAB, fwdBA := young p.fwdBA }

theorem exec_duplicateEntryExpiry (pair : Fin 6) : exec (.duplicateEntryExpiry pair) s = .next (settle { s with
    ne := { s.ne with pairs := s.ne.pairs.set pair.val (forgetting s.clk.cyc s.ne.pairs[pair.val]) } }) := by
  have hexec : exec (.duplicateEntryExpiry pair) s = .next (settle (modPair pair.val (forgetting s.clk.cyc) s)) :=
    act_powered (fun s => modPair pair.val (forgetting s.clk.cyc) s) hp
  rw [hexec, modPair, vmod_of_lt _ _ pair.isLt]

/-- A link that changes, and a speed at which the port's interface runs (R184). -/
abbrev linkDiffers (s : State) (port : Fin 12) (up : Bool) (speed : Nat) : Prop :=
  up ≠ portLink s port.val ∨ (up = true ∧ speed ≠ portSpeed s port.val)
abbrev linkRuns (s : State) (port : Fin 12) (speed : Nat) : Prop :=
  let p := nePairOf s (port.val / 2)
  let code := if port.val % 2 = 0 then p.ifA else p.ifB
  (code = 0 ∧ speed = 3) ∨ (code = 1 ∧ speed = 2) ∨ (code = 2 ∧ 1 ≤ speed ∧ speed ≤ 3)

theorem exec_linkChange (port : Fin 12) (up : Bool) (speed : Nat) :
    (¬ (linkDiffers s port up speed ∧ (up = true → linkRuns s port speed)) →
      exec (.linkChange port up speed) s = .next (settle s))
    ∧ (linkDiffers s port up speed ∧ (up = true → linkRuns s port speed) →
      exec (.linkChange port up speed) s = .next (settle (linkChange port.val up speed s))) := by
  refine act_due hp (cond := fun s => (up != portLink s port.val || (up && speed != portSpeed s port.val))
    && (!up || ifRuns (portIf s port.val) speed)) rfl ?_
  have hruns : ifRuns (portIf s port.val) speed = true ↔ linkRuns s port speed := ifRuns_iff _ _
  cases up <;> simp [linkDiffers, hruns]

end Rows

/-- Settles O49: each frame by its mode's own lemma, the counts by `portViol_counts`; forwarding, supervision, expiry and links by
what one such row leaves (R184 to R189, R208). That an untagged frame is delivered in HSR mode, that the table of forwarded frames
works as R189's does, that only ports with link carry a sent frame and the sequence number advances all the same is log 37
(DEDUCED), that a frame's LSDU size is free there too (DESIGN CHOICE): in these clauses the model chose. -/
theorem portEvents : Obligations.PortEvents := by
  unfold Obligations.PortEvents
  intro s hp recent adds
  refine ⟨fun port f => ?_, fun pair fromB f => ?_, fun pair => ?_, fun port up speed => ?_⟩
  · intro n p live sound cmd counts forUs passes got wrong once own
    refine ⟨fun h => ?_, fun h hfcs => ?_, fun h hfcs hlen => ?_, fun h hplain => portFrame_plain hp h hplain,
      fun h hm seq lanOk ht => (portFrame_prp hp h hm ht).1 rfl, fun h hm seq lanOk ht => (portFrame_prp hp h hm ht).2 rfl,
      fun h hm seq ht hown => (portFrame_hsr hp h hm ht).2.2 rfl hown, fun h hm seq ht hown hpay => ?_,
      fun h hm seq ht hown hpay => ?_, fun h hm seq ht => ⟨_, (portFrame_hsr hp h hm ht).1 rfl, ?_⟩⟩
    · rw [show cmd = _ from exec_portFrame hp port f, portFrame_deaf h]
    · exact ⟨_, (exec_portFrame hp port f).trans (by rw [portFrame_heard h, hfcs]; rfl),
        portViol_counts 0x4031 (by decide) (by decide) rfl⟩
    · exact ⟨_, (exec_portFrame hp port f).trans (by rw [portFrame_heard h, hfcs, if_pos hlen]; rfl),
        portViol_counts 0x4031 (by decide) (by decide) rfl⟩
    · exact ((portFrame_hsr hp h hm ht).2.1 rfl hown).trans (congrArg (fun t => Host.Outcome.next (settle t)) (if_neg hpay))
    · exact ((portFrame_hsr hp h hm ht).2.1 rfl hown).trans (congrArg (fun t => Host.Outcome.next (settle t)) (if_pos hpay))
    · exact portViol_counts 0x4030 (by decide) (by decide) rfl
  · intro p inp out tab goes
    refine ⟨fun h => ?_, fun seq h => ?_⟩
    · exact (act_powered _ hp).trans (by rw [hsrForward_stops h])
    · obtain ⟨u, c, hu, hnone, hsent, htab, hcnt, hsv, hgs, hmem, hfrm⟩ := hsrForward_sends h
      exact ⟨settle u, c, hu ▸ act_powered _ hp, hnone, hsent, htab, hcnt, hsv, hgs, hmem, hfrm⟩
  · intro p due size tag
    obtain ⟨hidle, hdue⟩ := exec_supervisionFrame hp pair
    exact ⟨hidle, fun h => ⟨_, hdue h, supervision_sends h.1 h.2.1⟩, exec_duplicateEntryExpiry hp pair⟩
  · intro p code runs differs
    obtain ⟨hidle, hdue⟩ := exec_linkChange hp port up speed
    refine ⟨fun h => hidle fun hd => ?_, fun hd hr => ⟨_, hdue ⟨hd, hr⟩, (linkChange_same port up speed s).1,
      (linkChange_same port up speed s).2, rfl, fun o ho => linkChange_other ho up speed s, rfl, rfl, rfl, rfl⟩⟩
    exact h.elim (fun hn => hn hd.1) fun hn => hn.2 (hd.2 hn.1)

end Sys2Proof.Proofs

/-! ### O51: GOOSE subscriptions and their publications (R200 to R204, R206 to R209) -/
namespace Sys2Proof.Proofs

open Sys2Proof Sys2Proof.Machine Sys2Proof.Safety Sys2Proof.Laws

/-! #### One subscription changed -/

/-- The state without the GOOSE subscriptions, and without what their notes, events and mirrored messages touch. -/
def besideSubs (s : State) : State :=
  { s with
    evr := State.evr0, rl := [], hsb := State.hsb0, frm := { s.frm with evwNext := 0, evwStep := 0, evwStepAt := 0 }
    ne := { s.ne with gs := State.reset.ne.gs, evt := 0, gsStepAt := 0, gsStep := [] } }

/-- What becomes of subscription `i` is `f`, and nothing else but notes, events and mirrored messages changes. -/
abbrev subBecomes (i : Nat) (f : GsSub → GsSub) (s u : State) : Prop := changesAt besideSubs (fun s => s.ne.gs) i f s u

section Becomes

theorem modGs_becomes (i : Nat) (f : GsSub → GsSub) (s : State) : subBecomes i f s (modGs i f s) := ⟨rfl, rfl⟩

theorem neNote_besideSubs (obj idx : Nat) (code : BitVec 16) (s : State) :
    besideSubs (neNote obj idx code s) = besideSubs s ∧ (neNote obj idx code s).ne.gs = s.ne.gs := by
  obtain ⟨evr, rl, hnote⟩ := neNote_only obj idx code s
  rw [hnote]
  exact ⟨rfl, rfl⟩

theorem assertEvw_besideSubs (n : Nat) (s : State) :
    besideSubs (assertEvw n s) = besideSubs s ∧ (assertEvw n s).ne.gs = s.ne.gs := by
  obtain ⟨a, b, c, hevw⟩ := assertEvw_only n s
  rw [hevw]
  exact ⟨rfl, rfl⟩

theorem hsbSend_besideSubs (m : HsbMsg) (s : State) :
    besideSubs (hsbSend m s) = besideSubs s ∧ (hsbSend m s).ne.gs = s.ne.gs := by
  obtain ⟨hsb, hsend⟩ := hsbSend_only m s
  rw [hsend]
  exact ⟨rfl, rfl⟩

/-- A subscription with one count more. -/
def gsBumped (place : Nat) (g : GsSub) : GsSub := { g with cnt := vmod g.cnt place (· + 1) }

theorem gsCount_becomes (i place : Nat) (s : State) : subBecomes i (gsBumped place) s (gsCount i place s) := ⟨rfl, rfl⟩

theorem gsViol_becomes (i place : Nat) (code : BitVec 16) (s : State) :
    subBecomes i (gsBumped place) s (gsViol i place code s) := by
  exact changesAt_then (gsCount_becomes i place s) (neNote_besideSubs (gsObj i) i code _)

/-- The generation of a block advances where its words change (R296). -/
def shownNow (x : GsSub) : GsSub :=
  if gsBlock x = x.shown then x else { x with gen := (x.gen + 1) % 256, shown := gsBlock x }

theorem shownNow_cnt (x : GsSub) (cs : Vector Word 7) : shownNow { x with cnt := cs } = { shownNow x with cnt := cs } := by
  unfold shownNow
  by_cases h : gsBlock x = x.shown
  · rw [if_pos h]; exact if_pos h
  · rw [if_neg h]; exact if_neg h

theorem cnt_shownNow (x : GsSub) : (shownNow x).cnt = x.cnt := by unfold shownNow; split_ifs <;> rfl

theorem gsSub_of_lt {i : Nat} (hi : i < 256) (s : State) : gsSub s i = s.ne.gs[i] := vget_of_lt _ _ hi

theorem gsChanged_becomes {i : Nat} (hi : i < 256) (s : State) : subBecomes i shownNow s (gsChanged i s) := by
  have hshown : gsChanged i s = if gsBlock s.ne.gs[i] = (s.ne.gs[i]).shown then s else
      hsbSend (.mirrorGs i (((s.ne.gs[i]).gen + 1) % 256) (gsDiff (s.ne.gs[i]).shown (gsBlock s.ne.gs[i])))
        (modGs i (fun g => { g with gen := ((s.ne.gs[i]).gen + 1) % 256, shown := gsBlock s.ne.gs[i] }) s) := by
    unfold gsChanged; rw [gsSub_of_lt hi]
  rw [hshown]
  by_cases h : gsBlock s.ne.gs[i] = (s.ne.gs[i]).shown
  · rw [if_pos h]
    exact ⟨rfl, (vmod_self fun _ => if_pos h).symm⟩
  · rw [if_neg h]
    exact changesAt_congr (changesAt_then (modGs_becomes i _ s) (hsbSend_besideSubs _ _)) fun _ => (if_neg h).symm

end Becomes

/-! #### Acceptance (R201 to R203) -/

/-- What every accepted message sets, at network time `t`, and what a new state sets beside it, in the 10 ns step `step`. -/
def accepted (m : GooseMsg) (t : Nat) (g : GsSub) : GsSub :=
  { g with
    state := .valid, sq := m.sq, tal := max 1 m.tal, tAcc := t, ndscom := m.ndsCom
    reject := false, mismatch := false, auth := false }
def renewed (m : GooseMsg) (ms : List Word) (gap restart : Bool) (step : Nat) (g : GsSub) : GsSub :=
  { g with
    st := m.st, t0 := m.t0, t1 := m.t1, members := ms, newFlag := true, gap := gap, restart := restart
    test := m.test, sim := m.sim, newAt := step }

section Messages
variable {i : Nat} {m : GooseMsg} {ms : List Word} {s : State}

theorem gsAccept_becomes (i : Nat) (m : GooseMsg) (s : State) :
    subBecomes i (gsBumped gACC ∘ accepted m (ntCap s)) s (gsAccept i m s) :=
  changesAt_trans (modGs_becomes i (accepted m (ntCap s)) s) (gsCount_becomes i gACC _)

theorem gsNew_becomes (i : Nat) (m : GooseMsg) (ms : List Word) (gap restart : Bool) (s : State) :
    subBecomes i (gsBumped gNEW ∘ renewed m ms gap restart (tickStep s) ∘ gsBumped gACC ∘ accepted m (ntCap s)) s
      (gsNew i m ms gap restart s) := by
  have hnew := changesAt_trans (gsAccept_becomes i m s) (changesAt_trans
    (modGs_becomes i (renewed m ms gap restart (tickStep s)) _) (gsCount_becomes i gNEW _))
  exact changesAt_then hnew (assertEvw_besideSubs 24 _)

theorem gsHold_becomes (i : Nat) (m : GooseMsg) (s : State) :
    subBecomes i (gsBumped gANOM ∘ fun g => { g with state := .held, ndscom := m.ndsCom }) s (gsHold i m s) := by
  unfold gsHold
  dsimp only
  refine changesAt_trans ?_ (gsViol_becomes i gANOM _ _)
  have hheld := modGs_becomes i (fun g => { g with state := .held, ndscom := m.ndsCom }) s
  split_ifs
  · exact changesAt_then hheld (assertEvw_besideSubs 25 (neEvt 1 _))
  · exact hheld

end Messages

/-! #### The verdict (R202) -/

section Verdict
/-- A message is judged by its numbers against one accepted before. -/
abbrev gsKnown (g : GsSub) : Prop := g.state ≠ .wait ∧ g.state ≠ .expired

variable {g : GsSub} {ms : List Word} {nds : Bool} {st sq : Word}

theorem gsVerdict_baseline (h : ¬ gsKnown g) : gsVerdict g nds st sq ms = .baseline :=
  if_pos (by by_contra hno; exact h (not_or.mp hno))

theorem gsVerdict_known (h : gsKnown g) : gsVerdict g nds st sq ms =
    if nds then .hold
    else if st - g.st = 0 then
      if sq - g.sq = 0 ∨ (sq - g.sq).msb then .duplicate else if ms = g.members then .refresh else .hold
    else if !(st - g.st).msb then .new (1 < (st - g.st).toNat) false
    else if st = 1 then .new false true
    else .hold := if_neg (not_or.mpr h)

theorem gsVerdict_needsCommission (h : gsKnown g) (hn : nds = true) : gsVerdict g nds st sq ms = .hold := by
  rw [gsVerdict_known h, if_pos hn]

/-- The same stNum: sqNum decides. -/
theorem gsVerdict_sameState (h : gsKnown g) (hn : nds = false) (hst : st = g.st) : gsVerdict g nds st sq ms =
    if sq = g.sq ∨ (sq - g.sq).msb = true then .duplicate else if ms = g.members then .refresh else .hold := by
  have hsq : sq - g.sq = 0 ↔ sq = g.sq := by bv_omega
  rw [gsVerdict_known h, if_neg (ne_true_of_eq_false hn), if_pos (show st - g.st = 0 by bv_omega)]
  simp only [hsq]

/-- A newer stNum is a new state, with GAP where one was skipped. -/
theorem gsVerdict_newer (h : gsKnown g) (hn : nds = false) (hst : st ≠ g.st) (hmsb : (st - g.st).msb = false) :
    gsVerdict g nds st sq ms = .new (decide (st ≠ g.st + 1)) false := by
  have hgap : (1 < (st - g.st).toNat) ↔ st ≠ g.st + 1 := by bv_omega
  rw [gsVerdict_known h, if_neg (ne_true_of_eq_false hn), if_neg (fun hz => hst (by bv_omega)), if_pos (by rw [hmsb]; rfl)]
  simp only [hgap]

/-- An older one is a restart at 1. -/
theorem gsVerdict_older (h : gsKnown g) (hn : nds = false) (hst : st ≠ g.st) (hmsb : (st - g.st).msb = true) :
    gsVerdict g nds st sq ms = if st = 1 then .new false true else .hold := by
  rw [gsVerdict_known h, if_neg (ne_true_of_eq_false hn), if_neg (fun hz => hst (by bv_omega)), if_neg (by rw [hmsb]; decide)]

end Verdict

/-! #### A message judged (R200, R202, R207) -/

/-- The subscription as `x` with its block shown, and each place of the list counted once. -/
def shownCounted (x : GsSub) (places : List Nat) (g g' : GsSub) : Prop :=
  ∃ cs : Vector Word 7, g' = { shownNow x with cnt := cs }
    ∧ ∀ n : Fin 7, cs[n.val] = g.cnt[n.val] + (if n.val ∈ places then 1 else 0)

theorem shownCounted_one (x : GsSub) {place : Nat} (h : place < 7) : shownCounted x [place] x (shownNow (gsBumped place x)) :=
  ⟨vmod x.cnt place (· + 1), shownNow_cnt x _, fun n => by rw [getElem_bumped _ h]; simp only [List.mem_singleton]⟩

theorem shownCounted_after (x : GsSub) {place : Nat} (h : place < 7) : shownCounted x [place] x (gsBumped place (shownNow x)) :=
  ⟨vmod x.cnt place (· + 1), by rw [gsBumped, cnt_shownNow], fun n => by
    rw [getElem_bumped _ h]; simp only [List.mem_singleton]⟩

/-- A new state counts as accepted and as new. -/
theorem shownCounted_new (m : GooseMsg) (ms : List Word) (gap restart : Bool) (step t : Nat) (g : GsSub) :
    shownCounted (renewed m ms gap restart step (accepted m t g)) [0, 1] g
      (shownNow (gsBumped gNEW (renewed m ms gap restart step (gsBumped gACC (accepted m t g))))) := by
  refine ⟨vmod (vmod g.cnt gACC (· + 1)) gNEW (· + 1), shownNow_cnt (renewed m ms gap restart step (accepted m t g)) _,
    fun n => ?_⟩
  rw [getElem_bumped _ (by decide), getElem_bumped _ (by decide), BitVec.add_assoc]
  congr 1
  revert n
  decide

/-- What a judgement that makes `x` of the subscription leaves. -/
def gsEnds (i : Fin 256) (x : GsSub) (places : List Nat) (s u : State) : Prop :=
  besideSubs u = besideSubs s ∧ shownCounted x places s.ne.gs[i.val] u.ne.gs[i.val]
    ∧ ∀ n : Fin 256, n ≠ i → u.ne.gs[n.val] = s.ne.gs[n.val]

theorem gsEnds_of {i : Fin 256} {f : GsSub → GsSub} {x : GsSub} {places : List Nat} {s u : State} (h : subBecomes i.val f s u)
    (hx : shownCounted x places s.ne.gs[i.val] (f s.ne.gs[i.val])) : gsEnds i x places s u := by
  refine ⟨h.1, ?_, fun n hn => changesAt_other h hn⟩
  rw [changesAt_same h]
  exact hx

/-- What a verdict makes of a message (R202, R203). -/
def gsTaken (i : Fin 256) (m : GooseMsg) (ms : List Word) (s : State) : GsVerdict → State
  | .baseline => gsChanged i.val (gsNew i.val m ms false false
      (if (s.ne.gs[i.val]).state = .expired then neNote (gsObj i.val) i.val 0x4025 s else s))
  | .hold => gsChanged i.val (gsHold i.val m s)
  | .duplicate => gsCount i.val gREJ (gsChanged i.val (modGs i.val (fun g => { g with ndscom := m.ndsCom }) s))
  | .refresh => gsChanged i.val (gsAccept i.val m s)
  | .new gap restart => gsChanged i.val (gsNew i.val m ms gap restart s)

section Judge
variable {i : Fin 256} {m : GooseMsg} {ms : List Word} {s : State}

theorem gsTake_eq : gsTake i.val m ms s = gsTaken i m ms s (gsVerdict s.ne.gs[i.val] m.ndsCom m.st m.sq ms) := by
  unfold gsTake
  rw [gsSub_of_lt i.isLt]
  rfl

theorem gsNew_ends (m : GooseMsg) (ms : List Word) (gap restart : Bool) (s : State) :
    gsEnds i (renewed m ms gap restart (tickStep s) (accepted m (ntCap s) s.ne.gs[i.val])) [0, 1] s
      (gsChanged i.val (gsNew i.val m ms gap restart s)) :=
  gsEnds_of (changesAt_trans (gsNew_becomes i.val m ms gap restart s) (gsChanged_becomes i.isLt _))
    (shownCounted_new m ms gap restart _ _ _)

theorem gsTake_baseline (hv : gsVerdict s.ne.gs[i.val] m.ndsCom m.st m.sq ms = .baseline) :
    gsEnds i (renewed m ms false false (tickStep s) (accepted m (ntCap s) s.ne.gs[i.val])) [0, 1] s (gsTake i.val m ms s) := by
  rw [gsTake_eq, hv, gsTaken]
  split_ifs
  · obtain ⟨evr, rl, hnote⟩ := neNote_only (gsObj i.val) i.val 0x4025 s
    rw [hnote]
    exact gsNew_ends m ms false false { s with evr := evr, rl := rl }
  · exact gsNew_ends m ms false false s

theorem gsTake_new {gap restart : Bool} (hv : gsVerdict s.ne.gs[i.val] m.ndsCom m.st m.sq ms = .new gap restart) :
    gsEnds i (renewed m ms gap restart (tickStep s) (accepted m (ntCap s) s.ne.gs[i.val])) [0, 1] s (gsTake i.val m ms s) := by
  rw [gsTake_eq, hv, gsTaken]
  exact gsNew_ends m ms gap restart s

theorem gsTake_hold (hv : gsVerdict s.ne.gs[i.val] m.ndsCom m.st m.sq ms = .hold) :
    gsEnds i { s.ne.gs[i.val] with state := .held, ndscom := m.ndsCom } [2] s (gsTake i.val m ms s) := by
  rw [gsTake_eq, hv, gsTaken]
  exact gsEnds_of (changesAt_trans (gsHold_becomes i.val m s) (gsChanged_becomes i.isLt _))
    (shownCounted_one { s.ne.gs[i.val] with state := .held, ndscom := m.ndsCom } (by decide))

theorem gsTake_duplicate (hv : gsVerdict s.ne.gs[i.val] m.ndsCom m.st m.sq ms = .duplicate) :
    gsEnds i { s.ne.gs[i.val] with ndscom := m.ndsCom } [6] s (gsTake i.val m ms s) := by
  rw [gsTake_eq, hv, gsTaken]
  exact gsEnds_of (changesAt_trans (changesAt_trans (modGs_becomes i.val (fun g => { g with ndscom := m.ndsCom }) s)
    (gsChanged_becomes i.isLt _)) (gsCount_becomes i.val gREJ _))
    (shownCounted_after { s.ne.gs[i.val] with ndscom := m.ndsCom } (by decide))

theorem gsTake_refresh (hv : gsVerdict s.ne.gs[i.val] m.ndsCom m.st m.sq ms = .refresh) :
    gsEnds i (accepted m (ntCap s) s.ne.gs[i.val]) [0] s (gsTake i.val m ms s) := by
  rw [gsTake_eq, hv, gsTaken]
  exact gsEnds_of (changesAt_trans (gsAccept_becomes i.val m s) (gsChanged_becomes i.isLt _))
    (shownCounted_one (accepted m (ntCap s) s.ne.gs[i.val]) (by decide))

/-- The checks that a message passes before it is judged. -/
abbrev gsFits (s : State) (i : Fin 256) (m : GooseMsg) : Prop :=
  neAccepts s kGSSUB i.val m.vlan m.sim (fun x => m.confRev == x) = true

/-- A message that a check refuses counts at its place and shows its bit. -/
theorem gsRefused_ends (place : Nat) (hplace : place < 7) (code : BitVec 16) (f : GsSub → GsSub)
    (hcnt : ∀ g, (f g).cnt = g.cnt) (s : State) : gsEnds i (f s.ne.gs[i.val]) [place] s
      (gsChanged i.val (gsViol i.val place code (modGs i.val f (gsKeep i.val s)))) := by
  have hbecomes : subBecomes i.val (shownNow ∘ gsBumped place ∘ f) s
      (gsChanged i.val (gsViol i.val place code (modGs i.val f (gsKeep i.val s)))) :=
    changesAt_trans (changesAt_trans (modGs_becomes i.val f (gsKeep i.val s)) (gsViol_becomes i.val place code _))
      (gsChanged_becomes i.isLt _)
  obtain ⟨cs, hx, hcs⟩ := shownCounted_one (f s.ne.gs[i.val]) hplace
  exact gsEnds_of hbecomes ⟨cs, hx, by rw [← hcnt]; exact hcs⟩

theorem gsJudge_refused (h : ¬ gsFits s i m) :
    gsEnds i { s.ne.gs[i.val] with reject := true } [6] s (gsJudge i.val m s) := by
  have hjudge : gsJudge i.val m s = _ := if_pos (by rw [Bool.not_eq_true', ← Bool.not_eq_true]; exact h)
  rw [hjudge]
  exact gsRefused_ends gREJ (by decide) 0x4023 (fun g => { g with reject := true }) (fun _ => rfl) s

theorem gsJudge_unauthenticated (h : gsFits s i m) (ha : ¬ authOk s kGSSUB i.val m.auth = true) :
    gsEnds i { s.ne.gs[i.val] with auth := true } [5] s (gsJudge i.val m s) := by
  have hjudge : gsJudge i.val m s = _ := (if_neg (by rw [Bool.not_eq_true', Bool.not_eq_false]; exact h)).trans
    (if_pos (by rw [Bool.not_eq_true', ← Bool.not_eq_true]; exact ha))
  rw [hjudge]
  exact gsRefused_ends gAUTH (by decide) 0x4022 (fun g => { g with auth := true }) (fun _ => rfl) s

/-- A message that passes the first checks has its members decoded. -/
theorem gsJudge_decodes (h : gsFits s i m) (ha : authOk s kGSSUB i.val m.auth = true) : gsJudge i.val m s =
    match gsDecode s i.val m.data with
    | none => gsChanged i.val (gsViol i.val gMIS 0x4020 (modGs i.val (fun g => { g with mismatch := true }) (gsKeep i.val s)))
    | some ms => gsTake i.val m ms (gsKeep i.val s) :=
  (if_neg (by rw [Bool.not_eq_true', Bool.not_eq_false]; exact h)).trans
    (if_neg (by rw [Bool.not_eq_true', Bool.not_eq_false]; exact ha))

theorem gsJudge_mismatched (h : gsFits s i m) (ha : authOk s kGSSUB i.val m.auth = true)
    (hd : gsDecode s i.val m.data = none) : gsEnds i { s.ne.gs[i.val] with mismatch := true } [4] s (gsJudge i.val m s) := by
  rw [gsJudge_decodes h ha, hd]
  exact gsRefused_ends gMIS (by decide) 0x4020 (fun g => { g with mismatch := true }) (fun _ => rfl) s

/-- A message that passes every check is taken as its verdict says; what the tick keeps of the step is beside the point. -/
theorem gsJudge_takes {x : GsSub} {places : List Nat} (h : gsFits s i m) (ha : authOk s kGSSUB i.val m.auth = true)
    (hd : gsDecode s i.val m.data = some ms)
    (ht : gsEnds i x places (gsKeep i.val s) (gsTake i.val m ms (gsKeep i.val s))) :
    gsEnds i x places s (gsJudge i.val m s) := by
  rw [gsJudge_decodes h ha, hd]
  exact ht

end Judge

/-! #### GOOSE_MESSAGE -/

/-- A module that judges messages of a port: before t_d, the pair without speed error (R185, R209). -/
abbrev heardAt (s : State) (port : Nat) : Prop := s.sys.latched = false ∧ spdErr (nePairOf s (port / 2)) = false

theorem heardAt_iff (s : State) (port : Nat) :
    ¬ heardAt s port ↔ ((!neListens s) = true ∨ spdErr (nePairOf s (pairOf port)) = true) := by
  simp only [heardAt, neListens, pairOf, not_and_or, Bool.not_eq_false, Bool.not_not]

section GooseMessage
variable {s : State} {port : Fin 12} {m : GooseMsg}

theorem gooseMessage_deaf (h : ¬ heardAt s port.val) : gooseMessage port.val m s = s := if_pos ((heardAt_iff _ _).mp h)

theorem gooseMessage_heard (h : heardAt s port.val) : gooseMessage port.val m s =
    if (gsSelected port.val m s).isEmpty then portInc port.val 4 s
    else forAll (gsSelected port.val m s) (fun i s => gsJudge i m s) s :=
  if_neg fun hd => (heardAt_iff _ _).mpr hd h

theorem gooseMessage_unselected (h : heardAt s port.val) (hsel : gsSelected port.val m s = []) :
    gooseMessage port.val m s = portInc port.val 4 s := by rw [gooseMessage_heard h, hsel]; rfl

theorem gooseMessage_selected (h : heardAt s port.val) {i : Nat} (hsel : gsSelected port.val m s = [i]) :
    gooseMessage port.val m s = gsJudge i m s := by rw [gooseMessage_heard h, hsel]; rfl

end GooseMessage

/-- The count of frames received, which nothing that judges a message reads. -/
def withPortCnt (cnt : Vector (Vector Word 8) 12) (s : State) : State := { s with ne := { s.ne with portCnt := cnt } }

theorem arrived_eq (port : Nat) (s : State) : ∃ cnt, arrived port s = withPortCnt cnt s := arrived_only port s

section GooseRow
variable {s : State} {port : Fin 12} {m : GooseMsg} (hp : s.clk.power = true)
include hp

theorem exec_gooseMessage (port : Fin 12) (m : GooseMsg) :
    exec (.gooseMessage port m) s = .next (settle (gooseMessage port.val m (arrived port.val s))) :=
  act_powered (fun s => gooseMessage port.val m (arrived port.val s)) hp

theorem exec_gooseMessage_deaf (h : ¬ heardAt s port.val) :
    exec (.gooseMessage port m) s = .next (settle (arrived port.val s)) := by
  obtain ⟨cnt, harr⟩ := arrived_eq port.val s
  rw [exec_gooseMessage hp, harr, gooseMessage_deaf (s := withPortCnt cnt s) h]

theorem exec_gooseMessage_unselected (h : heardAt s port.val) (hsel : gsSelected port.val m s = []) :
    exec (.gooseMessage port m) s = .next (settle (portInc port.val 4 (arrived port.val s))) := by
  obtain ⟨cnt, harr⟩ := arrived_eq port.val s
  rw [exec_gooseMessage hp, harr, gooseMessage_unselected (s := withPortCnt cnt s) h hsel]

theorem exec_gooseMessage_selected (h : heardAt s port.val) {i : Nat} (hsel : gsSelected port.val m s = [i]) :
    exec (.gooseMessage port m) s = .next (settle (gsJudge i m (arrived port.val s))) := by
  obtain ⟨cnt, harr⟩ := arrived_eq port.val s
  rw [exec_gooseMessage hp, harr, gooseMessage_selected (s := withPortCnt cnt s) h hsel]

end GooseRow

/-- What a judgement leaves of the module once the message's frame counts as received. -/
theorem gsEnds_settles {i : Fin 256} {x : GsSub} {places : List Nat} {s u : State} {port : Nat}
    {cmd : Host.Outcome State Fault Refusal} (hcmd : cmd = .next (settle u)) (h : gsEnds i x places (arrived port s) u) :
    ∃ (v : State) (cs : Vector Word 7), cmd = .next v ∧ v.ne.gs[i.val] = { shownNow x with cnt := cs }
      ∧ v.ne.portCnt = (arrived port s).ne.portCnt
      ∧ (∀ n : Fin 7, cs[n.val] = (s.ne.gs[i.val]).cnt[n.val] + (if n.val ∈ places then 1 else 0))
      ∧ (∀ n : Fin 256, n ≠ i → v.ne.gs[n.val] = s.ne.gs[n.val]) ∧ v.mem = s.mem ∧ v.lanes = s.lanes ∧ v.ne.sv = s.ne.sv := by
  obtain ⟨cnt, harr⟩ := arrived_eq port s
  rw [harr] at h ⊢
  obtain ⟨hb, ⟨cs, hx, hcs⟩, hother⟩ := h
  exact ⟨settle u, cs, hcmd, hx, (congrArg (fun t : State => t.ne.portCnt) hb :), hcs, hother, (congrArg State.mem hb :),
    (congrArg State.lanes hb :), (congrArg (fun t : State => t.ne.sv) hb :)⟩

/-! #### GOOSE_EXPIRY (R203) -/

section Expiry
variable {s : State} (i : Fin 256)

/-- A subscription that expires at the tick in force. -/
abbrev expiryDue (s : State) (i : Fin 256) : Prop :=
  s.frm.state = .running ∧ s.sys.latched = false ∧ s.clk.tickph = 0
    ∧ ((gsAtTick s i.val).state = .valid ∨ (gsAtTick s i.val).state = .held)
    ∧ (gsAtTick s i.val).tAcc + (gsAtTick s i.val).tal * 10 ^ 16 ≤ s.frm.ttick

theorem exec_gooseExpiry (hp : s.clk.power = true) :
    (¬ expiryDue s i → exec (.gooseExpiry i) s = .next (settle s))
    ∧ (expiryDue s i → exec (.gooseExpiry i) s = .next (settle (gsExpire i.val s))) := by
  refine act_due hp (cond := fun s => running s && neListens s && s.clk.tickph == 0 && gsOverdue s i.val) rfl ?_
  have hms : ntSec / 1000 = 10 ^ 16 := by decide
  simp only [running, neListens, gsOverdue, hms, Bool.and_eq_true, Bool.or_eq_true, Bool.not_eq_true', beq_iff_eq,
    decide_eq_true_eq, and_assoc]

/-- A subscription that a message of the tick's own step has restarted stays as that left it. -/
def expired (fresh : Bool) (g : GsSub) : GsSub := if fresh then g else { g with state := .expired }

theorem gsExpire_leaves (s : State) :
    let u := gsExpire i.val s
    shownCounted (expired (gsFresh s i.val) s.ne.gs[i.val]) [3] s.ne.gs[i.val] u.ne.gs[i.val]
    ∧ u.ne.frozen = sput zeroWord (0x1000 + 0x40 * i.val)
        ((sget zeroWord s.ne.frozen (0x1000 + 0x40 * i.val) &&& ~~~3#32) ||| 4#32) s.ne.frozen
    ∧ (∀ n : Fin 256, n ≠ i → u.ne.gs[n.val] = s.ne.gs[n.val]) ∧ u.mem = s.mem ∧ u.lanes = s.lanes := by
  have hviol := changesAt_trans (modGs_becomes i.val (expired (gsFresh s i.val)) s) (gsViol_becomes i.val gEXP 0x4024 _)
  have hall := changesAt_trans (changesAt_then hviol (assertEvw_besideSubs 25 (neEvt 1 _))) (gsChanged_becomes i.isLt _)
  obtain ⟨cs, hx, hcs⟩ := shownCounted_one (expired (gsFresh s i.val) s.ne.gs[i.val]) (place := gEXP) (by decide)
  have hcnt : (expired (gsFresh s i.val) s.ne.gs[i.val]).cnt = (s.ne.gs[i.val]).cnt := by unfold expired; split_ifs <;> rfl
  obtain ⟨hbeside, hsub, hother⟩ := gsEnds_of (places := [3]) hall ⟨cs, hx, by rw [← hcnt]; exact hcs⟩
  have hfrozen : (gsChanged i.val (assertEvw 25 (neEvt 1 (gsViol i.val gEXP 0x4024
      (modGs i.val (expired (gsFresh s i.val)) s))))).ne.frozen = s.ne.frozen :=
    (congrArg (fun t : State => t.ne.frozen) hbeside :)
  refine ⟨hsub, ?_, hother, (congrArg State.mem hbeside :), (congrArg State.lanes hbeside :)⟩
  rw [← hfrozen]
  rfl

end Expiry

/-! #### GOOSE_RETRANSMIT (R204, R206, R207) -/

theorem field_eq (x : Word) (lo len : Nat) : field x lo len = x.toNat / 2 ^ lo % 2 ^ len := by
  rw [field, Nat.shiftRight_eq_div_pow]

/-- A publication's message is sent under its addresses and authentication (R206, R207). -/
def pubHead (s : State) (kind i : Nat) (m : TxMsg) : TxHead :=
  ⟨some (neDmac s kind i), if (neCfg s kind i 0).getLsbD 10 then
    some ((neCfg s kind i 2).toNat / 65536 % 4096, (neCfg s kind i 2).toNat / 2 ^ 28 % 8) else none, none, pubAuth s kind i m⟩

theorem pubQueue_eq (kind i : Nat) (m : TxMsg) (s : State) : pubQueue kind i m s =
    if drives s then pairSend (nePair s kind i) (nePort s kind i) (pubHead s kind i m) m { s with fresh := s.fresh + 3 }
    else { s with fresh := s.fresh + 3 } := by
  unfold pubQueue pubHead
  dsimp only
  rw [field_eq _ 16, field_eq _ 28]
  rfl

/-- A driving module sends a publication's message on a pair that carries frames; else nothing is sent (R185, R206). -/
theorem pubQueue_only (kind i : Nat) (m : TxMsg) (s : State) : ∃ fs cnt pairs, pubQueue kind i m s =
      { s with fresh := s.fresh + 3, ne := { s.ne with sent := s.ne.sent ++ fs, portCnt := cnt, pairs := pairs } }
    ∧ (drives s = true → nePair s kind i < 6 → spdErr (nePairOf s (nePair s kind i)) = false →
        fs = [frameOf s (nePair s kind i) (nePort s kind i) (pubHead s kind i m) m])
    ∧ (drives s = false ∨ spdErr (nePairOf s (nePair s kind i)) = true → fs = []) := by
  rw [pubQueue_eq]
  by_cases hd : drives s = true
  · rw [if_pos hd]
    by_cases hshut : 6 ≤ nePair s kind i ∨ spdErr (nePairOf s (nePair s kind i)) = true
    · rw [pairSend_shut (s := { s with fresh := s.fresh + 3 }) _ _ _ hshut]
      refine ⟨[], s.ne.portCnt, s.ne.pairs, by rw [List.append_nil], fun _ hpair hspd => ?_, fun _ => rfl⟩
      exact absurd hshut (not_or.mpr ⟨Nat.not_le.mpr hpair, ne_true_of_eq_false hspd⟩)
    · obtain ⟨hpair, hspd⟩ := not_or.mp hshut
      obtain ⟨cnt, hsend⟩ := pairSend_sends (nePort s kind i) (pubHead s kind i m) m (s := { s with fresh := s.fresh + 3 })
        (Nat.not_le.mp hpair) (Bool.eq_false_iff.mpr hspd)
      refine ⟨[frameOf s (nePair s kind i) (nePort s kind i) (pubHead s kind i m) m], cnt, _, hsend, fun _ _ _ => rfl,
        fun h => ?_⟩
      exact absurd h (not_or.mpr ⟨ne_false_of_eq_true hd, hspd⟩)
  · rw [if_neg hd]
    exact ⟨[], s.ne.portCnt, s.ne.pairs, by rw [List.append_nil], fun h => absurd h hd, fun _ => rfl⟩

section Retransmit
variable {s : State} (i : Fin 64)

/-- A retransmission that is due at the tick in force (R204). -/
abbrev retransmitDue (s : State) (i : Fin 64) : Prop :=
  let p := s.ne.gp[i.val]
  s.frm.state = .running ∧ tracks s = true ∧ s.clk.tickph = 0 ∧ p.state = .run ∧ p.last ≠ none ∧ 0 < p.nextN
    ∧ p.tRel + p.dueMs * 10 ^ 16 ≤ s.frm.ttick

theorem goPub_fin (s : State) (i : Fin 64) : goPub s i.val = s.ne.gp[i.val] := vget_of_lt _ _ i.isLt

theorem exec_gooseRetransmit (hp : s.clk.power = true) :
    (¬ retransmitDue s i → exec (.gooseRetransmit i) s = .next (settle s))
    ∧ (retransmitDue s i → exec (.gooseRetransmit i) s = .next (settle (gpAgain i.val s))) := by
  refine act_due hp (cond := fun s => running s && tracks s && s.clk.tickph == 0 && gpDue s i.val) rfl ?_
  have hms : ntSec / 1000 = 10 ^ 16 := by decide
  simp only [running, gpDue, goPub_fin, hms, Bool.and_eq_true, beq_iff_eq, decide_eq_true_eq,
    Option.isSome_iff_ne_none, and_assoc]

/-- The publication once it repeats its message after the interval `next`. -/
def repeated (next : Nat) (p : GoPub) : GoPub :=
  { p with sq := nextSq p.sq, nextN := p.nextN + 1, dueMs := p.dueMs + next, interval := next }

/-- The message that a publication repeats. -/
def repeatedMsg (s : State) (i : Fin 64) (next : Nat) : TxMsg :=
  let p := s.ne.gp[i.val]
  .goose i.val (neAppid s kGOPUB i.val) (neStr s kGOPUB i.val 16) (neStr s kGOPUB i.val 32) (neStr s kGOPUB i.val 48)
    (neCfg s kGOPUB i.val 5) p.st (nextSq p.sq) (2 * next) (p.tRel / 10 ^ 10) p.test
    (goEncode (neTypes s kGOPUB i.val) (p.last.getD []))

theorem gpAgain_leaves (s : State) :
    let p := s.ne.gp[i.val]
    let next := gpInterval s i.val (p.nextN + 1)
    let pair := nePair s kGOPUB i.val
    let u := gpAgain i.val s
    u.ne.gp[i.val] = { repeated next p with sent := p.sent + sentOne s pair }
    ∧ (drives s = true → pair < 6 → spdErr (nePairOf s pair) = false →
        u.ne.sent = s.ne.sent ++ [frameOf s pair (nePort s kGOPUB i.val) (pubHead s kGOPUB i.val (repeatedMsg s i next))
          (repeatedMsg s i next)])
    ∧ (drives s = false ∨ spdErr (nePairOf s pair) = true → u.ne.sent = s.ne.sent)
    ∧ (∀ n : Fin 64, n ≠ i → u.ne.gp[n.val] = s.ne.gp[n.val]) ∧ u.ne.gs = s.ne.gs ∧ u.ne.sv = s.ne.sv ∧ u.mem = s.mem := by
  intro p next pair u
  have hmsg : gpMessage (modGp i.val (repeated next) s) i.val (2 * next) (p.last.getD []) = repeatedMsg s i next := by
    unfold gpMessage
    rw [goPub_fin, modGp_ne, getElem_vmod, if_pos rfl]
    rfl
  have hu : u = pubQueue kGOPUB i.val (repeatedMsg s i next)
      (modGp i.val (fun q => { q with sent := q.sent + sentOne s pair }) (modGp i.val (repeated next) s)) := by
    rw [← hmsg]
    show gpAgain i.val s = _
    unfold gpAgain
    rw [goPub_fin]
    rfl
  obtain ⟨fs, cnt, pairs, hqueue, hsent, hquiet⟩ := pubQueue_only kGOPUB i.val (repeatedMsg s i next)
    (modGp i.val (fun q => { q with sent := q.sent + sentOne s pair }) (modGp i.val (repeated next) s))
  rw [hu, hqueue]
  refine ⟨?_, fun hd hpair hspd => ?_, fun h => ?_, fun n hn => ?_, rfl, rfl, rfl⟩
  · show (vmod (vmod s.ne.gp i.val (repeated next)) i.val _)[i.val] = _
    rw [getElem_vmod, getElem_vmod, if_pos rfl, if_pos rfl]
    rfl
  · rw [hsent hd hpair hspd]
    rfl
  · rw [hquiet h]
    exact List.append_nil _
  · show (vmod (vmod s.ne.gp i.val (repeated next)) i.val _)[n.val] = _
    rw [getElem_vmod, if_neg hn, getElem_vmod, if_neg hn]

end Retransmit

/-- Settles O51: a message by the verdict's own lemma and what `gsTake` or a refused check makes of the subscription, the rows of a
tick by what one expiry and one repetition leave (R200 to R204, R206 to R209). The order of REJECT, AUTH and MISMATCH, that a
message of the tick's own 10 ns step belongs to the next frame, and that a duplicate sets no event is log 36 (DEDUCED), that a
message row counts as a frame received log 37 (DEDUCED), that a capture of network time is quantised to 2 ns log 38 (DEDUCED):
there the clauses say what the model chose. -/
theorem gooseMessages : Obligations.GooseMessages := by
  unfold Obligations.GooseMessages
  intro s hp shownAs
  refine ⟨fun port m => ?_, fun i => ?_, fun i => ?_⟩
  · intro cmd heard got
    refine ⟨fun h => exec_gooseMessage_deaf hp h, fun h hsel => exec_gooseMessage_unselected hp h hsel, ?_⟩
    intro i h hsel g fits sound ends taken fresh held
    obtain ⟨cnt, harr⟩ := arrived_eq port.val s
    have hends : ∀ {x places}, gsEnds i x places (withPortCnt cnt s) (gsJudge i.val m (withPortCnt cnt s)) → ends x places :=
      fun hj => gsEnds_settles (exec_gooseMessage_selected hp h hsel) (harr ▸ hj)
    refine ⟨fun hf => hends (gsJudge_refused hf), fun hf ha => hends (gsJudge_unauthenticated hf ha),
      fun hf ha hd => hends (gsJudge_mismatched hf ha hd), fun ms hf ha hd => ?_⟩
    have htakes : ∀ {x places}, gsEnds i x places (gsKeep i.val (withPortCnt cnt s))
        (gsTake i.val m ms (gsKeep i.val (withPortCnt cnt s))) → ends x places := fun ht => hends (gsJudge_takes hf ha hd ht)
    have hheld : gsVerdict g m.ndsCom m.st m.sq ms = .hold → held := fun hv => htakes (gsTake_hold hv)
    have hnew : ∀ gap restart, gsVerdict g m.ndsCom m.st m.sq ms = .new gap restart → fresh ms gap restart :=
      fun gap restart hv => htakes (gsTake_new hv)
    refine ⟨fun hk => htakes (gsTake_baseline (gsVerdict_baseline hk)), fun hk hn => hheld (gsVerdict_needsCommission hk hn),
      fun hk hn hst hsq => ?_, fun hk hn hst hsq hmsb => ?_, fun hk hn hst hmsb => hnew _ _ (gsVerdict_newer hk hn hst hmsb),
      fun hk hn hst hmsb => ?_⟩
    · exact hn ▸ htakes (gsTake_duplicate ((gsVerdict_sameState hk hn hst).trans (if_pos hsq)))
    · have hv := (gsVerdict_sameState (ms := ms) hk hn hst).trans
        (if_neg (not_or.mpr ⟨hsq, ne_true_of_eq_false hmsb⟩))
      exact ⟨fun hms => htakes (gsTake_refresh (hv.trans (if_pos hms))), fun hms => hheld (hv.trans (if_neg hms))⟩
    · have hv := gsVerdict_older (ms := ms) (sq := m.sq) hk hn hst hmsb
      exact ⟨fun h1 => hnew _ _ (hv.trans (if_pos h1)), fun h1 => hheld (hv.trans (if_neg h1))⟩
  · intro g was old due
    obtain ⟨hidle, hdue⟩ := exec_gooseExpiry i hp
    refine ⟨hidle, fun h => ?_⟩
    obtain ⟨⟨cs, hx, hcs⟩, hfrozen, hother, hmem, hlanes⟩ := gsExpire_leaves i s
    simp only [List.mem_singleton] at hcs
    exact ⟨_, cs, hdue h, hx, hcs, hfrozen, hother, hmem, hlanes⟩
  · intro p due next sq pair port addr msg frame
    obtain ⟨hidle, hdue⟩ := exec_gooseRetransmit i hp
    exact ⟨hidle, fun h => ⟨_, hdue h, gpAgain_leaves i s⟩⟩

end Sys2Proof.Proofs

/-! ### O50: sampled-value subscriptions (R193 to R197, R207 to R210) -/
namespace Sys2Proof.Proofs

open Sys2Proof Sys2Proof.Machine Sys2Proof.Safety Sys2Proof.Laws

/-! #### Entries written to the sample history (R193, R194) -/

/-- The state without the memories of shared banks and management. -/
def besideMem (s : State) : State := { s with mem := State.mem0 }

theorem shPutW_besideMem (a : Nat) (x : Word) (s : State) : besideMem (shPutW a x s) = besideMem s := rfl

theorem svStore_besideMem (i j : Nat) (vals : List Word) (q : Word) (s : State) :
    besideMem (svStore i j vals q s) = besideMem s := by
  unfold svStore
  rw [shPutW_besideMem]
  exact forAll_keeps (fun _ _ => shPutW_besideMem _ _ _) _ s

theorem eq_of_besideMem {s u : State} (h : besideMem u = besideMem s) : u = { s with mem := u.mem } :=
  (congrArg (fun v : State => { v with mem := u.mem }) h :)

theorem svStore_only (i j : Nat) (vals : List Word) (q : Word) (s : State) :
    svStore i j vals q s = { s with mem := (svStore i j vals q s).mem } := eq_of_besideMem (svStore_besideMem i j vals q s)

/-- The same memories under the same bank map. -/
abbrev sameMem (s t : State) : Prop := t.mem = s.mem ∧ t.plr = s.plr

theorem areaBase_same {s t : State} (h : sameMem s t) (id : Nat) : areaBase t id = areaBase s id := by
  unfold areaBase mapAreas
  rw [h.2]

theorem shPutW_same {s t : State} (h : sameMem s t) (a : Nat) (x : Word) : sameMem (shPutW a x s) (shPutW a x t) :=
  ⟨(by unfold shPutW shPut; rw [h.1]), h.2⟩

theorem svStore_same {s t : State} (h : sameMem s t) (i j : Nat) (vals : List Word) (q : Word) :
    sameMem (svStore i j vals q s) (svStore i j vals q t) := by
  have hwords : ∀ (cs : List Nat) (s t : State), sameMem s t → sameMem
      (forAll cs (fun c s => shPutW (histAddr s i c j) (vals.getD c 0) s) s)
      (forAll cs (fun c s => shPutW (histAddr s i c j) (vals.getD c 0) s) t) := fun cs => by
    induction cs with
    | nil => exact fun _ _ h => h
    | cons c cs ih =>
      intro s t h
      refine ih _ _ ?_
      dsimp only
      rw [show histAddr t i c j = histAddr s i c j by unfold histAddr; rw [areaBase_same h]]
      exact shPutW_same h _ _
  have hqual : qualAddr t i j = qualAddr s i j := by unfold qualAddr; rw [areaBase_same h]
  unfold svStore
  rw [hqual]
  exact shPutW_same (hwords _ s t h) _ _

/-! #### Counts and drops (R208) -/

/-- A stream with one count more, and one that has dropped a sample under a code. -/
def svBumped (place : Nat) (v : SvSub) : SvSub := { v with cnt := vmod v.cnt place (· + 1) }
def svDropped (place : Nat) (code : BitVec 16) (v : SvSub) : SvSub :=
  { v with cnt := vmod v.cnt place (· + 1), lastDrop := code, lostDrop := code }

theorem svCount_eq (i place : Nat) (s : State) : svCount i place s =
    { s with ne := { s.ne with sv := vmod s.ne.sv i (svBumped place), evt := s.ne.evt ||| 4 } } := rfl

theorem svDrop_only (i place : Nat) (code : BitVec 16) (s : State) : ∃ evr rl, svDrop i place code s = { s with
    evr := evr, rl := rl, ne := { s.ne with sv := vmod s.ne.sv i (svDropped place code), evt := s.ne.evt ||| 4 } } := by
  obtain ⟨evr, rl, hnote⟩ := neNote_only i i code
    (modSv i (fun v => { v with lastDrop := code, lostDrop := code }) (svCount i place s))
  refine ⟨evr, rl, hnote.trans ?_⟩
  rw [svCount_eq, modSv]
  dsimp only
  rw [vmod_vmod]
  rfl

/-! #### One sample (R193, R194) -/

section Sample
variable {i j : Nat} {sim : Bool} {a : SvAsdu} {s : State}

/-- The cut-off of the coming frame is not past, or closed already. -/
theorem cutPassing_open (h : cutOpen s = true → s.clk.cyc + cutCycles ≤ nextTickCyc s) : cutPassing s = s := by
  have hno : (cutOpen s && decide (nextTickCyc s < s.clk.cyc + cutCycles)) = false := by
    rw [Bool.and_eq_false_imp]
    exact fun ho => decide_eq_false (Nat.not_lt.mpr (h ho))
  unfold cutPassing
  rw [hno, whenever_false]

/-- The count that smpCnt `c` gives is the newest below `n + 2` that agrees with it modulo the rate. -/
theorem backSteps_eq {n j r : Nat} (hle : j ≤ n + 1) (hlt : n + 1 < j + r) : (n + 1 + r * 2 - j % r) % r = n + 1 - j := by
  have hdiv := Nat.div_add_mod j r
  have hsplit : n + 1 + r * 2 - j % r = n + 1 - j + r * (j / r + 2) := by rw [Nat.mul_add]; omega
  rw [hsplit, Nat.add_mul_mod_self_left, Nat.mod_eq_of_lt (by omega)]

/-- A count more than one above the last written is a jump (R193). -/
def jumpsTo (v : SvSub) (j : Nat) : Bool :=
  match v.lastJ with
  | some l => decide (l + 1 < j)
  | none => false

/-- A stream that has taken the sample at count `j`, in lane cycle `cyc`. -/
def holding (j cyc : Nat) (a : SvAsdu) (v : SvSub) : SvSub :=
  { v with
    held := v.held ++ [(j, cyc)], lastSmp := a.smpCnt, cnt := vmod v.cnt cACC (· + 1)
    lastJ := some (match v.lastJ with
      | some l => max l j
      | none => j) }

/-- A jump is counted and noted; a sample in time is stored at count `j` and mirrored. -/
def svJumped (i j : Nat) (s : State) : State :=
  if jumpsTo (svSub s i) j then neNote i i 0x4004 (svCount i cJUMP s) else s
def svTaken (i j : Nat) (sim : Bool) (a : SvAsdu) (s : State) : State :=
  let t := svStore i j a.vals.toList (svQuality sim a) (svJumped i j s)
  hsbSend (.mirrorSv i j a.vals.toList) (modSv i (holding j t.clk.cyc a) t)

/-- A late sample marks its closed entry (R195). -/
def svLate (i j : Nat) (s : State) : State :=
  svDrop i cLATE 0x4005 (shPutW (qualAddr s i j) (shWord s (qualAddr s i j) ||| 0x20000) s)

theorem svJumped_only (i j : Nat) (s : State) : ∃ evr rl evt g, svJumped i j s = { s with
      evr := evr, rl := rl, ne := { s.ne with evt := evt, sv := vmod s.ne.sv i g } }
    ∧ (g = id ∨ g = svBumped cJUMP) := by
  unfold svJumped
  split_ifs
  · obtain ⟨evr, rl, hnote⟩ := neNote_only i i 0x4004 (svCount i cJUMP s)
    exact ⟨evr, rl, s.ne.evt ||| 4, svBumped cJUMP, hnote, Or.inr rfl⟩
  · refine ⟨s.evr, s.rl, s.ne.evt, id, ?_, Or.inl rfl⟩
    rw [vmod_self fun _ => rfl]

/-- The ASDU states another rate than the stream's. -/
def otherRate (a : SvAsdu) (r : Nat) : Bool :=
  match a.smpRate with
  | some x => x != r
  | none => false

theorem svSample_eq (hcut : cutOpen s = true → s.clk.cyc + cutCycles ≤ nextTickCyc s) : svSample i sim a s =
    let n := ntCap s * rate s / 10 ^ 19
    let back := (n + 1 + rate s * 2 - a.smpCnt) % rate s
    let j := n + 1 - back
    if decide (rate s ≤ a.smpCnt ∨ n + 1 < back ∨ j + 64 < n) || otherRate a (rate s) then svDrop i cOOW 0x4002 s
    else if svHolds s i j then svCount i cDUP s
    else if cutPassed s j then svLate i j s
    else svTaken i j sim a s := by
  unfold svSample
  rw [cutPassing_open hcut]
  rfl

/-- A sample of the stream's rate that stands for count `j`. -/
theorem svSample_judged (hcut : cutOpen s = true → s.clk.cyc + cutCycles ≤ nextTickCyc s)
    (hrate : ∀ x, a.smpRate = some x → x = rate s) (hj : j % rate s = a.smpCnt)
    (hle : j ≤ ntCap s * rate s / 10 ^ 19 + 1) (hlt : ntCap s * rate s / 10 ^ 19 + 1 < j + rate s) :
    svSample i sim a s = if j + 64 < ntCap s * rate s / 10 ^ 19 then svDrop i cOOW 0x4002 s
      else if svHolds s i j then svCount i cDUP s
      else if cutPassed s j then svLate i j s
      else svTaken i j sim a s := by
  have hother : otherRate a (rate s) = false := by
    unfold otherRate
    split
    · next x hx => exact bne_eq_false_iff_eq.mpr (hrate x hx)
    · rfl
  have hcnt : ¬ rate s ≤ a.smpCnt := by have := Nat.mod_lt j (show 0 < rate s by omega); omega
  have hback := backSteps_eq hle hlt
  rw [hj] at hback
  rw [svSample_eq hcut]
  dsimp only
  rw [hback, hother, Bool.or_false, Nat.sub_sub_self hle]
  simp only [hcnt, Nat.not_lt.mpr (Nat.sub_le _ _), false_or, decide_eq_true_eq]

/-- What a sample in time leaves: the entry written and the stream holding it, after a jump that counts as such. -/
theorem svTaken_only (i j : Nat) (sim : Bool) (a : SvAsdu) (s : State) : ∃ evr rl hsb evt g,
    svTaken i j sim a s = { s with
      evr := evr, rl := rl, hsb := hsb, mem := (svStore i j a.vals.toList (svQuality sim a) s).mem
      ne := { s.ne with evt := evt, sv := vmod s.ne.sv i (holding j s.clk.cyc a ∘ g) } }
    ∧ (g = id ∨ g = svBumped cJUMP) := by
  obtain ⟨evr, rl, evt, g, hjump, hg⟩ := svJumped_only i j s
  have hmem : (svStore i j a.vals.toList (svQuality sim a) (svJumped i j s)).mem
      = (svStore i j a.vals.toList (svQuality sim a) s).mem := by
    rw [hjump]
    exact (svStore_same ⟨rfl, rfl⟩ i j _ _).1
  have hstore := svStore_only i j a.vals.toList (svQuality sim a) (svJumped i j s)
  rw [hmem, hjump] at hstore
  unfold svTaken
  rw [hjump, hstore]
  generalize (svStore i j a.vals.toList (svQuality sim a) s).mem = mem
  dsimp only
  obtain ⟨hsb, hsend⟩ := hsbSend_only (.mirrorSv i j a.vals.toList) (modSv i (holding j s.clk.cyc a) { s with
    evr := evr, rl := rl, mem := mem, ne := { s.ne with evt := evt, sv := vmod s.ne.sv i g } })
  refine ⟨evr, rl, hsb, evt, g, hsend.trans ?_, hg⟩
  rw [← vmod_vmod]
  rfl

end Sample

section Stream
variable {i : Fin 24} {m : SvMsg} {s t u : State}

theorem svSub_fin (s : State) (i : Fin 24) : svSub s i.val = s.ne.sv[i.val] := vget_of_lt _ _ i.isLt

/-- A drop is counted at its place, with its code. -/
theorem svDrop_leaves (i : Fin 24) {place : Nat} (hplace : place < 9) (code : BitVec 16) (s : State) :
    let u := svDrop i.val place code s
    u.mem = s.mem ∧ u.frm = s.frm ∧ u.ne.portCnt = s.ne.portCnt ∧ u.ne.evt = s.ne.evt ||| 4
    ∧ (∀ n : Fin 24, n ≠ i → u.ne.sv[n.val] = s.ne.sv[n.val])
    ∧ ∃ cs : Vector Word 9, u.ne.sv[i.val] = { s.ne.sv[i.val] with cnt := cs, lastDrop := code, lostDrop := code }
      ∧ ∀ n : Fin 9, cs[n.val] = (s.ne.sv[i.val]).cnt[n.val] + (if n.val = place then 1 else 0) := by
  obtain ⟨evr, rl, hdrop⟩ := svDrop_only i.val place code s
  rw [hdrop]
  refine ⟨rfl, rfl, rfl, rfl, fun n hn => (getElem_vmod _ _ i n).trans (if_neg hn), _,
    (getElem_vmod _ _ i i).trans (if_pos rfl), fun n => getElem_bumped _ hplace n⟩

theorem svCount_leaves (i : Fin 24) {place : Fin 9} (s : State) :
    let u := svCount i.val place.val s
    (u.ne.sv[i.val]).state = (s.ne.sv[i.val]).state ∧ (u.ne.sv[i.val]).held = (s.ne.sv[i.val]).held
    ∧ (u.ne.sv[i.val]).cnt[place.val] = (s.ne.sv[i.val]).cnt[place.val] + 1 := by
  have hbecomes : (svCount i.val place.val s).ne.sv[i.val] = svBumped place.val s.ne.sv[i.val] :=
    (getElem_vmod _ _ i i).trans (if_pos rfl)
  dsimp only
  rw [hbecomes]
  exact ⟨rfl, rfl, (getElem_bumped _ place.isLt place).trans (by rw [if_pos rfl])⟩

/-- A late sample marks its entry and is counted; the stream's samples stay. -/
theorem svLate_leaves (i : Fin 24) (j : Nat) (s : State) :
    let u := svLate i.val j s
    u.ne.portCnt = s.ne.portCnt ∧ (u.ne.sv[i.val]).held = (s.ne.sv[i.val]).held
    ∧ (u.ne.sv[i.val]).cnt[2] = (s.ne.sv[i.val]).cnt[2] + 1
    ∧ u.mem = (shPutW (qualAddr s i.val j) (shWord s (qualAddr s i.val j) ||| 0x20000) s).mem := by
  obtain ⟨hmem, _, hport, _, _, cs, hsv, hcs⟩ := svDrop_leaves i (place := cLATE) (by decide) 0x4005
    (shPutW (qualAddr s i.val j) (shWord s (qualAddr s i.val j) ||| 0x20000) s)
  refine ⟨hport, (congrArg SvSub.held hsv :), ?_, hmem⟩
  exact (congrArg (fun v : SvSub => v.cnt[2]) hsv :).trans (hcs 2)

theorem cutPassed_iff (s : State) (j : Nat) : cutPassed s j = true ↔ ∃ c, s.ne.lastCut = some c ∧ j ≤ c := by
  unfold cutPassed
  cases s.ne.lastCut with
  | none => exact iff_of_false Bool.false_ne_true nofun
  | some c => exact decide_eq_true_iff.trans ⟨fun h => ⟨c, rfl, h⟩, fun ⟨_, hc, h⟩ => Option.some.inj hc ▸ h⟩

/-! #### A message judged (R193, R197, R207) -/

abbrev svFits (s : State) (i : Fin 24) (m : SvMsg) : Prop :=
  neAccepts s kSVSUB i.val m.vlan m.sim (fun x => m.asdus.all fun a => a.confRev == x) = true
abbrev svFormed (m : SvMsg) : Prop := m.wellFormed = true ∧ 1 ≤ m.asdus.length ∧ m.asdus.length ≤ 8

theorem svFormed_iff (m : SvMsg) : ¬ svFormed m ↔ (!m.wellFormed) = true ∨ m.asdus.length = 0 ∨ 8 < m.asdus.length := by
  simp only [svFormed, not_and_or, Bool.not_eq_true', Bool.not_eq_true, Nat.not_le, Nat.lt_one_iff]

theorem svJudge_malformed (h : ¬ svFormed m) : svJudge i.val m s = svDrop i.val cMALF 0x4001 s := if_pos ((svFormed_iff m).mp h)

theorem svJudge_refused (h : svFormed m) (hf : ¬ svFits s i m) : svJudge i.val m s = svDrop i.val cREJ 0x4007 s :=
  (if_neg fun hm => (svFormed_iff m).mpr hm h).trans (if_pos (by rw [Bool.not_eq_true', ← Bool.not_eq_true]; exact hf))

theorem svJudge_unauthenticated (h : svFormed m) (hf : svFits s i m) (ha : authOk s kSVSUB i.val m.auth = false) :
    svJudge i.val m s = svDrop i.val cAUTH 0x4006 s :=
  (if_neg fun hm => (svFormed_iff m).mpr hm h).trans
    ((if_neg (by rw [Bool.not_eq_true', Bool.not_eq_false]; exact hf)).trans (if_pos (by rw [ha]; rfl)))

theorem svJudge_single {a : SvAsdu} (hw : m.wellFormed = true) (hm : m.asdus = [a]) (hf : svFits s i m)
    (ha : authOk s kSVSUB i.val m.auth = true) : svJudge i.val m s = svSample i.val m.sim a s := by
  have hformed : svFormed m := by rw [svFormed, hm]; exact ⟨hw, Nat.le_refl 1, Nat.le_of_lt_succ (by simp)⟩
  have hjudge : svJudge i.val m s = m.asdus.foldl (fun s a => svSample i.val m.sim a s) s :=
    (if_neg fun hno => (svFormed_iff m).mpr hno hformed).trans
      ((if_neg (by rw [Bool.not_eq_true', Bool.not_eq_false]; exact hf)).trans (if_neg (by rw [ha]; decide)))
  rw [hjudge, hm]
  rfl

/-- A sample in time: stored, held and counted as accepted. -/
theorem svTaken_leaves (i : Fin 24) (j : Nat) (sim : Bool) (a : SvAsdu) (s : State) :
    let u := svTaken i.val j sim a s
    let v := s.ne.sv[i.val]
    u.ne.portCnt = s.ne.portCnt ∧ (u.ne.sv[i.val]).held = v.held ++ [(j, s.clk.cyc)] ∧ (u.ne.sv[i.val]).state = v.state
    ∧ (u.ne.sv[i.val]).cnt[0] = v.cnt[0] + 1 ∧ u.mem = (svStore i.val j a.vals.toList (svQuality sim a) s).mem
    ∧ u.frm = s.frm ∧ u.lanes = s.lanes := by
  obtain ⟨evr, rl, hsb, evt, g, htaken, hg⟩ := svTaken_only i.val j sim a s
  have hsame : ∀ v, (g v).held = v.held ∧ (g v).state = v.state ∧ (g v).cnt[0] = v.cnt[0] := by
    rcases hg with rfl | rfl
    · exact fun v => ⟨rfl, rfl, rfl⟩
    · exact fun v => ⟨rfl, rfl, (getElem_bumped v.cnt (by decide) 0).trans (BitVec.add_zero _)⟩
  obtain ⟨hheld, hstate, hcnt⟩ := hsame s.ne.sv[i.val]
  have hbecomes := (getElem_vmod s.ne.sv (holding j s.clk.cyc a ∘ g) i i).trans (if_pos rfl)
  rw [htaken]
  dsimp only
  rw [hbecomes]
  refine ⟨rfl, ?_, hstate, ?_, rfl, rfl, rfl⟩
  · show (g s.ne.sv[i.val]).held ++ _ = _
    rw [hheld]
  · exact (getElem_bumped (g s.ne.sv[i.val]).cnt (by decide) 0).trans (by rw [← hcnt]; rfl)

end Stream

/-! #### SV_MESSAGE -/

section SvMessage
variable {s : State} {port : Fin 12} {m : SvMsg}

theorem svMessage_deaf (h : ¬ heardAt s port.val) : svMessage port.val m s = s := if_pos ((heardAt_iff _ _).mp h)

theorem svMessage_heard (h : heardAt s port.val) : svMessage port.val m s =
    if (svSelected port.val m s).isEmpty then portInc port.val 4 s
    else forAll (svSelected port.val m s) (fun i s => svJudge i m s) s := if_neg fun hd => (heardAt_iff _ _).mpr hd h

theorem svMessage_unselected (h : heardAt s port.val) (hsel : svSelected port.val m s = []) :
    svMessage port.val m s = portInc port.val 4 s := by rw [svMessage_heard h, hsel]; rfl

theorem svMessage_selected (h : heardAt s port.val) {i : Nat} (hsel : svSelected port.val m s = [i]) :
    svMessage port.val m s = svJudge i m s := by rw [svMessage_heard h, hsel]; rfl

variable (hp : s.clk.power = true)
include hp

theorem exec_svMessage (port : Fin 12) (m : SvMsg) :
    exec (.svMessage port m) s = .next (settle (svMessage port.val m (arrived port.val s))) :=
  act_powered (fun s => svMessage port.val m (arrived port.val s)) hp

theorem exec_svMessage_deaf (h : ¬ heardAt s port.val) :
    exec (.svMessage port m) s = .next (settle (arrived port.val s)) := by
  obtain ⟨cnt, harr⟩ := arrived_eq port.val s
  rw [exec_svMessage hp, harr, svMessage_deaf (s := withPortCnt cnt s) h]

theorem exec_svMessage_unselected (h : heardAt s port.val) (hsel : svSelected port.val m s = []) :
    exec (.svMessage port m) s = .next (settle (portInc port.val 4 (arrived port.val s))) := by
  obtain ⟨cnt, harr⟩ := arrived_eq port.val s
  rw [exec_svMessage hp, harr, svMessage_unselected (s := withPortCnt cnt s) h hsel]

theorem exec_svMessage_selected (h : heardAt s port.val) {i : Nat} (hsel : svSelected port.val m s = [i]) :
    exec (.svMessage port m) s = .next (settle (svJudge i m (arrived port.val s))) := by
  obtain ⟨cnt, harr⟩ := arrived_eq port.val s
  rw [exec_svMessage hp, harr, svMessage_selected (s := withPortCnt cnt s) h hsel]

end SvMessage

/-! #### One stream closed at a cut-off (R195, R196) -/

/-- The state without the streams, and without what their closure touches beside them: memory, notes and events. -/
def besideStreams (s : State) : State :=
  { s with
    evr := State.evr0, rl := [], mem := State.mem0, frm := { s.frm with evwNext := 0, evwStep := 0, evwStepAt := 0 }
    ne := { s.ne with sv := State.reset.ne.sv, evt := 0 } }

abbrev streamBecomes (i : Nat) (f : SvSub → SvSub) (s u : State) : Prop := changesAt besideStreams (fun s => s.ne.sv) i f s u

theorem rlNote_besideStreams {mk : Word → State → State} (hmk : ∀ x t, ∃ evr, mk x t = { t with evr := evr }) (obj code : Nat)
    (s : State) : besideStreams (rlNote obj code mk s) = besideStreams s ∧ (rlNote obj code mk s).ne.sv = s.ne.sv := by
  obtain ⟨evr, rl, hnote⟩ := rlNote_only hmk obj code s
  rw [hnote]
  exact ⟨rfl, rfl⟩

theorem assertEvw_besideStreams (n : Nat) (s : State) :
    besideStreams (assertEvw n s) = besideStreams s ∧ (assertEvw n s).ne.sv = s.ne.sv := by
  obtain ⟨a, b, c, hevw⟩ := assertEvw_only n s
  rw [hevw]
  exact ⟨rfl, rfl⟩

theorem svStore_besideStreams (i j : Nat) (vals : List Word) (q : Word) (s : State) :
    besideStreams (svStore i j vals q s) = besideStreams s ∧ (svStore i j vals q s).ne.sv = s.ne.sv := by
  obtain ⟨mem, hstore⟩ : ∃ mem, svStore i j vals q s = { s with mem := mem } := ⟨_, svStore_only i j vals q s⟩
  rw [hstore]
  exact ⟨rfl, rfl⟩

/-- A stream that enters LOST. -/
def enterLost (v : SvSub) : SvSub := { v with state := .lost, good := 0, lostDrop := 0 }

theorem svLost_becomes (i : Nat) (s : State) : streamBecomes i enterLost s (svLost i s) := by
  have hlost : streamBecomes i enterLost s (neEvt 0 (modSv i enterLost s)) := ⟨rfl, rfl⟩
  exact changesAt_then (changesAt_then hlost (rlNote_besideStreams (fun _ _ => note_only _ _ _ _ _ _) i 0x4010 _))
    (assertEvw_besideStreams i _)

/-- The limits that a stream's settings give (R196). -/
abbrev svLim (s : State) (i : Nat) : Nat := max 1 (field (neCfg s kSVSUB i 1) 0 8)
abbrev svRec (s : State) (i : Nat) : Nat := max 1 (field (neCfg s kSVSUB i 1) 8 12)

theorem limits_eq (s : State) (i : Nat) : svLim s i = max 1 ((neCfg s kSVSUB i 1).toNat % 256)
    ∧ svRec s i = max 1 ((neCfg s kSVSUB i 1).toNat / 256 % 4096) := by
  rw [svLim, svRec, field_eq, field_eq, pow_zero, Nat.div_one]
  exact ⟨rfl, rfl⟩

/-- The stream with entry `j` closed, with or without a sample. -/
def entryClosed (j : Nat) (has : Bool) (v : SvSub) : SvSub :=
  { v with
    mrun := if has then 0 else min 255 (v.mrun + 1), good := if has then v.good + 1 else 0
    held := v.held.filter (·.1 ≠ j), closedFrom := some (v.closedFrom.getD j)
    cnt := if has then v.cnt else vmod v.cnt cMISSING (· + 1) }

/-- The state of the stream judged from the entry closed: LOST at `lim` missing in a row, RUN again at `rec` with a sample. -/
def streamClosed (lim rec j : Nat) (has : Bool) (v : SvSub) : SvSub :=
  let x := entryClosed j has v
  match v.state with
  | .lost => if rec ≤ x.good then { x with state := .run, good := 0 } else x
  | .run => if lim ≤ x.mrun then enterLost x else x
  | .off => x

theorem modSv_becomes (i : Nat) (f : SvSub → SvSub) (s : State) : streamBecomes i f s (modSv i f s) := ⟨rfl, rfl⟩

theorem svClose_becomes (i : Fin 24) (j by_ : Nat) (s : State) :
    streamBecomes i.val (streamClosed (svLim s i.val) (svRec s i.val) j
      ((s.ne.sv[i.val]).held.any fun x => x.1 == j && decide (x.2 ≤ by_))) s (svClose i.val j by_ s) := by
  unfold svClose
  dsimp only
  refine changesAt_then ?_ (svStore_besideStreams _ _ _ _ _)
  rw [svSub_fin]
  generalize ((s.ne.sv[i.val]).held.any fun x => x.1 == j && decide (x.2 ≤ by_)) = has
  generalize hgood : (if has = true then (s.ne.sv[i.val]).good + 1 else 0) = good
  generalize hmrun : (if has = true then 0 else min 255 ((s.ne.sv[i.val]).mrun + 1)) = mrun
  have hentry := changesAt_congr (g := entryClosed j has) (modSv_becomes i.val (fun v => { v with
      mrun := mrun, good := good, held := v.held.filter (·.1 ≠ j), closedFrom := some (v.closedFrom.getD j)
      cnt := if has then v.cnt else vmod v.cnt cMISSING (· + 1) }) s) fun _ => by rw [← hgood, ← hmrun]; rfl
  revert hentry
  generalize modSv i.val _ s = t
  intro hentry
  cases hst : (s.ne.sv[i.val]).state
  · exact changesAt_congr hentry fun _ => by rw [streamClosed, hst]
  · dsimp only
    split_ifs with hrec <;> rw [← hgood] at hrec
    · have hrun := changesAt_trans hentry (modSv_becomes i.val (fun v => { v with state := .run, good := 0 }) t)
      have hnoted := changesAt_then hrun (rlNote_besideStreams
        (mk := fun n => note 0x4011 srcNE (w i.val) 0x4011 n) (fun _ _ => note_only _ _ _ _ _ _) i.val 0x4011 _)
      exact changesAt_congr (changesAt_then hnoted (assertEvw_besideStreams i.val _)) fun _ => by
        rw [streamClosed, hst]; exact (if_pos hrec).symm
    · exact changesAt_congr hentry fun _ => by rw [streamClosed, hst]; exact (if_neg hrec).symm
  · dsimp only
    split_ifs with hlim <;> rw [← hmrun] at hlim
    · exact changesAt_congr (changesAt_trans hentry (svLost_becomes i.val _)) fun _ => by
        rw [streamClosed, hst]; exact (if_pos hlim).symm
    · exact changesAt_congr hentry fun _ => by rw [streamClosed, hst]; exact (if_neg hlim).symm

/-! #### The cut-off of every stream (R195, R196) -/

section Cutoff
variable {s u : State} {j by_ : Nat} {lim again : Nat} {has : Bool} {v x : SvSub}

/-- One stream closed: a sample that arrived later than the cut-off is then counted as late. -/
def svClosing (j by_ i : Nat) (s : State) : State :=
  let late := (svSub s i).held.any fun x => x.1 == j && decide (by_ < x.2)
  let s := svClose i j by_ s
  if late then svTooLate i j s else s

theorem svCutoff_eq (j by_ : Nat) (s : State) :
    let t := forAll (where_ 24 fun i => (svSub s i).state ≠ .off) (svClosing j by_) s
    svCutoff j by_ s = { t with ne := { t.ne with lastCut := some j } } := rfl

theorem svTooLate_becomes (i j : Nat) (s : State) :
    streamBecomes i (svDropped cLATE 0x4005 ∘ fun v => { v with cnt := vmod v.cnt cACC (· - 1) }) s (svTooLate i j s) := by
  obtain ⟨evr, rl, hdrop⟩ := svDrop_only i cLATE 0x4005 (shPutW (qualAddr s i j) (setBit (shWord s (qualAddr s i j)) 17)
    (modSv i (fun v => { v with cnt := vmod v.cnt cACC (· - 1) }) s))
  have hlate : svTooLate i j s = _ := hdrop
  rw [hlate, streamBecomes, changesAt, ← vmod_vmod]
  exact ⟨rfl, rfl⟩

/-- Every sample of count `j` that the stream holds had arrived by the cut-off. -/
abbrev arrivedBy (j by_ : Nat) (v : SvSub) : Prop := ∀ y ∈ v.held, y.1 = j → y.2 ≤ by_

theorem any_arrived (h : arrivedBy j by_ v) :
    (v.held.any fun y => y.1 == j && decide (y.2 ≤ by_)) = v.held.any (·.1 == j)
    ∧ (v.held.any fun y => y.1 == j && decide (by_ < y.2)) = false := by
  refine ⟨?_, List.any_eq_false.mpr fun y hy hlate => ?_⟩
  · rw [Bool.eq_iff_iff, List.any_eq_true, List.any_eq_true]
    refine exists_congr fun y => and_congr_right fun hy => ?_
    rw [Bool.and_eq_true, decide_eq_true_eq]
    exact and_iff_left_of_imp fun hj => h y hy (beq_iff_eq.mp hj)
  · rw [Bool.and_eq_true, beq_iff_eq, decide_eq_true_eq] at hlate
    exact absurd (h y hy hlate.1) (Nat.not_le.mpr hlate.2)

/-- The stream with entry `j` closed, where none of its samples came late. -/
def closedBy (lim again j by_ : Nat) (v x : SvSub) : Prop :=
  arrivedBy j by_ v → x = streamClosed lim again j (v.held.any (·.1 == j)) v

theorem svClosing_leaves (i : Fin 24) (j by_ : Nat) (s : State) :
    let u := svClosing j by_ i.val s
    besideStreams u = besideStreams s ∧ (∀ n : Fin 24, n ≠ i → u.ne.sv[n.val] = s.ne.sv[n.val])
    ∧ closedBy (svLim s i.val) (svRec s i.val) j by_ s.ne.sv[i.val] u.ne.sv[i.val] := by
  have hclose := svClose_becomes i j by_ s
  unfold svClosing
  rw [svSub_fin]
  by_cases hlate : ((s.ne.sv[i.val]).held.any fun y => y.1 == j && decide (by_ < y.2)) = true
  · have hall := changesAt_trans hclose (svTooLate_becomes i.val j _)
    rw [if_pos hlate]
    refine ⟨hall.1, fun n hn => changesAt_other hall hn, fun h => ?_⟩
    rw [(any_arrived h).2] at hlate
    exact absurd hlate Bool.false_ne_true
  · rw [if_neg hlate]
    exact ⟨hclose.1, fun n hn => changesAt_other hclose hn, fun h => by rw [changesAt_same hclose, (any_arrived h).1]⟩

theorem limits_congr (h : besideStreams u = besideStreams s) (i : Nat) : svLim u i = svLim s i ∧ svRec u i = svRec s i :=
  ⟨(congrArg (fun t => svLim t i) h :), (congrArg (fun t => svRec t i) h :)⟩

/-- Each stream of a list without repeats is closed once; the others stand as they are. -/
theorem svClosing_all {is : List Nat} (hlt : ∀ i ∈ is, i < 24) (hnodup : is.Nodup) (j by_ : Nat) (s : State) :
    let u := forAll is (svClosing j by_) s
    besideStreams u = besideStreams s ∧ ∀ n : Fin 24,
      if n.val ∈ is then closedBy (svLim s n.val) (svRec s n.val) j by_ s.ne.sv[n.val] u.ne.sv[n.val]
      else u.ne.sv[n.val] = s.ne.sv[n.val] := by
  induction is generalizing s with
  | nil => exact ⟨rfl, fun n => rfl⟩
  | cons i is ih =>
    obtain ⟨hi, hnodup⟩ := List.nodup_cons.mp hnodup
    have hi24 := hlt i List.mem_cons_self
    obtain ⟨hbeside, hother, hclosed⟩ := svClosing_leaves ⟨i, hi24⟩ j by_ s
    obtain ⟨hrest, hall⟩ := ih (fun x hx => hlt x (List.mem_cons_of_mem _ hx)) hnodup (svClosing j by_ i s)
    refine ⟨hrest.trans hbeside, fun n => ?_⟩
    show if n.val ∈ i :: is then closedBy _ _ _ _ _ (forAll is (svClosing j by_) (svClosing j by_ i s)).ne.sv[n.val]
      else (forAll is (svClosing j by_) (svClosing j by_ i s)).ne.sv[n.val] = _
    obtain ⟨hlim, hrec⟩ := limits_congr hbeside n.val
    have hn := hall n
    rw [hlim, hrec] at hn
    by_cases hni : n = ⟨i, hi24⟩
    · subst hni
      rw [if_neg hi] at hn
      rw [if_pos List.mem_cons_self, hn]
      exact hclosed
    · have hne : n.val ≠ i := fun h => hni (Fin.ext h)
      rw [hother n hni] at hn
      simpa only [List.mem_cons, hne, false_or] using hn

/-- A cut-off closes every stream that is not OFF. -/
theorem svCutoff_leaves (j by_ : Nat) (s : State) :
    let u := svCutoff j by_ s
    u.ne.lastCut = some j ∧ u.lanes = s.lanes ∧ u.ne.gs = s.ne.gs ∧ ∀ n : Fin 24,
      ((s.ne.sv[n.val]).state = .off → u.ne.sv[n.val] = s.ne.sv[n.val])
      ∧ ((s.ne.sv[n.val]).state ≠ .off →
        closedBy (svLim s n.val) (svRec s n.val) j by_ s.ne.sv[n.val] u.ne.sv[n.val]) := by
  obtain ⟨hbeside, hall⟩ := svClosing_all (is := where_ 24 fun i => (svSub s i).state ≠ .off)
    (fun i hi => List.mem_range.mp (List.mem_filter.mp hi).1) (List.nodup_range.filter _) j by_ s
  have hmem : ∀ n : Fin 24, n.val ∈ (where_ 24 fun i => (svSub s i).state ≠ .off) ↔ (s.ne.sv[n.val]).state ≠ .off := fun n => by
    rw [where_, List.mem_filter, List.mem_range, decide_eq_true_eq, svSub_fin]
    exact and_iff_right n.isLt
  rw [svCutoff_eq]
  refine ⟨rfl, (congrArg State.lanes hbeside :), (congrArg (fun t : State => t.ne.gs) hbeside :), fun n => ?_⟩
  exact ⟨fun hoff => (if_neg fun hon => (hmem n).mp hon hoff).mp (hall n), fun hon => (if_pos ((hmem n).mpr hon)).mp (hall n)⟩

/-! #### What the closed entry makes of a stream (R195, R196) -/

theorem streamClosed_entry (lim again j : Nat) (has : Bool) (v : SvSub) :
    let x := streamClosed lim again j has v
    x.held = v.held.filter (·.1 ≠ j) ∧ (has = true → x.mrun = 0 ∧ x.cnt[1] = v.cnt[1])
    ∧ (has = false → x.mrun = min 255 (v.mrun + 1) ∧ x.cnt[1] = v.cnt[1] + 1) := by
  have hkept : ∀ x : SvSub, x.held = (entryClosed j has v).held → x.mrun = (entryClosed j has v).mrun →
      x.cnt = (entryClosed j has v).cnt → x.held = v.held.filter (·.1 ≠ j) ∧ (has = true → x.mrun = 0 ∧ x.cnt[1] = v.cnt[1])
      ∧ (has = false → x.mrun = min 255 (v.mrun + 1) ∧ x.cnt[1] = v.cnt[1] + 1) := by
    intro x hheld hmrun hcnt
    rw [hheld, hmrun, hcnt]
    refine ⟨rfl, fun h => ?_, fun h => ?_⟩
    · rw [h]; exact ⟨rfl, rfl⟩
    · rw [h]; exact ⟨rfl, getElem_bumped v.cnt (place := cMISSING) (by decide) 1⟩
  unfold streamClosed
  cases v.state
  · exact hkept _ rfl rfl rfl
  · dsimp only
    split_ifs <;> exact hkept _ rfl rfl rfl
  · dsimp only
    split_ifs <;> exact hkept _ rfl rfl rfl

theorem streamClosed_run (hlim : 1 ≤ lim) (again j : Nat) (has : Bool) (h : v.state = .run) :
    (streamClosed lim again j has v).state = if has = false ∧ lim ≤ min 255 (v.mrun + 1) then .lost else .run := by
  have hmiss : lim ≤ (entryClosed j has v).mrun ↔ has = false ∧ lim ≤ min 255 (v.mrun + 1) := by
    cases has
    · exact (and_iff_right rfl).symm
    · exact iff_of_false (Nat.not_le.mpr hlim) fun hno => Bool.false_ne_true hno.1.symm
  unfold streamClosed
  rw [h]
  dsimp only
  rw [apply_ite SvSub.state]
  exact (if_congr hmiss rfl h)

theorem streamClosed_lost (hrec : 1 ≤ again) (lim j : Nat) (has : Bool) (h : v.state = .lost) :
    (streamClosed lim again j has v).state = if has = true ∧ again ≤ v.good + 1 then .run else .lost := by
  have hgood : again ≤ (entryClosed j has v).good ↔ has = true ∧ again ≤ v.good + 1 := by
    cases has
    · exact iff_of_false (Nat.not_le.mpr hrec) fun hno => Bool.false_ne_true hno.1
    · exact (and_iff_right rfl).symm
  unfold streamClosed
  rw [h]
  dsimp only
  rw [apply_ite SvSub.state]
  exact if_congr hgood rfl h

/-! #### CUTOFF -/

/-- The cut-off of the coming frame is due (R195). -/
abbrev cutDue (s : State) : Prop :=
  s.frm.state = .running ∧ s.sys.latched = false ∧ (∀ c, s.ne.lastCut = some c → c < s.frm.k + 1 - horizon s)
    ∧ nextTickCyc s ≤ s.clk.cyc + cutCycles

theorem cutOpen_iff (s : State) : cutOpen s = true ↔ s.frm.state = .running ∧ s.sys.latched = false
    ∧ ∀ c, s.ne.lastCut = some c → c < s.frm.k + 1 - horizon s := by
  unfold cutOpen running neListens
  rw [Bool.and_eq_true, Bool.and_eq_true, beq_iff_eq, Bool.not_eq_true', and_assoc]
  refine and_congr_right fun _ => and_congr_right fun _ => ?_
  cases s.ne.lastCut with
  | none => exact iff_of_true rfl nofun
  | some c => exact decide_eq_true_iff.trans ⟨fun h _ hc => Option.some.inj hc ▸ h, fun h => h c rfl⟩

theorem exec_cutoff (hp : s.clk.power = true) :
    (¬ cutDue s → exec .cutoff s = .next (settle s)) ∧ (cutDue s → exec .cutoff s = .next (settle (cutNow s))) := by
  refine act_due hp (cond := fun s => cutOpen s && decide (nextTickCyc s ≤ s.clk.cyc + cutCycles)) rfl ?_
  rw [Bool.and_eq_true, cutOpen_iff, decide_eq_true_eq, and_assoc, and_assoc]

end Cutoff

/-- Settles O50: a message by the verdict that its checks and its count give it, the cut-off by what one closure makes of each
enabled stream (R193 to R197, R207 to R210). The order of the drop codes and the sample that comes after its cut-off are log 36
(DEDUCED), that a message row counts as a frame received log 37 (DEDUCED), and that a capture of network time is quantised to 2 ns
log 38 (DEDUCED): there the clauses say what the model chose. -/
theorem sampledValues : Obligations.SampledValues := by
  unfold Obligations.SampledValues
  intro s hp
  refine ⟨fun port m => ?_, ?_⟩
  · intro cmd heard got
    refine ⟨fun h => exec_svMessage_deaf hp h, fun h hsel => exec_svMessage_unselected hp h hsel, ?_⟩
    intro i h hsel v formed fits drops
    obtain ⟨cnt, harr⟩ := arrived_eq port.val s
    have hport : cnt = got.ne.portCnt := (congrArg (fun t : State => t.ne.portCnt) harr :).symm
    have hcmd : ∀ {t}, svJudge i.val m (withPortCnt cnt s) = t → cmd = .next (settle t) := fun hj => by
      rw [← hj, ← harr]
      exact exec_svMessage_selected hp h hsel
    have hdrops : ∀ {place code}, place < 9 →
        svJudge i.val m (withPortCnt cnt s) = svDrop i.val place code (withPortCnt cnt s) → drops place code := by
      intro place code hplace hj
      obtain ⟨hmem, hfrm, hcnt, hleaves⟩ := svDrop_leaves i hplace code (withPortCnt cnt s)
      exact ⟨_, hcmd hj, hmem, hfrm, hcnt.trans hport, hleaves⟩
    refine ⟨fun hw => hdrops (by decide) (svJudge_malformed hw), fun hw hf => hdrops (by decide) (svJudge_refused hw hf),
      fun hw hf ha => hdrops (by decide) (svJudge_unauthenticated hw hf ha), ?_⟩
    intro a hw hm hf ha hrate hcut now j hj hle hlt cut
    have hjudge := (svJudge_single (s := withPortCnt cnt s) hw hm hf ha).trans
      (svSample_judged (s := withPortCnt cnt s) hcut hrate hj hle hlt)
    have hwindow := fun hnew : now ≤ j + 64 => hjudge.trans (if_neg (Nat.not_lt.mpr hnew))
    have hfree := fun (hnew : now ≤ j + 64) (hholds : svHolds s i.val j = false) =>
      (hwindow hnew).trans (if_neg (ne_true_of_eq_false hholds))
    refine ⟨fun hold => hdrops (by decide) (hjudge.trans (if_pos hold)), fun hnew hholds => ?_, fun hnew hholds hpast => ?_,
      fun hnew hholds hopen => ?_⟩
    · have hdup := (hwindow hnew).trans (if_pos hholds)
      exact ⟨_, hcmd hdup, hport, rfl, svCount_leaves i (place := 3) (withPortCnt cnt s)⟩
    · have hlate := (hfree hnew hholds).trans (if_pos ((cutPassed_iff s j).mpr hpast))
      obtain ⟨hcnt, hleaves⟩ := svLate_leaves i j (withPortCnt cnt s)
      exact ⟨_, hcmd hlate, hcnt.trans hport, hleaves⟩
    · have htaken := (hfree hnew hholds).trans (if_neg (mt (cutPassed_iff s j).mp hopen))
      obtain ⟨hcnt, hheld, hstate, hacc, hmem, hfrm, hlanes⟩ := svTaken_leaves i j m.sim a (withPortCnt cnt s)
      refine ⟨_, hcmd htaken, hcnt.trans hport, hheld, hstate, hacc, hmem.trans ?_, hfrm, hlanes⟩
      exact (svStore_same ⟨rfl, rfl⟩ i.val j _ _).1
  · intro j due
    obtain ⟨hidle, hdue⟩ := exec_cutoff hp
    refine ⟨hidle, fun h => ?_⟩
    obtain ⟨hcut, hlanes, hgs, hall⟩ := svCutoff_leaves j s.clk.cyc s
    refine ⟨_, hdue h, hcut, hlanes, hgs, fun i => ?_⟩
    obtain ⟨hoff, hon⟩ := hall i
    intro v x lim again run
    refine ⟨hoff, fun harr => ?_⟩
    intro has
    have hclosed : v.state ≠ .off → x = streamClosed lim again j has v := fun hst => by
      rw [(limits_eq s i.val).1, (limits_eq s i.val).2] at hon
      exact hon hst harr
    refine ⟨fun hst => ?_, fun hst => ?_, fun hst => ?_⟩
    · rw [hclosed hst]
      exact streamClosed_entry lim again j has v
    · rw [hclosed (by rw [hst]; decide)]
      exact streamClosed_run (le_max_left _ _) again j has hst
    · rw [hclosed (by rw [hst]; decide)]
      exact streamClosed_lost (le_max_left _ _) lim j has hst

end Sys2Proof.Proofs

/-! ### Elements of a vector changed one after another -/
namespace Sys2Proof.Proofs

open Sys2Proof Sys2Proof.Machine Sys2Proof.Safety Sys2Proof.Laws

section ForAllChanges
variable {β α : Type} {n : Nat} {beside : State → β} {vec : State → Vector α n} {f : Nat → State → State} {F : β → Nat → α → α}

/-- A change of each element that a list without repeats names, by what stands beside the vector. -/
theorem forAll_changesAt (h : ∀ (i : Fin n) s, changesAt beside vec i.val (F (beside s) i.val) s (f i.val s))
    {is : List Nat} (hnodup : is.Nodup) (hlt : ∀ i ∈ is, i < n) (s : State) :
    beside (forAll is f s) = beside s
    ∧ ∀ i : Fin n, (vec (forAll is f s))[i.val] = if i.val ∈ is then F (beside s) i.val (vec s)[i.val] else (vec s)[i.val] := by
  induction is generalizing s with
  | nil => exact ⟨rfl, fun _ => rfl⟩
  | cons j is ih =>
    obtain ⟨hj, hnodup⟩ := List.nodup_cons.mp hnodup
    have hfirst := h ⟨j, hlt j List.mem_cons_self⟩ s
    obtain ⟨hrest, hall⟩ := ih hnodup (fun i hi => hlt i (List.mem_cons_of_mem _ hi)) (f j s)
    refine ⟨hrest.trans hfirst.1, fun i => (hall i).trans ?_⟩
    rw [hfirst.1]
    by_cases hij : i = ⟨j, hlt j List.mem_cons_self⟩
    · subst hij
      rw [if_neg hj, if_pos List.mem_cons_self]
      exact changesAt_same hfirst
    · have hne : i.val ≠ j := fun he => hij (Fin.ext he)
      rw [changesAt_other hfirst hij]
      simp only [List.mem_cons, hne, false_or]

end ForAllChanges

/-- The places at which a test holds, as a list. -/
theorem mem_where {n : Nat} {p : Nat → Bool} {i : Nat} : i ∈ where_ n p ↔ i < n ∧ p i = true := by
  rw [where_, List.mem_filter, List.mem_range]

theorem where_nodup (n : Nat) (p : Nat → Bool) : (where_ n p).Nodup := List.nodup_range.filter _

end Sys2Proof.Proofs


/-! ### The backup domain: what its ticks, writes, samples and epoch check do (R226 to R233) -/
namespace Sys2Proof.Proofs

open Sys2Proof Sys2Proof.Machine Sys2Proof.Safety Sys2Proof.Laws

/-! #### What the present tick owes: shift and alarm (R230, R231) -/

/-- The state without the recorder, the event word and what a shift or an alarm may change of the domain. -/
def besideTick (s : State) : State :=
  { besideNotes s with rtc := { s.rtc with count := 0, shift := none, alarm := none, fire := 0, evt := 0, alarmOff := false } }

theorem raiseEntry_besideTick (e : Entry) (s : State) : besideTick (raiseEntry e s) = besideTick s := by
  obtain ⟨v, h⟩ := raiseEntry_only e s; rw [h]; rfl

theorem assertEvw_besideTick (n : Nat) (s : State) : besideTick (assertEvw n s) = besideTick s := by
  unfold assertEvw; split <;> rfl

/-- RTC as an alarm of value `v` leaves it that fires at count `c`. -/
def firedRtc (power : Bool) (c v : Nat) (r : Rtc) : Rtc :=
  { r with alarm := none, fire := c, evt := r.evt ||| (if v < c then 3 else 1), alarmOff := r.alarmOff || !power }

theorem fireAt_rtc (c v : Nat) (s : State) : (fireAt c v s).rtc = firedRtc s.clk.power c v s.rtc := by
  have hlate : s.rtc.evt ||| 1#5 ||| 2#5 = s.rtc.evt ||| 3#5 := BitVec.or_assoc _ _ _
  unfold fireAt firedRtc
  by_cases hv : v < c <;> cases hp : s.clk.power <;>
    simp [hv, hp, rtcEvt, setBit, modRtc, hlate]

theorem fireAt_besideTick (c v : Nat) (s : State) : besideTick (fireAt c v s) = besideTick s := by
  have hfired : ∀ (b : Prop) [Decidable b] (t : State), besideTick (if b then rtcEvt 1 t else t) = besideTick t := by
    intro b _ t
    split <;> rfl
  have hout : ∀ t : State, besideTick (if t.clk.power then assertEvw 45 t else modRtc (fun r => { r with alarmOff := true }) t)
      = besideTick t := by
    intro t
    split
    · exact assertEvw_besideTick 45 t
    · rfl
  exact (hout _).trans ((hfired _ _).trans rfl)

/-- An alarm whose value `p` selects fires at count `c`. -/
def fireWhere (c : Nat) (p : Nat → Prop) [DecidablePred p] (s : State) : State :=
  match s.rtc.alarm with
  | some a => if p a then fireAt c a s else s
  | none => s

section FireWhere
variable {c : Nat} {p : Nat → Prop} [DecidablePred p] {s : State}

theorem fireWhere_fires {a : Nat} (h : s.rtc.alarm = some a) (ha : p a) : fireWhere c p s = fireAt c a s := by
  unfold fireWhere; rw [h]; exact if_pos ha

theorem fireWhere_not (h : ∀ a, s.rtc.alarm = some a → ¬ p a) : fireWhere c p s = s := by
  unfold fireWhere
  split
  · next a ha => exact if_neg (h a ha)
  · rfl

theorem fireWhere_keeps {α : Type} {g : State → α} (h : ∀ a s, g (fireAt c a s) = g s) : g (fireWhere c p s) = g s := by
  unfold fireWhere
  split
  · split_ifs
    · exact h _ s
    · rfl
  · rfl

end FireWhere

/-- The count moved by a shift, to modulo 2^48. -/
def movedTo (n : Nat) (s : State) : State := rtcEvt 3 (modRtc (fun r => { r with count := n }) s)

theorem movedTo_besideTick (n : Nat) (s : State) : besideTick (movedTo n s) = besideTick s := rfl

/-- The entry of a shift that has been applied, of a powered module. -/
def shiftNoted (d : Int) (s : State) : State := if s.clk.power then note1 0x5023 srcRTC (BitVec.ofInt 32 d) s else s

theorem shiftNoted_rtc (d : Int) (s : State) : (shiftNoted d s).rtc = s.rtc := by
  unfold shiftNoted
  split_ifs
  · exact raiseEntry_rtc _ _
  · rfl

/-- The pending shift is pending no more. -/
def unshifted (s : State) : State := modRtc (fun r => { r with shift := none }) s

theorem shiftApply_turns {d : Int} {s : State} (h : (s.rtc.count : Int) + d < 0) :
    shiftApply d s = rtcEvt 4 (unshifted s) := if_pos h

theorem shiftApply_moves {d : Int} {s : State} (h : 0 ≤ (s.rtc.count : Int) + d) :
    shiftApply d s =
      let n := ((s.rtc.count : Int) + d).toNat % 2 ^ 48
      shiftNoted d (fireWhere n (· ≤ n) (movedTo n (fireWhere s.rtc.count (fun a => d < 0 ∧ a ≤ s.rtc.count) (unshifted s)))) :=
  if_neg (Int.not_lt.mpr h)

theorem shiftNoted_besideTick (d : Int) (s : State) : besideTick (shiftNoted d s) = besideTick s := by
  unfold shiftNoted
  split_ifs
  · exact raiseEntry_besideTick _ _
  · rfl

theorem shiftApply_besideTick (d : Int) (s : State) : besideTick (shiftApply d s) = besideTick s := by
  rcases Int.lt_or_le ((s.rtc.count : Int) + d) 0 with h | h
  · rw [shiftApply_turns h]; rfl
  · rw [shiftApply_moves h]
    refine (shiftNoted_besideTick _ _).trans ((fireWhere_keeps fun a s => fireAt_besideTick _ a s).trans ?_)
    refine (movedTo_besideTick _ _).trans ((fireWhere_keeps fun a s => fireAt_besideTick _ a s).trans ?_)
    rfl

theorem shiftNow_of_not_due {s : State} (h : shiftDue s.rtc = false) : shiftNow s = s := by
  unfold shiftNow
  split
  · exact if_neg (ne_true_of_eq_false h)
  · rfl

theorem shiftNow_of_due {d : Int} {s : State} (hd : s.rtc.shift = some d) (h : shiftDue s.rtc = true) :
    shiftNow s = shiftApply d s := by
  unfold shiftNow; rw [hd]; exact if_pos h

theorem shiftDue_iff (r : Rtc) : shiftDue r = true ↔ r.shift ≠ none ∧ r.count % 32768 = 0 ∧ r.shiftAt < r.xtal := by
  simp [shiftDue, Option.isSome_iff_ne_none, and_assoc]

theorem shiftNow_besideTick (s : State) : besideTick (shiftNow s) = besideTick s := by
  unfold shiftNow
  split
  · split_ifs
    · exact shiftApply_besideTick _ s
    · rfl
  · rfl

theorem alarmNow_of_not_due {s : State} (h : alarmDue s.rtc = false) : alarmNow s = s := by
  unfold alarmNow
  split
  · exact if_neg (ne_true_of_eq_false h)
  · rfl

theorem alarmNow_of_due {a : Nat} {s : State} (ha : s.rtc.alarm = some a) (h : alarmDue s.rtc = true) :
    alarmNow s = fireAt s.rtc.count a s := by
  unfold alarmNow; rw [ha]; exact if_pos h

theorem alarmDue_some {r : Rtc} {a : Nat} (h : r.alarm = some a) : alarmDue r = true ↔ a ≤ r.count ∧ r.alarmAt < r.xtal := by
  simp [alarmDue, h]

theorem alarmDue_none {r : Rtc} (h : r.alarm = none) : alarmDue r = false := by
  simp [alarmDue, h]

theorem alarmNow_keeps {α : Type} {g : State → α} (h : ∀ c a s, g (fireAt c a s) = g s) (s : State) : g (alarmNow s) = g s := by
  unfold alarmNow
  split
  · split_ifs
    · exact h _ _ s
    · rfl
  · rfl

theorem tickFirst_besideTick (s : State) : besideTick (tickFirst s) = besideTick s :=
  (alarmNow_keeps (fun c a s => fireAt_besideTick c a s) _).trans (shiftNow_besideTick s)

/-- The count as the present tick's shift leaves it. -/
def tickCount (r : Rtc) : Nat :=
  match r.shift with
  | some d => if shiftDue r = true ∧ 0 ≤ (r.count : Int) + d then ((r.count : Int) + d).toNat % 2 ^ 48 else r.count
  | none => r.count

theorem shiftApply_count {d : Int} {s : State} (h : 0 ≤ (s.rtc.count : Int) + d) :
    (shiftApply d s).rtc.count = ((s.rtc.count : Int) + d).toNat % 2 ^ 48 := by
  rw [shiftApply_moves h]
  dsimp only
  rw [shiftNoted_rtc]
  exact fireWhere_keeps (g := fun t => t.rtc.count) fun a s => by rw [fireAt_rtc]; rfl

theorem tickFirst_count (s : State) : (tickFirst s).rtc.count = tickCount s.rtc := by
  refine (alarmNow_keeps (g := fun t => t.rtc.count) (fun c a s => by rw [fireAt_rtc]; rfl) _).trans ?_
  unfold shiftNow tickCount
  cases hd : s.rtc.shift with
  | none => rfl
  | some d =>
    dsimp only
    by_cases hdue : shiftDue s.rtc = true
    · rw [if_pos hdue]
      rcases Int.lt_or_le ((s.rtc.count : Int) + d) 0 with h | h
      · rw [shiftApply_turns h, if_neg (fun hc => absurd hc.2 (Int.not_le.mpr h))]; rfl
      · rw [shiftApply_count h, if_pos ⟨hdue, h⟩]
    · rw [if_neg hdue, if_neg (fun hc => hdue hc.1)]

/-- What the present tick leaves of the domain, and the rest of the module. -/
theorem tickFirst_leaves (s : State) : (tickFirst s).clk = s.clk ∧ (tickFirst s).key = s.key ∧ (tickFirst s).lanes = s.lanes
    ∧ (tickFirst s).rtc.writes = s.rtc.writes ∧ (tickFirst s).rtc.xtal = s.rtc.xtal
    ∧ (tickFirst s).rtc.alarmReg = s.rtc.alarmReg ∧ (tickFirst s).rtc.tampCfg = s.rtc.tampCfg
    ∧ (tickFirst s).rtc.tamp = s.rtc.tamp ∧ (tickFirst s).rtc.cellLow = s.rtc.cellLow :=
  have h := tickFirst_besideTick s
  ⟨(congrArg State.clk h :), (congrArg State.key h :), (congrArg State.lanes h :), (congrArg (fun t => t.rtc.writes) h :),
    (congrArg (fun t => t.rtc.xtal) h :), (congrArg (fun t => t.rtc.alarmReg) h :), (congrArg (fun t => t.rtc.tampCfg) h :),
    (congrArg (fun t => t.rtc.tamp) h :), (congrArg (fun t => t.rtc.cellLow) h :)⟩

/-- What a shift to a later or earlier count leaves (R230, R231). -/
theorem shiftApply_leaves {d : Int} {s : State} (h0 : 0 ≤ (s.rtc.count : Int) + d) (h48 : (s.rtc.count : Int) + d < 2 ^ 48) :
    let u := shiftApply d s
    (u.rtc.count : Int) = s.rtc.count + d ∧ u.rtc.shift = none ∧ u.rtc.evt.getLsbD 3 = true ∧ u.lanes = s.lanes
    ∧ ∀ a, s.rtc.alarm = some a → s.rtc.count < a →
        ((a : Int) ≤ s.rtc.count + d → u.rtc.alarm = none ∧ (u.rtc.fire : Int) = s.rtc.count + d ∧ u.rtc.evt.getLsbD 0 = true
          ∧ ((a : Int) < s.rtc.count + d → u.rtc.evt.getLsbD 1 = true))
        ∧ (s.rtc.count + d < (a : Int) → u.rtc.alarm = some a ∧ u.rtc.fire = s.rtc.fire) := by
  intro u
  obtain ⟨n, hn⟩ := Int.eq_ofNat_of_zero_le h0
  have hdest : ((s.rtc.count : Int) + d).toNat % 2 ^ 48 = n := by omega
  have hmoves : u = shiftNoted d (fireWhere n (· ≤ n) (movedTo n
      (fireWhere s.rtc.count (fun a => d < 0 ∧ a ≤ s.rtc.count) (unshifted s)))) := by
    rw [← hdest]; exact shiftApply_moves h0
  have hrtc : u.rtc = _ := (congrArg State.rtc hmoves).trans (shiftNoted_rtc _ _)
  have hshift : ∀ c (p : Nat → Prop) [DecidablePred p] (t : State), (fireWhere c p t).rtc.shift = t.rtc.shift := fun c p _ t =>
    fireWhere_keeps (g := fun t => t.rtc.shift) fun a s => by rw [fireAt_rtc]; rfl
  have hevt3 : (movedTo n (fireWhere s.rtc.count (fun a => d < 0 ∧ a ≤ s.rtc.count) (unshifted s))).rtc.evt.getLsbD 3 = true := by
    simp [movedTo, rtcEvt, modRtc, setBit]
  have hkeep : ∀ c (p : Nat → Prop) [DecidablePred p] (t : State), t.rtc.evt.getLsbD 3 = true →
      (fireWhere c p t).rtc.evt.getLsbD 3 = true := fun c p _ t ht => by
    unfold fireWhere
    split
    · split_ifs
      · rw [fireAt_rtc, firedRtc, BitVec.getLsbD_or, ht, Bool.true_or]
      · exact ht
    · exact ht
  refine ⟨?_, ?_, ?_, (congrArg State.lanes (shiftApply_besideTick d s) :), fun a ha hlt => ?_⟩
  · rw [hn, ← hdest]
    exact congrArg Int.ofNat (shiftApply_count h0)
  · rw [hrtc, hshift]
    exact hshift _ _ (unshifted s)
  · rw [hrtc]
    exact hkeep _ _ _ hevt3
  · have hnot : fireWhere s.rtc.count (fun a => d < 0 ∧ a ≤ s.rtc.count) (unshifted s) = unshifted s :=
      fireWhere_not fun b hb hc => by
        have : b = a := Option.some.inj (hb.symm.trans ha)
        omega
    rw [hnot] at hrtc
    refine ⟨fun hle => ?_, fun hgt => ?_⟩
    · rw [fireWhere_fires (s := movedTo n (unshifted s)) ha (by omega), fireAt_rtc] at hrtc
      rw [hrtc, hn]
      refine ⟨rfl, rfl, ?_, fun hlt' => ?_⟩
      · rw [firedRtc, BitVec.getLsbD_or]
        split <;> simp
      · rw [firedRtc, BitVec.getLsbD_or, if_pos (by omega)]
        simp
    · rw [fireWhere_not (fun b hb => by
        have : b = a := Option.some.inj (hb.symm.trans ha)
        omega)] at hrtc
      rw [hrtc]
      exact ⟨ha, rfl⟩

/-! #### Writes to the domain and its host commands (R230 to R232) -/

/-- A write to a register of the domain is under way. -/
abbrev underWay (s : State) (a : Nat) : Prop := ∃ x ∈ s.rtc.writes, x.reg = a

theorem domBusy_iff (s : State) (a : Nat) : domBusy s a = true ↔ underWay s a := by
  simp only [domBusy, List.any_eq_true, beq_iff_eq]

theorem underWay_tickFirst (s : State) (a : Nat) : underWay (tickFirst s) a ↔ underWay s a := by
  obtain ⟨-, -, -, hwrites, -⟩ := tickFirst_leaves s
  rw [underWay, hwrites]

theorem domWriteOp_busy {a : Nat} (v : Word) {s : State} (h : underWay s a) : domWriteOp a v s = (.busy, s) :=
  if_pos ((domBusy_iff s a).mpr h)

theorem domWriteOp_starts {a : Nat} (v : Word) {s : State} (h : ¬ underWay s a) : domWriteOp a v s = (.ok, domWrite a v s) :=
  if_neg (mt (domBusy_iff s a).mp h)

theorem underWay_of_goOnWay {s : State} (h : goOnWay s.rtc = true) : underWay s aRTC_SHIFT := by
  obtain ⟨x, hx, hgo⟩ := List.any_eq_true.mp h
  exact ⟨x, hx, beq_iff_eq.mp (Bool.and_eq_true_iff.mp hgo).1⟩

/-- RTC_SHIFT as SHIFT_GO writes it. -/
def shiftWord (n : BitVec 15) (sub : Bool) : Word :=
  BitVec.setWidth 32 n ||| (bitWord sub <<< 15) ||| (bitWord (n != 0) <<< 16)

theorem getLsbD_bitWord_shiftLeft (b : Bool) {lo : Nat} (hlo : lo < 32) (i : Nat) :
    (bitWord b <<< lo).getLsbD i = (b && decide (i = lo)) := by
  cases b
  · rw [bitWord_false]; simp
  · rw [bitWord, if_pos rfl, ← BitVec.twoPow_eq, BitVec.getLsbD_twoPow, Bool.true_and, decide_eq_true hlo, Bool.true_and]
    exact decide_eq_decide.mpr eq_comm

theorem shiftWord_amount (n : BitVec 15) (sub : Bool) : (shiftWord n sub).toNat % 2 ^ 15 = n.toNat := by
  rw [← BitVec.toNat_setWidth]
  congr 1
  refine BitVec.eq_of_getLsbD_eq fun i hi => ?_
  simp only [shiftWord, BitVec.getLsbD_setWidth, BitVec.getLsbD_or, getLsbD_bitWord_shiftLeft _ (show 15 < 32 by decide),
    getLsbD_bitWord_shiftLeft _ (show 16 < 32 by decide)]
  simp [hi, show i ≠ 15 by omega, show i ≠ 16 by omega, show i < 32 by omega]

theorem shiftWord_sub (n : BitVec 15) (sub : Bool) : (shiftWord n sub).getLsbD 15 = sub := by
  simp only [shiftWord, BitVec.getLsbD_setWidth, BitVec.getLsbD_or, getLsbD_bitWord_shiftLeft _ (show 15 < 32 by decide),
    getLsbD_bitWord_shiftLeft _ (show 16 < 32 by decide)]
  simp

theorem shiftWord_go (n : BitVec 15) (sub : Bool) : (shiftWord n sub).getLsbD 16 = decide (n ≠ 0) := by
  simp only [shiftWord, BitVec.getLsbD_setWidth, BitVec.getLsbD_or, getLsbD_bitWord_shiftLeft _ (show 15 < 32 by decide),
    getLsbD_bitWord_shiftLeft _ (show 16 < 32 by decide)]
  simp only [BitVec.getLsbD_of_ge n 16 (by decide)]
  simp
  rfl

theorem shiftGoOp_busy {n : BitVec 15} (sub : Bool) {s : State}
    (h : underWay s aRTC_SHIFT ∨ (n ≠ 0 ∧ (tickFirst s).rtc.shift ≠ none)) : shiftGoOp n sub s = (.busy, tickFirst s) := by
  unfold shiftGoOp
  rcases h with h | ⟨hn, hshift⟩
  · dsimp only
    split
    · rfl
    · exact domWriteOp_busy _ ((underWay_tickFirst s _).mpr h)
  · exact if_pos (Bool.and_eq_true_iff.mpr ⟨Bool.or_eq_true_iff.mpr (.inl (Option.isSome_iff_ne_none.mpr hshift)), bne_iff_ne.mpr hn⟩)

theorem shiftGoOp_starts {n : BitVec 15} (sub : Bool) {s : State}
    (h : ¬ (underWay s aRTC_SHIFT ∨ (n ≠ 0 ∧ (tickFirst s).rtc.shift ≠ none))) :
    shiftGoOp n sub s = (.ok, domWrite aRTC_SHIFT (shiftWord n sub) (tickFirst s)) := by
  obtain ⟨hfree, hnone⟩ := not_or.mp h
  have hfree := mt (underWay_tickFirst s _).mp hfree
  have hgo : goOnWay (tickFirst s).rtc = false := Bool.eq_false_iff.mpr (mt underWay_of_goOnWay hfree)
  unfold shiftGoOp
  refine (if_neg ?_).trans (domWriteOp_starts _ hfree)
  rw [hgo, Bool.or_false, Bool.and_eq_true, Option.isSome_iff_ne_none, bne_iff_ne]
  exact fun hc => hnone hc.symm

theorem shiftCancelOp_busy (v : Word) {s : State} (h : underWay s aRTC_SHIFT) : shiftCancelOp v s = (.busy, tickFirst s) :=
  if_pos ((domBusy_iff _ _).mpr ((underWay_tickFirst s _).mpr h))

theorem shiftCancelOp_late (v : Word) {s : State} (h : ¬ underWay s aRTC_SHIFT) (hnone : (tickFirst s).rtc.shift = none) :
    shiftCancelOp v s = (.late, tickFirst s) := by
  unfold shiftCancelOp
  refine (if_neg (mt (fun hb => (underWay_tickFirst s _).mp ((domBusy_iff _ _).mp hb)) h)).trans (if_neg ?_)
  rw [hnone]; decide

theorem shiftCancelOp_disarms (v : Word) {s : State} (h : ¬ underWay s aRTC_SHIFT) (hsome : (tickFirst s).rtc.shift ≠ none) :
    shiftCancelOp v s = (.ok, domWrite aRTC_SHIFT (v &&& 0xFFFF) (unshifted (tickFirst s))) := by
  have hfree := mt (underWay_tickFirst s _).mp h
  unfold shiftCancelOp
  refine (if_neg (mt (domBusy_iff _ _).mp hfree)).trans ((if_pos (Option.isSome_iff_ne_none.mpr hsome)).trans ?_)
  exact domWriteOp_starts (s := unshifted (tickFirst s)) _ hfree

theorem domDone_idle {a : Nat} {r : Rtc} (h : ¬ ∃ x ∈ r.writes, x.reg = a) : domDone a r = r := by
  have hnone : r.writes.find? (fun x => x.reg == a) = none :=
    List.find?_eq_none.mpr fun x hx he => h ⟨x, hx, beq_iff_eq.mp he⟩
  unfold domDone; rw [hnone]

theorem domDone_one {r : Rtc} {x : DomWrite} (h : r.writes = [x]) :
    domDone x.reg r = { domApply x r with writes := [] } := by
  have hfind : r.writes.find? (fun y => y.reg == x.reg) = some x := by simp [h]
  unfold domDone
  rw [hfind, h]
  simp

theorem domApply_arm {v : Word} (c : Nat) (r : Rtc) (h : v.getLsbD 31 = true) :
    domApply ⟨aRTC_ALARM_HI, v, c⟩ r = { r with
      alarmReg := v.toNat % 2 ^ 16 * 2 ^ 32 + r.alarmReg % 2 ^ 32
      alarm := some (v.toNat % 2 ^ 16 * 2 ^ 32 + r.alarmReg % 2 ^ 32), alarmAt := r.xtal } := by
  have hfield : field v 0 16 = v.toNat % 2 ^ 16 := by rw [field_eq, Nat.pow_zero, Nat.div_one]
  unfold domApply
  simp only [hfield, h, if_true]
  rfl

theorem domApply_go {v : Word} (c : Nat) (r : Rtc) (hn : v.toNat % 2 ^ 15 ≠ 0) (hgo : v.getLsbD 16 = true) :
    domApply ⟨aRTC_SHIFT, v, c⟩ r = { r with
      shiftAmt := v.toNat % 2 ^ 15, shiftSub := v.getLsbD 15, shiftAt := r.xtal
      shift := some (if v.getLsbD 15 then -((v.toNat % 2 ^ 15 : Nat) : Int) else ((v.toNat % 2 ^ 15 : Nat) : Int)) } := by
  have hfield : field v 0 15 = v.toNat % 2 ^ 15 := by rw [field_eq, Nat.pow_zero, Nat.div_one]
  unfold domApply
  simp only [hfield, hgo, bne_iff_ne.mpr hn, Bool.and_self, if_true]
  rfl

/-- The one write under way takes effect: it arms the alarm, or the shift. -/
theorem domDone_arms {r : Rtc} {v : Word} {c : Nat} (hw : r.writes = [⟨aRTC_ALARM_HI, v, c⟩]) (h : v.getLsbD 31 = true) :
    domDone aRTC_ALARM_HI r = { r with
      writes := [], alarmReg := v.toNat % 2 ^ 16 * 2 ^ 32 + r.alarmReg % 2 ^ 32
      alarm := some (v.toNat % 2 ^ 16 * 2 ^ 32 + r.alarmReg % 2 ^ 32), alarmAt := r.xtal } :=
  (domDone_one hw).trans (by rw [domApply_arm c r h])

theorem domDone_goes {r : Rtc} {v : Word} {c : Nat} (hw : r.writes = [⟨aRTC_SHIFT, v, c⟩]) (hn : v.toNat % 2 ^ 15 ≠ 0)
    (hgo : v.getLsbD 16 = true) : domDone aRTC_SHIFT r = { r with
      writes := [], shiftAmt := v.toNat % 2 ^ 15, shiftSub := v.getLsbD 15, shiftAt := r.xtal
      shift := some (if v.getLsbD 15 then -((v.toNat % 2 ^ 15 : Nat) : Int) else ((v.toNat % 2 ^ 15 : Nat) : Int)) } :=
  (domDone_one hw).trans (by rw [domApply_go c r hn hgo])

/-! #### Samples of the tamper inputs (R233) -/

/-- The state without the recorder, the event word and the tamper inputs. -/
def besideTamp (s : State) : State := { besideNotes s with rtc := { s.rtc with tamp := State.rtc0.tamp } }

theorem besideTamp_leaves {s t : State} (h : besideTamp t = besideTamp s) : t.key = s.key ∧ t.lanes = s.lanes
    ∧ t.rtc.tampAt = s.rtc.tampAt ∧ t.rtc.cellLow = s.rtc.cellLow ∧ t.rtc.count = s.rtc.count :=
  ⟨(congrArg State.key h :), (congrArg State.lanes h :), (congrArg (fun u => u.rtc.tampAt) h :),
    (congrArg (fun u => u.rtc.cellLow) h :), (congrArg (fun u => u.rtc.count) h :)⟩

/-- An input as a sample leaves it, of the state `s`. -/
def sampled (closed : BitVec 3) (s : State) (n : Nat) (t : Tamper) : Tamper :=
  if s.rtc.tampCfg.getLsbD n = false then { t with prev := false, active := false }
  else if tampActive s.rtc n closed = true ∧ t.prev = true ∧ t.latched = false then
    ⟨s.rtc.count, !s.clk.power, true, true, true, false⟩
  else { t with prev := tampActive s.rtc n closed, active := tampActive s.rtc n closed }

theorem tampActive_iff (r : Rtc) (n : Nat) (closed : BitVec 3) :
    tampActive r n closed = true ↔ closed.getLsbD n = r.tampCfg.getLsbD (4 + n) := by
  unfold tampActive
  cases r.tampCfg.getLsbD (4 + n) <;> simp

theorem modTamp_changes {n : Nat} (f : Tamper → Tamper) (s : State) :
    changesAt besideTamp (fun s => s.rtc.tamp) n f s (modTamp n f s) := ⟨rfl, rfl⟩

theorem assertEvw_besideTamp (n : Nat) (s : State) :
    besideTamp (assertEvw n s) = besideTamp s ∧ (assertEvw n s).rtc.tamp = s.rtc.tamp := by
  unfold assertEvw; split <;> exact ⟨rfl, rfl⟩

theorem tampSample_changes (closed : BitVec 3) (n : Fin 3) (s : State) :
    changesAt besideTamp (fun s => s.rtc.tamp) n.val (sampled closed (besideTamp s) n.val) s (tampSample closed n.val s) := by
  have hget : vget State.tamper0 s.rtc.tamp n.val = s.rtc.tamp[n.val] := vget_of_lt _ _ n.isLt
  have hcfg : (besideTamp s).rtc.tampCfg = s.rtc.tampCfg := rfl
  have hactive : tampActive (besideTamp s).rtc n.val closed = tampActive s.rtc n.val closed := rfl
  have hout : ∀ t : State, besideTamp (if t.clk.power then assertEvw 46 t else t) = besideTamp t
      ∧ (if t.clk.power then assertEvw 46 t else t).rtc.tamp = t.rtc.tamp := by
    intro t
    split
    · exact assertEvw_besideTamp 46 t
    · exact ⟨rfl, rfl⟩
  unfold tampSample
  dsimp only
  rw [hget]
  by_cases hon : s.rtc.tampCfg.getLsbD n.val = false
  · rw [if_pos (by rw [hon]; rfl)]
    exact changesAt_congr (modTamp_changes _ s) fun _ => by rw [sampled, hcfg, if_pos hon]
  · rw [if_neg (by simpa using hon)]
    by_cases hl : tampActive s.rtc n.val closed = true ∧ (s.rtc.tamp[n.val]).prev = true ∧ (s.rtc.tamp[n.val]).latched = false
    · obtain ⟨ha, hprev, hlatched⟩ := id hl
      rw [if_pos (by simp [ha, hprev, hlatched])]
      refine changesAt_then (changesAt_congr (changesAt_trans (modTamp_changes _ s) (modTamp_changes _ _)) fun _ => ?_) (hout _)
      rw [sampled, hcfg, if_neg hon, hactive, if_pos hl]
      simp only [Function.comp_apply, ha]
      rfl
    · rw [if_neg (by simpa [and_assoc] using hl)]
      exact changesAt_congr (modTamp_changes _ s) fun _ => by rw [sampled, hcfg, if_neg hon, hactive, if_neg hl]

/-- The domain before its inputs are sampled. -/
def beforeSample (low : Bool) (s : State) : State :=
  modRtc (fun r => { r with tampAt := r.xtal }) (tickFirst (modRtc (fun r => { r with cellLow := low }) s))

theorem beforeSample_leaves (low : Bool) (s : State) : (beforeSample low s).clk = s.clk ∧ (beforeSample low s).key = s.key
    ∧ (beforeSample low s).lanes = s.lanes ∧ (beforeSample low s).rtc.tampAt = s.rtc.xtal
    ∧ (beforeSample low s).rtc.tampCfg = s.rtc.tampCfg ∧ (beforeSample low s).rtc.tamp = s.rtc.tamp
    ∧ (beforeSample low s).rtc.cellLow = low ∧ (beforeSample low s).rtc.count = (tickFirst s).rtc.count := by
  obtain ⟨hclk, hkey, hlanes, -, hxtal, -, hcfg, htamp, hlow⟩ := tickFirst_leaves (modRtc (fun r => { r with cellLow := low }) s)
  refine ⟨hclk, hkey, hlanes, hxtal, hcfg, htamp, hlow, ?_⟩
  exact (tickFirst_count (modRtc (fun r => { r with cellLow := low }) s)).trans (tickFirst_count s).symm

theorem tamperSample_leaves (closed : BitVec 3) (low : Bool) (s : State) :
    let u := tampAll closed (modRtc (fun r => { r with cellLow := low }) s)
    u.rtc.tampAt = s.rtc.xtal ∧ u.rtc.cellLow = low ∧ u.rtc.count = (tickFirst s).rtc.count ∧ u.key = s.key ∧ u.lanes = s.lanes
    ∧ ∀ n : Fin 3, u.rtc.tamp[n.val] = sampled closed (beforeSample low s) n.val s.rtc.tamp[n.val] := by
  intro u
  obtain ⟨hclk, hkey, hlanes, htampAt, hcfg, htamp, hlow, hcount⟩ := beforeSample_leaves low s
  obtain ⟨hbeside, hall⟩ := forAll_changesAt (F := fun t n => sampled closed t n) (fun n t => tampSample_changes closed n t)
    List.nodup_range (fun i hi => List.mem_range.mp hi) (beforeSample low s)
  obtain ⟨hkey', hlanes', htampAt', hlow', hcount'⟩ := besideTamp_leaves hbeside
  refine ⟨htampAt'.trans htampAt, hlow'.trans hlow, hcount'.trans hcount, hkey'.trans hkey, hlanes'.trans hlanes, fun n => ?_⟩
  refine (hall n).trans ((if_pos (List.mem_range.mpr n.isLt)).trans ?_)
  rw [htamp]
  rfl

/-- What a sample makes of an input, case by case. -/
theorem sampled_cases (closed : BitVec 3) (low : Bool) (s : State) (n : Fin 3) :
    let t := s.rtc.tamp[n.val]
    let x := sampled closed (beforeSample low s) n.val t
    let active := closed.getLsbD n.val = s.rtc.tampCfg.getLsbD (4 + n.val)
    (s.rtc.tampCfg.getLsbD n.val = false → x = { t with prev := false, active := false })
    ∧ (s.rtc.tampCfg.getLsbD n.val = true → ¬ active → x = { t with prev := false, active := false })
    ∧ (s.rtc.tampCfg.getLsbD n.val = true → active → t.prev = false ∨ t.latched = true →
        x = { t with prev := true, active := true })
    ∧ (s.rtc.tampCfg.getLsbD n.val = true → active → t.prev = true → t.latched = false →
        x = ⟨(tickFirst s).rtc.count, !s.clk.power, true, true, true, false⟩) := by
  intro t x active
  obtain ⟨hclk, -, -, -, hcfg, -, -, hcount⟩ := beforeSample_leaves low s
  have hactive : tampActive (beforeSample low s).rtc n.val closed = true ↔ active := by rw [tampActive_iff, hcfg]
  have hx : x = sampled closed (beforeSample low s) n.val t := rfl
  rw [sampled, hcfg, hclk, hcount] at hx
  refine ⟨fun hoff => hx.trans (if_pos hoff), fun hon hna => ?_, fun hon ha hp => ?_, fun hon ha hp hl => ?_⟩
  · rw [if_neg (by simp [hon]), if_neg (fun hc => hna (hactive.mp hc.1)), Bool.eq_false_iff.mpr (mt hactive.mp hna)] at hx
    exact hx
  · rw [if_neg (by simp [hon]), if_neg (fun hc => by rcases hp with h | h <;> simp [h] at hc), hactive.mpr ha] at hx
    exact hx
  · rw [if_neg (by simp [hon]), if_pos ⟨hactive.mpr ha, hp, hl⟩] at hx
    exact hx

/-! #### The epoch record (R228) -/

theorem fwShift_zero (r : Rtc) : fwShift 0 r = r := if_pos (.inl rfl)

theorem fwShift_keeps {α : Type} {g : Rtc → α} (hg : ∀ r x y, g { r with shift := x, shiftAt := y } = g r) (d : Int) (r : Rtc) :
    g (fwShift d r) = g r := by
  unfold fwShift
  split_ifs
  · rfl
  · exact hg r _ _

theorem fwShift_arms {d : Int} {r : Rtc} (hd : d ≠ 0) (hnone : r.shift = none) (hgo : goOnWay r = false) :
    (fwShift d r).shift = some d := by
  unfold fwShift
  rw [if_neg (by simp [hd, hnone, hgo])]

theorem epochOf_putEpoch {e : Nat} (he : e < 2 ^ 48) (r : Rtc) : epochOf (putEpoch e r).bkp = some e := by
  have hlow : (w e).toNat = e % 2 ^ 32 := BitVec.toNat_ofNat _ _
  have hhigh : (w (e / 2 ^ 32 % 2 ^ 16)).toNat = e / 2 ^ 32 := by
    rw [BitVec.toNat_ofNat, Nat.mod_eq_of_lt (by omega), Nat.mod_eq_of_lt (by omega)]
  have hwords : (putEpoch e r).bkp[0] = epochMagic ∧ (putEpoch e r).bkp[1] = w e
      ∧ (putEpoch e r).bkp[2] = w (e / 2 ^ 32 % 2 ^ 16)
      ∧ (putEpoch e r).bkp[3] = epochCrc epochMagic (w e) (w (e / 2 ^ 32 % 2 ^ 16)) := by
    simp [putEpoch]
  obtain ⟨hmagic, hword1, hword2, hcrc⟩ := hwords
  unfold epochOf
  simp only [hmagic, hword1, hword2, hcrc, hlow, hhigh]
  rw [if_pos ⟨trivial, by omega, trivial⟩, Option.some.injEq]
  omega

theorem putEpoch_rest (e : Nat) (r : Rtc) {i : Fin 16} (hi : 4 ≤ i.val) : (putEpoch e r).bkp[i.val] = r.bkp[i.val] := by
  simp only [putEpoch, Vector.getElem_set]
  rw [if_neg (by omega), if_neg (by omega), if_neg (by omega), if_neg (by omega)]

/-- The record written anew, with the firmware's shift. -/
def epochRewritten (s : State) : Rtc :=
  fwShift (Int.ofNat ((ntTicks s - s.rtc.count) % 32768)) (putEpoch ((ntTicks s - s.rtc.count) / 32768) s.rtc)

/-- The backup domain after an epoch check. -/
def epochRtc (s : State) : Rtc := (epochCheck s).rtc

theorem epochRtc_near {s : State} {e : Nat} (he : epochOf s.rtc.bkp = some e)
    (hd : ((ntTicks s : Int) - (e * 32768 + s.rtc.count)).natAbs ≤ 32767) :
    epochRtc s = fwShift ((ntTicks s : Int) - (e * 32768 + s.rtc.count)) s.rtc := by
  unfold epochRtc epochCheck
  dsimp only
  rw [he]
  exact if_pos hd

theorem epochRtc_none {s : State} (he : epochOf s.rtc.bkp = none) : epochRtc s = { epochRewritten s with view := false } := by
  unfold epochRtc epochCheck
  dsimp only
  rw [he]
  rfl

theorem epochRewritten_keeps {α : Type} {g : Rtc → α} (hg : ∀ r x y, g { r with shift := x, shiftAt := y } = g r) (s : State) :
    g (epochRewritten s) = g (putEpoch ((ntTicks s - s.rtc.count) / 32768) s.rtc) := fwShift_keeps hg _ _

theorem epochRtc_count (s : State) : (epochRtc s).count = s.rtc.count := by
  have hnew : (epochRewritten s).count = s.rtc.count := epochRewritten_keeps (g := Rtc.count) (fun _ _ _ => rfl) s
  cases he : epochOf s.rtc.bkp with
  | none => rw [epochRtc_none he]; exact hnew
  | some e =>
    unfold epochRtc epochCheck
    dsimp only
    rw [he]
    dsimp only [modTim]
    split_ifs
    · exact fwShift_keeps (g := Rtc.count) (fun _ _ _ => rfl) _ s.rtc
    · exact hnew

theorem epochCheck_near {s : State} {e : Nat} (he : epochOf s.rtc.bkp = some e)
    (hnear : ((ntTicks s : Int) - (e * 32768 + s.rtc.count)).natAbs ≤ 32767) :
    (epochRtc s).bkp = s.rtc.bkp
    ∧ (ntTicks s ≠ e * 32768 + s.rtc.count → s.rtc.shift = none → goOnWay s.rtc = false →
        (epochRtc s).shift = some ((ntTicks s : Int) - (e * 32768 + s.rtc.count)))
    ∧ (ntTicks s = e * 32768 + s.rtc.count → epochRtc s = s.rtc) := by
  rw [epochRtc_near he hnear]
  refine ⟨fwShift_keeps (g := Rtc.bkp) (fun _ _ _ => rfl) _ _, fun hne hnone hgo => fwShift_arms (by omega) hnone hgo, fun heq => ?_⟩
  rw [show (ntTicks s : Int) - (e * 32768 + s.rtc.count) = 0 by omega, fwShift_zero]

theorem epochCheck_none {s : State} (hnone : epochOf s.rtc.bkp = none) (hlt : ntTicks s < 2 ^ 62) :
    epochOf (epochRtc s).bkp = some ((ntTicks s - s.rtc.count) / 32768) ∧ (epochRtc s).view = false
    ∧ ∀ i : Fin 16, 4 ≤ i.val → (epochRtc s).bkp[i.val] = s.rtc.bkp[i.val] := by
  have hbkp : (epochRtc s).bkp = (putEpoch ((ntTicks s - s.rtc.count) / 32768) s.rtc).bkp := by
    rw [epochRtc_none hnone]
    exact epochRewritten_keeps (g := Rtc.bkp) (fun _ _ _ => rfl) s
  refine ⟨?_, by rw [epochRtc_none hnone], fun i hi => ?_⟩
  · rw [hbkp, epochOf_putEpoch (by omega)]
  · simp only [hbkp]
    exact putEpoch_rest _ _ hi

end Sys2Proof.Proofs

/-! ### O54: the rows of the backup domain (R226 to R233, R370) -/
namespace Sys2Proof.Proofs

open Sys2Proof Sys2Proof.Machine Sys2Proof.Safety Sys2Proof.Laws

/-! #### Reads of the counter (R229) -/

theorem loRead_freezes (h : Bool) {s : State} (hp : s.clk.power = true) :
    exec (.rtcTickLoRead h) s = .next (settle (rtcTickLoOp s).2) := act_powered (fun s => (rtcTickLoOp s).2) hp

theorem hiRead_answers (h : Bool) {s : State} (hp : s.clk.power = true) :
    exec (.rtcTickHiRead h) s = .next (settle (rtcTickHiOp s).2) := act_powered (fun s => (rtcTickHiOp s).2) hp

theorem hiRead_frozen (h : Bool) {s : State} (hp : s.clk.power = true) (hs : s.rtc.shadow ≠ none) :
    exec (.rtcTickHiRead h) s = .next (settle { s with rtc := { s.rtc with shadow := none } }) := by
  obtain ⟨x, hx⟩ := Option.ne_none_iff_exists'.mp hs
  rw [hiRead_answers h hp, rtcTickHiOp, hx]

theorem hiRead_free (h : Bool) {s : State} (hp : s.clk.power = true) (hs : s.rtc.shadow = none) :
    exec (.rtcTickHiRead h) s = .next (settle { s with fresh := s.fresh + 1 }) := by
  rw [hiRead_answers h hp, rtcTickHiOp, hs]
  rfl

/-! #### Host commands (R230 to R232, R370) -/

theorem alarmArm_answers {sid : Fin 4} {ss : Session} {s : State} (h : hostReady sid 2 ss s) (hi : BitVec 16) :
    (underWay s aRTC_ALARM_HI → exec (.alarmArm sid hi) s = .next (answered sid ss .busy 0 [] s))
    ∧ (¬ underWay s aRTC_ALARM_HI → exec (.alarmArm sid hi) s =
        .next (answered sid ss .ok 4 [] (domWrite aRTC_ALARM_HI (0x80000000 ||| BitVec.setWidth 32 hi) s))) :=
  ⟨fun hb => host_no h (domWriteOp_busy _ hb) (by decide) (by decide),
    fun hf => host_ok h ((domWriteOp_starts _ hf).trans (by rw [BitVec.or_comm]))⟩

theorem shiftGo_answers {sid : Fin 4} {ss : Session} {s : State} (h : hostReady sid 2 ss s) (n : BitVec 15) (sub : Bool) :
    let blocked := underWay s aRTC_SHIFT ∨ (n ≠ 0 ∧ (tickFirst s).rtc.shift ≠ none)
    (blocked → exec (.shiftGo sid n sub) s = .next (answered sid ss .busy 0 [] (tickFirst s)))
    ∧ (¬ blocked → exec (.shiftGo sid n sub) s =
        .next (answered sid ss .ok 4 [] (domWrite aRTC_SHIFT (shiftWord n sub) (tickFirst s)))) :=
  ⟨fun hb => host_no h (shiftGoOp_busy sub hb) (by decide) (by decide), fun hf => host_ok h (shiftGoOp_starts sub hf)⟩

theorem shiftCancel_answers {sid : Fin 4} {ss : Session} {s : State} (h : hostReady sid 2 ss s) :
    (underWay s aRTC_SHIFT → exec (.shiftCancel sid) s = .next (answered sid ss .busy 0 [] (tickFirst s)))
    ∧ (¬ underWay s aRTC_SHIFT → (tickFirst s).rtc.shift ≠ none → exec (.shiftCancel sid) s = .next (answered sid ss .ok 4 []
        (domWrite aRTC_SHIFT ((w s.rtc.shiftAmt ||| (bitWord s.rtc.shiftSub <<< 15)) &&& 0xFFFF) (unshifted (tickFirst s)))))
    ∧ (¬ underWay s aRTC_SHIFT → (tickFirst s).rtc.shift = none →
        exec (.shiftCancel sid) s = .next (answered sid ss .late 0 [] (tickFirst s))) :=
  ⟨fun hb => host_no h (shiftCancelOp_busy _ hb) (by decide) (by decide), fun hf hs => host_ok h (shiftCancelOp_disarms _ hf hs),
    fun hf hs => host_no h (shiftCancelOp_late _ hf hs) (by decide) (by decide)⟩

/-! #### Events, with main power and without (R226) -/

/-- A row of the domain ends in the state `t`; STATUS follows in a powered module. -/
abbrev domainEnds (s t : State) : Host.Outcome State Fault Refusal := .next (if s.clk.power then settle t else t)

theorem domainAct_eq {eff : State → State} {s t : State} (h : eff s = t) : domainAct eff s = domainEnds s t := by
  subst h; rfl

theorem domainEnds_leaves (s t : State) : ∃ u, domainEnds s t = .next u ∧ u.rtc = t.rtc ∧ u.key = t.key ∧ u.lanes = t.lanes := by
  unfold domainEnds
  cases s.clk.power <;> exact ⟨_, rfl, rfl, rfl, rfl⟩

theorem writeDone_ends {a : Nat} {s t : State} (h : modRtc (domDone a) (tickFirst s) = t) :
    exec (.domainWriteDone a) s = domainEnds s t :=
  domainAct_eq (eff := fun s => modRtc (domDone a) (tickFirst s)) h

theorem exec_writeDone_idle {a : Nat} {s : State} (h : ¬ underWay s a) :
    exec (.domainWriteDone a) s = domainEnds s (tickFirst s) := by
  refine writeDone_ends ?_
  rw [modRtc, domDone_idle (mt (underWay_tickFirst s a).mp h)]

theorem exec_writeDone_arms {s : State} {v : Word} {c : Nat} (hw : s.rtc.writes = [⟨aRTC_ALARM_HI, v, c⟩])
    (h : v.getLsbD 31 = true) : exec (.domainWriteDone aRTC_ALARM_HI) s = domainEnds s { tickFirst s with
      rtc := { (tickFirst s).rtc with
        writes := [], alarmReg := v.toNat % 2 ^ 16 * 2 ^ 32 + s.rtc.alarmReg % 2 ^ 32
        alarm := some (v.toNat % 2 ^ 16 * 2 ^ 32 + s.rtc.alarmReg % 2 ^ 32), alarmAt := (tickFirst s).rtc.xtal } } := by
  obtain ⟨-, -, -, hwrites, -, halarm, -⟩ := tickFirst_leaves s
  exact writeDone_ends (congrArg (fun q => { tickFirst s with rtc := q })
    ((domDone_arms (hwrites.trans hw) h).trans (by rw [halarm])))

theorem exec_writeDone_goes {s : State} {v : Word} {c : Nat} (hw : s.rtc.writes = [⟨aRTC_SHIFT, v, c⟩])
    (hn : v.toNat % 2 ^ 15 ≠ 0) (hgo : v.getLsbD 16 = true) :
    exec (.domainWriteDone aRTC_SHIFT) s = domainEnds s { tickFirst s with rtc := { (tickFirst s).rtc with
      writes := [], shiftAmt := v.toNat % 2 ^ 15, shiftSub := v.getLsbD 15, shiftAt := (tickFirst s).rtc.xtal
      shift := some (if v.getLsbD 15 then -((v.toNat % 2 ^ 15 : Nat) : Int) else ((v.toNat % 2 ^ 15 : Nat) : Int)) } } := by
  obtain ⟨-, -, -, hwrites, -⟩ := tickFirst_leaves s
  exact writeDone_ends (congrArg (fun q => { tickFirst s with rtc := q }) (domDone_goes (hwrites.trans hw) hn hgo))

theorem exec_shiftApply_idle {s : State} (h : s.rtc.shift = none ∨ s.rtc.count % 32768 ≠ 0 ∨ s.rtc.xtal ≤ s.rtc.shiftAt) :
    exec .shiftApply s = domainEnds s s := by
  refine domainAct_eq (shiftNow_of_not_due (Bool.eq_false_iff.mpr fun hdue => ?_))
  obtain ⟨hsome, hsec, hlater⟩ := (shiftDue_iff s.rtc).mp hdue
  rcases h with h | h | h
  · exact hsome h
  · exact h hsec
  · omega

theorem exec_shiftApply_due {s : State} {d : Int} (hd : s.rtc.shift = some d) (hsec : s.rtc.count % 32768 = 0)
    (hlater : s.rtc.shiftAt < s.rtc.xtal) : exec .shiftApply s = domainEnds s (shiftApply d s) :=
  domainAct_eq (shiftNow_of_due hd ((shiftDue_iff s.rtc).mpr ⟨by rw [hd]; exact nofun, hsec, hlater⟩))

theorem tickFirst_of_no_shift {s : State} (h : shiftDue s.rtc = false) : tickFirst s = alarmNow s := by
  rw [tickFirst, shiftNow_of_not_due h]

theorem exec_alarmFire_idle {s : State} (hshift : shiftDue s.rtc = false) (halarm : alarmDue s.rtc = false) :
    exec .alarmFire s = domainEnds s s := domainAct_eq ((tickFirst_of_no_shift hshift).trans (alarmNow_of_not_due halarm))

theorem exec_alarmFire_due {s : State} {a : Nat} (hshift : shiftDue s.rtc = false) (ha : s.rtc.alarm = some a)
    (hle : a ≤ s.rtc.count) (hlater : s.rtc.alarmAt < s.rtc.xtal) :
    exec .alarmFire s = domainEnds s (fireAt s.rtc.count a s) :=
  domainAct_eq ((tickFirst_of_no_shift hshift).trans (alarmNow_of_due ha ((alarmDue_some ha).mpr ⟨hle, hlater⟩)))

/-- Nothing but its own operand tells a sample in its time from one that is not due. -/
theorem exec_tamperSample (x : TampLevels) (s : State) :
    (s.rtc.xtal < s.rtc.tampAt + 32 → exec (.tamperSample x) s = domainEnds s s)
    ∧ (s.rtc.tampAt + 32 ≤ s.rtc.xtal → exec (.tamperSample x) s =
        domainEnds s (tampAll x.closed (modRtc (fun r => { r with cellLow := x.cellLow }) s))) := by
  refine ⟨fun h => domainAct_eq ?_, fun h => domainAct_eq ?_⟩
  · rw [decide_eq_false (Nat.not_le.mpr h), whenever_false]
  · rw [decide_eq_true h, whenever_true]

theorem exec_domainReset_powered {s : State} (hp : s.clk.power = true) : exec .domainReset s = .next (settle s) := by
  refine (domainAct_on _ hp).trans ?_
  rw [hp, Bool.not_true, whenever_false]

theorem exec_domainReset_unpowered {s : State} (hp : s.clk.power = false) :
    exec .domainReset s = .next { s with rtc := { State.rtc0 with cellLow := true, lostOff := true } } := by
  refine (domainAct_off _ hp).trans ?_
  rw [hp, Bool.not_false, whenever_true]
  rfl

/-- Settles O54, row by row, from what the present tick's shift and alarm leave, what a write that is done arms, and what one
sample and one epoch check make of the domain. That writes, cancels and samples come after a due shift or alarm, and that the
oldest write to a register ends first, is log 40 (DEDUCED), and that a read of RTC_TICK_HI without a freeze draws a free value
log 40 (DESIGN CHOICE); that the cell's level comes with the tamper samples is log 63 (DESIGN CHOICE): there the clauses say
what the model chose. -/
theorem backupDomain : Obligations.BackupDomain := by
  unfold Obligations.BackupDomain
  intro s ends gives t q r idle under
  refine ⟨fun hp h => ?_, fun sid ss h => ?_, fun a => exec_writeDone_idle, fun v c => exec_writeDone_arms,
    fun v c => exec_writeDone_goes, exec_shiftApply_idle, fun d hd hsec hlater => ?_, rfl, fun a ha hshift => ?_,
    fun hnone hshift => exec_alarmFire_idle hshift (alarmDue_none hnone), exec_domainReset_powered, fun hp => ?_,
    fun closed low => ?_, fun hp => ?_⟩
  · have hgives : ∀ r, gives r = .next (settle { s with rtc := r }) := fun r => congrArg Host.Outcome.next (if_pos hp)
    rw [hgives, hgives]
    exact ⟨loRead_freezes h hp, hiRead_frozen h hp, hiRead_free h hp⟩
  · obtain ⟨hbusy, hdisarms, hlate⟩ := shiftCancel_answers h
    refine ⟨fun n sub => ?_, hbusy, hdisarms, hlate, alarmArm_answers h⟩
    obtain ⟨hgoBusy, hgoStarts⟩ := shiftGo_answers h n sub
    exact ⟨hgoBusy, fun hf => ⟨shiftWord n sub, hgoStarts hf, shiftWord_amount n sub, shiftWord_sub n sub, shiftWord_go n sub⟩⟩
  · have happly := exec_shiftApply_due hd hsec hlater
    refine ⟨fun hneg => happly.trans (congrArg (domainEnds s) (shiftApply_turns hneg)), fun h0 h48 => ?_⟩
    obtain ⟨u, hu, hrtc, -, hlanes⟩ := domainEnds_leaves s (shiftApply d s)
    refine ⟨u, happly.trans hu, ?_⟩
    rw [hrtc, hlanes]
    exact shiftApply_leaves h0 h48
  · refine ⟨fun hno => exec_alarmFire_idle hshift (Bool.eq_false_iff.mpr fun hdue => ?_), fun hle hlater => ?_⟩
    · have := (alarmDue_some ha).mp hdue
      omega
    · obtain ⟨u, hu, hrtc, -, hlanes⟩ := domainEnds_leaves s (fireAt s.rtc.count a s)
      refine ⟨u, (exec_alarmFire_due hshift ha hle hlater).trans hu, ?_⟩
      rw [hrtc, hlanes, fireAt_rtc, firedRtc]
      refine ⟨rfl, fun hp => ?_, fun hp => ?_, (congrArg State.lanes (fireAt_besideTick _ a s) :)⟩
      · rw [hp, Bool.not_false, Bool.or_true]
      · rw [hp, Bool.not_true, Bool.or_false]
  · exact ⟨_, exec_domainReset_unpowered hp, rfl, rfl, rfl, rfl, rfl, rfl, (by decide : State.rtc0.evt.getLsbD 2 = true), rfl⟩
  · obtain ⟨hidle, hdue⟩ := exec_tamperSample ⟨closed, low⟩ s
    refine ⟨hidle, fun h => ?_⟩
    obtain ⟨u, hu, hrtc, hkey, hlanes⟩ := domainEnds_leaves s (tampAll closed (modRtc (fun r => { r with cellLow := low }) s))
    obtain ⟨htampAt, hlow, hcount, hkey', hlanes', htamp⟩ := tamperSample_leaves closed low s
    refine ⟨u, (hdue h).trans hu, ?_⟩
    rw [hrtc, hkey, hlanes]
    refine ⟨htampAt, hlow, hcount, hkey', hlanes', fun n => ?_⟩
    rw [htamp n]
    exact sampled_cases closed low s n
  · intro sec due ticks
    obtain ⟨hidle, hdue⟩ := act_due (o := exec .epochCheck s) (due := due) hp
      (cond := fun s => s.tim.state == .locked && s.tim.epochSec != some (nowSec s)) rfl
      (by rw [Bool.and_eq_true, beq_iff_eq, bne_iff_ne]; rfl)
    exact ⟨hidle, fun h => ⟨_, hdue h, rfl, epochRtc_count s, rfl, fun e he hnear => epochCheck_near he hnear,
      fun hnone _ hlt => epochCheck_none hnone hlt⟩⟩

end Sys2Proof.Proofs

/-! ### The servo of network time: its choice of source and its states (R211 to R214) -/
namespace Sys2Proof.Proofs

open Sys2Proof Sys2Proof.Machine Sys2Proof.Safety Sys2Proof.Laws

/-! #### What the choice of a source and a change of state leave alone -/

/-- TIM without what a change of source or state may change, and the state without that, the recorder and the event word. -/
def withoutServo (t : Tim) : Tim :=
  { t with
    state := .freerun, src := 0, holdLim := false, everLocked := false, holdStart := none, freq := 0, lockHist := []
    lockSeg := 0, stepPend := none, lockSrc := 0, stepped := false, fromHold := false, lockRun := 0, evt := 0 }
def besideServo (s : State) : State := { besideNotes s with tim := withoutServo s.tim }

theorem modTim_besideServo {f : Tim → Tim} (s : State) (h : ∀ t, withoutServo (f t) = withoutServo t := by intro; rfl) :
    besideServo (modTim f s) = besideServo s := congrArg (fun t => { besideNotes s with tim := t }) (h s.tim)

/-- What every such change leaves. -/
theorem besideServo_leaves {s t : State} (h : besideServo t = besideServo s) : t.clk = s.clk ∧ t.lanes = s.lanes
    ∧ t.sys = s.sys ∧ t.mem = s.mem ∧ t.ne = s.ne ∧ t.regs = s.regs ∧ t.tim.sources = s.tim.sources
    ∧ t.tim.offset = s.tim.offset :=
  ⟨(congrArg State.clk h :), (congrArg State.lanes h :), (congrArg State.sys h :), (congrArg State.mem h :),
    (congrArg State.ne h :), (congrArg State.regs h :), (congrArg (fun u => u.tim.sources) h :),
    (congrArg (fun u => u.tim.offset) h :)⟩

theorem timEvt_besideServo (n : Nat) (s : State) : besideServo (timEvt n s) = besideServo s := modTim_besideServo s

theorem raiseEntry_besideServo (e : Entry) (s : State) : besideServo (raiseEntry e s) = besideServo s := by
  obtain ⟨v, h⟩ := raiseEntry_only e s; rw [h]; rfl

theorem noteU_besideServo (code : BitVec 16) (src : BitVec 8) (s : State) : besideServo (noteU code src s) = besideServo s :=
  raiseEntry_besideServo _ s

theorem assertEvw_besideServo (n : Nat) (s : State) : besideServo (assertEvw n s) = besideServo s := by
  unfold assertEvw; split <;> rfl

theorem lockPush_besideServo (s : State) : besideServo (lockPush s) = besideServo s := by
  unfold lockPush; split <;> rfl

theorem setFreq_besideServo (f : Int) (s : State) : besideServo (setFreq f s) = besideServo s :=
  (modTim_besideServo _).trans (lockPush_besideServo s)

/-- TIM as every change of the time state leaves it first. -/
def stateEntered (st : TimState) (s : State) : State :=
  assertEvw 34 (modTim (fun t => { t with state := st, stepPend := none }) (lockPush s))

theorem stateEntered_besideServo (st : TimState) (s : State) : besideServo (stateEntered st s) = besideServo s :=
  (assertEvw_besideServo 34 _).trans ((modTim_besideServo _).trans (lockPush_besideServo s))

theorem timGoto_same {st : TimState} {s : State} (h : s.tim.state = st) : timGoto st s = s := if_pos h

theorem timGoto_locked_eq {s : State} (h : s.tim.state ≠ .locked) : timGoto .locked s =
    timEvt 0 (noteU 0x5001 srcTIM (modTim (fun t => { t with
      everLocked := true, holdLim := false, holdStart := none, lockSeg := s.clk.cyc }) (stateEntered .locked s))) := by
  have hclk : (stateEntered .locked s).clk = s.clk := (besideServo_leaves (stateEntered_besideServo .locked s)).1
  rw [← hclk]
  exact if_neg h

/-- The average rate of HOLDOVER is taken up. -/
def rateHeld (s : State) : State := modTim (fun t => { t with freq := histMean t.lockHist t.freq }) s

theorem rateHeld_besideServo (s : State) : besideServo (rateHeld s) = besideServo s := modTim_besideServo s

theorem timGoto_holdover_eq {s : State} (h : s.tim.state ≠ .holdover) : timGoto .holdover s =
    if s.tim.state = .locked then timEvt 1 (noteU 0x5002 srcTIM (modTim (fun t => { t with
      holdStart := some (rateHeld (stateEntered .holdover s)).clk.cyc }) (rateHeld (stateEntered .holdover s))))
    else rateHeld (stateEntered .holdover s) := if_neg h

theorem timGoto_acquiring_eq {s : State} (h : s.tim.state ≠ .acquiring) : timGoto .acquiring s =
    modTim (fun t => { t with lockRun := 0, stepped := false, fromHold := s.tim.state == .holdover })
      (stateEntered .acquiring s) := if_neg h

theorem timGoto_freerun_eq {s : State} (h : s.tim.state ≠ .freerun) : timGoto .freerun s =
    modTim (fun t => { t with freq := t.stored }) (stateEntered .freerun s) := if_neg h

theorem timGoto_besideServo (st : TimState) (s : State) : besideServo (timGoto st s) = besideServo s := by
  have hentered := stateEntered_besideServo st s
  by_cases h : s.tim.state = st
  · rw [timGoto_same h]
  cases st with
  | locked =>
    rw [timGoto_locked_eq h]
    exact (timEvt_besideServo 0 _).trans ((noteU_besideServo _ _ _).trans ((modTim_besideServo _).trans hentered))
  | holdover =>
    rw [timGoto_holdover_eq h]
    split
    · exact (timEvt_besideServo 1 _).trans ((noteU_besideServo _ _ _).trans ((modTim_besideServo _).trans
        ((rateHeld_besideServo _).trans hentered)))
    · exact (rateHeld_besideServo _).trans hentered
  | acquiring => rw [timGoto_acquiring_eq h]; exact (modTim_besideServo _).trans hentered
  | freerun => rw [timGoto_freerun_eq h]; exact (modTim_besideServo _).trans hentered

theorem lockPush_of_not_locked {s : State} (h : s.tim.state ≠ .locked) : lockPush s = s := if_neg h

theorem lockPush_tim (s : State) : ∃ hist seg, (lockPush s).tim = { s.tim with lockHist := hist, lockSeg := seg } := by
  unfold lockPush
  split
  · exact ⟨_, _, rfl⟩
  · exact ⟨s.tim.lockHist, s.tim.lockSeg, rfl⟩

theorem stateEntered_tim (st : TimState) (s : State) : ∃ hist seg, (stateEntered st s).tim =
    { s.tim with state := st, stepPend := none, lockHist := hist, lockSeg := seg } := by
  obtain ⟨hist, seg, h⟩ := lockPush_tim s
  refine ⟨hist, seg, ?_⟩
  rw [stateEntered, assertEvw_tim, modTim, h]

theorem noteU_tim (code : BitVec 16) (src : BitVec 8) (s : State) : (noteU code src s).tim = s.tim := raiseEntry_tim _ s

/-- TIM after LOCKED is entered: the rate stays. -/
theorem timGoto_locked_tim {s : State} (h : s.tim.state ≠ .locked) : ∃ hist, (timGoto .locked s).tim =
    { s.tim with
      state := .locked, stepPend := none, lockHist := hist, lockSeg := s.clk.cyc
      everLocked := true, holdLim := false, holdStart := none, evt := setBit s.tim.evt 0 } := by
  obtain ⟨hist, seg, ht⟩ := stateEntered_tim .locked s
  refine ⟨hist, ?_⟩
  rw [timGoto_locked_eq h, timEvt, modTim_tim, noteU_tim, modTim_tim, ht]

/-- The source and the state after a change of state. -/
theorem timGoto_enters (st : TimState) (s : State) : (timGoto st s).tim.state = st ∧ (timGoto st s).tim.src = s.tim.src := by
  by_cases h : s.tim.state = st
  · rw [timGoto_same h]; exact ⟨h, rfl⟩
  obtain ⟨hist, seg, ht⟩ := stateEntered_tim st s
  cases st with
  | locked =>
    obtain ⟨hist, ht⟩ := timGoto_locked_tim h
    rw [ht]; exact ⟨rfl, rfl⟩
  | holdover =>
    rw [timGoto_holdover_eq h]
    split
    · rw [timEvt, modTim_tim, noteU_tim, modTim_tim, rateHeld, modTim_tim, ht]; exact ⟨rfl, rfl⟩
    · rw [rateHeld, modTim_tim, ht]; exact ⟨rfl, rfl⟩
  | acquiring => rw [timGoto_acquiring_eq h, modTim_tim, ht]; exact ⟨rfl, rfl⟩
  | freerun => rw [timGoto_freerun_eq h, modTim_tim, ht]; exact ⟨rfl, rfl⟩

/-- HOLDOVER entered from LOCKED: its interval begins. -/
theorem timGoto_holdover_begins {s : State} (h : s.tim.state = .locked) :
    (timGoto .holdover s).tim.holdStart = some s.clk.cyc ∧ (timGoto .holdover s).tim.evt.getLsbD 1 = true := by
  have hclk : (rateHeld (stateEntered .holdover s)).clk = s.clk :=
    (besideServo_leaves ((rateHeld_besideServo _).trans (stateEntered_besideServo .holdover s))).1
  rw [timGoto_holdover_eq (by rw [h]; decide), if_pos h, hclk, timEvt, modTim_tim, noteU_tim, modTim_tim]
  refine ⟨rfl, ?_⟩
  simp [setBit]

/-! #### The source in use -/

/-- The source in use follows the choice among the valid ones. -/
def sourceTaken (s : State) : State :=
  if timSelect s = s.tim.src then s
  else timEvt 6 (modTim (fun t => { t with
      lockSrc := if t.state = .locked then t.src else t.lockSrc, src := timSelect s, lockRun := 0 })
    (if s.tim.state = .locked ∧ s.tim.src ≠ 0 ∧ timSelect s ≠ 0 then noteU 0x5006 srcTIM s else s))

theorem sourceTaken_besideServo (s : State) : besideServo (sourceTaken s) = besideServo s := by
  have hnoted : ∀ (c : Prop) [Decidable c], besideServo (if c then noteU 0x5006 srcTIM s else s) = besideServo s := by
    intro c _
    split
    · exact noteU_besideServo _ _ s
    · rfl
  unfold sourceTaken
  split
  · rfl
  · exact (timEvt_besideServo 6 _).trans ((modTim_besideServo _).trans (hnoted _))

/-- The source changes, and the state stays. -/
theorem sourceTaken_tim (s : State) : (sourceTaken s).tim.src = timSelect s ∧ (sourceTaken s).tim.state = s.tim.state
    ∧ (sourceTaken s).tim.fromHold = s.tim.fromHold := by
  have hnoted : ∀ (c : Prop) [Decidable c], (if c then noteU 0x5006 srcTIM s else s).tim = s.tim := by
    intro c _
    split
    · exact noteU_tim _ _ s
    · rfl
  unfold sourceTaken
  split
  · next h => exact ⟨h.symm, rfl, rfl⟩
  · rw [timEvt, modTim_tim, modTim_tim, hnoted]
    exact ⟨rfl, rfl, rfl⟩

theorem sourceTaken_same {s : State} (h : timSelect s = s.tim.src) : sourceTaken s = s := if_pos h

/-- The state follows the source in use, of which 0 is none. -/
def stateFollows (src : Nat) (s : State) : State :=
  if src = 0 then
    match s.tim.state with
    | .locked => timGoto .holdover s
    | .acquiring => timGoto (if s.tim.fromHold then .holdover else .freerun) s
    | _ => s
  else
    match s.tim.state with
    | .freerun => timGoto .acquiring s
    | .holdover => timGoto .acquiring s
    | _ => s

theorem timReselect_eq (s : State) : timReselect s = stateFollows (timSelect s) (sourceTaken s) := by
  unfold timReselect stateFollows sourceTaken
  rfl

theorem stateFollows_cases (n : Nat) (s : State) : stateFollows n s = s ∨ ∃ st, stateFollows n s = timGoto st s := by
  unfold stateFollows
  split <;> split
  · exact .inr ⟨_, rfl⟩
  · exact .inr ⟨_, rfl⟩
  · exact .inl rfl
  · exact .inr ⟨_, rfl⟩
  · exact .inr ⟨_, rfl⟩
  · exact .inl rfl

/-- The state follows the source: with none left, and with one. -/
theorem timReselect_lost_locked {s : State} (h : timSelect s = 0) (hst : s.tim.state = .locked) :
    timReselect s = timGoto .holdover (sourceTaken s) := by
  rw [timReselect_eq, h, stateFollows, (sourceTaken_tim s).2.1, hst]
  rfl

theorem timReselect_lost_acquiring {s : State} (h : timSelect s = 0) (hst : s.tim.state = .acquiring) :
    timReselect s = timGoto (if s.tim.fromHold then .holdover else .freerun) (sourceTaken s) := by
  obtain ⟨-, hstate, hfrom⟩ := sourceTaken_tim s
  rw [timReselect_eq, h, stateFollows, hstate, hst, hfrom]
  rfl

theorem timReselect_goes_on {s : State} (h : timSelect s ≠ 0) (hst : s.tim.state = .locked ∨ s.tim.state = .acquiring) :
    timReselect s = sourceTaken s := by
  rw [timReselect_eq, stateFollows, if_neg h, (sourceTaken_tim s).2.1]
  rcases hst with hst | hst <;> rw [hst]

theorem timReselect_besideServo (s : State) : besideServo (timReselect s) = besideServo s := by
  rw [timReselect_eq]
  rcases stateFollows_cases (timSelect s) (sourceTaken s) with h | ⟨st, h⟩
  · rw [h]; exact sourceTaken_besideServo s
  · rw [h]; exact (timGoto_besideServo st _).trans (sourceTaken_besideServo s)

theorem timReselect_src (s : State) : (timReselect s).tim.src = timSelect s := by
  rw [timReselect_eq]
  rcases stateFollows_cases (timSelect s) (sourceTaken s) with h | ⟨st, h⟩
  · rw [h]; exact (sourceTaken_tim s).1
  · rw [h]; exact (timGoto_enters st _).2.trans (sourceTaken_tim s).1

theorem timSelect_congr {s t : State} (hregs : t.regs = s.regs)
    (hvalid : ∀ i, (timSource t i).valid = (timSource s i).valid) : timSelect t = timSelect s := by
  unfold timSelect timOrder reg
  rw [hregs]
  simp only [hvalid]

theorem timSource_fin (s : State) (i : Fin 3) : timSource s i.val = s.tim.sources[i.val] := vget_of_lt _ _ i.isLt

end Sys2Proof.Proofs

/-! ### Measurements of a source, its loss, the holdover limit (R211 to R214) -/
namespace Sys2Proof.Proofs

open Sys2Proof Sys2Proof.Machine Sys2Proof.Safety Sys2Proof.Laws

/-! #### A source after a measurement -/

/-- An offset that is an outlier in the state in force (R212). -/
abbrev outlying (s : State) (off : Int) : Prop := s.tim.state = .locked ∧ 10000 < off.natAbs

/-- A source after an outlier: the third in a row makes a valid one invalid. -/
def afterOutlier (x : TimSource) : TimSource :=
  if 3 ≤ x.outliers + 1 ∧ x.valid = true then { x with valid := false, good := 0, outliers := 0 }
  else { x with outliers := x.outliers + 1, good := 0 }

/-- A source after a good measurement: the third in a row makes it valid. -/
def afterGood (cyc : Nat) (x : TimSource) : TimSource :=
  { x with outliers := 0, good := min 3 (x.good + 1), lastGood := cyc, valid := x.valid || min 3 (x.good + 1) == 3 }

theorem afterOutlier_leaves (x : TimSource) : (afterOutlier x).good = 0
    ∧ (afterOutlier x).valid = (x.valid && decide (x.outliers < 2)) := by
  unfold afterOutlier
  split
  · next h => exact ⟨rfl, by rw [decide_eq_false (by omega), Bool.and_false]⟩
  · next h =>
    refine ⟨rfl, ?_⟩
    cases hv : x.valid
    · rfl
    · exact (decide_eq_true (by by_contra hc; exact h ⟨by omega, hv⟩)).symm

theorem afterGood_leaves (cyc : Nat) (x : TimSource) : (afterGood cyc x).good = min 3 (x.good + 1)
    ∧ (afterGood cyc x).valid = (x.valid || decide (2 ≤ x.good)) ∧ (afterGood cyc x).outliers = 0
    ∧ (afterGood cyc x).lastGood = cyc := by
  refine ⟨rfl, congrArg (x.valid || ·) ?_, rfl, rfl⟩
  rw [Bool.eq_iff_iff, beq_iff_eq, decide_eq_true_eq]
  omega

/-- What stands beside the sources of time. -/
def besideSources (s : State) : State := { besideServo s with tim := { (besideServo s).tim with sources := State.tim0.sources } }

/-- The source `i` becomes its image under `f`, and the servo may follow. -/
abbrev sourceBecomes (i : Nat) (f : TimSource → TimSource) (s u : State) : Prop :=
  changesAt besideSources (fun s => s.tim.sources) i f s u

theorem besideSources_of_servo {s t : State} (h : besideServo t = besideServo s) :
    besideSources t = besideSources s ∧ t.tim.sources = s.tim.sources :=
  ⟨congrArg (fun u : State => { u with tim := { u.tim with sources := State.tim0.sources } }) h,
    (congrArg (fun u => u.tim.sources) h :)⟩

theorem besideSources_leaves {s t : State} (h : besideSources t = besideSources s) : t.clk = s.clk ∧ t.lanes = s.lanes
    ∧ t.sys = s.sys ∧ t.mem = s.mem ∧ t.ne = s.ne ∧ t.tim.offset = s.tim.offset ∧ t.tim.ports = s.tim.ports
    ∧ t.tim.cnt = s.tim.cnt :=
  ⟨(congrArg State.clk h :), (congrArg State.lanes h :), (congrArg State.sys h :), (congrArg State.mem h :),
    (congrArg State.ne h :), (congrArg (fun u => u.tim.offset) h :), (congrArg (fun u => u.tim.ports) h :),
    (congrArg (fun u => u.tim.cnt) h :)⟩

theorem modSource_becomes (i : Nat) (f : TimSource → TimSource) (s : State) : sourceBecomes i f s (modSource i f s) := ⟨rfl, rfl⟩

theorem timInvalid_becomes (i : Nat) (s : State) :
    sourceBecomes i (fun x => { x with valid := false, good := 0, outliers := 0 }) s (timInvalid i s) :=
  changesAt_then (modSource_becomes i _ s) (besideSources_of_servo (timReselect_besideServo _))

/-- The offset measured last. -/
def withOffset (off : Int) (s : State) : State := modTim (fun t => { t with offset := off }) s

/-- The source in use is followed by the servo. -/
def servoFollows (i : Nat) (off : Int) (s : State) : State :=
  if s.tim.src ≠ i + 1 then s
  else match s.tim.state with
    | .acquiring => timAcquire i off s
    | .locked => setFreq (servo off s.tim.freq) s
    | _ => s

/-- The state in which a good measurement of a source stands. -/
def goodTaken (i : Nat) (off : Int) (s : State) : State := modSource i (afterGood s.clk.cyc) (withOffset off s)

theorem modSource_congr {i : Fin 3} {f g : TimSource → TimSource} {s : State}
    (h : f s.tim.sources[i.val] = g s.tim.sources[i.val]) : modSource i.val f s = modSource i.val g s :=
  congrArg (fun v => modTim (fun t => { t with sources := v }) s) (vmod_congr fun _ => h)

theorem timMeasure_good {i : Fin 3} {off : Int} {s : State} (h : ¬ outlying s off) :
    timMeasure i.val off s = servoFollows i.val off (timReselect (goodTaken i.val off s)) := by
  have hsource : timSource (withOffset off s) i.val = s.tim.sources[i.val] := timSource_fin _ i
  have htaken : modSource i.val (fun x => { x with
      outliers := 0, good := min 3 ((timSource (withOffset off s) i.val).good + 1), lastGood := s.clk.cyc
      valid := x.valid || min 3 ((timSource (withOffset off s) i.val).good + 1) == 3 }) (withOffset off s)
      = goodTaken i.val off s := modSource_congr (by rw [hsource]; rfl)
  refine (if_neg h).trans ?_
  rw [← htaken]
  rfl

/-- The state in which an outlier of a source has been counted. -/
def outlierTaken (i : Nat) (off : Int) (s : State) : State :=
  modSource i (fun x => { x with outliers := x.outliers + 1, good := 0 }) (withOffset off s)

theorem outlierTaken_becomes (i : Nat) (off : Int) (s : State) :
    sourceBecomes i (fun x => { x with outliers := x.outliers + 1, good := 0 }) (withOffset off s) (outlierTaken i off s) :=
  modSource_becomes i _ _

theorem timMeasure_outlier_eq {i : Fin 3} {off : Int} {s : State} (h : outlying s off) :
    timMeasure i.val off s = if 3 ≤ (s.tim.sources[i.val]).outliers + 1 ∧ (s.tim.sources[i.val]).valid = true
      then timInvalid i.val (outlierTaken i.val off s) else outlierTaken i.val off s := by
  have hsource : timSource (withOffset off s) i.val = s.tim.sources[i.val] := timSource_fin _ i
  have htaken : modSource i.val (fun x => { x with
      outliers := (timSource (withOffset off s) i.val).outliers + 1, good := 0 }) (withOffset off s) = outlierTaken i.val off s :=
    modSource_congr (by rw [hsource]; rfl)
  have hvalid : (timSource (outlierTaken i.val off s) i.val).valid = (s.tim.sources[i.val]).valid := by
    rw [timSource_fin]
    exact (congrArg TimSource.valid (changesAt_same (outlierTaken_becomes i.val off s)) :)
  refine (if_pos h).trans ?_
  rw [← htaken] at hvalid ⊢
  exact if_congr (iff_of_eq (congrArg₂ And (congrArg (fun x => 3 ≤ TimSource.outliers x + 1) hsource) (congrArg (· = true) hvalid)))
    rfl rfl

theorem timMeasure_outlier {i : Fin 3} {off : Int} {s : State} (h : outlying s off) :
    sourceBecomes i.val afterOutlier (withOffset off s) (timMeasure i.val off s) := by
  have heq := timMeasure_outlier_eq (i := i) h
  by_cases h3 : 3 ≤ (s.tim.sources[i.val]).outliers + 1 ∧ (s.tim.sources[i.val]).valid = true
  · rw [heq, if_pos h3]
    exact changesAt_congr (changesAt_trans (outlierTaken_becomes _ _ _) (timInvalid_becomes _ _)) fun _ => (if_pos h3).symm
  · rw [heq, if_neg h3]
    exact changesAt_congr (outlierTaken_becomes _ _ _) fun _ => (if_neg h3).symm

/-! #### The servo (R213) -/

theorem servo_bounded (off freq : Int) : (servo off freq).natAbs ≤ 500000 := by
  unfold servo; omega

/-- The bound within which a measurement counts towards the lock, and a step that the servo may make (R212, R213). -/
abbrev lockBound (i : Nat) : Nat := if i = 1 then 1000 else 200
abbrev mayStep (s : State) (off : Int) : Prop := (reg 0x60004 s).getLsbD 6 = true ∧ s.tim.stepped = false
  ∧ max 10 ((reg 0x60008 s).toNat % 2 ^ 20) * 1000 ≤ off.natAbs

/-- The run of measurements within the bound, and the state in which the servo has slewed. -/
def lockRunAfter (i : Nat) (off : Int) (s : State) : Nat := if off.natAbs ≤ lockBound i then s.tim.lockRun + 1 else 0
def slewed (i : Nat) (off : Int) (s : State) : State :=
  setFreq (servo off s.tim.freq) (modTim (fun t => { t with lockRun := lockRunAfter i off s }) s)

theorem timAcquire_eq (i : Nat) (off : Int) (s : State) : timAcquire i off s =
    if mayStep s off then modTim (fun t => { t with stepped := true, lockRun := 0, stepPend := some (-off) }) s
    else if 16 ≤ lockRunAfter i off s then timGoto .locked (slewed i off s) else slewed i off s := by
  have hstep : ((reg 0x60004 s).getLsbD 6 = true ∧ (!s.tim.stepped) = true
      ∧ Int.ofNat (max 10 (field (reg 0x60008 s) 0 20)) * 1000 ≤ (off.natAbs : Int)) ↔ mayStep s off := by
    rw [field_eq, Nat.pow_zero, Nat.div_one, Bool.not_eq_true', Int.ofNat_eq_natCast]
    refine and_congr_right fun _ => and_congr_right fun _ => ?_
    omega
  have hrun : (if (off.natAbs : Int) ≤ (if i = 1 then 1000 else 200) then s.tim.lockRun + 1 else 0) = lockRunAfter i off s := by
    unfold lockRunAfter lockBound
    by_cases hi : i = 1 <;> simp only [hi, if_true, if_false] <;> congr 1 <;> exact propext Nat.cast_le
  unfold timAcquire
  dsimp only
  rw [hrun]
  simp only [hstep]
  rfl

theorem timAcquire_besideServo (i : Nat) (off : Int) (s : State) : besideServo (timAcquire i off s) = besideServo s := by
  have hslew : besideServo (slewed i off s) = besideServo s :=
    (setFreq_besideServo _ _).trans (modTim_besideServo s)
  rw [timAcquire_eq]
  split
  · exact modTim_besideServo s
  · split
    · exact (timGoto_besideServo _ _).trans hslew
    · exact hslew

theorem servoFollows_besideServo (i : Nat) (off : Int) (s : State) : besideServo (servoFollows i off s) = besideServo s := by
  unfold servoFollows
  split
  · rfl
  · split
    · exact timAcquire_besideServo i off s
    · exact setFreq_besideServo _ s
    · rfl

/-- A source after a measurement. -/
def afterMeasure (s : State) (off : Int) (x : TimSource) : TimSource :=
  if s.tim.state = .locked ∧ 10000 < off.natAbs then afterOutlier x else afterGood s.clk.cyc x

/-- What a measurement makes of its source, whatever the servo does (R211, R212). -/
theorem timMeasure_becomes (i : Fin 3) (off : Int) (s : State) :
    sourceBecomes i.val (afterMeasure s off) (withOffset off s) (timMeasure i.val off s) := by
  by_cases h : outlying s off
  · exact changesAt_congr (timMeasure_outlier h) fun _ => (if_pos h).symm
  · rw [timMeasure_good h]
    have hservo := (servoFollows_besideServo i.val off _).trans (timReselect_besideServo (goodTaken i.val off s))
    exact changesAt_congr (changesAt_then (modSource_becomes _ _ _) (besideSources_of_servo hservo)) fun _ => (if_neg h).symm

/-- A measurement of the source in use, which was and stays the choice (R212). -/
abbrev inUse (s : State) (i : Fin 3) : Prop :=
  (s.tim.sources[i.val]).valid = true ∧ s.tim.src = i.val + 1 ∧ timSelect s = i.val + 1

theorem timMeasure_used {i : Fin 3} {off : Int} {s : State} (h : ¬ outlying s off) (hused : inUse s i)
    (hst : s.tim.state = .locked ∨ s.tim.state = .acquiring) :
    timMeasure i.val off s = servoFollows i.val off (goodTaken i.val off s) := by
  obtain ⟨hvalid, hsrc, hsel⟩ := hused
  have hselect : timSelect (goodTaken i.val off s) = timSelect s := timSelect_congr rfl fun n => by
    by_cases hn : n < 3
    · have hget := (timSource_fin (goodTaken i.val off s) ⟨n, hn⟩).trans (getElem_vmod s.tim.sources (afterGood s.clk.cyc) i ⟨n, hn⟩)
      refine (congrArg TimSource.valid hget).trans ?_
      rw [show timSource s n = s.tim.sources[n] from timSource_fin s ⟨n, hn⟩]
      by_cases hni : (⟨n, hn⟩ : Fin 3) = i
      · subst hni
        rw [if_pos rfl, (afterGood_leaves _ _).2.1, hvalid, Bool.true_or]
      · rw [if_neg hni]
    · simp [timSource, vget, hn]
  have htaken : (goodTaken i.val off s).tim.src = s.tim.src ∧ (goodTaken i.val off s).tim.state = s.tim.state := ⟨rfl, rfl⟩
  rw [timMeasure_good h, timReselect_goes_on (by rw [hselect, hsel]; exact Nat.succ_ne_zero _) (by rw [htaken.2]; exact hst),
    sourceTaken_same (by rw [hselect, hsel, htaken.1, hsrc])]

theorem servoFollows_acquiring {i : Nat} {off : Int} {s : State} (hsrc : s.tim.src = i + 1) (hst : s.tim.state = .acquiring) :
    servoFollows i off s = timAcquire i off s := by
  rw [servoFollows, if_neg (not_not.mpr hsrc), hst]

theorem servoFollows_locked {i : Nat} {off : Int} {s : State} (hsrc : s.tim.src = i + 1) (hst : s.tim.state = .locked) :
    servoFollows i off s = setFreq (servo off s.tim.freq) s := by
  rw [servoFollows, if_neg (not_not.mpr hsrc), hst]

/-- TIM after a slew in ACQUIRING. -/
theorem slewed_tim {i : Nat} {off : Int} {s : State} (hst : s.tim.state = .acquiring) :
    (slewed i off s).tim = { s.tim with lockRun := lockRunAfter i off s, freq := servo off s.tim.freq } := by
  rw [slewed, setFreq, lockPush_of_not_locked (by rw [modTim_tim, hst]; decide), modTim_tim, modTim_tim]

/-- What the servo makes of a measurement in ACQUIRING (R212, R213). -/
theorem timAcquire_leaves (i : Nat) (off : Int) {s : State} (hst : s.tim.state = .acquiring) :
    let u := timAcquire i off s
    (mayStep s off → u.tim.stepPend = some (-off) ∧ u.tim.stepped = true ∧ u.tim.state = .acquiring)
    ∧ (¬ mayStep s off → u.tim.freq.natAbs ≤ 500000
      ∧ (off.natAbs ≤ lockBound i → 15 ≤ s.tim.lockRun → u.tim.state = .locked ∧ u.tim.everLocked = true
          ∧ u.tim.holdLim = false ∧ u.tim.stepPend = none ∧ u.tim.evt.getLsbD 0 = true)
      ∧ (¬ (off.natAbs ≤ lockBound i ∧ 15 ≤ s.tim.lockRun) → u.tim.state = .acquiring ∧ u.tim.stepPend = s.tim.stepPend)) := by
  intro u
  have hu : u = _ := timAcquire_eq i off s
  have hslewed := slewed_tim (i := i) (off := off) hst
  have hrun : 16 ≤ lockRunAfter i off s ↔ off.natAbs ≤ lockBound i ∧ 15 ≤ s.tim.lockRun := by
    unfold lockRunAfter
    split <;> omega
  refine ⟨fun h => ?_, fun h => ?_⟩
  · rw [hu, if_pos h]
    exact ⟨rfl, rfl, hst⟩
  · rw [if_neg h] at hu
    by_cases hlock : 16 ≤ lockRunAfter i off s
    · rw [if_pos hlock] at hu
      obtain ⟨hist, htim⟩ := timGoto_locked_tim (s := slewed i off s) (by rw [hslewed, hst]; decide)
      rw [hu, htim, hslewed]
      refine ⟨servo_bounded _ _, fun _ _ => ⟨rfl, rfl, rfl, rfl, ?_⟩, fun hno => absurd (hrun.mp hlock) hno⟩
      simp [setBit]
    · rw [if_neg hlock] at hu
      rw [hu, hslewed]
      exact ⟨servo_bounded _ _, fun h1 h2 => absurd (hrun.mpr ⟨h1, h2⟩) hlock, fun _ => ⟨hst, rfl⟩⟩

/-- What the servo makes of a measurement in LOCKED. -/
theorem setFreq_leaves (f : Int) (s : State) : (setFreq f s).tim.state = s.tim.state ∧ (setFreq f s).tim.freq = f := by
  obtain ⟨hist, seg, h⟩ := lockPush_tim s
  rw [setFreq, modTim_tim, h]
  exact ⟨rfl, rfl⟩

end Sys2Proof.Proofs

/-! ### O52: time sources, the time state, the holdover limit and the PPS output (R211 to R214, R221 to R223) -/
namespace Sys2Proof.Proofs

open Sys2Proof Sys2Proof.Machine Sys2Proof.Safety Sys2Proof.Laws

/-! #### A measurement, and a message that is none -/

/-- What a measurement of a source leaves, whatever the servo does with it (R211, R212). -/
theorem timMeasure_source (i : Fin 3) (off : Int) (s : State) :
    let u := timMeasure i.val off s
    let x := s.tim.sources[i.val]
    let y := u.tim.sources[i.val]
    (u.tim.offset = off ∧ u.lanes = s.lanes ∧ u.sys = s.sys ∧ u.clk = s.clk
      ∧ ∀ n : Fin 3, n ≠ i → u.tim.sources[n.val] = s.tim.sources[n.val])
    ∧ (outlying s off → y.good = 0 ∧ y.valid = (x.valid && decide (x.outliers < 2)))
    ∧ (¬ outlying s off → y.good = min 3 (x.good + 1) ∧ y.valid = (x.valid || decide (2 ≤ x.good)) ∧ y.outliers = 0
        ∧ y.lastGood = s.clk.cyc) := by
  intro u x y
  have hbecomes := timMeasure_becomes i off s
  have hy : y = afterMeasure s off x := changesAt_same hbecomes
  obtain ⟨hclk, hlanes, hsys, -, -, hoff, -⟩ := besideSources_leaves hbecomes.1
  refine ⟨⟨hoff, hlanes, hsys, hclk, fun n hn => changesAt_other hbecomes hn⟩, fun h => ?_, fun h => ?_⟩
  · rw [hy, afterMeasure, if_pos h]
    exact afterOutlier_leaves x
  · rw [hy, afterMeasure, if_neg h]
    exact afterGood_leaves _ x

/-- What the servo makes of it in ACQUIRING and in LOCKED (R212, R213). -/
theorem timMeasure_acquiring {i : Fin 3} (off : Int) {s : State} (hused : inUse s i) (hst : s.tim.state = .acquiring) :
    let u := timMeasure i.val off s
    (mayStep s off → u.tim.stepPend = some (-off) ∧ u.tim.stepped = true ∧ u.tim.state = .acquiring)
    ∧ (¬ mayStep s off → u.tim.freq.natAbs ≤ 500000
      ∧ (off.natAbs ≤ lockBound i.val → 15 ≤ s.tim.lockRun → u.tim.state = .locked ∧ u.tim.everLocked = true
          ∧ u.tim.holdLim = false ∧ u.tim.stepPend = none ∧ u.tim.evt.getLsbD 0 = true)
      ∧ (¬ (off.natAbs ≤ lockBound i.val ∧ 15 ≤ s.tim.lockRun) → u.tim.state = .acquiring ∧ u.tim.stepPend = s.tim.stepPend)) := by
  have hin : ¬ outlying s off := fun h => by rw [outlying, hst] at h; exact absurd h.1 (by decide)
  dsimp only
  rw [timMeasure_used hin hused (.inr hst),
    servoFollows_acquiring (s := goodTaken i.val off s) hused.2.1 hst]
  exact timAcquire_leaves i.val off (s := goodTaken i.val off s) hst

theorem timMeasure_locked {i : Fin 3} {off : Int} {s : State} (hused : inUse s i) (hst : s.tim.state = .locked)
    (hoff : off.natAbs ≤ 10000) : (timMeasure i.val off s).tim.state = .locked
    ∧ (timMeasure i.val off s).tim.freq.natAbs ≤ 500000 := by
  have hin : ¬ outlying s off := fun h => absurd h.2 (Nat.not_lt.mpr hoff)
  obtain ⟨hstate, hfreq⟩ := setFreq_leaves (servo off s.tim.freq) (goodTaken i.val off s)
  rw [timMeasure_used hin hused (.inl hst), servoFollows_locked (s := goodTaken i.val off s) hused.2.1 hst,
    show (goodTaken i.val off s).tim.freq = s.tim.freq from rfl, hstate, hfreq]
  exact ⟨hst, servo_bounded _ _⟩

/-- A message that is no measurement breaks the source's run of good ones. -/
theorem timBad_leaves (i : Fin 3) (s : State) : (timBad i.val s).tim.state = s.tim.state
    ∧ (timBad i.val s).tim.sources[i.val] = { s.tim.sources[i.val] with good := 0 }
    ∧ (∀ n : Fin 3, n ≠ i → (timBad i.val s).tim.sources[n.val] = s.tim.sources[n.val])
    ∧ (timBad i.val s).lanes = s.lanes ∧ (timBad i.val s).clk = s.clk :=
  have h := modSource_becomes i.val (fun x => { x with good := 0 }) s
  ⟨rfl, changesAt_same h, fun _ hn => changesAt_other h hn, rfl, rfl⟩

/-! #### IRIG-B and the PPS input (R221, R222) -/

/-- TIM as a decoded frame leaves it first: its status, its marker, its time. -/
def irigTaken (f : IrigMsg) (last : Option Nat) (s : State) : State :=
  modTim (fun t => { t with
    irigSts := (if f.ext then 4#8 else 0) ||| (if f.lsp then 8#8 else 0) ||| (BitVec.ofNat 8 f.tq <<< 4)
    irigCyc := some s.clk.cyc, irigLast := last }) s

/-- A frame that follows the one before by 1 s, without error (R221). -/
abbrev irigGood (f : IrigMsg) (y : Nat) (s : State) : Prop :=
  f.parityOk = true ∧ f.tq % 16 ≠ 15 ∧ ∃ l : Nat, s.tim.irigLast = some l ∧ irigTime f y s = l + 1

theorem irigFrame_noYear {f : IrigMsg} {s : State} (h : irigYear f s = none) :
    irigFrame f s = timBad 1 (irigTaken f none s) := by
  unfold irigFrame
  rw [h]
  rfl

theorem irigFrame_year {f : IrigMsg} {s : State} {y : Nat} (h : irigYear f s = some y) :
    (irigGood f y s → irigFrame f s = timMeasure 1 (((ntCap s / ntNs : Nat) : Int) - f.ageNs - irigTime f y s * 1000000000)
      (irigTaken f (some (irigTime f y s).toNat) s))
    ∧ (¬ irigGood f y s → irigFrame f s = timBad 1 (irigTaken f (some (irigTime f y s).toNat) s)) := by
  have hgood : (f.parityOk && (match s.tim.irigLast with
      | some l => decide (irigTime f y s = Int.ofNat l + 1)
      | none => false) && f.tq % 16 != 15) = true ↔ irigGood f y s := by
    cases hl : s.tim.irigLast with
    | none => simp [irigGood, hl]
    | some l => simp [irigGood, hl, and_right_comm, and_assoc]
  unfold irigFrame
  rw [h]
  refine ⟨fun hg => ?_, fun hg => ?_⟩
  · exact (if_pos (hgood.mpr hg)).trans rfl
  · exact (if_neg (mt hgood.mp hg)).trans rfl

theorem exec_irigFrame (f : IrigMsg) {s : State} (hp : s.clk.power = true) :
    exec (.irigFrame f) s = .next (settle (irigFrame f s)) := act_powered (irigFrame f) hp

theorem exec_ppsIn (wd : Nat) {s : State} (hp : s.clk.power = true) :
    exec (.ppsIn wd) s = .next (settle (ppsIn wd s)) := act_powered (ppsIn wd) hp

theorem ppsIn_short {wd : Nat} {s : State} (h : wd < 1000) : ppsIn wd s = s := if_pos h

theorem ppsIn_far {wd : Nat} {s : State} (h : 1000 ≤ wd) (hoff : 400000000 < (ppsOffset s).natAbs) : ppsIn wd s = timBad 2 s :=
  (if_neg (Nat.not_lt.mpr h)).trans (if_pos hoff)

theorem ppsIn_near {wd : Nat} {s : State} (h : 1000 ≤ wd) (hoff : (ppsOffset s).natAbs ≤ 400000000) :
    ppsIn wd s = timMeasure 2 (ppsOffset s) (assertEvw 38 s) :=
  (if_neg (Nat.not_lt.mpr h)).trans (if_neg (Nat.not_lt.mpr hoff))

/-! #### SOURCE_TIMEOUT (R211, R212) -/

/-- A source lost: the choice among the others, and the state that follows it. -/
theorem timInvalid_leaves (i : Fin 3) (s : State) :
    let u := timInvalid i.val s
    u.tim.sources[i.val] = { s.tim.sources[i.val] with valid := false, good := 0, outliers := 0 }
    ∧ (∀ n : Fin 3, n ≠ i → u.tim.sources[n.val] = s.tim.sources[n.val]) ∧ u.tim.src = timSelect u ∧ u.lanes = s.lanes
    ∧ (timSelect u = 0 → s.tim.state = .locked → u.tim.state = .holdover ∧ u.tim.holdStart = some s.clk.cyc
        ∧ u.tim.evt.getLsbD 1 = true)
    ∧ (timSelect u = 0 → s.tim.state = .acquiring → u.tim.state = if s.tim.fromHold then .holdover else .freerun)
    ∧ (timSelect u ≠ 0 → s.tim.state = .locked ∨ s.tim.state = .acquiring → u.tim.state = s.tim.state) := by
  intro u
  have hbecomes := timInvalid_becomes i.val s
  let lost := modSource i.val (fun x => { x with valid := false, good := 0, outliers := 0 }) s
  obtain ⟨-, hlanes, -, -, -, hregs, hsources, -⟩ := besideServo_leaves (timReselect_besideServo lost)
  have hselect : timSelect u = timSelect lost :=
    timSelect_congr hregs fun n => congrArg (fun v => (vget State.source0 v n).valid) hsources
  obtain ⟨hsrc, hstate, -⟩ := sourceTaken_tim lost
  have hclk : (sourceTaken lost).clk = s.clk := (besideServo_leaves (sourceTaken_besideServo lost)).1
  rw [hselect]
  refine ⟨changesAt_same hbecomes, fun n hn => changesAt_other hbecomes hn, timReselect_src lost,
    hlanes, fun h0 hst => ?_, fun h0 hst => ?_, fun hne hst => ?_⟩
  · have hu : u = timGoto .holdover (sourceTaken lost) := timReselect_lost_locked h0 hst
    obtain ⟨hstart, hevt⟩ := timGoto_holdover_begins (hstate.trans hst)
    rw [hu]
    exact ⟨(timGoto_enters _ _).1, hstart.trans (by rw [hclk]), hevt⟩
  · have hu : u = timGoto (if s.tim.fromHold then .holdover else .freerun) (sourceTaken lost) := timReselect_lost_acquiring h0 hst
    rw [hu]
    exact (timGoto_enters _ _).1
  · have hu : u = sourceTaken lost := timReselect_goes_on hne hst
    rw [hu]
    exact hstate

theorem exec_sourceTimeout (i : Fin 3) {s : State} (hp : s.clk.power = true) :
    let due := (s.tim.sources[i.val]).valid = true ∧ (s.tim.sources[i.val]).lastGood + 3 * cycSec ≤ s.clk.cyc
    (¬ due → exec (.sourceTimeout i) s = .next (settle s))
    ∧ (due → exec (.sourceTimeout i) s = .next (settle (timInvalid i.val s))) :=
  act_due hp (cond := fun s => (timSource s i.val).valid && decide ((timSource s i.val).lastGood + 3 * cycSec ≤ s.clk.cyc)) rfl
    (by rw [timSource_fin, Bool.and_eq_true, decide_eq_true_eq])

/-! #### HOLD_LIMIT (R214) -/

theorem holdLimitS_eq (s : State) : holdLimitS s = (reg 0x6000C s).toNat % 2 ^ 16 := by
  rw [holdLimitS, field_eq, Nat.pow_zero, Nat.div_one]

theorem holdAct_eq (s : State) : holdAct s = (reg 0x6000C s).toNat / 2 ^ 16 % 4 := field_eq _ _ _

/-- TIM once the limit is reached, before its entry or its doubt. -/
def limitReached (s : State) : State := assertEvw 36 (timEvt 3 (modTim (fun t => { t with holdLim := true }) s))

theorem limitReached_leaves (s : State) : (limitReached s).tim = { s.tim with holdLim := true, evt := s.tim.evt ||| 8 }
    ∧ (limitReached s).sys = s.sys ∧ (limitReached s).lanes = s.lanes := by
  rw [limitReached, assertEvw_tim, assertEvw_sys, assertEvw_lanes]
  exact ⟨rfl, rfl, rfl⟩

theorem holdAct_limitReached (s : State) : holdAct (limitReached s) = holdAct s := by
  unfold holdAct reg limitReached
  rw [assertEvw_regs]
  rfl

/-- What ACT makes of the limit: a NOTE, a LOCAL entry, a doubt. -/
def limitAnswered (a : Nat) (n l : Word) (s : State) : State :=
  match a with
  | 0 => note 0x5004 srcTIM n l 0 s
  | 1 => localDoubt 0x5004 srcTIM n l 0 s
  | _ => moduleDoubt causeHoldover 0x5004 srcTIM n l 0 s

theorem holdLimit_eq (s : State) :
    holdLimit s = limitAnswered (holdAct s) (w (holdSeconds s)) (w (holdLimitS s)) (limitReached s) := by
  rw [← holdAct_limitReached]
  rfl

theorem holdLimit_noted {s : State} (h : holdAct s < 2) : ∃ v, holdLimit s = { limitReached s with evr := v } := by
  rw [holdLimit_eq]
  rcases (by omega : holdAct s = 0 ∨ holdAct s = 1) with h | h
  · rw [h]; exact raiseEntry_only _ _
  · rw [h]; exact raiseEntry_only _ _

theorem holdLimit_doubts {s : State} (h : 2 ≤ holdAct s) : holdLimit s =
    moduleDoubt causeHoldover 0x5004 srcTIM (w (holdSeconds s)) (w (holdLimitS s)) 0 (limitReached s) := by
  obtain ⟨n, hn⟩ := Nat.exists_eq_add_of_le h
  rw [holdLimit_eq, hn, Nat.add_comm]
  rfl

theorem holdLimit_leaves (s : State) :
    (holdLimit s).tim = { s.tim with holdLim := true, evt := s.tim.evt ||| 8 }
    ∧ (holdAct s < 2 → (holdLimit s).sys = s.sys ∧ (holdLimit s).lanes = s.lanes)
    ∧ (2 ≤ holdAct s → s.sys.latched = false → inPlinth s = false → (holdLimit s).sys.latched = true
        ∧ (holdLimit s).sys.firstCause = 0x5004 ∧ (holdLimit s).sys.cause = s.sys.cause ||| BitVec.twoPow 10 6) := by
  obtain ⟨htim, hsys, hlanes⟩ := limitReached_leaves s
  rcases Nat.lt_or_ge (holdAct s) 2 with h | h
  · obtain ⟨v, hv⟩ := holdLimit_noted h
    rw [hv]
    exact ⟨htim, fun _ => ⟨hsys, hlanes⟩, fun h2 => absurd h2 (Nat.not_le.mpr h)⟩
  · have hdoubt := holdLimit_doubts h
    rw [hdoubt]
    refine ⟨(congrArg State.tim (moduleDoubt_besideDoubt ..) :).trans htim, fun h2 => absurd h2 (Nat.not_lt.mpr h), fun _ hl hpl => ?_⟩
    rw [moduleDoubt_sys_first _ _ _ _ _ _ (by rw [hsys]; exact hl) (by unfold inPlinth; rw [hsys]; exact hpl)]
    refine ⟨rfl, rfl, ?_⟩
    rw [BitVec.twoPow_eq]
    exact congrArg (fun y : Sys => setBit y.cause causeHoldover) hsys

abbrev holdLimitDue (s : State) : Prop := s.tim.holdLim = false ∧ (reg 0x6000C s).toNat % 2 ^ 16 ≠ 0
  ∧ ∃ from_, s.tim.holdStart = some from_ ∧ (reg 0x6000C s).toNat % 2 ^ 16 ≤ (s.clk.cyc - from_) / cycSec

theorem exec_holdLimit {s : State} (hp : s.clk.power = true) : (¬ holdLimitDue s → exec .holdLimit s = .next (settle s))
    ∧ (holdLimitDue s → exec .holdLimit s = .next (settle (holdLimit s))) := by
  refine act_due hp (cond := fun s => s.tim.holdStart.isSome && !s.tim.holdLim && holdLimitS s != 0
    && decide (holdLimitS s ≤ holdSeconds s)) rfl ?_
  rw [holdLimitDue, ← holdLimitS_eq]
  unfold holdSeconds
  cases s.tim.holdStart with
  | none => simp
  | some c => simp [and_assoc]

/-! #### The PPS output (R223) -/

abbrev ppsMay (s : State) : Prop := (reg 0x60074 s).toNat % 4 = 1
  ∨ ((reg 0x60074 s).toNat % 4 = 2 ∧ (s.tim.state = .locked ∨ (s.tim.state = .holdover ∧ s.tim.holdLim = false)))

theorem ppsMode_eq (s : State) : ppsMode s = (reg 0x60074 s).toNat % 4 := by
  exact (field_eq _ 0 2).trans (by rw [Nat.pow_zero, Nat.div_one, show 2 ^ 2 = 4 from rfl])

theorem ppsWidthMs_eq (s : State) : ppsWidthMs s = min 500 (max 1 ((reg 0x60074 s).toNat / 4 % 1024)) := by
  rw [ppsWidthMs, field_eq, show 2 ^ 2 = 4 from rfl, show 2 ^ 10 = 1024 from rfl]

theorem ppsAllowed_iff (s : State) : ppsAllowed s = true ↔ ppsMay s := by
  unfold ppsAllowed
  rw [ppsMode_eq]
  simp [ppsMay]

/-- A pulse of `width` ms begins. -/
abbrev ppsRisen (width : Nat) (s : State) (t : Tim) : Tim :=
  { t with ppsHigh := true, ppsEnd := s.clk.cyc + width * cycMs, ppsSec := some (nowSec s) }

theorem exec_ppsOut {s : State} (hp : s.clk.power = true) :
    let rises := ppsMay s ∧ s.tim.ppsHigh = false ∧ nowNs s < 10 ∧ s.tim.ppsSec ≠ some (nowSec s)
    (¬ rises → exec .ppsOut s = .next (settle s))
    ∧ (rises → exec .ppsOut s = .next (settle (modTim (ppsRisen (ppsWidthMs s) s) s))) := by
  intro rises
  have hrises : (ppsAllowed s && !s.tim.ppsHigh && decide (nowNs s < 10) && s.tim.ppsSec != some (nowSec s)) = true ↔ rises := by
    rw [Bool.and_eq_true, Bool.and_eq_true, Bool.and_eq_true, ppsAllowed_iff, Bool.not_eq_true', decide_eq_true_eq, bne_iff_ne,
      and_assoc, and_assoc]
  have hexec : exec .ppsOut s = .next (settle (whenever (ppsAllowed s && !s.tim.ppsHigh && decide (nowNs s < 10)
      && s.tim.ppsSec != some (nowSec s)) (modTim (ppsRisen (ppsWidthMs s) s)) s)) :=
    act_powered (fun s => whenever (ppsAllowed s && !s.tim.ppsHigh && decide (nowNs s < 10)
      && s.tim.ppsSec != some (nowSec s)) (modTim (ppsRisen (ppsWidthMs s) s)) s) hp
  rw [hexec]
  exact ⟨fun h => by rw [Bool.eq_false_iff.mpr (mt hrises.mp h), whenever_false], fun h => by rw [hrises.mpr h, whenever_true]⟩

theorem exec_ppsPulseEnd {s : State} (hp : s.clk.power = true) :
    let falls := s.tim.ppsHigh = true ∧ s.tim.ppsEnd ≤ s.clk.cyc
    (¬ falls → exec .ppsPulseEnd s = .next (settle s))
    ∧ (falls → exec .ppsPulseEnd s = .next (settle (modTim (fun t => { t with ppsHigh := false }) s))) :=
  act_due hp (cond := fun s => s.tim.ppsHigh && decide (s.tim.ppsEnd ≤ s.clk.cyc)) rfl
    (by rw [Bool.and_eq_true, decide_eq_true_eq])

/-! #### Assembly -/

/-- What a measurement of source `i` in the state `s` leaves. -/
abbrev measuresAs (s : State) (i : Fin 3) (off : Int) (u : State) : Prop :=
  u.tim.offset = off ∧ u.lanes = s.lanes ∧ u.sys = s.sys ∧ u.clk = s.clk
  ∧ (∀ n : Fin 3, n ≠ i → u.tim.sources[n.val] = s.tim.sources[n.val])
  ∧ (outlying s off → (u.tim.sources[i.val]).good = 0
      ∧ (u.tim.sources[i.val]).valid = ((s.tim.sources[i.val]).valid && decide ((s.tim.sources[i.val]).outliers < 2)))
  ∧ (¬ outlying s off → (u.tim.sources[i.val]).good = min 3 ((s.tim.sources[i.val]).good + 1)
      ∧ (u.tim.sources[i.val]).valid = ((s.tim.sources[i.val]).valid || decide (2 ≤ (s.tim.sources[i.val]).good))
      ∧ (u.tim.sources[i.val]).outliers = 0 ∧ (u.tim.sources[i.val]).lastGood = s.clk.cyc)
  ∧ (inUse s i → s.tim.state = .acquiring →
      (mayStep s off → u.tim.stepPend = some (-off) ∧ u.tim.stepped = true ∧ u.tim.state = .acquiring)
      ∧ (¬ mayStep s off → u.tim.freq.natAbs ≤ 500000
        ∧ (off.natAbs ≤ lockBound i.val → 15 ≤ s.tim.lockRun → u.tim.state = .locked ∧ u.tim.everLocked = true
            ∧ u.tim.holdLim = false ∧ u.tim.stepPend = none ∧ u.tim.evt.getLsbD 0 = true)
        ∧ (¬ (off.natAbs ≤ lockBound i.val ∧ 15 ≤ s.tim.lockRun) → u.tim.state = .acquiring
            ∧ u.tim.stepPend = s.tim.stepPend)))
  ∧ (inUse s i → s.tim.state = .locked → off.natAbs ≤ 10000 → u.tim.state = .locked ∧ u.tim.freq.natAbs ≤ 500000)

theorem timMeasure_measures (i : Fin 3) (off : Int) (s : State) : measuresAs s i off (timMeasure i.val off s) := by
  obtain ⟨⟨hoff, hlanes, hsys, hclk, hother⟩, hfar, hnear⟩ := timMeasure_source i off s
  exact ⟨hoff, hlanes, hsys, hclk, hother, hfar, hnear, timMeasure_acquiring off, timMeasure_locked⟩

/-- What a measurement is judged by: the state without the event word, and without what IRIG-B keeps of its last frame. -/
def measuredIn (s : State) : State :=
  { s with
    frm := { s.frm with evwNext := 0, evwStep := 0, evwStepAt := 0 }
    tim := { s.tim with irigSts := 0, irigCyc := none, irigLast := none } }

theorem measuresAs_of_same {s t : State} (h : measuredIn t = measuredIn s) {i : Fin 3} {off : Int} {u : State}
    (hu : measuresAs t i off u) : measuresAs s i off u := by
  have hmeasured : measuresAs (measuredIn t) i off u := hu
  rw [h] at hmeasured
  exact hmeasured

theorem irigTaken_measuredIn (f : IrigMsg) (last : Option Nat) (s : State) : measuredIn (irigTaken f last s) = measuredIn s := rfl

theorem assertEvw_measuredIn (n : Nat) (s : State) : measuredIn (assertEvw n s) = measuredIn s := by
  unfold assertEvw; split <;> rfl

/-- Settles O52, message by message and event by event, from what a measurement makes of its source and of the servo that
follows it, what the loss of a source makes of the time state, and what the holdover limit makes of ACT. The rate that the
servo sets is free within its limit (log 38, DESIGN CHOICE), so the clauses bound it only. -/
theorem timeSources : Obligations.TimeSources := by
  unfold Obligations.TimeSources
  intro s hp src measured broken ns off
  refine ⟨fun f => ?_, fun wd => ?_, fun i => ?_, ?_, ?_⟩
  · have hexec := exec_irigFrame f hp
    refine ⟨fun h => ⟨_, by rw [hexec, irigFrame_noYear h], ?_⟩, fun y h => ?_⟩
    · exact timBad_leaves 1 (irigTaken f none s)
    obtain ⟨hgood, hbad⟩ := irigFrame_year h
    refine ⟨fun hg => ⟨_, by rw [hexec, hgood hg], ?_⟩, fun hg => ⟨_, by rw [hexec, hbad hg], ?_⟩⟩
    · exact measuresAs_of_same (irigTaken_measuredIn f _ s) (timMeasure_measures 1 _ _)
    · exact timBad_leaves 1 (irigTaken f (some (irigTime f y s).toNat) s)
  · have hexec := exec_ppsIn wd hp
    refine ⟨fun h => by rw [hexec, ppsIn_short h], fun h hfar => ⟨_, by rw [hexec, ppsIn_far h hfar], ?_⟩,
      fun h hnear => ⟨_, by rw [hexec, ppsIn_near h hnear], ?_⟩⟩
    · exact timBad_leaves 2 s
    · exact measuresAs_of_same (assertEvw_measuredIn 38 s) (timMeasure_measures 2 off (assertEvw 38 s))
  · obtain ⟨hidle, hdue⟩ := exec_sourceTimeout i hp
    exact ⟨hidle, fun h => ⟨_, hdue h, timInvalid_leaves i s⟩⟩
  · obtain ⟨hidle, hdue⟩ := exec_holdLimit hp
    obtain ⟨htim, hnoted, hdoubts⟩ := holdLimit_leaves s
    rw [holdAct_eq] at hnoted hdoubts
    refine ⟨hidle, fun h => ⟨_, hdue h, ?_, ?_, ?_, hnoted, hdoubts⟩⟩
    · exact (congrArg Tim.holdLim htim :)
    · exact (congrArg Tim.state htim :)
    · exact (congrArg Tim.evt htim :)
  · obtain ⟨hidle, hrises⟩ := exec_ppsOut hp
    obtain ⟨hidle', hfalls⟩ := exec_ppsPulseEnd hp
    rw [ppsWidthMs_eq] at hrises
    exact ⟨hidle, hrises, hidle', hfalls⟩

end Sys2Proof.Proofs

/-! ### What the host link's answers and closings leave alone (R363 to R376) -/
namespace Sys2Proof.Proofs

open Sys2Proof Sys2Proof.Machine Sys2Proof.Safety Sys2Proof.Laws

/-- The state without what records and flushes write, without the host link and the rate-limited NOTEs. -/
def besideLink (s : State) : State := besideStore { s with hl := State.reset.hl, rl := [] }

theorem besideLink_leaves {s t : State} (h : besideLink t = besideLink s) :
    t.key = s.key ∧ t.rtc = s.rtc ∧ t.lanes = s.lanes ∧ t.frm = s.frm :=
  ⟨(congrArg State.key h :), (congrArg State.rtc h :), (congrArg State.lanes h :), (congrArg State.frm h :)⟩

theorem besideLink_ofStore {s t : State} {v : Hl} (h : besideStore t = besideStore { s with hl := v }) :
    besideLink t = besideLink s :=
  (congrArg (fun u : State => { u with hl := State.reset.hl, rl := [] }) h :)

theorem note_besideLink (c : BitVec 16) (src : BitVec 8) (a b d : Word) (s : State) :
    besideLink (note c src a b d s) = besideLink s := by
  obtain ⟨v, h⟩ := note_only c src a b d s
  rw [h]
  rfl

theorem closeSession_besideLink (sid reason : Nat) (s : State) : besideLink (closeSession sid reason s) = besideLink s := by
  obtain ⟨v, h, -⟩ := closeSession_besideMarker sid reason s
  exact besideLink_ofStore (besideStore_of h)

theorem closeUnfit_besideLink (s : State) : besideLink (closeUnfit s) = besideLink s := by
  refine forAll_keeps (g := besideLink) (fun sid t => ?_) _ s
  split
  · split
    · exact closeSession_besideLink _ _ t
    · rfl
  · rfl

theorem countViolation_besideLink (ep : Endpoint) (s : State) : besideLink (countViolation ep s) = besideLink s := by
  unfold countViolation
  extract_lets e n e'
  split
  · exact note_besideLink _ _ _ _ _ _
  · rfl

theorem violation_besideLink (ep : Endpoint) (r : Res) (s : State) : besideLink (violation ep r s) = besideLink s := by
  unfold violation
  rw [countViolation_besideLink]
  obtain ⟨v, x, h⟩ := rlNote_only (fun _ _ => note_only _ _ _ _ _ _) (epObj ep) 0xC011
    { s with hl := { s.hl with violCnt := s.hl.violCnt + 1, evt := setBit s.hl.evt 0 } }
  rw [h]
  rfl

theorem replyViolates_besideLink (ep : Endpoint) (r : Res) (s : State) : besideLink (replyViolates ep r s) = besideLink s := by
  unfold replyViolates
  split
  · exact violation_besideLink ep r s
  · rfl

theorem sendReply_besideLink (ep : Endpoint) (r : Reply) (s : State) : besideLink (sendReply ep r s) = besideLink s := rfl

theorem modSession_besideLink (sid : Nat) (f : Session → Session) (s : State) : besideLink (modSession sid f s) = besideLink s := rfl

theorem settle_besideLink (s : State) : besideLink (settle s) = besideLink s := rfl

theorem answerSession_besideLink (sid : Nat) (ep : Endpoint) (seq : BitVec 16) (r : Res) (len : Nat) (payload : List Byte)
    (s : State) : besideLink (answerSession sid ep seq r len payload s) = besideLink s := by
  unfold answerSession
  dsimp only
  rw [sendReply_besideLink, modSession_besideLink, replyViolates_besideLink, settle_besideLink]

theorem answerOwed_besideLink (r : Res) (s : State) : besideLink (answerOwed r s) = besideLink s := by
  unfold answerOwed
  split
  · rfl
  · dsimp only
    split
    · exact answerSession_besideLink _ _ _ r _ _ _
    · exact sendReply_besideLink _ _ _

theorem answered_besideLink (sid : Fin 4) (ss : Session) (r : Res) (len : Nat) (payload : List Byte) (s : State) :
    besideLink (answered sid ss r len payload s) = besideLink s := replyViolates_besideLink ss.ep r (settle s)

end Sys2Proof.Proofs

/-! ### O35: tamper (R355, R357, R358) -/
namespace Sys2Proof.Proofs

open Sys2Proof Sys2Proof.Machine Sys2Proof.Safety Sys2Proof.Laws

/-! #### Slots of the key store -/

abbrev slotsOf (s : State) : Vector KeySlot 64 := s.key.slots

/-- The state beside the host link, the slots and KEY_EVT. -/
def besideSlots (s : State) : State :=
  besideLink { s with key := { s.key with slots := State.reset.key.slots, evt := 0 } }

theorem besideSlots_leaves {s t : State} (h : besideSlots t = besideSlots s) :
    t.rtc = s.rtc ∧ t.lanes = s.lanes ∧ t.frm = s.frm ∧ t.key.wr = s.key.wr ∧ t.key.op = s.key.op ∧ t.key.opState = s.key.opState :=
  ⟨(congrArg State.rtc h :), (congrArg State.lanes h :), (congrArg State.frm h :), (congrArg (fun u => u.key.wr) h :),
    (congrArg (fun u => u.key.op) h :), (congrArg (fun u => u.key.opState) h :)⟩

theorem besideSlots_ofLink {s t : State} (h : besideLink t = besideLink s) :
    besideSlots t = besideSlots s ∧ slotsOf t = slotsOf s :=
  ⟨(congrArg (fun u : State => { u with key := { u.key with slots := State.reset.key.slots, evt := 0 } }) h :),
    (congrArg (fun u => u.key.slots) h :)⟩

theorem keySlot_fin (s : State) (i : Fin 64) : keySlot s i.val = s.key.slots[i.val] := vget_of_lt _ _ i.isLt

theorem modSlot_changes (i : Nat) (f : KeySlot → KeySlot) (s : State) : changesAt besideSlots slotsOf i f s (modSlot i f s) :=
  ⟨rfl, rfl⟩

theorem eraseSlot_changes (i : Fin 64) (s : State) :
    changesAt besideSlots slotsOf i.val (fun _ => State.key0 i.val) s (eraseSlot i.val s) := by
  refine ⟨rfl, ?_⟩
  show vset s.key.slots i.val _ = vmod s.key.slots i.val _
  rw [vset_of_lt _ _ i.isLt, vmod_of_lt _ _ i.isLt]

/-- What a check makes of a slot, with `held` for a latch acted on that is still set. -/
def judged (held : Bool) (i : Nat) (k : KeySlot) : KeySlot := { k with state := slotJudge held i k }

theorem keyEvt_slots (n : Nat) (s : State) : besideSlots (keyEvt n s) = besideSlots s ∧ slotsOf (keyEvt n s) = slotsOf s := ⟨rfl, rfl⟩

theorem foundBad_changes (i : Nat) (s : State) :
    changesAt besideSlots slotsOf i (fun k => { k with state := .bad }) s (foundBad i s) := by
  have hnote := note_besideLink 0xB001 srcKEY (w i) (keySlot s i).attr 0 (modSlot i (fun k => { k with state := .bad }) s)
  exact changesAt_then (changesAt_then (changesAt_then (modSlot_changes i _ s) (besideSlots_ofLink hnote)) (keyEvt_slots 0 _))
    (besideSlots_ofLink (closeUnfit_besideLink _))

theorem recheck_changes (i : Fin 64) (s : State) :
    changesAt besideSlots slotsOf i.val (judged (tampHeld (besideSlots s)) i.val) s (recheck i.val s) := by
  have hheld : tampHeld (besideSlots s) = tampHeld s := rfl
  have hmod := modSlot_changes i.val (fun k => { k with state := slotJudge (tampHeld s) i.val s.key.slots[i.val] }) s
  have hto := changesAt_congr (g := judged (tampHeld s) i.val) hmod fun _ => rfl
  rw [hheld]
  unfold recheck
  dsimp only
  rw [keySlot_fin]
  split
  · rename_i hbad
    exact changesAt_congr (foundBad_changes i.val s) fun _ => by rw [judged, hbad]
  · exact hto

/-- A check finds no slot LOCKED without a latch that has been acted on. -/
theorem slotJudge_unheld (i : Nat) (k : KeySlot) :
    slotJudge false i k = .valid ∨ slotJudge false i k = .bad ∨ slotJudge false i k = .empty := by
  unfold slotJudge
  split
  · exact .inr (.inl rfl)
  · split
    · exact .inr (.inr rfl)
    · exact .inl rfl

/-- What a latch makes of a slot. -/
def tampered (i : Nat) (k : KeySlot) : KeySlot :=
  if k.attr.getLsbD 20 = true then State.key0 i
  else if k.attr.getLsbD 21 = true ∧ k.state = .valid then { k with state := .locked } else k

/-- A VALID slot with TLOCK reads LOCKED. -/
def locked (x : KeySlot) : KeySlot := if x.state = .valid ∧ x.attr.getLsbD bitTLOCK then { x with state := .locked } else x

/-- The slots with ZEROIZE, erased. -/
def zeroizeErased (s : State) : State :=
  forAll (where_ 64 fun i => (keySlot s i).attr.getLsbD bitZEROIZE) eraseSlot s

theorem withSlots_besideSlots (v : Vector KeySlot 64) (s : State) :
    besideSlots { s with key := { s.key with slots := v } } = besideSlots s := rfl

/-- The slots with TLOCK, locked. -/
def tlockLocked (s : State) : State := { s with key := { s.key with slots := vmap s.key.slots fun _ => locked } }

theorem tlockLocked_becomes (s : State) : besideSlots (tlockLocked s) = besideSlots s
    ∧ ∀ i : Fin 64, (slotsOf (tlockLocked s))[i.val] = locked (slotsOf s)[i.val] := by
  have hslots : slotsOf (tlockLocked s) = vmap (slotsOf s) fun _ => locked := rfl
  refine ⟨withSlots_besideSlots _ s, fun i => ?_⟩
  rw [hslots, vmap, Vector.getElem_ofFn]

theorem tamperSlots_eq (s : State) : tamperSlots s = tlockLocked (zeroizeErased s) := rfl

theorem tamperSlots_becomes (s : State) : besideSlots (tamperSlots s) = besideSlots s
    ∧ ∀ i : Fin 64, (slotsOf (tamperSlots s))[i.val] = tampered i.val (slotsOf s)[i.val] := by
  obtain ⟨hbeside, hall⟩ := forAll_changesAt (F := fun _ i _ => State.key0 i) (fun i t => eraseSlot_changes i t)
    (where_nodup 64 fun i => (keySlot s i).attr.getLsbD bitZEROIZE) (fun i hi => (mem_where.mp hi).1) s
  obtain ⟨hbeside', hlocked⟩ := tlockLocked_becomes (zeroizeErased s)
  rw [tamperSlots_eq]
  refine ⟨hbeside'.trans hbeside, fun i => (hlocked i).trans ?_⟩
  rw [zeroizeErased, hall i]
  simp only [mem_where, keySlot_fin, i.isLt, true_and]
  unfold tampered bitZEROIZE
  by_cases h : (s.key.slots[i.val]).attr.getLsbD 20 = true
  · rw [if_pos h, if_pos h]
    rfl
  · rw [if_neg h, if_neg h]
    simp only [and_comm, locked, bitTLOCK]
    rfl

/-! #### Operations under way -/

/-- The state beside the host link and the key engine. -/
def besideKey (s : State) : State := besideLink { s with key := State.reset.key }

theorem besideKey_leaves {s t : State} (h : besideKey t = besideKey s) :
    t.rtc = s.rtc ∧ t.lanes = s.lanes ∧ t.frm = s.frm :=
  ⟨(congrArg State.rtc h :), (congrArg State.lanes h :), (congrArg State.frm h :)⟩

theorem besideKey_ofLink {s t : State} (h : besideLink t = besideLink s) : besideKey t = besideKey s ∧ t.key = s.key :=
  ⟨(congrArg (fun u : State => { u with key := State.reset.key }) h :), (congrArg State.key h :)⟩

/-- An operation under way is aborted, with its NOTE. -/
def opAborted (s : State) : State :=
  match s.key.op with
  | none => s
  | some o => keyEvt 3 (note 0xB031 srcKEY (w o.op) (w o.slot) 0 (modKey (fun k => { k with op := none, opState := .aborted }) s))

theorem opAborted_leaves (s : State) : besideKey (opAborted s) = besideKey s ∧ (opAborted s).key.op = none
    ∧ (s.key.op ≠ none → (opAborted s).key.opState = .aborted) ∧ (opAborted s).key.wr = s.key.wr
    ∧ (opAborted s).key.slots = s.key.slots := by
  unfold opAborted
  split
  · rename_i h
    exact ⟨rfl, h, fun hne => absurd h hne, rfl, rfl⟩
  · rename_i o _
    obtain ⟨v, h⟩ := note_only 0xB031 srcKEY (w o.op) (w o.slot) 0 (modKey (fun k => { k with op := none, opState := .aborted }) s)
    rw [h]
    exact ⟨rfl, rfl, fun _ => rfl, rfl, rfl⟩

/-- A VERIFYING update session falls back. -/
def verifyStopped (s : State) : State :=
  if s.upd.sess = .verifying then modUpd (fun u => { u with sess := .downloaded }) s else s

theorem verifyStopped_leaves (s : State) : besideKey (verifyStopped s) = besideKey s ∧ (verifyStopped s).key = s.key := by
  unfold verifyStopped; split <;> exact ⟨rfl, rfl⟩

/-- A slot write under way is abandoned, and its command answered (R357). -/
def writeAbandoned (s : State) : State :=
  match s.key.wr with
  | none => s
  | some x =>
    let s := modKey (fun k => { k with wr := none }) s
    let s := if x.oldAttr.getLsbD bitZEROIZE || x.newAttr.getLsbD bitZEROIZE then eraseSlot x.slot s else s
    answerOwed (resFree 30 s) s

theorem eraseSlot_otherSlot {j : Nat} {i : Fin 64} (h : j ≠ i.val) (s : State) :
    (eraseSlot j s).key.slots[i.val] = s.key.slots[i.val] := by
  show (vset s.key.slots j _)[i.val] = _
  unfold vset
  split
  · exact Vector.getElem_set_ne _ _ h
  · rfl

theorem writeAbandoned_leaves (s : State) : besideKey (writeAbandoned s) = besideKey s ∧ (writeAbandoned s).key.wr = none
    ∧ (writeAbandoned s).key.op = s.key.op ∧ (writeAbandoned s).key.opState = s.key.opState
    ∧ ∀ i : Fin 64, (∀ x, s.key.wr = some x → x.slot ≠ i.val) → (writeAbandoned s).key.slots[i.val] = s.key.slots[i.val] := by
  unfold writeAbandoned
  split
  · rename_i h
    exact ⟨rfl, h, rfl, rfl, fun _ _ => rfl⟩
  · rename_i x hx
    extract_lets t u
    obtain ⟨hbeside, hkey⟩ := besideKey_ofLink (answerOwed_besideLink (resFree 30 u) u)
    have hu : besideKey u = besideKey t ∧ u.key.wr = t.key.wr ∧ u.key.op = t.key.op ∧ u.key.opState = t.key.opState
        ∧ ∀ i : Fin 64, x.slot ≠ i.val → u.key.slots[i.val] = t.key.slots[i.val] := by
      show _ ∧ _
      unfold u
      split
      · exact ⟨rfl, rfl, rfl, rfl, fun i hi => eraseSlot_otherSlot hi t⟩
      · exact ⟨rfl, rfl, rfl, rfl, fun _ _ => rfl⟩
    obtain ⟨hbeside', hwr, hop, hst, hslots⟩ := hu
    rw [hkey]
    exact ⟨hbeside.trans hbeside', hwr, hop, hst, fun i hi => hslots i (hi x hx)⟩

theorem abortOps_eq (s : State) : abortOps s = writeAbandoned (verifyStopped (opAborted s)) := rfl

/-- Operations under way are aborted, a slot write among them; no slot but that write's changes (R357). -/
theorem abortOps_leaves (s : State) : (besideKey (abortOps s) = besideKey s)
    ∧ (abortOps s).key.wr = none ∧ (abortOps s).key.op = none ∧ (s.key.op ≠ none → (abortOps s).key.opState = .aborted)
    ∧ ∀ i : Fin 64, (∀ x, s.key.wr = some x → x.slot ≠ i.val) → (abortOps s).key.slots[i.val] = s.key.slots[i.val] := by
  obtain ⟨hop, hnone, habort, hwr, hslots⟩ := opAborted_leaves s
  obtain ⟨hverify, hkey⟩ := verifyStopped_leaves (opAborted s)
  obtain ⟨hwrite, hwrNone, hopSame, hstSame, hothers⟩ := writeAbandoned_leaves (verifyStopped (opAborted s))
  rw [hkey] at hopSame hstSame hothers
  rw [abortOps_eq]
  refine ⟨hwrite.trans (hverify.trans hop), hwrNone, hopSame.trans hnone, fun h => hstSame.trans (habort h), fun i hi => ?_⟩
  rw [hwr, hslots] at hothers
  exact hothers i hi

/-! #### TAMPER -/

/-- Latched inputs, acted on. -/
def actedOn (s : State) : State :=
  { s with rtc := { s.rtc with tamp := s.rtc.tamp.map fun t => { t with acted := t.acted || t.latched } } }

abbrev tampFresh (s : State) : Prop := ∃ n : Fin 3, (s.rtc.tamp[n.val]).latched = true ∧ (s.rtc.tamp[n.val]).acted = false

theorem tampNew_eq_nil (s : State) : tampNew s = [] ↔ ¬ tampFresh s := by
  rw [List.eq_nil_iff_forall_not_mem, not_exists]
  have hmem : ∀ n : Fin 3, n.val ∈ tampNew s ↔ (s.rtc.tamp[n.val]).latched = true ∧ (s.rtc.tamp[n.val]).acted = false := fun n => by
    rw [tampNew, mem_where, vget_of_lt _ _ n.isLt]
    simp
  exact ⟨fun h n => mt (hmem n).mpr (h n.val), fun h i hi => h ⟨i, (mem_where.mp hi).1⟩ ((hmem ⟨i, (mem_where.mp hi).1⟩).mp hi)⟩

theorem tamperAct_idle {s : State} (h : ¬ tampFresh s) : tamperAct s = s := if_pos ((tampNew_eq_nil s).mpr h)

theorem tamperAct_acts {s : State} (h : tampFresh s) : tamperAct s = closeUnfit (forAll (tampNew s) tamperRecord
    (keyEvt 1 (tamperSlots (abortOps (actedOn s))))) := if_neg fun hn => (tampNew_eq_nil s).mp hn h

theorem tamperRecord_besideLink (n : Nat) (s : State) : besideLink (tamperRecord n s) = besideLink s := by
  obtain ⟨v, h⟩ := raiseEntry_only ⟨0xB010, srcKEY, .local_, (vget State.tamper0 s.rtc.tamp n).offpwr, w n,
    w (vget State.tamper0 s.rtc.tamp n).count, w ((vget State.tamper0 s.rtc.tamp n).count / 2 ^ 32), s.clk.cyc⟩ s
  exact (congrArg besideLink h).trans rfl

/-- The slots are dealt with after the operations are aborted; nothing later changes them. -/
theorem tamperAct_becomes {s : State} (h : tampFresh s) : besideSlots (tamperAct s) = besideSlots (abortOps (actedOn s))
    ∧ ∀ i : Fin 64, (slotsOf (tamperAct s))[i.val] = tampered i.val (slotsOf (abortOps (actedOn s)))[i.val] := by
  obtain ⟨hslots, hall⟩ := tamperSlots_becomes (abortOps (actedOn s))
  have hrecords := forAll_keeps tamperRecord_besideLink (tampNew s) (keyEvt 1 (tamperSlots (abortOps (actedOn s))))
  obtain ⟨hbeside, hkeep⟩ := besideSlots_ofLink ((closeUnfit_besideLink _).trans hrecords)
  obtain ⟨hevt, hsame⟩ := keyEvt_slots 1 (tamperSlots (abortOps (actedOn s)))
  rw [tamperAct_acts h, hkeep, hsame]
  exact ⟨hbeside.trans (hevt.trans hslots), hall⟩

theorem exec_tamper {s : State} (hp : s.clk.power = true) : exec .tamper s = .next (settle (tamperAct s)) :=
  act_powered tamperAct hp

theorem status_tamper (s : State) : (status s).getLsbD 9 = s.rtc.tamp.toList.any fun t => t.latched := by
  unfold status
  simp only [BitVec.getLsbD_or, shifted_bit _ _ _ (show 9 < 16 by decide)]
  simp

theorem tamp_any (s : State) (p : Tamper → Bool) : (s.rtc.tamp.toList.any p) = true ↔ ∃ n : Fin 3, p (s.rtc.tamp[n.val]) = true := by
  rw [List.any_eq_true]
  simp only [Vector.mem_toList_iff, Vector.mem_iff_getElem]
  exact ⟨fun ⟨_, ⟨i, hi, hx⟩, hp⟩ => ⟨⟨i, hi⟩, hx ▸ hp⟩, fun ⟨n, hn⟩ => ⟨_, ⟨n.val, n.isLt, rfl⟩, hn⟩⟩

/-- What TAMPER leaves, with a latch not yet acted on. -/
theorem tamperAct_leaves {s : State} (h : tampFresh s) :
    let u := tamperAct s
    u.key.wr = none ∧ u.key.op = none ∧ u.lanes = s.lanes ∧ u.frm = s.frm ∧ (s.key.op ≠ none → u.key.opState = .aborted)
    ∧ (∀ n : Fin 3, u.rtc.tamp[n.val] = { s.rtc.tamp[n.val] with
        acted := (s.rtc.tamp[n.val]).acted || (s.rtc.tamp[n.val]).latched })
    ∧ (status u).getLsbD 9 = true
    ∧ ∀ i : Fin 64, (∀ x, s.key.wr = some x → x.slot ≠ i.val) → u.key.slots[i.val] = tampered i.val s.key.slots[i.val] := by
  obtain ⟨hbeside, hall⟩ := tamperAct_becomes h
  obtain ⟨hrtc, hlanes, hfrm, hwr, hop, hst⟩ := besideSlots_leaves hbeside
  obtain ⟨habort, hwrNone, hopNone, haborted, hothers⟩ := abortOps_leaves (actedOn s)
  obtain ⟨hrtc', hlanes', hfrm'⟩ := besideKey_leaves habort
  have htamp : ∀ n : Fin 3, (tamperAct s).rtc.tamp[n.val] = { s.rtc.tamp[n.val] with
      acted := (s.rtc.tamp[n.val]).acted || (s.rtc.tamp[n.val]).latched } := fun n => by
    rw [hrtc, hrtc']
    exact Vector.getElem_map _ _
  refine ⟨hwr.trans hwrNone, hop.trans hopNone, hlanes.trans hlanes', hfrm.trans hfrm', fun ho => hst.trans (haborted ho), htamp,
    ?_, fun i hi => (hall i).trans (by rw [hothers i hi]; rfl)⟩
  obtain ⟨n, hlatched, -⟩ := h
  rw [status_tamper, tamp_any]
  exact ⟨n, by rw [htamp]; exact hlatched⟩

/-! #### TAMPER_CLEAR (R358) -/

/-- The state beside the host link and the tamper inputs. -/
def besideInputs (s : State) : State := besideLink { s with rtc := { s.rtc with tamp := State.reset.rtc.tamp } }

theorem besideInputs_leaves {s t : State} (h : besideInputs t = besideInputs s) :
    t.key = s.key ∧ t.lanes = s.lanes ∧ t.frm = s.frm :=
  ⟨(congrArg State.key h :), (congrArg State.lanes h :), (congrArg State.frm h :)⟩

theorem besideInputs_ofLink {s t : State} (h : besideLink t = besideLink s) :
    besideInputs t = besideInputs s ∧ t.rtc.tamp = s.rtc.tamp :=
  ⟨(congrArg (fun u : State => { u with rtc := { u.rtc with tamp := State.reset.rtc.tamp } }) h :),
    (congrArg (fun u => u.rtc.tamp) h :)⟩

/-- A selected input as the clear leaves it. -/
def inputCleared (t : Tamper) : Tamper :=
  if t.latched = true ∧ t.active = false then { t with latched := false, acted := false } else t

theorem withTamp_changes (n : Nat) (f : Tamper → Tamper) (s : State) : changesAt besideInputs (fun s => s.rtc.tamp) n f s
    { s with rtc := { s.rtc with tamp := vmod s.rtc.tamp n f } } := ⟨rfl, rfl⟩

theorem tamperClear1_changes (slot : Nat) (n : Fin 3) (s : State) :
    changesAt besideInputs (fun s => s.rtc.tamp) n.val inputCleared s (tamperClear1 slot n.val s) := by
  have hguard : ((s.rtc.tamp[n.val]).latched && !(s.rtc.tamp[n.val]).active) = true ↔
      (s.rtc.tamp[n.val]).latched = true ∧ (s.rtc.tamp[n.val]).active = false := by
    rw [Bool.and_eq_true, Bool.not_eq_true']
  unfold tamperClear1
  rw [vget_of_lt _ _ n.isLt]
  dsimp only
  by_cases h : (s.rtc.tamp[n.val]).latched = true ∧ (s.rtc.tamp[n.val]).active = false
  · rw [if_pos (hguard.mpr h)]
    refine changesAt_congr (changesAt_then (withTamp_changes n.val _ s) (besideInputs_ofLink (note_besideLink _ _ _ _ _ _)))
      fun _ => (if_pos h).symm
  · rw [if_neg (mt hguard.mp h)]
    exact ⟨rfl, (vmod_self (f := inputCleared) fun _ => if_neg h).symm⟩

/-- The selected inputs, cleared by the session in `slot`. -/
def inputsCleared (slot : Nat) (mask : BitVec 3) (s : State) : State :=
  forAll (where_ 3 fun n => mask.getLsbD n) (tamperClear1 slot) s

theorem inputsCleared_becomes (slot : Nat) (mask : BitVec 3) (s : State) :
    besideInputs (inputsCleared slot mask s) = besideInputs s
    ∧ ∀ n : Fin 3, let t := s.rtc.tamp[n.val]
      (inputsCleared slot mask s).rtc.tamp[n.val] = if mask.getLsbD n.val = true ∧ t.latched = true ∧ t.active = false
        then { t with latched := false, acted := false } else t := by
  obtain ⟨hbeside, hall⟩ := forAll_changesAt (F := fun _ _ => inputCleared) (tamperClear1_changes slot)
    (where_nodup 3 fun n => mask.getLsbD n) (fun i hi => (mem_where.mp hi).1) s
  refine ⟨hbeside, fun n => (hall n).trans ?_⟩
  simp only [mem_where, n.isLt, true_and, inputCleared, ite_and]

/-- The LOCKED slots, checked again. -/
def lockedRechecked (s : State) : State := forAll (where_ 64 fun i => (keySlot s i).state == .locked) recheck s

theorem lockedRechecked_becomes (s : State) : besideSlots (lockedRechecked s) = besideSlots s
    ∧ ∀ i : Fin 64, (s.key.slots[i.val]).state = .locked →
      (slotsOf (lockedRechecked s))[i.val] = judged (tampHeld s) i.val s.key.slots[i.val] := by
  obtain ⟨hbeside, hall⟩ := forAll_changesAt (F := fun b i => judged (tampHeld b) i) recheck_changes
    (where_nodup 64 fun i => (keySlot s i).state == .locked) (fun i hi => (mem_where.mp hi).1) s
  refine ⟨hbeside, fun i hi => (hall i).trans (if_pos (mem_where.mpr ⟨i.isLt, ?_⟩))⟩
  rw [keySlot_fin, hi]
  rfl

/-- A latch cleared by an admitted command; with none left the LOCKED slots are checked again. -/
theorem tamperClearOp_does {sid : Nat} {mask : BitVec 3} {s : State} (hlc : lifecycle s = 1 ∨ lifecycle s = 2)
    (hidle : ¬ tampFresh s) :
    tamperClearOp sid mask s = (.ok, if (inputsCleared (sesSlot sid s) mask s).rtc.tamp.toList.any (·.latched) = true
      then inputsCleared (sesSlot sid s) mask s else lockedRechecked (inputsCleared (sesSlot sid s) mask s)) := by
  unfold tamperClearOp
  rw [tamperAct_idle hidle]
  refine (if_neg (by omega)).trans ?_
  rw [apply_ite (Prod.mk Res.ok)]
  rfl

theorem tamperClear_leaves (slot : Nat) (mask : BitVec 3) (s : State) :
    let c := inputsCleared slot mask s
    let u := if c.rtc.tamp.toList.any (·.latched) = true then c else lockedRechecked c
    u.lanes = s.lanes ∧ u.frm = s.frm ∧ u.rtc.tamp = c.rtc.tamp
    ∧ ((∃ n : Fin 3, (c.rtc.tamp[n.val]).latched = true) → u.key.slots = s.key.slots)
    ∧ ((∀ n : Fin 3, (c.rtc.tamp[n.val]).latched = false) → ∀ i : Fin 64, (s.key.slots[i.val]).state = .locked →
        (u.key.slots[i.val]).state = .valid ∨ (u.key.slots[i.val]).state = .bad ∨ (u.key.slots[i.val]).state = .empty) := by
  intro c u
  obtain ⟨hkey, hlanes, hfrm⟩ := besideInputs_leaves (inputsCleared_becomes slot mask s).1
  by_cases h : c.rtc.tamp.toList.any (·.latched) = true
  · have hu : u = c := if_pos h
    obtain ⟨n, hn⟩ := (tamp_any c _).mp h
    rw [hu]
    exact ⟨hlanes, hfrm, rfl, fun _ => congrArg Key.slots hkey, fun hnone => absurd hn (by rw [hnone]; decide)⟩
  · have hu : u = lockedRechecked c := if_neg h
    obtain ⟨hbeside, hall⟩ := lockedRechecked_becomes c
    obtain ⟨hrtc, hlanes', hfrm', -⟩ := besideSlots_leaves hbeside
    have hheld : tampHeld c = false := by
      rw [Bool.eq_false_iff]
      intro hheld
      obtain ⟨n, hn⟩ := (tamp_any c _).mp hheld
      exact h ((tamp_any c _).mpr ⟨n, (Bool.and_eq_true_iff.mp hn).1⟩)
    rw [hu]
    refine ⟨hlanes'.trans hlanes, hfrm'.trans hfrm, congrArg Rtc.tamp hrtc, fun hlatched => absurd ((tamp_any c _).mpr hlatched) h,
      fun _ i hi => ?_⟩
    rw [show (lockedRechecked c).key.slots[i.val] = _ from hall i (by rw [hkey]; exact hi), judged, hheld]
    exact slotJudge_unheld i.val _

/-- Settles O35, from what an acted-on latch makes of the operations and of each slot, and what a clear makes of the inputs
and of the LOCKED slots. That a slot found BAD stays BAD with TLOCK rests on log 52 (DEDUCED) and is the model's choice: R355
step 3 read alone would lock every slot with TLOCK that is not EMPTY. The slot of an abandoned write (R357) is outside the
clause about the slots. -/
theorem tamper : Obligations.Tamper := by
  unfold Obligations.Tamper
  intro s fresh
  refine ⟨fun hp => ?_, fun sid ss mask hready => ?_⟩
  · have hexec := exec_tamper hp
    refine ⟨fun h => by rw [hexec, tamperAct_idle h], fun h => ⟨settle (tamperAct s), hexec, ?_⟩⟩
    obtain ⟨hwr, hop, hlanes, hfrm, hst, htamp, hbit, hslots⟩ := tamperAct_leaves h
    refine ⟨hwr, hop, hlanes, hfrm, hst, htamp, hbit, fun i hi => ?_⟩
    have hslot := hslots i hi
    intro k
    split_ifs with hz ht
    · exact hslot.trans (if_pos hz)
    · exact hslot.trans ((if_neg hz).trans (if_pos ht))
    · exact hslot.trans ((if_neg hz).trans (if_neg ht))
  · intro ok
    refine ⟨fun h => host_no hready (if_pos (not_or.mp h)) (by decide) (by decide), fun h hidle => ?_⟩
    have hexec := host_ok hready (tamperClearOp_does (sid := sid.val) (mask := mask) h hidle)
    refine ⟨_, hexec, ?_⟩
    obtain ⟨hlanes, hfrm, htamp, hkept, hchecked⟩ := tamperClear_leaves (sesSlot sid.val s) mask s
    obtain ⟨hkey, hrtc, hlanes', hfrm'⟩ := besideLink_leaves (answered_besideLink sid ss .ok 4 [] _)
    rw [hkey, hrtc, htamp]
    exact ⟨hlanes'.trans hlanes, hfrm'.trans hfrm, (inputsCleared_becomes _ mask s).2, hkept, hchecked⟩

end Sys2Proof.Proofs

/-! ### PTP on the ports: what each step leaves alone (R216 to R220) -/
namespace Sys2Proof.Proofs

open Sys2Proof Sys2Proof.Machine Sys2Proof.Safety Sys2Proof.Laws

/-! #### Ports and counters -/

/-- What no PTP message touches but by its counters: the counters, the lanes, the memory and SYS. -/
def besidePtp (s : State) : Vector (Vector Word 8) 12 × Vector Lane 16 × Mem × Sys := (s.tim.cnt, s.lanes, s.mem, s.sys)

theorem ptpPort_fin (s : State) (p : Fin 12) : ptpPort s p.val = s.tim.ports[p.val] := vget_of_lt _ _ p.isLt

theorem modPtp_port (p q : Fin 12) (f : PtpPort → PtpPort) (s : State) :
    (modPtp p.val f s).tim.ports[q.val] = if q = p then f s.tim.ports[p.val] else s.tim.ports[q.val] :=
  getElem_vmod _ _ _ _

theorem modPtp_same (p : Fin 12) (f : PtpPort → PtpPort) (s : State) :
    (modPtp p.val f s).tim.ports[p.val] = f s.tim.ports[p.val] := (modPtp_port p p f s).trans (if_pos rfl)

/-- A message is counted under `code` on its port, and what no message touches is as before. -/
abbrev countsPtp (s : State) (port : Fin 12) (code : Nat) (u : State) : Prop :=
  (∀ i : Fin 8, (u.tim.cnt[port.val])[i.val] = (s.tim.cnt[port.val])[i.val] + (if i.val = code then 1 else 0))
    ∧ u.lanes = s.lanes ∧ u.mem = s.mem ∧ u.sys = s.sys

theorem countsPtp_of {s u : State} {port : Fin 12} {code : Nat} (hcode : code < 8)
    (h : besidePtp u = besidePtp (ptpCount port.val code s)) : countsPtp s port code u := by
  have hcnt : u.tim.cnt = (ptpCount port.val code s).tim.cnt := congrArg Prod.fst h
  refine ⟨fun i => ?_, (congrArg (·.2.1) h :), (congrArg (·.2.2.1) h :), (congrArg (·.2.2.2) h :)⟩
  rw [hcnt]
  show ((vmod s.tim.cnt port.val fun c => vmod c code (· + 1))[port.val])[i.val] = _
  rw [getElem_vmod, if_pos rfl, getElem_bumped _ hcode]

/-! #### A drop (R220) -/

theorem ptpDrop_only (p code : Nat) (s : State) :
    ∃ evr rl, ptpDrop p code s = { timEvt 5 (ptpCount p code s) with evr := evr, rl := rl } :=
  rlNote_only (fun _ _ => note_only _ _ _ _ _ _) _ _ _

theorem ptpDrop_leaves {port : Fin 12} {code : Nat} (hcode : code < 8) (s : State) :
    let u := ptpDrop port.val code s
    countsPtp s port code u ∧ u.tim.evt = s.tim.evt ||| 32 ∧ u.tim.ports = s.tim.ports ∧ u.tim.sources = s.tim.sources
      ∧ u.tim.slave = s.tim.slave := by
  obtain ⟨evr, rl, h⟩ := ptpDrop_only port.val code s
  have hbeside : ∀ t : State, besidePtp { timEvt 5 t with evr := evr, rl := rl } = besidePtp t := fun _ => rfl
  dsimp only
  rw [h]
  exact ⟨countsPtp_of hcode (hbeside _), rfl, rfl, rfl, rfl⟩

/-! #### The choice of master (R216, R217) -/

/-- A choice made: the slave port, and which ports are master. -/
def mastersChosen (slave : Option (Fin 12)) (master : Nat → PtpPort → Bool) (s : State) : State :=
  modTim (fun t => { t with slave := slave, ports := vmap t.ports fun q x => { x with master := master q x } }) s

theorem mastersChosen_port (slave : Option (Fin 12)) (master : Nat → PtpPort → Bool) (s : State) (q : Fin 12) :
    (mastersChosen slave master s).tim.ports[q.val]
      = { s.tim.ports[q.val] with master := master q.val s.tim.ports[q.val] } := Vector.getElem_ofFn _

/-- Without a clock on any port, a master-capable port that is or may become master is one. -/
theorem bmca_clockless {s : State} (h : bestPort s = none) :
    bmca s = mastersChosen none (fun q x => !slaveOnly s && ptpOn s q && (x.master || annSilent s q)) s := by
  unfold bmca
  rw [h]
  rfl

/-- With a clock, the slave port is the best port or none. -/
theorem bmca_clocked {s : State} {p : Fin 12} (h : bestPort s = some p) :
    bmca s = mastersChosen none (fun q _ => ptpOn s q) s ∨ bmca s = mastersChosen (some p) (fun _ _ => false) s := by
  have hmap : s.tim.ports.map (fun x => { x with master := false }) = vmap s.tim.ports fun _ x => { x with master := false } :=
    Vector.ext fun i hi => by rw [vmap, Vector.getElem_map, Vector.getElem_ofFn]
  unfold bmca
  rw [h]
  dsimp only
  split
  · exact .inl rfl
  · refine .inr ?_
    unfold modTim mastersChosen
    dsimp only [modTim]
    rw [hmap]

theorem bmca_chooses (s : State) : ∃ slave master, bmca s = mastersChosen slave master s := by
  cases h : bestPort s with
  | none => exact ⟨_, _, bmca_clockless h⟩
  | some p => rcases bmca_clocked h with h | h <;> exact ⟨_, _, h⟩

/-- The better of the best port so far and a port. -/
def takenPort (s : State) (m : Option (Fin 12)) (p : Fin 12) : Option (Fin 12) :=
  match portClock s p.val with
  | none => m
  | some c => match m with
    | none => some p
    | some q => match (ptpPort s q.val).best with
      | some d => if betterClock c d then some p else m
      | none => some p

theorem bestPort_eq (s : State) : bestPort s = (List.finRange 12).foldl (takenPort s) none := rfl

theorem takenPort_cases (s : State) (m : Option (Fin 12)) (p : Fin 12) :
    takenPort s m p = m ∨ (takenPort s m p = some p ∧ portClock s p.val ≠ none) := by
  unfold takenPort
  split
  · exact .inl rfl
  · rename_i c hc
    have hp : portClock s p.val ≠ none := by rw [hc]; exact Option.some_ne_none c
    split
    · exact .inr ⟨rfl, hp⟩
    · split
      · split
        · exact .inr ⟨rfl, hp⟩
        · exact .inl rfl
      · exact .inr ⟨rfl, hp⟩

theorem takenPort_none {s : State} {p : Fin 12} (h : portClock s p.val = none) (m : Option (Fin 12)) : takenPort s m p = m :=
  (takenPort_cases s m p).resolve_right fun hp => hp.2 h

/-- The best port has a clock. -/
theorem bestPort_clock {s : State} {p : Fin 12} (h : bestPort s = some p) : portClock s p.val ≠ none := by
  have hfold : ∀ (ps : List (Fin 12)) (m : Option (Fin 12)), (∀ q, m = some q → portClock s q.val ≠ none) →
      ∀ q, ps.foldl (takenPort s) m = some q → portClock s q.val ≠ none := by
    intro ps
    induction ps with
    | nil => exact fun m hm => hm
    | cons r ps ih =>
      refine fun m hm => ih _ fun q hq => ?_
      rcases takenPort_cases s m r with hsame | ⟨htaken, hr⟩
      · exact hm q (hsame.symm.trans hq)
      · exact Option.some.inj (htaken.symm.trans hq) ▸ hr
  rw [bestPort_eq] at h
  exact hfold _ none (fun _ hq => absurd hq (Option.some_ne_none _).symm) p h

/-- Without a clock on any port there is no best port. -/
theorem bestPort_none {s : State} (h : ∀ q : Fin 12, portClock s q.val = none) : bestPort s = none := by
  have hfold : ∀ ps : List (Fin 12), ps.foldl (takenPort s) none = none := by
    intro ps
    induction ps with
    | nil => rfl
    | cons r ps ih => rw [List.foldl_cons, takenPort_none (h r), ih]
  exact (bestPort_eq s).trans (hfold _)

theorem portClock_none {s : State} {p : Fin 12} (h : (s.tim.ports[p.val]).best = none) : portClock s p.val = none := by
  unfold portClock
  dsimp only
  rw [ptpPort_fin, h, ite_self]

/-! #### A measurement on a port (R217) -/

theorem ptpMeasure_slave {p : Fin 12} {off : Int} {s : State} (h : s.tim.slave = some p) :
    ptpMeasure p.val off s = timMeasure 0 off (modPtp p.val (fun x => { x with offset := off }) s) :=
  if_pos (by show s.tim.slave.map (·.val) = some p.val; rw [h]; rfl)

theorem ptpMeasure_other {p : Fin 12} {off : Int} {s : State} (h : s.tim.slave ≠ some p) :
    ptpMeasure p.val off s = modPtp p.val (fun x => { x with offset := off }) s :=
  if_neg fun hm => h (by
    obtain ⟨q, hq, hqp⟩ := Option.map_eq_some_iff.mp (show s.tim.slave.map (·.val) = some p.val from hm)
    rw [hq, Fin.ext hqp])

theorem ptpMeasure_leaves (p : Fin 12) (off : Int) (s : State) :
    let u := ptpMeasure p.val off s
    besidePtp u = besidePtp s ∧ u.tim.ports[p.val] = { s.tim.ports[p.val] with offset := off }
    ∧ (s.tim.slave = some p → u.tim.offset = off)
    ∧ (s.tim.slave ≠ some p → u.tim.offset = s.tim.offset ∧ u.tim.sources = s.tim.sources) := by
  have hport := modPtp_same p (fun x => { x with offset := off }) s
  by_cases h : s.tim.slave = some p
  · obtain ⟨-, hlanes, hsys, hmem, -, hoff, hports, hcnt⟩ := besideSources_leaves
      (timMeasure_becomes 0 off (modPtp p.val (fun x => { x with offset := off }) s)).1
    rw [ptpMeasure_slave h]
    refine ⟨?_, ?_, fun _ => hoff, fun hne => absurd h hne⟩
    · exact Prod.ext hcnt (Prod.ext hlanes (Prod.ext hmem hsys))
    · exact (congrArg (fun v : Vector PtpPort 12 => v[p.val]) hports).trans hport
  · rw [ptpMeasure_other h]
    exact ⟨rfl, hport, fun he => absurd he h, fun _ => ⟨rfl, rfl⟩⟩

/-! #### Sending -/

/-- The message that a port sends of a kind. -/
def ptpTx (s : State) (p kind seq : Nat) : TxMsg :=
  .ptp kind seq (ptpDomain s) (if kind = 1 then some (ownClock s) else none)
    (if kind = 3 ∨ (kind = 0 ∧ !twoStepTx s) then some (ntNsNow s + latTx s p) else none)

/-- The frame that carries a message of PTP: its port's copy alone. -/
def ptpFrame (s t : State) (p : Nat) (m : TxMsg) : TxFrame :=
  ⟨ownMac s p, none, none, none, (frameCopies t (p / 2) p m).filter (fun x => x.1 == p), none, m⟩

/-- The sequence number of a PRP or HSR pair advances (R187, R188). -/
def seqTaken (p : Nat) (s : State) : State :=
  modPair (p / 2) (fun x => if x.mode = 0 then x else { x with seq := (x.seq + 1) % 65536 }) s

theorem ptpSend_only (p kind seq : Nat) (s : State) : ∃ ne, ptpSend p kind seq s = { s with ne := ne }
    ∧ ne.sent = s.ne.sent ++ [ptpFrame s s p (ptpTx s p kind seq)] ∧ ne.pairs = (seqTaken p s).ne.pairs := ⟨_, rfl, rfl, rfl⟩

theorem ptpTx_withNe (s : State) (ne : Ne) (p kind seq : Nat) : ptpTx { s with ne := ne } p kind seq = ptpTx s p kind seq := rfl

theorem ownMac_seqTaken {p : Nat} {s t : State} (h : t.ne.pairs = (seqTaken p s).ne.pairs) : ownMac t p = ownMac s p := by
  refine ownMac_congr ?_
  have hpair : nePairOf t (pairOf p) = nePairOf (seqTaken p s) (p / 2) := by unfold nePairOf pairOf; rw [h]
  rw [hpair]
  unfold seqTaken pairOf
  by_cases hp : p / 2 < 6
  · rw [nePairOf_modPair hp, if_pos rfl]
    split <;> rfl
  · rw [modPair, vmod, dif_neg hp]

theorem ptpFrame_seqTaken {p : Nat} {s t : State} (h : t.ne.pairs = (seqTaken p s).ne.pairs) (m : TxMsg) :
    ptpFrame t t p m = ptpFrame s (seqTaken p s) p m := by
  have hcopies : frameCopies t (p / 2) p m = frameCopies (seqTaken p s) (p / 2) p m := by
    unfold frameCopies portLink nePairOf
    rw [h]
  rw [ptpFrame, ownMac_seqTaken h, hcopies]
  rfl

/-- Two messages sent one after the other. -/
theorem ptpSend_twice (p kind seq kind' seq' : Nat) (s : State) : ∃ ne,
    ptpSend p kind' seq' (ptpSend p kind seq s) = { s with ne := ne }
    ∧ ne.sent = s.ne.sent ++
      [ptpFrame s s p (ptpTx s p kind seq), ptpFrame s (seqTaken p s) p (ptpTx s p kind' seq')] := by
  obtain ⟨ne, hfirst, hsent, hpairs⟩ := ptpSend_only p kind seq s
  obtain ⟨ne', hsecond, hsent', -⟩ := ptpSend_only p kind' seq' { s with ne := ne }
  rw [hfirst]
  refine ⟨ne', hsecond, hsent'.trans ?_⟩
  rw [ptpFrame_seqTaken hpairs, ptpTx_withNe]
  dsimp only
  rw [hsent, List.append_assoc]
  rfl

end Sys2Proof.Proofs

/-! ### PTP messages: the checks, and what each kind does (R216, R217, R219, R220) -/
namespace Sys2Proof.Proofs

open Sys2Proof Sys2Proof.Machine Sys2Proof.Safety Sys2Proof.Laws

/-! #### The checks (R220) -/

abbrev ptpPlain (s : State) (m : PtpMsg) : Prop :=
  m.lengthOk = true ∧ m.version = 2 ∧ m.domain = (reg 0x60030 s).toNat % 256 ∧ ¬ (m.kind = .delayReq ∨ m.kind = .delayResp) ∧ m.sdo = 0

/-- An event message that waits for the follow-up `m`, heard within the last second. -/
abbrev ptpWaits (s : State) (m : PtpMsg) (o : Option (Nat × BitVec 64 × Int × Nat)) : Prop :=
  ∃ y, o = some y ∧ y.1 = m.seq ∧ y.2.1 = m.source ∧ s.clk.cyc ≤ y.2.2.2 + cycSec

abbrev ptpFollows (s : State) (p : Fin 12) (m : PtpMsg) : Prop :=
  (m.kind = .followUp → ptpWaits s m (s.tim.ports[p.val]).sync)
  ∧ (m.kind = .pdelayRespFollowUp → ptpWaits s m (s.tim.ports[p.val]).pd)

abbrev ptpKnown (s : State) (port : Fin 12) (m : PtpMsg) : Prop :=
  m.kind = .sync → ∃ p : Fin 12, s.tim.slave = some p ∧ ((s.tim.ports[p.val]).sender = m.source
    ∨ (p.val / 2 = port.val / 2 ∧ p ≠ port ∧ (nePairOf s (port.val / 2)).mode = 1 ∧ (s.tim.ports[port.val]).best ≠ none
      ∧ (s.tim.ports[port.val]).sender = m.source))

abbrev ptpRanged (m : PtpMsg) : Prop :=
  0 ≤ m.correction ∧ m.correction ≤ 1000000000 ∧ (m.kind = .announce → m.clock.steps < 255)

theorem ptpWaits_iff (s : State) (m : PtpMsg) (o : Option (Nat × BitVec 64 × Int × Nat)) :
    (o.any fun y => y.1 == m.seq && y.2.1 == m.source && decide (s.clk.cyc ≤ y.2.2.2 + cycSec)) = true ↔ ptpWaits s m o := by
  cases o with
  | none => simp [ptpWaits]
  | some y => simp [ptpWaits, and_assoc]

theorem syncKnown_iff (s : State) (port : Fin 12) (src : BitVec 64) : syncKnown s port.val src = true ↔
    ∃ p : Fin 12, s.tim.slave = some p ∧ ((s.tim.ports[p.val]).sender = src
      ∨ (p.val / 2 = port.val / 2 ∧ p ≠ port ∧ (nePairOf s (port.val / 2)).mode = 1 ∧ (s.tim.ports[port.val]).best ≠ none
        ∧ (s.tim.ports[port.val]).sender = src)) := by
  unfold syncKnown gmSender
  cases s.tim.slave with
  | none => simp
  | some p =>
    simp [ptpPort_fin, pairOf, Fin.val_inj, and_assoc, Option.isSome_iff_ne_none]

theorem ptpUnfollowed_iff (s : State) (p : Fin 12) (m : PtpMsg) :
    ((m.kind = .followUp && !((s.tim.ports[p.val]).sync.any fun y => y.1 == m.seq && y.2.1 == m.source
        && decide (s.clk.cyc ≤ y.2.2.2 + cycSec)))
      || (m.kind = .pdelayRespFollowUp && !((s.tim.ports[p.val]).pd.any fun y => y.1 == m.seq && y.2.1 == m.source
        && decide (s.clk.cyc ≤ y.2.2.2 + cycSec)))) = true ↔ ¬ ptpFollows s p m := by
  rw [Bool.or_eq_true, Bool.and_eq_true, Bool.and_eq_true, Bool.not_eq_true', Bool.not_eq_true', ← Bool.not_eq_true,
    ← Bool.not_eq_true,
    ptpWaits_iff, ptpWaits_iff, decide_eq_true_eq, decide_eq_true_eq, not_and_or, Classical.not_imp, Classical.not_imp]

theorem ptpUnknown_iff (s : State) (p : Fin 12) (m : PtpMsg) :
    (m.kind = .sync && !syncKnown s p.val m.source) = true ↔ ¬ ptpKnown s p m := by
  rw [Bool.and_eq_true, Bool.not_eq_true', ← Bool.not_eq_true, syncKnown_iff, decide_eq_true_eq, Classical.not_imp]

theorem ptpUnranged_iff (m : PtpMsg) :
    (decide (m.correction < 0) || decide (1000000000 < m.correction)
      || (decide (m.kind = .announce) && decide (255 ≤ m.clock.steps))) = true ↔ ¬ ptpRanged m := by
  simp only [ptpRanged, Bool.or_eq_true, Bool.and_eq_true, decide_eq_true_eq, not_and_or, Classical.not_imp, Int.not_le,
    Nat.not_lt, or_assoc]

theorem ptpDomain_eq (s : State) : ptpDomain s = (reg 0x60030 s).toNat % 256 := by
  exact (field_eq _ 0 8).trans (by rw [Nat.pow_zero, Nat.div_one, show 2 ^ 8 = 256 from rfl])

/-- The code of a message that is not plain: the first check that fails. -/
theorem ptpBad_first (s : State) (p : Nat) (m : PtpMsg) :
    (m.lengthOk = false → ptpBad s p m = 1)
    ∧ (m.lengthOk = true → m.version ≠ 2 → ptpBad s p m = 2)
    ∧ (m.lengthOk = true → m.version = 2 → m.domain ≠ (reg 0x60030 s).toNat % 256 → ptpBad s p m = 3)
    ∧ (m.lengthOk = true → m.version = 2 → m.domain = (reg 0x60030 s).toNat % 256
        → (m.kind = .delayReq ∨ m.kind = .delayResp) ∨ m.sdo ≠ 0 → ptpBad s p m = 4) := by
  rw [← ptpDomain_eq]
  unfold ptpBad
  refine ⟨fun h => ?_, fun h h2 => ?_, fun h h2 h3 => ?_, fun h h2 h3 h4 => ?_⟩
  · exact if_pos (by rw [h]; rfl)
  · exact (if_neg (by rw [h]; decide)).trans (if_pos h2)
  · exact (if_neg (by rw [h]; decide)).trans ((if_neg (not_not.mpr h2)).trans (if_pos h3))
  · exact (if_neg (by rw [h]; decide)).trans ((if_neg (not_not.mpr h2)).trans
      ((if_neg (not_not.mpr h3)).trans (if_pos (or_assoc.mp h4))))

/-- The code of a plain message, 0 for none. -/
theorem ptpBad_plain {s : State} (p : Fin 12) {m : PtpMsg} (h : ptpPlain s m) :
    (¬ ptpFollows s p m → ptpBad s p.val m = 5)
    ∧ (ptpFollows s p m → ¬ ptpKnown s p m → ptpBad s p.val m = 6)
    ∧ (ptpFollows s p m → ptpKnown s p m → ¬ ptpRanged m → ptpBad s p.val m = 7)
    ∧ (ptpFollows s p m → ptpKnown s p m → ptpRanged m → ptpBad s p.val m = 0) := by
  obtain ⟨hlength, hversion, hdomain, hkind, hsdo⟩ := h
  rw [← ptpDomain_eq] at hdomain
  have hplain : ptpBad s p.val m = _ := (if_neg (by rw [hlength]; decide)).trans ((if_neg (not_not.mpr hversion)).trans
    ((if_neg (not_not.mpr hdomain)).trans (if_neg fun h => hkind ((or_assoc.mpr h).resolve_right (not_not.mpr hsdo)))))
  rw [hplain, ptpPort_fin]
  refine ⟨fun h5 => if_pos ((ptpUnfollowed_iff s p m).mpr h5), fun h5 h6 => ?_, fun h5 h6 h7 => ?_, fun h5 h6 h7 => ?_⟩
  all_goals refine (if_neg (mt (ptpUnfollowed_iff s p m).mp (not_not.mpr h5))).trans ?_
  · exact if_pos ((ptpUnknown_iff s p m).mpr h6)
  all_goals refine (if_neg (mt (ptpUnknown_iff s p m).mp (not_not.mpr h6))).trans ?_
  · exact if_pos ((ptpUnranged_iff m).mpr h7)
  · exact if_neg (mt (ptpUnranged_iff m).mp (not_not.mpr h7))

end Sys2Proof.Proofs

/-! ### What an accepted PTP message does (R216, R217, R219) -/
namespace Sys2Proof.Proofs

open Sys2Proof Sys2Proof.Machine Sys2Proof.Safety Sys2Proof.Laws

/-- A message taken: it counts as accepted, and `P` holds of the state after it and of its port. -/
abbrev takesPtp (s : State) (port : Fin 12) (P : State → PtpPort → Prop) (u : State) : Prop :=
  countsPtp s port 0 u ∧ P u (u.tim.ports[port.val])

theorem takesPtp_of {s u : State} {port : Fin 12} {P : State → PtpPort → Prop}
    (h : besidePtp u = besidePtp (ptpCount port.val 0 s)) (hP : P u (u.tim.ports[port.val])) : takesPtp s port P u :=
  ⟨countsPtp_of (by decide) h, hP⟩

theorem modPtp_besidePtp (p : Nat) (f : PtpPort → PtpPort) (s : State) : besidePtp (modPtp p f s) = besidePtp s := rfl

theorem modPtp_offset (p : Nat) (f : PtpPort → PtpPort) (s : State) : (modPtp p f s).tim.offset = s.tim.offset := rfl

theorem latRx_eq (s : State) (p : Nat) : latRx s p = ((reg (0x60080 + 4 * p) s).toNat % 2 ^ 16 : Nat) := by
  rw [latRx, field_eq, Nat.pow_zero, Nat.div_one]
  rfl

theorem latTx_eq (s : State) (p : Nat) : latTx s p = ((reg (0x60080 + 4 * p) s).toNat / 2 ^ 16 % 2 ^ 16 : Nat) := by
  rw [latTx, field_eq]
  rfl

/-- When a message was received, as the port's latency corrects it (R219). -/
abbrev rxTime (s : State) (port : Fin 12) : Int :=
  ((ntCap s / 10 ^ 10 : Nat) : Int) - ((reg (0x60080 + 4 * port.val) s).toNat % 2 ^ 16 : Nat)

theorem rxTime_eq (s : State) (port : Fin 12) : ntNsNow s - latRx s port.val = rxTime s port := by
  rw [latRx_eq]
  rfl

/-! #### Announce (R216, R217) -/

/-- The Announce is kept: no clock yet, the clock's own sender, or a better one. -/
abbrev ptpKeeps (s : State) (p : Fin 12) (m : PtpMsg) : Prop :=
  (s.tim.ports[p.val]).best = none ∨ (s.tim.ports[p.val]).sender = m.source
    ∨ ∃ b, (s.tim.ports[p.val]).best = some b ∧ betterClock m.clock b = true

def ptpTakesClock (x : PtpPort) (m : PtpMsg) : Bool :=
  match x.best with
  | none => true
  | some c => x.sender == m.source || betterClock m.clock c

theorem ptpTakesClock_iff (s : State) (p : Fin 12) (m : PtpMsg) : ptpTakesClock (s.tim.ports[p.val]) m = true ↔ ptpKeeps s p m := by
  unfold ptpTakesClock ptpKeeps
  cases (s.tim.ports[p.val]).best with
  | none => simp
  | some b => simp

/-- The port with the clock of an Announce heard at a lane cycle. -/
def announced (cyc : Nat) (m : PtpMsg) (x : PtpPort) : PtpPort :=
  { x with best := some { m.clock with heard := cyc }, sender := m.source, annAt := cyc, annInt := msgInterval m }

/-- The UTC offset of the selected master. -/
def utcTaken (m : PtpMsg) (s : State) : State :=
  if gmSender s = some m.source then modTim (fun t => { t with ptpUtc := m.utcOffset }) s else s

theorem ptpAnnounce_eq (p : Nat) (m : PtpMsg) (s : State) : ptpAnnounce p m s =
    utcTaken m (bmca (if ptpTakesClock (ptpPort s p) m then modPtp p (announced s.clk.cyc m) s else s)) := rfl

theorem ptpAnnounce_kept {s : State} {p : Fin 12} {m : PtpMsg} (h : ptpKeeps s p m) :
    ptpAnnounce p.val m s = utcTaken m (bmca (modPtp p.val (announced s.clk.cyc m) s)) := by
  rw [ptpAnnounce_eq, ptpPort_fin, if_pos ((ptpTakesClock_iff s p m).mpr h)]

theorem ptpAnnounce_left {s : State} {p : Fin 12} {m : PtpMsg} (h : ¬ ptpKeeps s p m) :
    ptpAnnounce p.val m s = utcTaken m (bmca s) := by
  rw [ptpAnnounce_eq, ptpPort_fin, if_neg (mt (ptpTakesClock_iff s p m).mp h)]

/-- After a choice of master the ports are as before but for being master. -/
theorem chosen_leaves (m : PtpMsg) (s : State) (p : Fin 12) : besidePtp (utcTaken m (bmca s)) = besidePtp s
    ∧ ∃ b, (utcTaken m (bmca s)).tim.ports[p.val] = { s.tim.ports[p.val] with master := b } := by
  obtain ⟨slave, master, h⟩ := bmca_chooses s
  have hutc : ∀ t, besidePtp (utcTaken m t) = besidePtp t ∧ (utcTaken m t).tim.ports = t.tim.ports := by
    intro t
    unfold utcTaken
    split <;> exact ⟨rfl, rfl⟩
  rw [(hutc _).1, (hutc _).2, h]
  exact ⟨rfl, _, mastersChosen_port slave master s p⟩

theorem ptpTake_announce {s : State} {m : PtpMsg} (port : Fin 12) (hkind : m.kind = .announce) :
    (ptpKeeps s port m → takesPtp s port (fun _ y => y.best = some { m.clock with heard := s.clk.cyc } ∧ y.sender = m.source
      ∧ y.annAt = s.clk.cyc ∧ y.annInt = msgInterval m) (ptpTake port.val m s))
    ∧ (¬ ptpKeeps s port m → takesPtp s port (fun _ y => y.best = (s.tim.ports[port.val]).best
      ∧ y.sender = (s.tim.ports[port.val]).sender) (ptpTake port.val m s)) := by
  have htake : ptpTake port.val m s = ptpAnnounce port.val m (ptpCount port.val 0 s) := by unfold ptpTake; rw [hkind]
  rw [htake]
  refine ⟨fun h => ?_, fun h => ?_⟩
  · obtain ⟨hbeside, b, hport⟩ := chosen_leaves m (modPtp port.val (announced s.clk.cyc m) (ptpCount port.val 0 s)) port
    have hkept : ptpAnnounce port.val m (ptpCount port.val 0 s)
        = utcTaken m (bmca (modPtp port.val (announced s.clk.cyc m) (ptpCount port.val 0 s))) := ptpAnnounce_kept h
    rw [hkept]
    refine takesPtp_of (hbeside.trans (modPtp_besidePtp _ _ _)) ?_
    rw [hport, modPtp_same]
    exact ⟨rfl, rfl, rfl, rfl⟩
  · obtain ⟨hbeside, b, hport⟩ := chosen_leaves m (ptpCount port.val 0 s) port
    rw [ptpAnnounce_left (s := ptpCount port.val 0 s) h]
    refine takesPtp_of hbeside ?_
    rw [hport]
    exact ⟨rfl, rfl⟩

/-! #### Sync and Follow_Up -/

/-- The port after a Sync of the selected master. -/
def syncHeard (p : Nat) (m : PtpMsg) (s : State) : State :=
  modPtp p (fun x => { x with lastSync := s.clk.cyc, syncInt := msgInterval m, syncLost := false }) s

/-- What a measurement on a port leaves. -/
abbrev measuresPtp (s : State) (port : Fin 12) (off : Int) (u : State) (y : PtpPort) : Prop :=
  y.offset = off ∧ (s.tim.slave = some port → u.tim.offset = off)
    ∧ (s.tim.slave ≠ some port → u.tim.offset = s.tim.offset ∧ u.tim.sources = s.tim.sources)

theorem ptpTake_syncTwo {s : State} {m : PtpMsg} (port : Fin 12) (hkind : m.kind = .sync) (htwo : m.twoStep = true) :
    takesPtp s port (fun u y => y.sync = some (m.seq, m.source, rxTime s port - m.correction, s.clk.cyc)
      ∧ y.lastSync = s.clk.cyc ∧ y.syncInt = msgInterval m ∧ u.tim.offset = s.tim.offset) (ptpTake port.val m s) := by
  have htake : ptpTake port.val m s = modPtp port.val (fun x => { x with
      sync := some (m.seq, m.source, rxTime s port - m.correction, s.clk.cyc) }) (syncHeard port.val m (ptpCount port.val 0 s)) := by
    unfold ptpTake
    rw [rxTime_eq, hkind]
    dsimp only
    rw [htwo]
    rfl
  rw [htake]
  refine takesPtp_of ((modPtp_besidePtp _ _ _).trans (modPtp_besidePtp _ _ _)) ?_
  rw [modPtp_same, syncHeard, modPtp_same, modPtp_offset, modPtp_offset]
  exact ⟨rfl, rfl, rfl, rfl⟩

theorem ptpTake_syncOne {s : State} {m : PtpMsg} (port : Fin 12) (hkind : m.kind = .sync) (hone : m.twoStep = false) :
    takesPtp s port (measuresPtp s port (rxTime s port - m.time - m.correction - (s.tim.ports[port.val]).pdelay))
      (ptpTake port.val m s) := by
  have htake : ptpTake port.val m s = ptpMeasure port.val (rxTime s port - m.time - m.correction - (s.tim.ports[port.val]).pdelay)
      (syncHeard port.val m (ptpCount port.val 0 s)) := by
    unfold ptpTake
    rw [rxTime_eq, hkind, ptpPort_fin]
    dsimp only
    rw [hone]
    rfl
  obtain ⟨hbeside, hport, hslave, hother⟩ := ptpMeasure_leaves port
    (rxTime s port - m.time - m.correction - (s.tim.ports[port.val]).pdelay) (syncHeard port.val m (ptpCount port.val 0 s))
  rw [htake]
  exact takesPtp_of (hbeside.trans (modPtp_besidePtp _ _ _)) ⟨by rw [hport], hslave, hother⟩

theorem ptpTake_followUp {s : State} {m : PtpMsg} {port : Fin 12} {z : Nat × BitVec 64 × Int × Nat} (hkind : m.kind = .followUp)
    (hz : (s.tim.ports[port.val]).sync = some z) :
    takesPtp s port (fun u y => y.sync = none
      ∧ measuresPtp s port (z.2.2.1 - m.time - m.correction - (s.tim.ports[port.val]).pdelay) u y) (ptpTake port.val m s) := by
  have htake : ptpTake port.val m s = ptpMeasure port.val (z.2.2.1 - m.time - m.correction - (s.tim.ports[port.val]).pdelay)
      (modPtp port.val (fun x => { x with sync := none }) (ptpCount port.val 0 s)) := by
    unfold ptpTake
    rw [hkind, ptpPort_fin]
    dsimp only
    rw [hz]
  obtain ⟨hbeside, hport, hslave, hother⟩ := ptpMeasure_leaves port
    (z.2.2.1 - m.time - m.correction - (s.tim.ports[port.val]).pdelay)
    (modPtp port.val (fun x => { x with sync := none }) (ptpCount port.val 0 s))
  rw [htake]
  refine takesPtp_of (hbeside.trans (modPtp_besidePtp _ _ _)) ⟨?_, by rw [hport], hslave, hother⟩
  rw [hport, modPtp_same]

/-! #### Peer delay -/

theorem ptpTake_pdelayReq {s : State} {m : PtpMsg} (port : Fin 12) (hkind : m.kind = .pdelayReq) :
    (¬ twoStepTx s = true → takesPtp s port (fun u _ => u.ne.sent = s.ne.sent
      ++ [ptpFrame s s port.val (ptpTx s port.val 4 m.seq)]) (ptpTake port.val m s))
    ∧ (twoStepTx s = true → takesPtp s port (fun u _ => u.ne.sent = s.ne.sent ++ [ptpFrame s s port.val (ptpTx s port.val 4 m.seq),
      ptpFrame s (seqTaken port.val s) port.val (ptpTx s port.val 5 m.seq)]) (ptpTake port.val m s)) := by
  have htake : ptpTake port.val m s = if twoStepTx s then
      ptpSend port.val 5 m.seq (ptpSend port.val 4 m.seq (ptpCount port.val 0 s))
      else ptpSend port.val 4 m.seq (ptpCount port.val 0 s) := by
    unfold ptpTake
    rw [hkind]
    rfl
  rw [htake]
  refine ⟨fun h => ?_, fun h => ?_⟩
  · obtain ⟨ne, hsend, hsent, -⟩ := ptpSend_only port.val 4 m.seq (ptpCount port.val 0 s)
    rw [if_neg h, hsend]
    exact takesPtp_of rfl hsent
  · obtain ⟨ne, hsend, hsent⟩ := ptpSend_twice port.val 4 m.seq 5 m.seq (ptpCount port.val 0 s)
    rw [if_pos h, hsend]
    exact takesPtp_of rfl hsent

/-- The round trip of the last Pdelay_Req, less latencies and correction. -/
abbrev roundTrip (s : State) (port : Fin 12) (m : PtpMsg) : Int :=
  (((s.clk.cyc - (s.tim.ports[port.val]).lastTx[2]) * 5 / 2 : Nat) : Int) - ((reg (0x60080 + 4 * port.val) s).toNat % 2 ^ 16 : Nat)
    - ((reg (0x60080 + 4 * port.val) s).toNat / 2 ^ 16 % 2 ^ 16 : Nat) - m.correction

abbrev answersOurs (s : State) (port : Fin 12) (m : PtpMsg) : Prop := (s.tim.ports[port.val]).seqTx[2] = (m.seq + 1) % 65536

theorem setPdelay_port (p : Fin 12) (round turn : Int) (s : State) :
    (setPdelay p.val round turn s).tim.ports[p.val] = { s.tim.ports[p.val] with pdelay := max 0 ((round - turn) / 2) } :=
  modPtp_same p _ s

theorem ptpTake_pdelayResp {s : State} {m : PtpMsg} (port : Fin 12) (hkind : m.kind = .pdelayResp) :
    (¬ answersOurs s port m → takesPtp s port (fun u _ => u.tim.ports = s.tim.ports) (ptpTake port.val m s))
    ∧ (answersOurs s port m → m.twoStep = true → takesPtp s port (fun _ y =>
        y.pd = some (m.seq, m.source, roundTrip s port m, s.clk.cyc) ∧ y.pdelay = (s.tim.ports[port.val]).pdelay) (ptpTake port.val m s))
    ∧ (answersOurs s port m → m.twoStep = false → takesPtp s port (fun _ y => y.pdelay = max 0 ((roundTrip s port m - m.time) / 2))
        (ptpTake port.val m s)) := by
  have hround : Int.ofNat ((s.clk.cyc - vget 0 (s.tim.ports[port.val]).lastTx 2) * 5 / 2) - latRx s port.val - latTx s port.val
      - m.correction = roundTrip s port m := by
    rw [latRx_eq, latTx_eq, vget_of_lt _ _ (by decide)]
    rfl
  have htake : ptpTake port.val m s = if answersOurs s port m then
      if m.twoStep then modPtp port.val (fun x => { x with pd := some (m.seq, m.source, roundTrip s port m, s.clk.cyc) })
        (ptpCount port.val 0 s)
      else setPdelay port.val (roundTrip s port m) m.time (ptpCount port.val 0 s)
      else ptpCount port.val 0 s := by
    unfold ptpTake
    rw [hkind, ptpPort_fin, ← hround]
    dsimp only
    rw [vget_of_lt _ _ (by decide : 2 < 3)]
    rfl
  rw [htake]
  refine ⟨fun h => ?_, fun h htwo => ?_, fun h hone => ?_⟩
  · rw [if_neg h]
    exact takesPtp_of rfl rfl
  · rw [if_pos h, if_pos htwo]
    refine takesPtp_of rfl ?_
    rw [modPtp_same]
    exact ⟨rfl, rfl⟩
  · rw [if_pos h, if_neg (by rw [hone]; decide)]
    refine takesPtp_of rfl ?_
    rw [setPdelay_port]

theorem ptpTake_pdelayFollowUp {s : State} {m : PtpMsg} {port : Fin 12} {z : Nat × BitVec 64 × Int × Nat}
    (hkind : m.kind = .pdelayRespFollowUp) (hz : (s.tim.ports[port.val]).pd = some z) :
    takesPtp s port (fun _ y => y.pd = none ∧ y.pdelay = max 0 ((z.2.2.1 - (m.time + m.correction)) / 2)) (ptpTake port.val m s) := by
  have htake : ptpTake port.val m s = setPdelay port.val z.2.2.1 (m.time + m.correction)
      (modPtp port.val (fun x => { x with pd := none }) (ptpCount port.val 0 s)) := by
    unfold ptpTake
    rw [hkind, ptpPort_fin]
    dsimp only
    rw [hz]
  rw [htake]
  refine takesPtp_of ((modPtp_besidePtp _ _ _).trans (modPtp_besidePtp _ _ _)) ?_
  rw [setPdelay_port, modPtp_same]
  exact ⟨rfl, rfl⟩

end Sys2Proof.Proofs

/-! ### O53: PTP messages, sending, LAN switch, receipt timeout (R216, R217, R219, R220) -/
namespace Sys2Proof.Proofs

open Sys2Proof Sys2Proof.Machine Sys2Proof.Safety Sys2Proof.Laws

/-! #### PTP_MESSAGE -/

theorem exec_ptpMessage (port : Fin 12) (m : PtpMsg) {s : State} (hp : s.clk.power = true) :
    exec (.ptpMessage port m) s = .next (settle (ptpMessage port.val m (arrived port.val s))) :=
  act_powered (fun s => ptpMessage port.val m (arrived port.val s)) hp

abbrev ptpRuns (s : State) (port : Fin 12) (m : PtpMsg) : Prop := ptpOn s port.val = true ∧ m.kind ≠ .management

theorem ptpMessage_idle {s : State} {port : Fin 12} {m : PtpMsg} (h : ¬ ptpRuns s port m) : ptpMessage port.val m s = s := by
  refine if_pos ?_
  rw [Bool.not_eq_true', ← Bool.not_eq_true]
  exact (Decidable.not_and_iff_or_not.mp h).imp_right not_not.mp

theorem ptpMessage_runs {s : State} {port : Fin 12} {m : PtpMsg} (h : ptpRuns s port m) : ptpMessage port.val m s =
    if ptpBad s port.val m ≠ 0 then ptpDrop port.val (ptpBad s port.val m) s else ptpTake port.val m s := by
  refine if_neg ?_
  rw [Bool.not_eq_true', h.1]
  exact not_or.mpr ⟨by decide, h.2⟩

/-- A message dropped under `code`. -/
abbrev dropsPtp (s : State) (port : Fin 12) (code : Nat) (u : State) : Prop :=
  countsPtp s port code u ∧ u.tim.evt = s.tim.evt ||| 32 ∧ u.tim.ports = s.tim.ports ∧ u.tim.sources = s.tim.sources
    ∧ u.tim.slave = s.tim.slave

theorem ptpMessage_drops {s : State} {port : Fin 12} {m : PtpMsg} {code : Nat} (h : ptpRuns s port m)
    (hcode : ptpBad s port.val m = code) (hne : code ≠ 0) (hlt : code < 8) : dropsPtp s port code (ptpMessage port.val m s) := by
  rw [ptpMessage_runs h, hcode, if_pos hne]
  exact ptpDrop_leaves hlt s

/-- A message that passes every check. -/
abbrev ptpGood (s : State) (port : Fin 12) (m : PtpMsg) : Prop :=
  (ptpRuns s port m ∧ ptpPlain s m) ∧ ptpFollows s port m ∧ ptpKnown s port m ∧ ptpRanged m

theorem ptpMessage_good {s : State} {port : Fin 12} {m : PtpMsg} (h : ptpGood s port m) :
    ptpMessage port.val m s = ptpTake port.val m s := by
  obtain ⟨⟨hruns, hplain⟩, hfollows, hknown, hranged⟩ := h
  obtain ⟨-, -, -, hnone⟩ := ptpBad_plain port hplain
  rw [ptpMessage_runs hruns, hnone hfollows hknown hranged]
  exact if_neg (not_not.mpr rfl)

/-! #### The frames of a port -/

theorem ptpTx_eq (s : State) (p kind seq : Nat) : ptpTx s p kind seq = .ptp kind seq ((reg 0x60030 s).toNat % 256)
    (if kind = 1 then some (ownClock s) else none) (if kind = 3 ∨ (kind = 0 ∧ ¬ twoStepTx s = true) then
      some (((ntCap s / 10 ^ 10 : Nat) : Int) + ((reg (0x60080 + 4 * p) s).toNat / 2 ^ 16 % 2 ^ 16 : Nat)) else none) := by
  rw [ptpTx, ptpDomain_eq, latTx_eq]
  simp only [Bool.not_eq_true', Bool.not_eq_true]
  rfl

/-! #### PTP_TRANSMIT -/

/-- A port whose message of a kind went out. -/
def sentPort (cyc : Nat) (kind : Fin 3) (x : PtpPort) : PtpPort :=
  { x with seqTx := x.seqTx.set kind.val ((x.seqTx[kind.val] + 1) % 65536), lastTx := x.lastTx.set kind.val cyc }

theorem modPtp_congr {p : Fin 12} {f g : PtpPort → PtpPort} {s : State} (h : f s.tim.ports[p.val] = g s.tim.ports[p.val]) :
    modPtp p.val f s = modPtp p.val g s :=
  congrArg (fun v => { s with tim := { s.tim with ports := v } }) (vmod_congr fun _ => h)

theorem ptpTransmit_eq (port : Fin 12) (kind : Fin 3) (s : State) : ptpTransmit port.val kind.val s =
    let sent := ptpSend port.val kind.val (s.tim.ports[port.val]).seqTx[kind.val] (modPtp port.val (sentPort s.clk.cyc kind) s)
    if kind.val = 0 ∧ twoStepTx sent = true then ptpSend port.val 3 (s.tim.ports[port.val]).seqTx[kind.val] sent else sent := by
  have hseq : vget 0 (ptpPort s port.val).seqTx kind.val = (s.tim.ports[port.val]).seqTx[kind.val] := by
    rw [ptpPort_fin, vget_of_lt _ _ kind.isLt]
  unfold ptpTransmit
  rw [hseq]
  dsimp only
  rw [modPtp_congr (g := sentPort s.clk.cyc kind)]
  rw [vset_of_lt _ _ kind.isLt, vset_of_lt _ _ kind.isLt]
  rfl

/-- What goes out: one frame, or Sync and Follow_Up of a two-step port. -/
theorem ptpTransmit_sends (port : Fin 12) (kind : Fin 3) (s : State) :
    let seq := (s.tim.ports[port.val]).seqTx[kind.val]
    let two := kind.val = 0 ∧ twoStepTx s = true
    ∃ ne, ptpTransmit port.val kind.val s = { modPtp port.val (sentPort s.clk.cyc kind) s with ne := ne }
    ∧ (¬ two → ne.sent = s.ne.sent ++ [ptpFrame s s port.val (ptpTx s port.val kind.val seq)])
    ∧ (two → ne.sent = s.ne.sent ++ [ptpFrame s s port.val (ptpTx s port.val kind.val seq),
        ptpFrame s (seqTaken port.val s) port.val (ptpTx s port.val 3 seq)]) := by
  intro seq two
  have htwo : ∀ t, twoStepTx (ptpSend port.val kind.val seq (modPtp port.val (sentPort s.clk.cyc kind) t)) = twoStepTx t :=
    fun _ => rfl
  rw [ptpTransmit_eq]
  dsimp only
  rw [htwo]
  by_cases h : two
  · rw [if_pos h]
    obtain ⟨ne, hsend, hsent⟩ := ptpSend_twice port.val kind.val seq 3 seq (modPtp port.val (sentPort s.clk.cyc kind) s)
    exact ⟨ne, hsend, fun hn => absurd h hn, fun _ => hsent⟩
  · rw [if_neg h]
    obtain ⟨ne, hsend, hsent, -⟩ := ptpSend_only port.val kind.val seq (modPtp port.val (sentPort s.clk.cyc kind) s)
    exact ⟨ne, hsend, fun _ => hsent, fun hn => absurd hn h⟩

/-- The choice of master that an Announce's sending makes first. -/
def rechosen (kind : Fin 3) (s : State) : State := if kind.val = 1 then bmca s else s

/-- The choice changes no more than the slave port and the ports' mastership. -/
theorem rechosen_only (kind : Fin 3) (s : State) : ∃ slave ports,
    rechosen kind s = modTim (fun t => { t with slave := slave, ports := ports }) s := by
  unfold rechosen
  split
  · obtain ⟨slave, master, h⟩ := bmca_chooses s
    exact ⟨slave, _, h⟩
  · exact ⟨s.tim.slave, s.tim.ports, rfl⟩

abbrev sendDue (s : State) (port : Fin 12) (kind : Fin 3) : Prop :=
  let x := (rechosen kind s).tim.ports[port.val]
  ptpOn s port.val = true ∧ portLink s port.val = true ∧ (kind.val = 2 ∨ x.master = true)
    ∧ x.lastTx[kind.val] + cycSec ≤ s.clk.cyc

theorem exec_ptpTransmit (port : Fin 12) (kind : Fin 3) {s : State} (hp : s.clk.power = true) :
    (¬ sendDue s port kind → exec (.ptpTransmit port kind) s = .next (settle (rechosen kind s)))
    ∧ (sendDue s port kind → exec (.ptpTransmit port kind) s
        = .next (settle (ptpTransmit port.val kind.val (rechosen kind s)))) := by
  have hdue : ∀ t : State, (ptpOn t port.val && portLink t port.val && (kind.val == 2 || (ptpPort t port.val).master)
      && decide (vget 0 (ptpPort t port.val).lastTx kind.val + cycSec ≤ t.clk.cyc)) = true ↔
      ptpOn t port.val = true ∧ portLink t port.val = true ∧ (kind.val = 2 ∨ (t.tim.ports[port.val]).master = true)
        ∧ (t.tim.ports[port.val]).lastTx[kind.val] + cycSec ≤ t.clk.cyc := fun t => by
    rw [Bool.and_eq_true, Bool.and_eq_true, Bool.and_eq_true, Bool.or_eq_true, beq_iff_eq, decide_eq_true_eq, ptpPort_fin,
      vget_of_lt _ _ kind.isLt, and_assoc, and_assoc]
  have hexec : exec (.ptpTransmit port kind) s = .next (settle (whenever (ptpOn (rechosen kind s) port.val
      && portLink (rechosen kind s) port.val && (kind.val == 2 || (ptpPort (rechosen kind s) port.val).master)
      && decide (vget 0 (ptpPort (rechosen kind s) port.val).lastTx kind.val + cycSec ≤ (rechosen kind s).clk.cyc))
      (ptpTransmit port.val kind.val) (rechosen kind s))) :=
    act_powered (fun s => whenever (ptpOn (rechosen kind s) port.val
      && portLink (rechosen kind s) port.val && (kind.val == 2 || (ptpPort (rechosen kind s) port.val).master)
      && decide (vget 0 (ptpPort (rechosen kind s) port.val).lastTx kind.val + cycSec ≤ (rechosen kind s).clk.cyc))
      (ptpTransmit port.val kind.val) (rechosen kind s)) hp
  have hsame := hdue (rechosen kind s)
  obtain ⟨slave, ports, honly⟩ := rechosen_only kind s
  have hkept : ptpOn (rechosen kind s) port.val = ptpOn s port.val ∧ portLink (rechosen kind s) port.val = portLink s port.val
      ∧ (rechosen kind s).clk = s.clk := by
    rw [honly]
    exact ⟨rfl, rfl, rfl⟩
  rw [hexec]
  rw [hkept.1, hkept.2.1, hkept.2.2] at hsame ⊢
  exact ⟨fun h => by rw [Bool.eq_false_iff.mpr (mt hsame.mp h), whenever_false], fun h => by rw [hsame.mpr h, whenever_true]⟩

/-- What PTP_TRANSMIT sends after the choice of master, and what it leaves. -/
theorem ptpTransmit_leaves (port : Fin 12) (kind : Fin 3) (s : State) :
    let t := rechosen kind s
    let seq := (t.tim.ports[port.val]).seqTx[kind.val]
    let two := kind.val = 0 ∧ twoStepTx s = true
    let u := ptpTransmit port.val kind.val t
    u.tim.ports[port.val] = sentPort s.clk.cyc kind t.tim.ports[port.val] ∧ u.mem = s.mem ∧ u.lanes = s.lanes ∧ u.frm = s.frm
    ∧ (¬ two → u.ne.sent = s.ne.sent ++ [ptpFrame s s port.val (ptpTx s port.val kind.val seq)])
    ∧ (two → u.ne.sent = s.ne.sent ++ [ptpFrame s s port.val (ptpTx s port.val kind.val seq),
        ptpFrame s (seqTaken port.val s) port.val (ptpTx s port.val 3 seq)]) := by
  obtain ⟨slave, ports, h⟩ := rechosen_only kind s
  dsimp only
  rw [h]
  obtain ⟨ne, hsend, hone, htwo⟩ := ptpTransmit_sends port kind (modTim (fun t => { t with slave := slave, ports := ports }) s)
  rw [hsend]
  exact ⟨modPtp_same port _ _, rfl, rfl, rfl, hone, htwo⟩

/-! #### PTP_LAN_SWITCH -/

theorem otherPort_eq {p q : Fin 12} (hpair : q.val / 2 = p.val / 2) (hne : q ≠ p) : otherPort p = q := by
  have hval : q.val ≠ p.val := fun h => hne (Fin.ext h)
  refine Fin.ext ?_
  show (if p.val % 2 = 0 then p.val + 1 else p.val - 1) = q.val
  split <;> omega

abbrev lanDue (s : State) (pair : Fin 6) (p q : Fin 12) : Prop :=
  p.val / 2 = pair.val ∧ (s.ne.pairs[pair.val]).mode = 1 ∧ (s.tim.ports[q.val]).best ≠ none
    ∧ (s.tim.ports[p.val]).lastSync + 3 * (s.tim.ports[p.val]).syncInt ≤ s.clk.cyc

/-- The other LAN becomes the slave, without a step. -/
def lanSwitched (p q : Fin 12) (s : State) : State :=
  modTim (fun t => { t with slave := some q, stepped := true, stepPend := none })
    (modPtp q.val (fun x => { x with syncLost := false }) (modPtp p.val (fun x => { x with syncLost := true }) s))

theorem exec_lanSwitch_none (pair : Fin 6) {s : State} (hp : s.clk.power = true) (h : s.tim.slave = none) :
    exec (.ptpLanSwitch pair) s = .next (settle s) := by
  show execPtpLanSwitch pair s = _
  unfold execPtpLanSwitch
  rw [act_powered _ hp, h]

theorem exec_lanSwitch {s : State} {p q : Fin 12} (pair : Fin 6) (hp : s.clk.power = true) (h : s.tim.slave = some p)
    (hpair : q.val / 2 = p.val / 2) (hne : q ≠ p) :
    (lanDue s pair p q → exec (.ptpLanSwitch pair) s = .next (settle (lanSwitched p q s)))
    ∧ (¬ lanDue s pair p q → exec (.ptpLanSwitch pair) s = .next (settle s)) := by
  have hdue : (pairOf p.val == pair.val && (nePairOf s pair.val).mode == 1 && (ptpPort s q.val).best.isSome
      && decide ((ptpPort s p.val).lastSync + 3 * (ptpPort s p.val).syncInt ≤ s.clk.cyc)) = true ↔ lanDue s pair p q := by
    rw [Bool.and_eq_true, Bool.and_eq_true, Bool.and_eq_true, beq_iff_eq, beq_iff_eq, decide_eq_true_eq, ptpPort_fin, ptpPort_fin,
      nePairOf_fin, Option.isSome_iff_ne_none, and_assoc, and_assoc]
    rfl
  have hexec : exec (.ptpLanSwitch pair) s = .next (settle (whenever (pairOf p.val == pair.val && (nePairOf s pair.val).mode == 1
      && (ptpPort s q.val).best.isSome && decide ((ptpPort s p.val).lastSync + 3 * (ptpPort s p.val).syncInt ≤ s.clk.cyc))
      (lanSwitched p q) s)) := by
    show execPtpLanSwitch pair s = _
    unfold execPtpLanSwitch
    rw [act_powered _ hp, h]
    dsimp only
    rw [otherPort_eq hpair hne]
    rfl
  rw [hexec]
  exact ⟨fun hd => by rw [hdue.mpr hd, whenever_true], fun hd => by rw [Bool.eq_false_iff.mpr (mt hdue.mp hd), whenever_false]⟩

theorem lanSwitched_eq {p q : Fin 12} (hne : q ≠ p) (s : State) : lanSwitched p q s = { s with tim := { s.tim with
    slave := some q, stepped := true, stepPend := none
    ports := (s.tim.ports.set p.val { s.tim.ports[p.val] with syncLost := true }).set q.val
      { s.tim.ports[q.val] with syncLost := false } } } := by
  have hports : vmod (vmod s.tim.ports p.val fun x => { x with syncLost := true }) q.val (fun x => { x with syncLost := false })
      = (s.tim.ports.set p.val { s.tim.ports[p.val] with syncLost := true }).set q.val
        { s.tim.ports[q.val] with syncLost := false } := by
    rw [vmod_of_lt _ _ q.isLt, vmod_of_lt _ _ p.isLt,
      Vector.getElem_set_ne p.isLt q.isLt fun h => hne (Fin.ext h.symm)]
  unfold lanSwitched modPtp modTim
  dsimp only
  rw [hports]

/-! #### ANNOUNCE_RECEIPT_TIMEOUT -/

/-- A port that forgets its clock. -/
def clockForgotten (port : Fin 12) (s : State) : State := modPtp port.val (fun x => { x with best := none }) s

theorem exec_receiptTimeout (port : Fin 12) {s : State} (hp : s.clk.power = true) :
    let due := (s.tim.ports[port.val]).annAt + 3 * (s.tim.ports[port.val]).annInt ≤ s.clk.cyc
    (¬ due → exec (.announceReceiptTimeout port) s = .next (settle s))
    ∧ (due → exec (.announceReceiptTimeout port) s = .next (settle (bmca (clockForgotten port s)))) :=
  act_due hp (cond := fun s => annSilent s port.val) (eff := fun s => bmca (clockForgotten port s)) rfl
    (by rw [annSilent, ptpPort_fin, decide_eq_true_eq])

theorem clockForgotten_port (port q : Fin 12) (s : State) : (clockForgotten port s).tim.ports[q.val]
    = if q = port then { s.tim.ports[port.val] with best := none } else s.tim.ports[q.val] := modPtp_port port q _ s

/-- The choice after a clock is forgotten: never the port that forgot it. -/
theorem bmca_forgotten_slave (port : Fin 12) (s : State) : (bmca (clockForgotten port s)).tim.slave ≠ some port := by
  cases h : bestPort (clockForgotten port s) with
  | none => rw [bmca_clockless h]; exact (Option.some_ne_none port).symm
  | some p =>
    have hne : p ≠ port := fun he => bestPort_clock h (portClock_none (by rw [he, clockForgotten_port, if_pos rfl]))
    rcases bmca_clocked h with h | h <;> rw [h]
    · exact (Option.some_ne_none port).symm
    · exact fun he => hne (Option.some.inj he)

theorem bmca_forgotten_leaves (port : Fin 12) (s : State) :
    let u := bmca (clockForgotten port s)
    (u.tim.ports[port.val]).best = none ∧ u.tim.sources = s.tim.sources ∧ u.lanes = s.lanes ∧ u.ne = s.ne
    ∧ ∀ q : Fin 12, q ≠ port → (u.tim.ports[q.val]).best = (s.tim.ports[q.val]).best := by
  obtain ⟨slave, master, h⟩ := bmca_chooses (clockForgotten port s)
  dsimp only
  rw [h]
  refine ⟨?_, rfl, rfl, rfl, fun q hq => ?_⟩
  · rw [mastersChosen_port, clockForgotten_port, if_pos rfl]
  · rw [mastersChosen_port, clockForgotten_port, if_neg hq]

/-- With no clock left, a master-capable port becomes master. -/
theorem bmca_forgotten_master {port : Fin 12} {s : State} (hnone : ∀ q : Fin 12, q ≠ port → (s.tim.ports[q.val]).best = none)
    (hcap : (reg 0x60030 s).getLsbD 24 = false) (hon : ptpOn s port.val = true)
    (hdue : (s.tim.ports[port.val]).annAt + 3 * (s.tim.ports[port.val]).annInt ≤ s.clk.cyc) :
    (bmca (clockForgotten port s)).tim.slave = none ∧ ((bmca (clockForgotten port s)).tim.ports[port.val]).master = true := by
  have hclock : ∀ q : Fin 12, portClock (clockForgotten port s) q.val = none := fun q => portClock_none (by
    rw [clockForgotten_port]
    split_ifs with h
    · rfl
    · exact hnone q h)
  have hsilent : annSilent (clockForgotten port s) port.val = true := by
    rw [annSilent, ptpPort_fin, clockForgotten_port, if_pos rfl]
    exact decide_eq_true hdue
  have hslave : slaveOnly (clockForgotten port s) = false := hcap
  have hon' : ptpOn (clockForgotten port s) port.val = true := hon
  rw [bmca_clockless (bestPort_none hclock)]
  refine ⟨rfl, ?_⟩
  rw [mastersChosen_port]
  dsimp only
  rw [hslave, hon', hsilent, Bool.or_true]
  rfl

/-! #### Assembly -/

/-- Settles O53, check by check and message kind by message kind, then sending, LAN switch and receipt timeout from what the
choice of master leaves alone. These clauses rest on log entries and say what the model chose. That an unmatched Pdelay_Resp
is ignored, that a follow-up matches by sequence number and source port, and that a port becomes master after three announce
intervals without an Announce: log 39 (DEDUCED). That message intervals count within 1/16 s to 4 s, and that Sync on the
other LAN of a PRP pair is taken from that LAN's own master: log 63 (DEDUCED). What an Announce of the module says of its own
clock: log 39 (PRESUMED). -/
theorem ptpMessages : Obligations.PtpMessages := by
  unfold Obligations.PtpMessages
  intro s hp cfg two ns lat frame after
  refine ⟨fun port m => ?_, fun port kind => ?_, fun pair p q hslave hpair hne => ?_,
    fun pair h => exec_lanSwitch_none pair hp h, fun port => ?_⟩
  · intro cmd x runs counted drops fresh e2e plain follows known ranged good rx takes measures
    obtain ⟨cnt, harrived⟩ := arrived_only port.val s
    let t : State := { s with ne := { s.ne with portCnt := cnt } }
    have hcmd : cmd = .next (settle (ptpMessage port.val m t)) := (exec_ptpMessage port m hp).trans (by rw [harrived])
    have hdrop : ∀ code, runs → ptpBad t port.val m = code → 0 < code ∧ code < 8 → drops code := fun code hr hcode hrange =>
      ⟨_, hcmd, ptpMessage_drops (s := t) hr hcode (Nat.ne_of_gt hrange.1) hrange.2⟩
    have htake : good → cmd = .next (settle (ptpTake port.val m t)) := fun hg => by
      rw [hcmd, ptpMessage_good (s := t) hg]
    have hbad : plain → _ := fun hpl => ptpBad_plain (s := t) port hpl.2
    obtain ⟨h1, h2, h3, h4⟩ := ptpBad_first t port.val m
    refine ⟨fun h => ?_, fun hr h => hdrop 1 hr (h1 h) (by decide), fun hr h h' => hdrop 2 hr (h2 h h') (by decide),
      fun hr h h' h'' => hdrop 3 hr (h3 h h' h'') (by decide), fun hr hl hv hd hk => hdrop 4 hr (h4 hl hv hd hk) (by decide),
      fun hpl h => ?_, fun hpl h h' => ?_, fun hpl h h' h'' => ?_, fun hg hk => ?_, fun hg hk htwo => ?_, fun hg hk hone => ?_,
      fun hg hk z hz => ?_, fun hg hk => ?_, fun hg hk => ?_, fun hg hk z hz => ?_⟩
    · exact hcmd.trans (by rw [ptpMessage_idle (s := t) h, harrived])
    · obtain ⟨h5, -⟩ := hbad hpl
      exact hdrop 5 hpl.1 (h5 h) (by decide)
    · obtain ⟨-, h6, -⟩ := hbad hpl
      exact hdrop 6 hpl.1 (h6 h h') (by decide)
    · obtain ⟨-, -, h7, -⟩ := hbad hpl
      exact hdrop 7 hpl.1 (h7 h h' h'') (by decide)
    · obtain ⟨hkept, hleft⟩ := ptpTake_announce (s := t) port hk
      exact ⟨fun h => ⟨_, htake hg, hkept h⟩, fun h => ⟨_, htake hg, hleft h⟩⟩
    · exact ⟨_, htake hg, ptpTake_syncTwo (s := t) port hk htwo⟩
    · exact ⟨_, htake hg, ptpTake_syncOne (s := t) port hk hone⟩
    · exact ⟨_, htake hg, ptpTake_followUp (s := t) hk hz⟩
    · obtain ⟨hone, htwo⟩ := ptpTake_pdelayReq (s := t) port hk
      rw [ptpTx_eq] at hone
      rw [ptpTx_eq, ptpTx_eq] at htwo
      exact ⟨fun h => ⟨_, htake hg, hone h⟩, fun h => ⟨_, htake hg, htwo h⟩⟩
    · obtain ⟨hnot, htwo, hone⟩ := ptpTake_pdelayResp (s := t) port hk
      exact ⟨fun h => ⟨_, htake hg, hnot h⟩, fun h h' => ⟨_, htake hg, htwo h h'⟩,
        fun h h' => ⟨_, htake hg, hone h h'⟩⟩
    · exact ⟨_, htake hg, ptpTake_pdelayFollowUp (s := t) hk hz⟩
  · intro t x due seq sentAt first
    obtain ⟨hidle, hdue⟩ := exec_ptpTransmit port kind hp
    obtain ⟨hport, hmem, hlanes, hfrm, hone, htwo⟩ := ptpTransmit_leaves port kind s
    rw [ptpTx_eq] at hone
    rw [ptpTx_eq, ptpTx_eq] at htwo
    refine ⟨hidle, fun h => ⟨_, hdue h, hport, fun hk => ?_, fun hk hn => ?_, fun hk hy => ?_, hmem, hlanes, hfrm⟩⟩
    · rw [if_neg (by omega : ¬ (kind.val = 3 ∨ (kind.val = 0 ∧ ¬ twoStepTx s = true)))] at hone
      exact hone fun h => hk h.1
    · rw [if_pos (Or.inr ⟨hk, hn⟩ : kind.val = 3 ∨ (kind.val = 0 ∧ ¬ twoStepTx s = true))] at hone
      exact hone fun h => hn h.2
    · rw [if_neg fun h : kind.val = 3 ∨ (kind.val = 0 ∧ ¬ twoStepTx s = true) => h.elim (by omega) fun h => h.2 hy] at htwo
      exact htwo ⟨hk, hy⟩
  · obtain ⟨hdue, hidle⟩ := exec_lanSwitch pair hp hslave hpair hne
    rw [lanSwitched_eq hne] at hdue
    exact ⟨hdue, hidle⟩
  · obtain ⟨hidle, hdue⟩ := exec_receiptTimeout port hp
    obtain ⟨hbest, hsources, hlanes, hne, hothers⟩ := bmca_forgotten_leaves port s
    exact ⟨hidle, fun h => ⟨_, hdue h, hbest, bmca_forgotten_slave port s, hsources, hlanes, hne, hothers,
      fun hnone hcap hon => bmca_forgotten_master hnone hcap hon h⟩⟩

end Sys2Proof.Proofs
